-- ==== Sys2Proof/Word.lean ====
section
/-! DEFINITION. Word.lean: the module's units of data (R2) and the sparse tables that hold sparse state. -/

namespace Sys2Proof

/-- A word of 36 bits (R2). -/
abbrev Word := BitVec 36

/-- A double of 72 bits: two words (R2). -/
abbrev Double := BitVec 72

/-- A line of 576 stored bits: 16 words, or 64 octets and a 64-bit side field (R2, R3). -/
abbrev Line := BitVec 576

/-- A sparse table: pairs of key and value in one canonical form (keys strictly rising, no pair whose value is the
table's default). Every table of the state that is larger than a few entries has this type. -/
abbrev SMap (α : Type) := List (Nat × α)

end Sys2Proof
end

