-- ==== Sys2Proof/Syntax.lean ====
section
/-! DEFINITION. Syntax.lean: the commands of the block, one constructor per row of the table of operations and events,
with the operands each carries. -/

namespace Sys2Proof

/-- A logical tile, 0–47 (R10). -/
abbrev TileId := Fin 48
/-- A physical tile, 13 × d + p (R8). -/
abbrev PTileId := Fin 52
/-- An island code of R454: physical tile 0–51, hub 52, quad q at 53 + q. -/
abbrev IslandId := Fin 77
/-- A port quad, 0–23. -/
abbrev QuadId := Fin 24
/-- A host port group, 0–7. -/
abbrev GroupId := Fin 8
/-- A culvert, 0–31. -/
abbrev CulvertId := Fin 32
/-- A queue, 0–1,048,575. -/
abbrev QueueId := Fin 1048576
/-- A virtual interface, 0–4,095. -/
abbrev ViId := Fin 4096
/-- A DRAM subchannel, 0–31. -/
abbrev SubId := Fin 32
/-- A DRAM channel, 0–15. -/
abbrev ChanId := Fin 16
/-- A network port, 0–63. -/
abbrev PortId := Fin 64
/-- An interrupt source number (18 bits). -/
abbrev SourceId := Fin 262144

/-- A core: its logical tile and its number within the tile. -/
structure CoreId where
  tile : TileId
  core : Fin 8
  deriving DecidableEq, Repr

/-- A requester of a register or memory access: its code under R17 and its world (R227). -/
structure Req where
  code : BitVec 9
  sec  : Bool
  deriving DecidableEq, Repr

/-- A sample of the mains input as the power stage takes it: direct current or not, the RMS or DC voltage in volts,
the frequency in units of 0.25 Hz and the input power in watts (PWR_STAT). -/
structure MainsInput where
  dc   : Bool
  vin  : BitVec 10
  freq : BitVec 9
  pin  : BitVec 11 := 0
  deriving DecidableEq, Repr

/-- The four reservoir voltages of R33 in microvolts: at -50 µs, 200 µs, 10 ms and 110 ms. -/
structure ProbeSamples where
  vPre  : Nat
  v200u : Nat
  v10m  : Nat
  v110m : Nat
  deriving DecidableEq, Repr

/-- An item of a function's configuration space that a host reads (R335, R338, R360, R363): Vendor and Device ID, VF Device
ID, Subsystem IDs, Class Code, Command, BAR0 or BAR2 (`second`), a VF BAR of the SR-IOV capability, the system page sizes,
TotalVFs, the SR-IOV control with NumVFs, the Power Management control, the Device Control, the MSI-X control, the places of
the MSI-X table and pending bits, the capability IDs, Device Capabilities 2 with Control 2, Device Control 3, Link Control
with Link Status, and the registers of AER, of the Device Serial Number and of ARI. -/
inductive CfgItem
  | ids | vfDevice | subsystem | classCode | command
  | bar (second : Bool)
  | vfBar (second : Bool)
  | pageSizes | totalVfs | sriov | power | device | msix | msixPlaces | capabilities
  | device2 | device3 | link | aer | serial | ari
  deriving DecidableEq, Repr

/-- What a configuration request does to a function: nothing that the module keeps; a read of an item; or a write of the
Command register's Bus Master Enable, of a BAR's address, of a VF BAR's, of the MSI-X control, of the SR-IOV control of a PF,
of the Power Management state (D3hot or D0), of the Device Control: Max Payload Size, Max Read Request Size, Relaxed
Ordering and No Snoop; of the Completion Timeout Value and Disable, of ASPM L1 and of L0p with its target width; or of AER:
status bits that a 1 clears, or the masks and the severities. -/
inductive CfgAccess
  | other
  | read (item : CfgItem)
  | command (bme : Bool)
  | bar (second : Bool) (addr : BitVec 64)
  | vfBar (second : Bool) (addr : BitVec 64)
  | msix (enable mask : Bool)
  | sriov (enable : Bool) (numVfs : Fin 1025)
  | power (d3hot : Bool)
  | device (mps mrrs : BitVec 3) (relaxed noSnoop : Bool)
  | timeout (value : BitVec 4) (disable : Bool)
  | aspm (l1 : Bool)
  | l0p (enable : Bool) (width : BitVec 3)
  | aerClear (uncorrectable correctable : BitVec 32)
  | aerMask (mask severity corMask : BitVec 32)
  deriving DecidableEq, Repr

/-- A link: a host port group or a network port. -/
inductive LinkRef
  | group (g : GroupId)
  | port (p : PortId)
  deriving DecidableEq, Repr

/-- The kinds of host request that R74 tells apart; a non-posted one reads octets of the personality window or, `ctl`, of
the control window, or is an AtomicOp (R360). -/
inductive HostReqKind
  | config (a : CfgAccess)
  | nonPosted (ctl : Bool) (off : Fin 16384) (len : Fin 4097)
  | atomic
  | posted
  deriving DecidableEq, Repr

/-- The operation width of a syllable: .W (36 bits) or .D (72 bits) (R101). -/
inductive Width
  | w | d
  deriving DecidableEq, Repr

/-- Where a syllable issues: the core, the slot, whether it is the last syllable of its bundle (a slot that no command
names holds NOP), and the word of the next slot, which a long immediate takes (R105, R107). -/
structure Issue where
  tile : TileId
  core : Fin 8
  slot : Fin 4
  last : Bool
  next : Word
  deriving DecidableEq, Repr

/-- The register form of a syllable (R104). -/
structure RegForm where
  dest : BitVec 6
  a    : BitVec 6
  b    : BitVec 6
  func : BitVec 9
  deriving DecidableEq, Repr

/-- The immediate form of a syllable (R104). -/
structure ImmForm where
  dest : BitVec 6
  a    : BitVec 6
  imm  : BitVec 15
  deriving DecidableEq, Repr

/-- The rest of LOCK's run: each failure of a shadow set on a subchannel (R398), and whether the run stops after step 5. -/
structure LockRun where
  badSets : List (SubId × Fin 4)
  part    : Bool
  deriving DecidableEq, Repr

/-- Octets that a host completion brings, from position `off` of the stream on (R300). -/
structure HostOctets where
  off    : BitVec 25
  octets : List (BitVec 8)
  deriving DecidableEq, Repr

/-- A command of the block: one constructor per row of the table of operations and events. -/
inductive Instr where
  /-- A loss criterion of R31 (its position in the list, from 0) has held for its time. -/
  | mainsLoss (crit : Fin 5)
  /-- Mains has been valid for the time of R32, with this input. -/
  | mainsValidAgain (inp : MainsInput)
  /-- The condition of R30 for a change of line class has held for its time, with this input. -/
  | pwrLineChange (inp : MainsInput)
  /-- An input outside the rated range that meets no loss criterion (R31). -/
  | pwrInputRange (inp : MainsInput)
  /-- The reservoir reaches 48.0 V in CHARGE (R54). -/
  | chargeComplete
  /-- 20 s of CHARGE have passed; `cv` is the reservoir voltage in units of 0.01 V (R55). -/
  | chargeTimeout (cv : BitVec 16)
  /-- PROBE: the SMBus straps, the input averaged over 1 s, the four samples of R33 and the reservoir temperature in
  °C plus 40. -/
  | probeMeasurement (straps : BitVec 3) (inp : MainsInput) (samples : ProbeSamples) (temp : BitVec 8)
  /-- Entry to LOAD (R56). -/
  | loadEntry
  /-- The loader selects and verifies a Bearing image copy (R60). -/
  | imageSelectVerify
  /-- The self-test ends; `failed` lists each failing physical tile with its failing block, a position in the list of
  R63. -/
  | testComplete (failed : List (PTileId × Fin 6))
  /-- LOCK performs its eight steps, or the first five of them (R66); `badTrain` lists the subchannels that fail training at
  set 0 (R398). -/
  | lockSequence (badTrain : List SubId) (run : LockRun)
  /-- RIDE_TIME expires (R43). -/
  | rideTimeExpiry
  /-- The reservoir falls to 21.0 V while region `i` is being written (R45). -/
  | vaultRegionStop (i : Fin 16)
  /-- The vault engine writes the closing record (R45). -/
  | vaultClosingRecord
  /-- Five ms after the closing record (R43). -/
  | vaultDarkTimer
  /-- A write of PWR_CTL with REPROBE 1 (R39): the whole value written. -/
  | reprobe (rq : Req) (value : Word)
  /-- The recharge of a reprobe reaches 48.0 V; its samples and the reservoir temperature (R39). -/
  | reprobeComplete (samples : ProbeSamples) (temp : BitVec 8)
  /-- The REPROBE_PERIOD timer expires (R38). -/
  | reprobePeriodExpiry
  /-- A write of PWR_CTL with DISCARD 1 (R49): the whole value written. -/
  | vaultDiscard (rq : Req) (value : Word)
  /-- An input surge; the measured value in 0.1 V (R50). -/
  | pwrSurge (measured : BitVec 16)
  /-- An input overcurrent; the measured value in 0.1 A (R50). -/
  | inputOvercurrent (measured : BitVec 16)
  /-- A rail overcurrent: the rail code of R454 (an island, or 77 for the DRAM rail) and the measured value (R50). -/
  | railOvercurrent (rail : Fin 78) (measured : BitVec 16)
  /-- The power stage heatsink at 105 °C; the measured value in 0.1 °C (R50). -/
  | pwrStageHot (measured : BitVec 16)
  /-- A tile junction at 105 °C or more: the physical tile and its junction temperature in °C plus 40 (R50). -/
  | pwrThermThrottle (p : PTileId) (tj : BitVec 8)
  /-- A throttled tile has stayed below 95 °C for 1 s (R50). -/
  | throttleRelease (p : PTileId)
  /-- An island junction at 115 °C or more (R50). -/
  | pwrThermTrip (isl : IslandId) (tj : BitVec 8)
  /-- A hub junction of 125 °C during VAULT (R50). -/
  | vaultHubOverheat (tj : BitVec 8)
  /-- A hub or quad island at 105 °C (R50): none for the hub. -/
  | pwrThermHigh (quad : Option QuadId) (tj : BitVec 8)
  /-- The reservoir at 75 °C; its temperature in °C plus 40 (R50). -/
  | rsvHot (temp : BitVec 8)
  /-- The reservoir below 70 °C again (R50). -/
  | reservoirCooled (temp : BitVec 8)
  /-- The coolant measurement of R52: inlet in °C plus 40, flow in 0.1 L/min, and whether a low flow has held for
  1 s. -/
  | pwrCoolant (inlet flow : BitVec 8) (lowFlowHeld : Bool)
  /-- A write of CFG_ALT (R72). -/
  | cfgAltWrite (rq : Req) (value : Word)
  /-- A write of CFG_UPD_CTL with OP b01 (R76): COPY. -/
  | cfgUpdErase (rq : Req) (copy : Bool)
  /-- A write of CFG_UPD_CTL with OP b10 (R76): COPY and LINE. -/
  | cfgUpdWriteLine (rq : Req) (copy : Bool) (line : BitVec 20)
  /-- A write of CFG_UPD_CTL with OP b11 (R76): COPY. -/
  | cfgUpdVerify (rq : Req) (copy : Bool)
  /-- The running image update operation finishes (R77). -/
  | cfgUpdComplete
  /-- A host request reaches a group's link: a configuration request, another non-posted request or a posted one, for
  a VI (R74). -/
  | hostConfigRequest (g : GroupId) (kind : HostReqKind) (v : ViId)
  /-- A write of ISL_TILE_CTL that requests a power state (R94): the whole value written. -/
  | tilePstateRequest (rq : Req) (t : TileId) (value : Word)
  /-- A write of ISL_TILE_CTL that requests a step (R80): the whole value written. -/
  | tileStepRequest (rq : Req) (t : TileId) (value : Word)
  /-- A step change of a tile finishes (R82). -/
  | stepChangeComplete (t : TileId)
  /-- A tile's supply droops, its period `100 + stretch` per cent of nominal, or the droop ends (R85). -/
  | supplyDroopStretch (t : TileId) (stretch : Fin 101) (start : Bool)
  /-- An island's 10 µs junction sample in °C plus 40 (R86). -/
  | junctionSample (isl : IslandId) (tj : BitVec 8)
  /-- A tile under a temperature hold lowers by one step (R86). -/
  | tempHoldStepDown (t : TileId)
  /-- A temperature hold is released by one step (R86). -/
  | tempHoldRelease (t : TileId)
  /-- The `i`-th item in the crossings becomes available in the receiving island, `cycles` receiving cycles after its
  launch (R88). -/
  | crossingItemArrival (i : Nat) (cycles : BitVec 18)
  /-- The 65,536 ns synchronisation: the islands whose copies differ from the master, with the difference in ns,
  positive when the copy is ahead (R91). -/
  | chronometerSync (diffs : List (IslandId × Int))
  /-- A pending nap request takes effect (R92). -/
  | napEntry (t : TileId)
  /-- A napping tile wakes (R92). -/
  | napExit (t : TileId)
  /-- A pending dark request takes effect (R93). -/
  | darkEntry (t : TileId)
  /-- A tile comes out of dark (R93). -/
  | darkExit (t : TileId)
  /-- NOP, opcode o000: nothing, in every slot (R106). -/
  | nop (x : Issue)
  /-- ADD, opcodes o002 (.W) and o003 (.D): dest ← srcA + srcB. -/
  | add (x : Issue) (wd : Width) (f : RegForm)
  /-- SUB, opcodes o004 (.W) and o005 (.D): dest ← srcA − srcB. -/
  | sub (x : Issue) (wd : Width) (f : RegForm)
  /-- AND, opcodes o006 (.W) and o007 (.D): dest ← srcA and srcB. -/
  | and (x : Issue) (wd : Width) (f : RegForm)
  /-- OR, opcodes o010 (.W) and o011 (.D): dest ← srcA or srcB. -/
  | or (x : Issue) (wd : Width) (f : RegForm)
  /-- XOR, opcodes o012 (.W) and o013 (.D): dest ← srcA xor srcB. -/
  | xor (x : Issue) (wd : Width) (f : RegForm)
  /-- ANDN, opcodes o014 (.W) and o015 (.D): dest ← srcA and not srcB. -/
  | andn (x : Issue) (wd : Width) (f : RegForm)
  /-- SHL, opcodes o016 (.W) and o017 (.D): shift left by srcB. -/
  | shl (x : Issue) (wd : Width) (f : RegForm)
  /-- SHR, opcodes o020 (.W) and o021 (.D): logical shift right by srcB. -/
  | shr (x : Issue) (wd : Width) (f : RegForm)
  /-- SAR, opcodes o022 (.W) and o023 (.D): arithmetic shift right by srcB. -/
  | sar (x : Issue) (wd : Width) (f : RegForm)
  /-- ROL, opcodes o024 (.W) and o025 (.D): rotate left by srcB. -/
  | rol (x : Issue) (wd : Width) (f : RegForm)
  /-- CMPEQ, opcodes o026 (.W) and o027 (.D): dest ← 1 if equal, else 0. -/
  | cmpeq (x : Issue) (wd : Width) (f : RegForm)
  /-- CMPLT, opcodes o030 (.W) and o031 (.D): dest ← 1 if srcA < srcB signed, else 0. -/
  | cmplt (x : Issue) (wd : Width) (f : RegForm)
  /-- CMPLTU, opcodes o032 (.W) and o033 (.D): dest ← 1 if srcA < srcB unsigned, else 0. -/
  | cmpltu (x : Issue) (wd : Width) (f : RegForm)
  /-- MIN, opcodes o034 (.W) and o035 (.D): signed minimum. -/
  | min (x : Issue) (wd : Width) (f : RegForm)
  /-- MAX, opcodes o036 (.W) and o037 (.D): signed maximum. -/
  | max (x : Issue) (wd : Width) (f : RegForm)
  /-- PAR, opcodes o042 and o043: parity of srcA. -/
  | par (x : Issue) (wd : Width) (f : RegForm)
  /-- BREV.O, opcode o044. -/
  | brevO (x : Issue) (f : RegForm)
  /-- BREV.W, opcode o045. -/
  | brevW (x : Issue) (f : RegForm)
  /-- CRC, opcode o046: one step of a reflected CRC. -/
  | crc (x : Issue) (f : RegForm)
  /-- CLZ, opcodes o050 and o051. -/
  | clz (x : Issue) (wd : Width) (f : RegForm)
  /-- CTZ, opcodes o052 and o053. -/
  | ctz (x : Issue) (wd : Width) (f : RegForm)
  /-- POPC, opcodes o054 and o055. -/
  | popc (x : Issue) (wd : Width) (f : RegForm)
  /-- ADDI, opcodes o102 (.W) and o103 (.D): dest ← srcA + imm15. -/
  | addi (x : Issue) (wd : Width) (f : ImmForm)
  /-- SUBI, opcodes o104 (.W) and o105 (.D): dest ← srcA − imm15. -/
  | subi (x : Issue) (wd : Width) (f : ImmForm)
  /-- ANDI, opcodes o106 (.W) and o107 (.D): dest ← srcA and imm15. -/
  | andi (x : Issue) (wd : Width) (f : ImmForm)
  /-- ORI, opcodes o110 (.W) and o111 (.D): dest ← srcA or imm15. -/
  | ori (x : Issue) (wd : Width) (f : ImmForm)
  /-- XORI, opcodes o112 (.W) and o113 (.D): dest ← srcA xor imm15. -/
  | xori (x : Issue) (wd : Width) (f : ImmForm)
  /-- ANDNI, opcodes o114 (.W) and o115 (.D): dest ← srcA and not imm15. -/
  | andni (x : Issue) (wd : Width) (f : ImmForm)
  /-- SHLI, opcodes o116 (.W) and o117 (.D): shift left by imm15. -/
  | shli (x : Issue) (wd : Width) (f : ImmForm)
  /-- SHRI, opcodes o120 (.W) and o121 (.D): logical shift right by imm15. -/
  | shri (x : Issue) (wd : Width) (f : ImmForm)
  /-- SARI, opcodes o122 (.W) and o123 (.D): arithmetic shift right by imm15. -/
  | sari (x : Issue) (wd : Width) (f : ImmForm)
  /-- ROLI, opcodes o124 (.W) and o125 (.D): rotate left by imm15. -/
  | roli (x : Issue) (wd : Width) (f : ImmForm)
  /-- CMPEQI, opcodes o126 (.W) and o127 (.D): dest ← 1 if equal, else 0. -/
  | cmpeqi (x : Issue) (wd : Width) (f : ImmForm)
  /-- CMPLTI, opcodes o130 (.W) and o131 (.D): dest ← 1 if srcA < imm15 signed, else 0. -/
  | cmplti (x : Issue) (wd : Width) (f : ImmForm)
  /-- CMPLTUI, opcodes o132 (.W) and o133 (.D): dest ← 1 if srcA < imm15 unsigned, else 0. -/
  | cmpltui (x : Issue) (wd : Width) (f : ImmForm)
  /-- MINI, opcodes o134 (.W) and o135 (.D): signed minimum. -/
  | mini (x : Issue) (wd : Width) (f : ImmForm)
  /-- MAXI, opcodes o136 (.W) and o137 (.D): signed maximum. -/
  | maxi (x : Issue) (wd : Width) (f : ImmForm)
  /-- MUL, opcodes o200 and o201: low half of the product. -/
  | mul (x : Issue) (wd : Width) (f : RegForm)
  /-- MULH, opcodes o202 and o203: high half of the signed product. -/
  | mulh (x : Issue) (wd : Width) (f : RegForm)
  /-- MULHU, opcodes o204 and o205: high half of the unsigned product. -/
  | mulhu (x : Issue) (wd : Width) (f : RegForm)
  /-- DIV, opcodes o206 and o207: signed quotient. -/
  | div (x : Issue) (wd : Width) (f : RegForm)
  /-- DIVU, opcodes o210 and o211: unsigned quotient. -/
  | divu (x : Issue) (wd : Width) (f : RegForm)
  /-- REM, opcodes o212 and o213: signed remainder. -/
  | rem (x : Issue) (wd : Width) (f : RegForm)
  /-- REMU, opcodes o214 and o215: unsigned remainder. -/
  | remu (x : Issue) (wd : Width) (f : RegForm)
  /-- FADD, opcodes o300 and o301: srcA + srcB. -/
  | fadd (x : Issue) (wd : Width) (f : RegForm)
  /-- FSUB, opcodes o302 and o303: srcA − srcB. -/
  | fsub (x : Issue) (wd : Width) (f : RegForm)
  /-- FMUL, opcodes o304 and o305: srcA × srcB. -/
  | fmul (x : Issue) (wd : Width) (f : RegForm)
  /-- FMA, opcodes o306 and o307: dest + srcA × srcB. -/
  | fma (x : Issue) (wd : Width) (f : RegForm)
  /-- FNMA, opcodes o310 and o311: dest − srcA × srcB. -/
  | fnma (x : Issue) (wd : Width) (f : RegForm)
  /-- FDIV, opcodes o312 and o313: srcA ÷ srcB. -/
  | fdiv (x : Issue) (wd : Width) (f : RegForm)
  /-- FMIN, opcodes o314 and o315: minimum. -/
  | fmin (x : Issue) (wd : Width) (f : RegForm)
  /-- FMAX, opcodes o316 and o317: maximum. -/
  | fmax (x : Issue) (wd : Width) (f : RegForm)
  /-- FCMPEQ, opcodes o320 and o321: 1 if equal, else 0. -/
  | fcmpeq (x : Issue) (wd : Width) (f : RegForm)
  /-- FCMPLT, opcodes o322 and o323: 1 if less, else 0. -/
  | fcmplt (x : Issue) (wd : Width) (f : RegForm)
  /-- FCMPLE, opcodes o324 and o325: 1 if less or equal, else 0. -/
  | fcmple (x : Issue) (wd : Width) (f : RegForm)
  /-- FCVT.D.W, opcode o326: binary36 to binary72. -/
  | fcvtDW (x : Issue) (f : RegForm)
  /-- FCVT.W.D, opcode o327: binary72 to binary36. -/
  | fcvtWD (x : Issue) (f : RegForm)
  /-- FTOI, opcodes o330 and o331: to a signed integer of the same width. -/
  | ftoi (x : Issue) (wd : Width) (f : RegForm)
  /-- ITOF, opcodes o332 and o333: from a signed integer of the same width. -/
  | itof (x : Issue) (wd : Width) (f : RegForm)
  /-- LDQ, opcode o400: load 1 unit, zero-extended at srcA + imm15. -/
  | ldq (x : Issue) (f : ImmForm)
  /-- LDQS, opcode o401: load 1 unit, sign-extended at srcA + imm15. -/
  | ldqs (x : Issue) (f : ImmForm)
  /-- LDH, opcode o402: load 2 units, zero-extended at srcA + imm15. -/
  | ldh (x : Issue) (f : ImmForm)
  /-- LDHS, opcode o403: load 2 units, sign-extended at srcA + imm15. -/
  | ldhs (x : Issue) (f : ImmForm)
  /-- LDW, opcode o404: load 4 units, sign-extended at srcA + imm15. -/
  | ldw (x : Issue) (f : ImmForm)
  /-- LDWU, opcode o405: load 4 units, zero-extended at srcA + imm15. -/
  | ldwu (x : Issue) (f : ImmForm)
  /-- LDD, opcode o406: load 8 units at srcA + imm15. -/
  | ldd (x : Issue) (f : ImmForm)
  /-- LDQX, opcode o410: load 1 unit, zero-extended at srcA + srcB. -/
  | ldqx (x : Issue) (f : RegForm)
  /-- LDQSX, opcode o411: load 1 unit, sign-extended at srcA + srcB. -/
  | ldqsx (x : Issue) (f : RegForm)
  /-- LDHX, opcode o412: load 2 units, zero-extended at srcA + srcB. -/
  | ldhx (x : Issue) (f : RegForm)
  /-- LDHSX, opcode o413: load 2 units, sign-extended at srcA + srcB. -/
  | ldhsx (x : Issue) (f : RegForm)
  /-- LDWX, opcode o414: load 4 units, sign-extended at srcA + srcB. -/
  | ldwx (x : Issue) (f : RegForm)
  /-- LDWUX, opcode o415: load 4 units, zero-extended at srcA + srcB. -/
  | ldwux (x : Issue) (f : RegForm)
  /-- LDDX, opcode o416: load 8 units at srcA + srcB. -/
  | lddx (x : Issue) (f : RegForm)
  /-- LDSF, opcode o420: load the side field of the line at srcA + imm15. -/
  | ldsf (x : Issue) (f : ImmForm)
  /-- DCLEAN, opcode o430. -/
  | dclean (x : Issue) (f : ImmForm)
  /-- DFLUSH, opcode o431. -/
  | dflush (x : Issue) (f : ImmForm)
  /-- DINV, opcode o432. -/
  | dinv (x : Issue) (f : ImmForm)
  /-- DFILLK, opcode o433. -/
  | dfillk (x : Issue) (f : ImmForm)
  /-- IINV, opcode o434. -/
  | iinv (x : Issue) (f : ImmForm)
  /-- RNGINV, opcode o435. -/
  | rnginv (x : Issue) (f : RegForm)
  /-- A pass of the range engine of a core (R213). -/
  | rangeEnginePass (c : CoreId)
  /-- TLBI, opcode o436. -/
  | tlbi (x : Issue) (f : RegForm)
  /-- STQ, opcode o500: store 1 unit at srcA + imm15. -/
  | stq (x : Issue) (f : ImmForm)
  /-- STH, opcode o502: store 2 units at srcA + imm15. -/
  | sth (x : Issue) (f : ImmForm)
  /-- STW, opcode o504: store 4 units at srcA + imm15. -/
  | stw (x : Issue) (f : ImmForm)
  /-- STD, opcode o506: store 8 units at srcA + imm15. -/
  | std (x : Issue) (f : ImmForm)
  /-- STQX, opcode o510: store 1 unit at srcA + srcB. -/
  | stqx (x : Issue) (f : RegForm)
  /-- STHX, opcode o512: store 2 units at srcA + srcB. -/
  | sthx (x : Issue) (f : RegForm)
  /-- STWX, opcode o514: store 4 units at srcA + srcB. -/
  | stwx (x : Issue) (f : RegForm)
  /-- STDX, opcode o516: store 8 units at srcA + srcB. -/
  | stdx (x : Issue) (f : RegForm)
  /-- STSF, opcode o520: store the side field of the line at srcA + imm15. -/
  | stsf (x : Issue) (f : ImmForm)
  /-- A core's oldest store becomes visible to the other cores of its tile (R148). -/
  | storeVisible (c : CoreId)
  /-- BR, opcode o600. -/
  | br (x : Issue) (off : BitVec 27)
  /-- BZ, opcode o601; `off` is off21 = dest:imm15. -/
  | bz (x : Issue) (a : BitVec 6) (off : BitVec 21)
  /-- BNZ, opcode o602. -/
  | bnz (x : Issue) (a : BitVec 6) (off : BitVec 21)
  /-- BLTZ, opcode o603. -/
  | bltz (x : Issue) (a : BitVec 6) (off : BitVec 21)
  /-- BGEZ, opcode o604. -/
  | bgez (x : Issue) (a : BitVec 6) (off : BitVec 21)
  /-- CALL, opcode o610. -/
  | call (x : Issue) (off : BitVec 27)
  /-- JR, opcode o620. -/
  | jr (x : Issue) (f : RegForm)
  /-- CALLR, opcode o621. -/
  | callr (x : Issue) (f : RegForm)
  /-- RET, opcode o622. -/
  | ret (x : Issue) (f : RegForm)
  /-- LAPC, opcode o630. -/
  | lapc (x : Issue) (f : ImmForm)
  /-- MFS, opcode o700. -/
  | mfs (x : Issue) (f : ImmForm)
  /-- MTS, opcode o701. -/
  | mts (x : Issue) (f : ImmForm)
  /-- SYSC, opcode o702. -/
  | sysc (x : Issue) (f : ImmForm)
  /-- ERET, opcode o703. -/
  | eret (x : Issue) (f : ImmForm)
  /-- WCALL, opcode o704. -/
  | wcall (x : Issue) (f : ImmForm)
  /-- WRET, opcode o705. -/
  | wret (x : Issue) (f : ImmForm)
  /-- LCK, opcode o706. -/
  | lck (x : Issue) (f : ImmForm)
  /-- ULK, opcode o707. -/
  | ulk (x : Issue) (f : ImmForm)
  /-- An open locked sequence has no ULK by the end of bundle b + 8 (R132). -/
  | lockedSequenceTimeout (c : CoreId)
  /-- DOZE, opcode o710. -/
  | doze (x : Issue) (f : ImmForm)
  /-- WAITM, opcode o711. -/
  | waitm (x : Issue) (f : ImmForm)
  /-- The limit of a WAITM expires (R157). -/
  | waitmLimitExpiry (c : CoreId)
  /-- FBAR, opcode o712. -/
  | fbar (x : Issue) (f : ImmForm)
  /-- BRK, opcode o713. -/
  | brk (x : Issue) (f : ImmForm)
  /-- IDONE, opcode o714. -/
  | idone (x : Issue) (f : ImmForm)
  /-- MFENCE, opcode o715. -/
  | mfence (x : Issue) (f : ImmForm)
  /-- An MFENCE freeze ends: every earlier store and write-back of the core is visible to all requesters (R159). -/
  | mfenceComplete (c : CoreId)
  /-- The results of a core that are due land (R144–R146). -/
  | resultLanding (c : CoreId)
  /-- A safe-point drought of a core is recorded (R163–R165). -/
  | safePointDrought (c : CoreId)
  /-- A pending FPTRAP or CONTRACT trap is taken (R165, R187, R188). -/
  | trapEntry (c : CoreId)
  /-- An outstanding miss of a core completes (R150, R226); `miss` is its place in the order of issue. -/
  | missFillComplete (c : CoreId) (miss : Fin 16)
  /-- The table walk of a core completes (R153, R196). -/
  | tlbWalkComplete (c : CoreId)
  /-- The oldest write-back of a core's eviction buffer becomes visible to all requesters (R218). -/
  | evictionWritebackComplete (c : CoreId)
  /-- A write of TILE_AFSETc of a core (R155). -/
  | tileAfsetWrite (rq : Req) (c : CoreId) (value : Word)
  /-- A write of IVC_RING: a doorbell on its way to the router (R245). -/
  | ivcRingWrite (rq : Req) (value : Word)
  /-- The router accepts the oldest doorbell (R245, R246). -/
  | doorbellAccept
  /-- The master chronometer reaches a window's time bound (R249). -/
  | windowTimeFire (src : SourceId)
  /-- A write of IVC_ROUTEs (R248, R251): the whole value written. -/
  | ivcRouteWrite (rq : Req) (src : SourceId) (value : BitVec 72)
  /-- The interrupt lane of a tile takes the oldest fired source routed to it (R252). -/
  | interruptDeliveryLaunch (t : TileId)
  /-- The oldest launched delivery of a tile is offered to its core (R252, R254). -/
  | interruptDeliveryOffer (t : TileId)
  /-- A core takes the offered delivery that R253 names (R255). -/
  | interruptEntry (c : CoreId)
  /-- A core takes a pending stack-fault entry (R261). -/
  | stackFaultEntry (c : CoreId)
  /-- REMAIN of a core's watchdog reaches 0 (R265). -/
  | watchdogExpiry (c : CoreId)
  /-- A write of TILE_WDKICKc (R264). -/
  | watchdogKick (rq : Req) (c : CoreId) (value : Word)
  /-- A write of TILE_WDCTLc (R264). -/
  | watchdogCtlWrite (rq : Req) (c : CoreId) (value : Word)
  /-- Hub cycle of slot `slot`, a GRANT entry (R280, R281, R287). -/
  | slotGrant (slot : Fin 65536)
  /-- Hub cycle of slot `slot`, a TRANSFER entry (R280). -/
  | slotTransfer (slot : Fin 65536)
  /-- Hub cycle of slot `slot`, a REFRESH entry (R280, R393). -/
  | slotRefresh (slot : Fin 65536)
  /-- Hub cycle of slot `slot` under the management schedule (R291). -/
  | mgmtSlot (slot : Fin 65536)
  /-- The delivery of a queue commits (R282). -/
  | deliveryCommit (q : QueueId)
  /-- A line of a queue's delivery has stayed bound for 65,536 hub cycles (R286). -/
  | slcDeliveryStalled (q : QueueId)
  /-- A write of SLC_POSTq with N (R274). -/
  | slcPost (rq : Req) (q : QueueId) (n : BitVec 8)
  /-- A write of SLC_RELq with RCOUNT (R275). -/
  | slcRelease (rq : Req) (q : QueueId) (rcount : BitVec 17)
  /-- A write of SLC_QSTATq with STOP (R276). -/
  | queueStop (rq : Req) (q : QueueId) (stop : Bool)
  /-- A tide boundary (R290). -/
  | tideBoundary
  /-- The oldest descriptor element that a culvert has received is checked for format (R298). -/
  | culvertDescriptor (c : CulvertId)
  /-- A culvert checks the whole transfer of its current descriptor and begins it, or ends it (R299). -/
  | descriptorStart (c : CulvertId)
  /-- A host completion for a culvert's read: octets of the stream from position `off`, or an error with the failing address
  (R300, R309). -/
  | hostCompletion (c : CulvertId) (octets : HostOctets) (error : Option (BitVec 64))
  /-- A culvert launches its last destination line or host write (R307). -/
  | culvertCompletionPoint (c : CulvertId)
  /-- A culvert writes and posts the completion record of its oldest descriptor (R307). -/
  | completionRecordWrite (c : CulvertId)
  /-- A write of CUL_ABORTc (R310). -/
  | culvertAbort (rq : Req) (c : CulvertId) (tag : Word)
  /-- A write of CUL_KCMD with OP b01 (R306). -/
  | keyLoad (rq : Req) (typ : BitVec 3) (slot : BitVec 16)
  /-- A write of CUL_KCMD with OP b10 (R306). -/
  | keyEmpty (rq : Req) (slot : BitVec 16)
  /-- A culvert's host read request receives no completion in time; its address (R309). -/
  | completionTimeout (c : CulvertId) (addr : BitVec 64)
  /-- The chart engine accepts the key of the lowest-numbered waiting culvert (R321). -/
  | chartKeyAccept
  /-- The oldest accepted lookup of a culvert is decided (R321, R322). -/
  | lookupDecision (c : CulvertId)
  /-- A culvert writes and posts the result element of its lookup (R323). -/
  | resultElementWrite (c : CulvertId)
  /-- A write of CHT_CMDc with OP b001: NOHIT (R328). -/
  | chartLookup (rq : Req) (ch : Fin 32) (nohit : Bool)
  /-- A write of CHT_CMDc with OP b010: IPOL (R329). -/
  | chartInsert (rq : Req) (ch : Fin 32) (ipol : Bool)
  /-- A write of CHT_CMDc with OP b011 (R328). -/
  | chartUpdate (rq : Req) (ch : Fin 32)
  /-- A write of CHT_CMDc with OP b100: IDLE (R328). -/
  | chartDelete (rq : Req) (ch : Fin 32) (idle : Bool)
  /-- A write of CHT_CMDc with OP b101: POS (R331). -/
  | chartAge (rq : Req) (ch : Fin 32) (pos : BitVec 26)
  /-- A write of CHT_CMDc with OP b110: POS (R328). -/
  | chartRead (rq : Req) (ch : Fin 32) (pos : BitVec 26)
  /-- The oldest accepted command commits (R327). -/
  | chartCommandCommit
  /-- The oldest changed bucket line is written to DRAM (R327). -/
  | chartWriteThrough
  /-- A host write to the personality window of a VI at an octet offset; an octet that is not enabled is none (R341). -/
  | viDoorbellWrite (v : ViId) (off : Fin 16384) (octets : List (Option (BitVec 8)))
  /-- A read of VIF_DBPENDv_k (R342). -/
  | dbpendRead (rq : Req) (v : ViId) (k : Fin 8)
  /-- A host write to a shadowed window; an octet that is not enabled is none (R344). -/
  | shadowWrite (v : ViId) (off : Fin 16384) (octets : List (Option (BitVec 8)))
  /-- A host read of `len` octets of the personality window (R343, R345). -/
  | shadowRead (v : ViId) (off : Fin 16384) (len : Fin 4097)
  /-- The oldest waiting read of a VI has waited 1 ms (R345). -/
  | vifSyncTimeout (v : ViId)
  /-- A write of VIF_SACK (R345). -/
  | vifSackWrite (rq : Req) (value : Word)
  /-- A write of VIF_EPOST (R340). -/
  | vifEpostWrite (rq : Req) (value : Word)
  /-- A write of VIF_MSIX (R347). -/
  | msixSignal (rq : Req) (value : Word)
  /-- The time bound of a vector's window is reached (R347). -/
  | msixWindowTimeFire (v : ViId) (n : Fin 64)
  /-- A pending vector is sent once its enables permit (R347). -/
  | msixSend (v : ViId) (n : Fin 64)
  /-- A host write of 4 aligned octets to the control window (R339). -/
  | hostControlWindowWrite (v : ViId) (off : Fin 4096) (value : BitVec 32)
  /-- An Initiate Function Level Reset write is accepted (R349). -/
  | flrAccept (v : ViId)
  /-- A write of the SR-IOV control of PF `f` of a group: VF Enable and NumVFs (R351). -/
  | vfEnableClear (g : GroupId) (f : Fin 4) (enable : Bool) (numVfs : Fin 1025)
  /-- A write of VIF_RDONE (R350). -/
  | vifRdoneWrite (rq : Req) (value : Word)
  /-- The reset of a VI completes (R350). -/
  | viResetComplete (v : ViId)
  /-- The reset of a VI has not completed 90 ms after acceptance (R350). -/
  | vifFlrLate (v : ViId)
  /-- HPERST_N of a group falls (R23). -/
  | hperstFall (g : GroupId)
  /-- HPERST_N of a group rises (R23). -/
  | hperstRise (g : GroupId)
  /-- A link comes up; a group's width and rate are coded as in PRT_GSTAT (R373). -/
  | prtLinkUp (l : LinkRef) (width rate : BitVec 4)
  /-- A group's partner does not advertise Flit Mode (R361). -/
  | prtLinkNoflit (g : GroupId)
  /-- A link goes down (R362). -/
  | prtLinkDown (l : LinkRef)
  /-- A lane's loss of signal, or else of receiver lock, starts (R373). -/
  | prtLaneFault (lane : Fin 96) (los : Bool)
  /-- Corrected codewords of a port exceed 1 in 10^4 over 1 s; both counts (R373). -/
  | prtFecHigh (p : PortId) (corrected uncorrected : BitVec 18)
  /-- A frame is received: its octets without preamble, SFD and FCS, and whether it has an error (R365, R366). -/
  | frameReceive (p : PortId) (octets : List (BitVec 8)) (err : Bool)
  /-- Half of the quanta time has elapsed at a port that pauses its partner (R370). -/
  | pfcRefresh (p : PortId)
  /-- A PFC frame is received: its classes, and the quanta of class c in bits [16c+15:16c] (R371). -/
  | pfcFrameReceive (p : PortId) (classes : BitVec 8) (quanta : BitVec 128)
  /-- The pause of a class expires (R371). -/
  | pauseExpiry (p : PortId) (c : Fin 8)
  /-- A class has stayed paused for 1 s (R371). -/
  | prtTxPausedLong (p : PortId) (c : Fin 8)
  /-- The MAC sends the next frame of a port (R369). -/
  | frameTransmit (p : PortId)
  /-- A read of a line by a requester enters its subchannel's read queue (R384). -/
  | dramReadAccept (rq : Req) (line : BitVec 34)
  /-- A write line of a requester enters the write queue: stored bits from `lo`, `width` of them (R383, R384). -/
  | dramWriteAccept (rq : Req) (line : BitVec 34) (lo : Fin 576) (width : Fin 577) (value : Line)
  /-- The controller issues the next command of a subchannel; `ready` has the banks whose timing permits it (R386, R387). -/
  | dramCommandIssue (sub : SubId) (ready : BitVec 32)
  /-- The burst of the oldest issued read arrives; `errs` are the symbols in error that its stored line is found to hold,
  with the exclusive-or of each (R380). -/
  | dramReadData (sub : SubId) (errs : List (Fin 40 × BitVec 16))
  /-- PGIDLE elapses on a bank's open row (R388). -/
  | rowIdleClose (sub : SubId) (bank : Fin 32)
  /-- A refresh of the controller's timer is due on a subchannel (R394). -/
  | refreshTimer (sub : SubId)
  /-- MR4 of every device is read; `hot` has the subchannels with a device above 85 °C (R376, R394). -/
  | mr4Poll (hot : BitVec 32)
  /-- A channel enters self-refresh (R396). -/
  | selfRefreshIdleEntry (ch : ChanId)
  /-- A write of DRC_SRCTL (R396). -/
  | drcSrctlWrite (rq : Req) (value : Word)
  /-- A channel leaves self-refresh (R397). -/
  | selfRefreshExit (ch : ChanId)
  /-- A write of DRC_FREQ (R399). -/
  | drcFreqWrite (rq : Req) (value : Word)
  /-- A channel finishes its frequency step, in `ns` nanoseconds (R399). -/
  | frequencyStepComplete (ch : ChanId) (ns : Word)
  /-- A write of DRC_DEVFAIL (R381). -/
  | drcDevfailCommand (rq : Req) (value : Word)
  /-- The health unit accepts the oldest report that waits (R455, R456). -/
  | reportAccept
  /-- The oldest log queue entry is committed to MRAM (R405). -/
  | logCommit
  /-- The health unit writes and posts its oldest signal element (R459). -/
  | healthSignalPost
  /-- A full second of the chronometer has passed (R409). -/
  | opsecTick
  /-- A write of LGB_RIDX with N (R410). -/
  | lgbRidxWrite (rq : Req) (n : Double)
  /-- A full line of trace words of a streaming tile is drained (R425). -/
  | traceDrainLine (t : TileId)
  /-- The wake unit of a tile reports the words lost since its last report (R427). -/
  | wktLoss (t : TileId)
  /-- A write of a tile's TILE_WCTL (R414). -/
  | tileWctlWrite (rq : Req) (t : TileId) (value : Word)
  /-- A write of a tile's TILE_WSTAT; FULL written 0 empties a full stop-mode buffer (R420). -/
  | traceBufferEmpty (rq : Req) (t : TileId) (value : Word)
  /-- A write of WKT_RDPTRt (R426). -/
  | wktRdptrWrite (rq : Req) (t : TileId) (value : Word)
  /-- A read of a tile's TILE_WDATA (R420). -/
  | tileWdataRead (rq : Req) (t : TileId)
  /-- A write of a core's DBG_RUN that requests a halt (R442): the whole value written. -/
  | debugHaltRequest (rq : Req) (c : CoreId) (value : Word)
  /-- A write of a core's DBG_RUN that steps it (R444): the whole value written. -/
  | debugStep (rq : Req) (c : CoreId) (value : Word)
  /-- A write of a core's DBG_RUN that releases it (R444): the whole value written. -/
  | debugRelease (rq : Req) (c : CoreId) (value : Word)
  /-- A core takes the halt that was requested (R442). -/
  | dbgHalt (c : CoreId)
  /-- The oldest channel pulse on its way arrives (R449). -/
  | channelPulse
  /-- A rising edge on XTRIG_IN (R449). -/
  | xtrigInEdge
  /-- A write of DBG_XPULSE (R449). -/
  | dbgXpulseWrite (rq : Req) (value : Word)
  /-- XTRIG_OUT falls (R449). -/
  | xtrigOutEnd
  /-- A read frame of the two-wire port (R430): REG, SEQ, MARK and PAR of its command quarter. -/
  | debugFrameRead (reg : BitVec 5) (seq mark par : Bool)
  /-- A write frame of the two-wire port (R430): its command quarter, and the 40 bits of a data phase, quarter k with its
  parity bit at bits 10k to 10k + 9. -/
  | debugFrameWrite (reg : BitVec 5) (seq mark par : Bool) (data : BitVec 40)
  /-- A break on DIO (R432). -/
  | debugBreak
  /-- A write frame of DCTL with ABORT 1 and good parity (R436). -/
  | dctlAbort (seq : Bool)
  /-- A write frame of DCTL with CLEAR 1 and good parity (R436). -/
  | dctlClear (seq : Bool)
  /-- The access of SPACE b000 that the port has started is performed (R437). -/
  | debugPhysicalAccess
  /-- The access of SPACE b001 that the port has started is performed (R439). -/
  | debugCoreAccess
  /-- The access of SPACE b010 that the port has started is performed (R441). -/
  | debugL1Read
  /-- A performed access of the port ends (R436). -/
  | debugAccessComplete
  /-- A write of a register: its physical address, the size as a power of two of units, the view, and the value. -/
  | registerWrite (rq : Req) (addr : BitVec 45) (size : BitVec 2) (oct : Bool) (value : Double)
  /-- SMBus command o001 (R412). -/
  | smbReadIdent
  /-- SMBus command o002 (R412). -/
  | smbReadAssetTag
  /-- SMBus command o003 (R412). -/
  | smbReadStartState
  /-- SMBus command o004 (R412). -/
  | smbReadTileMap
  /-- SMBus command o020 (R412). -/
  | smbReadLogCounts
  /-- SMBus command o021 (R412): the data octets, and the PEC that the host sent, if any. -/
  | smbLatchRecord (octets : List (BitVec 8)) (pec : Option (BitVec 8))
  /-- SMBus command o022 (R412). -/
  | smbReadRecord
  /-- SMBus command o040 (R412): the data octets, and the PEC that the host sent, if any. -/
  | smbRegisterSelect (octets : List (BitVec 8)) (pec : Option (BitVec 8))
  /-- SMBus command o041 (R412). -/
  | smbRegisterRead
  /-- SMBus command o042 (R412): the data octets, and the PEC that the host sent, if any. -/
  | smbRegisterWrite (octets : List (BitVec 8)) (pec : Option (BitVec 8))
  /-- SMBus command o043 (R412). -/
  | smbReadAlertSequence
  /-- A read of the SMBus Alert Response Address (R413). -/
  | smbAlertResponse
  /-- A Hot Reset on the link of a host port group (R351). -/
  | hotReset (g : GroupId)
  /-- A syllable whose opcode the map does not list (R108): its whole word. -/
  | unlistedOpcode (x : Issue) (word : Word)
  /-- The fetch of a core's next bundle faults (R199, R232). -/
  | fetchFault (c : CoreId)
  deriving DecidableEq, Repr

end Sys2Proof
end

