-- ==== Sys2Proof/Decode.lean ====
section
/-! DEFINITION. Decode.lean: commands as words. The table gives none of its rows any bits: a command reaches the block as an
operation or an event, not as a word. The word of a syllable names one of the core commands (R104, R109). -/

namespace Sys2Proof

/-- The command that a word of `nbits` bits spells by the table: none, because no row of the table has bits. DESIGN
CHOICE: log entry 1. -/
def decodeTableWord (_nbits _w : Nat) : Option Instr := none

/-- The register form of a syllable's word (R104). -/
def regForm (w : Word) : RegForm := ⟨w.extractLsb' 21 6, w.extractLsb' 15 6, w.extractLsb' 9 6, w.extractLsb' 0 9⟩

/-- The immediate form of a syllable's word (R104). -/
def immForm (w : Word) : ImmForm := ⟨w.extractLsb' 21 6, w.extractLsb' 15 6, w.extractLsb' 0 15⟩

/-- The opcodes that stand in pairs, .W and then .D, in the register form: the even one of each pair (R109). -/
def pairRow (x : Issue) : Nat → Option (Width → RegForm → Instr)
  | 0o002 => some (.add x)
  | 0o004 => some (.sub x)
  | 0o006 => some (.and x)
  | 0o010 => some (.or x)
  | 0o012 => some (.xor x)
  | 0o014 => some (.andn x)
  | 0o016 => some (.shl x)
  | 0o020 => some (.shr x)
  | 0o022 => some (.sar x)
  | 0o024 => some (.rol x)
  | 0o026 => some (.cmpeq x)
  | 0o030 => some (.cmplt x)
  | 0o032 => some (.cmpltu x)
  | 0o034 => some (.min x)
  | 0o036 => some (.max x)
  | 0o042 => some (.par x)
  | 0o050 => some (.clz x)
  | 0o052 => some (.ctz x)
  | 0o054 => some (.popc x)
  | 0o200 => some (.mul x)
  | 0o202 => some (.mulh x)
  | 0o204 => some (.mulhu x)
  | 0o206 => some (.div x)
  | 0o210 => some (.divu x)
  | 0o212 => some (.rem x)
  | 0o214 => some (.remu x)
  | 0o300 => some (.fadd x)
  | 0o302 => some (.fsub x)
  | 0o304 => some (.fmul x)
  | 0o306 => some (.fma x)
  | 0o310 => some (.fnma x)
  | 0o312 => some (.fdiv x)
  | 0o314 => some (.fmin x)
  | 0o316 => some (.fmax x)
  | 0o320 => some (.fcmpeq x)
  | 0o322 => some (.fcmplt x)
  | 0o324 => some (.fcmple x)
  | 0o330 => some (.ftoi x)
  | 0o332 => some (.itof x)
  | _ => none

/-- The opcodes that stand in pairs in the immediate form (R109). -/
def pairImmRow (x : Issue) : Nat → Option (Width → ImmForm → Instr)
  | 0o102 => some (.addi x)
  | 0o104 => some (.subi x)
  | 0o106 => some (.andi x)
  | 0o110 => some (.ori x)
  | 0o112 => some (.xori x)
  | 0o114 => some (.andni x)
  | 0o116 => some (.shli x)
  | 0o120 => some (.shri x)
  | 0o122 => some (.sari x)
  | 0o124 => some (.roli x)
  | 0o126 => some (.cmpeqi x)
  | 0o130 => some (.cmplti x)
  | 0o132 => some (.cmpltui x)
  | 0o134 => some (.mini x)
  | 0o136 => some (.maxi x)
  | _ => none

/-- The single opcodes of the register form (R109). -/
def regRow (x : Issue) : Nat → Option (RegForm → Instr)
  | 0o044 => some (.brevO x)
  | 0o045 => some (.brevW x)
  | 0o046 => some (.crc x)
  | 0o326 => some (.fcvtDW x)
  | 0o327 => some (.fcvtWD x)
  | 0o410 => some (.ldqx x)
  | 0o411 => some (.ldqsx x)
  | 0o412 => some (.ldhx x)
  | 0o413 => some (.ldhsx x)
  | 0o414 => some (.ldwx x)
  | 0o415 => some (.ldwux x)
  | 0o416 => some (.lddx x)
  | 0o435 => some (.rnginv x)
  | 0o436 => some (.tlbi x)
  | 0o510 => some (.stqx x)
  | 0o512 => some (.sthx x)
  | 0o514 => some (.stwx x)
  | 0o516 => some (.stdx x)
  | 0o620 => some (.jr x)
  | 0o621 => some (.callr x)
  | 0o622 => some (.ret x)
  | _ => none

/-- The single opcodes of the immediate form (R109). -/
def immRow (x : Issue) : Nat → Option (ImmForm → Instr)
  | 0o400 => some (.ldq x)
  | 0o401 => some (.ldqs x)
  | 0o402 => some (.ldh x)
  | 0o403 => some (.ldhs x)
  | 0o404 => some (.ldw x)
  | 0o405 => some (.ldwu x)
  | 0o406 => some (.ldd x)
  | 0o420 => some (.ldsf x)
  | 0o430 => some (.dclean x)
  | 0o431 => some (.dflush x)
  | 0o432 => some (.dinv x)
  | 0o433 => some (.dfillk x)
  | 0o434 => some (.iinv x)
  | 0o500 => some (.stq x)
  | 0o502 => some (.sth x)
  | 0o504 => some (.stw x)
  | 0o506 => some (.std x)
  | 0o520 => some (.stsf x)
  | 0o630 => some (.lapc x)
  | 0o700 => some (.mfs x)
  | 0o701 => some (.mts x)
  | 0o702 => some (.sysc x)
  | 0o703 => some (.eret x)
  | 0o704 => some (.wcall x)
  | 0o705 => some (.wret x)
  | 0o706 => some (.lck x)
  | 0o707 => some (.ulk x)
  | 0o710 => some (.doze x)
  | 0o711 => some (.waitm x)
  | 0o712 => some (.fbar x)
  | 0o713 => some (.brk x)
  | 0o714 => some (.idone x)
  | 0o715 => some (.mfence x)
  | _ => none

/-- The branches with an offset: off27, or srcA and off21 = dest:imm15 (R109, R116). -/
def branchRow (x : Issue) (w : Word) : Nat → Option Instr
  | 0o600 => some (.br x (w.extractLsb' 0 27))
  | 0o601 => some (.bz x (w.extractLsb' 15 6) (w.extractLsb' 21 6 ++ w.extractLsb' 0 15))
  | 0o602 => some (.bnz x (w.extractLsb' 15 6) (w.extractLsb' 21 6 ++ w.extractLsb' 0 15))
  | 0o603 => some (.bltz x (w.extractLsb' 15 6) (w.extractLsb' 21 6 ++ w.extractLsb' 0 15))
  | 0o604 => some (.bgez x (w.extractLsb' 15 6) (w.extractLsb' 21 6 ++ w.extractLsb' 0 15))
  | 0o610 => some (.call x (w.extractLsb' 0 27))
  | _ => none

/-- THE COMMAND OF A SYLLABLE'S WORD (R104, R106, R109): bits [35:27] are the opcode, which has exactly one form. None for a
word whose opcode the map does not list, which is UNLISTED_OPCODE's (R108). -/
def decodeSyllable (x : Issue) (w : Word) : Option Instr :=
  let op := (w.extractLsb' 27 9).toNat
  let wd : Width := if op % 2 = 0 then .w else .d
  if op = 0 then some (.nop x)
  else
    ((((pairRow x (op / 2 * 2)).map fun c => c wd (regForm w)).orElse fun _ =>
      (pairImmRow x (op / 2 * 2)).map fun c => c wd (immForm w)).orElse fun _ =>
      (regRow x op).map fun c => c (regForm w)).orElse fun _ =>
      ((immRow x op).map fun c => c (immForm w)).orElse fun _ => branchRow x w op

end Sys2Proof
end

