-- ==== Sys2Proof/Machine/Alu.lean ====
section
/-! DEFINITION. Alu.lean: the values of the integer and check operations (R101, R166–R173, R190–R192). -/

namespace Sys2Proof.Machine

/-- A .W result: bit 35 copied into bits [71:36] (R101). -/
def wResult (v : Word) : Double := v.signExtend 72

/-- An operation of the width of its syllable (R101, R166). -/
def alu (wd : Width) (f : (n : Nat) → BitVec n → BitVec n → BitVec n) (a b : Double) : Double :=
  match wd with
  | .w => wResult (f 36 (a.setWidth 36) (b.setWidth 36))
  | .d => f 72 a b

/-- The shift count: srcB[5:0] for .W, srcB[6:0] for .D (R167). -/
def shiftCount {n : Nat} (b : BitVec n) : Nat := b.toNat % (if n = 36 then 64 else 128)

/-- 1 or 0. -/
def truth {n : Nat} (p : Bool) : BitVec n := if p then 1 else 0

def calcAdd (n : Nat) (a b : BitVec n) : BitVec n := a + b
def calcSub (n : Nat) (a b : BitVec n) : BitVec n := a - b
def calcAnd (n : Nat) (a b : BitVec n) : BitVec n := a &&& b
def calcOr (n : Nat) (a b : BitVec n) : BitVec n := a ||| b
def calcXor (n : Nat) (a b : BitVec n) : BitVec n := a ^^^ b
def calcAndn (n : Nat) (a b : BitVec n) : BitVec n := a &&& ~~~b
def calcShl (n : Nat) (a b : BitVec n) : BitVec n := a <<< shiftCount b
def calcShr (n : Nat) (a b : BitVec n) : BitVec n := a >>> shiftCount b
def calcSar (n : Nat) (a b : BitVec n) : BitVec n := a.sshiftRight (shiftCount b)
/-- Rotate left by count mod w (R167). -/
def calcRol (n : Nat) (a b : BitVec n) : BitVec n := a.rotateLeft (shiftCount b % n)
def calcEq (n : Nat) (a b : BitVec n) : BitVec n := truth (a == b)
def calcLt (n : Nat) (a b : BitVec n) : BitVec n := truth (a.slt b)
def calcLtu (n : Nat) (a b : BitVec n) : BitVec n := truth (a.ult b)
def calcMin (n : Nat) (a b : BitVec n) : BitVec n := if a.slt b then a else b
def calcMax (n : Nat) (a b : BitVec n) : BitVec n := if a.slt b then b else a
def calcMul (n : Nat) (a b : BitVec n) : BitVec n := a * b
/-- Bits [2w−1:w] of the signed product (R169). -/
def calcMulh (n : Nat) (a b : BitVec n) : BitVec n := BitVec.ofInt n (a.toInt * b.toInt / 2 ^ n)
/-- Bits [2w−1:w] of the unsigned product (R169). -/
def calcMulhu (n : Nat) (a b : BitVec n) : BitVec n := BitVec.ofNat n (a.toNat * b.toNat / 2 ^ n)
/-- The quotient truncated toward zero; 0 for a zero divisor (R170). -/
def calcDiv (n : Nat) (a b : BitVec n) : BitVec n := BitVec.ofInt n (a.toInt.tdiv b.toInt)
def calcDivu (n : Nat) (a b : BitVec n) : BitVec n := BitVec.ofNat n (a.toNat / b.toNat)
/-- The remainder with the sign of the dividend; the dividend for a zero divisor (R170). -/
def calcRem (n : Nat) (a b : BitVec n) : BitVec n := BitVec.ofInt n (a.toInt.tmod b.toInt)
def calcRemu (n : Nat) (a b : BitVec n) : BitVec n := BitVec.ofNat n (a.toNat % b.toNat)

/-- The low w bits of an operand. -/
def lowBits (wd : Width) (a : Double) : Nat := match wd with
  | .w => a.toNat % 2 ^ 36
  | .d => a.toNat

/-- The width in bits. -/
def widthBits : Width → Nat
  | .w => 36
  | .d => 72

/-- A divide's divisor is zero: DZ (R170). -/
def divZero (wd : Width) (b : Double) : Bool := lowBits wd b == 0

/-- The most-negative value divided by −1: OV (R170). -/
def divOver (wd : Width) (a b : Double) : Bool :=
  lowBits wd a == 2 ^ ((widthBits wd) - 1) && lowBits wd b == 2 ^ (widthBits wd) - 1

/-- The number of one bits among the low n bits. -/
def popCount : Nat → Nat → Nat
  | 0, _ => 0
  | n + 1, x => x % 2 + popCount n (x / 2)

/-- Trailing zeros of the low n bits; n when they are zero (R168). -/
def trailZeros : Nat → Nat → Nat
  | 0, _ => 0
  | n + 1, x => if x % 2 = 1 then 0 else 1 + trailZeros n (x / 2)

/-- Leading zeros of an n-bit number; n when it is zero (R168). -/
def leadZeros (n x : Nat) : Nat := if x = 0 then n else n - 1 - Nat.log2 x

/-- The low n bits in reverse order. -/
def reverseBits : Nat → Nat → Nat
  | 0, _ => 0
  | n + 1, x => (x % 2) * 2 ^ n + reverseBits n (x / 2)

/-- Bits reversed within each unit of u bits, over n units (R192). -/
def reverseUnits (u : Nat) : Nat → Nat → Nat
  | 0, _ => 0
  | n + 1, x => reverseBits u (x % 2 ^ u) + 2 ^ u * reverseUnits u n (x / 2 ^ u)

end Sys2Proof.Machine
end

