-- ==== Sys2Proof/Machine/Sparse.lean ====
section
/-! DEFINITION. Sparse.lean: reading and writing a sparse table, and packing fields into words. -/

namespace Sys2Proof.Machine

/-- The value at a key; an unlisted key reads as the default `d`. -/
def mget {α : Type} (d : α) : SMap α → Nat → α
  | [], _ => d
  | (k, v) :: t, i => if k = i then v else if i < k then d else mget d t i

/-- Writes a key and keeps the canonical form: a value equal to the default removes the entry. -/
def mset {α : Type} [DecidableEq α] (d : α) : SMap α → Nat → α → SMap α
  | [], i, v => if v = d then [] else [(i, v)]
  | (k, w) :: t, i, v =>
    if i < k then (if v = d then (k, w) :: t else (i, v) :: (k, w) :: t)
    else if i = k then (if v = d then t else (i, v) :: t)
    else (k, w) :: mset d t i v

/-- Changes the value at a key by a function. -/
def mmod {α : Type} [DecidableEq α] (d : α) (m : SMap α) (i : Nat) (f : α → α) : SMap α :=
  mset d m i (f (mget d m i))

/-- The canonical form of a sparse table: keys strictly rising, no entry at the default. -/
def mwf {α : Type} [DecidableEq α] (d : α) : SMap α → Bool
  | [] => true
  | (k, v) :: t =>
    decide (v ≠ d) && (match t with | [] => true | (k', _) :: _ => decide (k < k')) && mwf d t

/-- Writes a list of values at consecutive keys. -/
def msetMany {α : Type} [DecidableEq α] (d : α) (m : SMap α) (i : Nat) : List α → SMap α
  | [] => m
  | v :: vs => msetMany d (mset d m i v) (i + 1) vs

/-- `n` values at consecutive keys. -/
def mgetMany {α : Type} (d : α) (m : SMap α) (i n : Nat) : List α :=
  (List.range n).map fun j => mget d m (i + j)

/-- Packs (value, width) fields from bit 0 upward with no gaps (R471); a field wider than its width keeps its low
bits. -/
def packFields : List (Nat × Nat) → Nat
  | [] => 0
  | (v, w) :: t => v % 2 ^ w + 2 ^ w * packFields t

/-- Bits `[lo + n - 1 : lo]` of a number. -/
def field (x lo n : Nat) : Nat := (x >>> lo) % 2 ^ n

/-- A bit of a number. -/
def bitOf (x i : Nat) : Bool := x.testBit i

/-- A bit as a number. -/
def b2n (b : Bool) : Nat := if b then 1 else 0

/-- A count that saturates at the largest value of `w` bits (R471). -/
def satW (w n : Nat) : Nat := min n (2 ^ w - 1)

/-- Numbers `xs`, each of `w` bits, as one number, the first lowest (R2). -/
def joinUnits (w : Nat) : List Nat → Nat
  | [] => 0
  | x :: t => x % 2 ^ w + 2 ^ w * joinUnits w t

/-- The `n` units of `w` bits of a number, lowest first. -/
def splitUnits (w n x : Nat) : List Nat := (List.range n).map fun i => field x (w * i) w

/-- Replaces bits `[lo + n - 1 : lo]` of a number. -/
def setField (x lo n v : Nat) : Nat :=
  x - (field x lo n) * 2 ^ lo + (v % 2 ^ n) * 2 ^ lo

/-- Inserts an element into a list ordered by `le`, before the first element that it precedes. -/
def insertBy {α : Type} (le : α → α → Bool) (x : α) : List α → List α
  | [] => [x]
  | y :: t => if le x y then x :: y :: t else y :: insertBy le x t

/-- A list in rising order of a key; elements of one key keep their order. DESIGN CHOICE: log entry 17. -/
def sortBy {α : Type} (key : α → Nat) (l : List α) : List α :=
  l.foldr (insertBy fun a b => decide (key a ≤ key b)) []

end Sys2Proof.Machine
end

