-- ==== Sys2Proof/Machine/Crc.lean ====
section
/-! DEFINITION. Crc.lean: the reflected CRCs of R191 and the CRC32C of the logbook (R404). -/

namespace Sys2Proof.Machine

/-- One bit of a reflected CRC whose reversed polynomial is `poly`. -/
def crcBit (poly c : Nat) : Nat := if c % 2 = 1 then (c / 2) ^^^ poly else c / 2

/-- `n` bits of a reflected CRC. -/
def crcBits (poly : Nat) : Nat → Nat → Nat
  | 0, c => c
  | n + 1, c => crcBits poly n (crcBit poly c)

/-- One octet: exclusive-or into the low bits, then 8 bits. -/
def crcOctet (poly c o : Nat) : Nat := crcBits poly 8 (c ^^^ (o % 256))

/-- A reflected CRC over octets, lowest first. -/
def crcOctets (poly : Nat) : List Nat → Nat → Nat
  | [], c => c
  | o :: t, c => crcOctets poly t (crcOctet poly c o)

/-- CRC32C: reversed polynomial of 0x1EDC6F41. -/
def polyCrc32c : Nat := 0x82F63B78
def polyCrc64 : Nat := 0x9A6C9329AC4BC9B5

/-- One bit of the SMBus Packet Error Code, most significant bit first: x^8 + x^2 + x + 1. -/
def pecBit (c : Nat) : Nat := if 128 ≤ c then (2 * c ^^^ 7) % 256 else 2 * c

/-- The Packet Error Code of a message's octets (R411). PRESUMED: log entry 71. -/
def pecOf (os : List Nat) : Nat :=
  os.foldl (fun c o => pecBit (pecBit (pecBit (pecBit (pecBit (pecBit (pecBit (pecBit (c ^^^ o % 256)))))))) ) 0

/-- CRC32C with initial value and final exclusive-or of all ones (R303, R404). PRESUMED: log entry 55. -/
def crc32c (os : List Nat) : Nat := crcOctets polyCrc32c os 0xFFFFFFFF ^^^ 0xFFFFFFFF

/-- CRC-64 NVM Express with initial value and final exclusive-or of all ones (R303). PRESUMED: log entry 55. -/
def crc64 (os : List Nat) : Nat := crcOctets polyCrc64 os 0xFFFFFFFFFFFFFFFF ^^^ 0xFFFFFFFFFFFFFFFF

end Sys2Proof.Machine
end

