-- ==== Sys2Proof/Machine/Codes.lean ====
section
/-! DEFINITION. Codes.lean: the units, the classes and the code numbers of fault reports (R11, R456, R462). -/

namespace Sys2Proof.Machine.Unit
def hub := 0
def pwr := 1
def cfg := 2
def isl := 3
def wld := 4
def ivc := 5
def slc := 6
def cul := 7
def cht := 8
def vif := 9
def prt := 10
def drc := 11
def lgb := 12
def wkt := 13
def dbg := 14
def hlt := 15
def tile := 16
end Sys2Proof.Machine.Unit

namespace Sys2Proof.Machine.Cls
def corrected := 0
def reported := 1
def fatal := 2
def protect := 3
def wear := 4
end Sys2Proof.Machine.Cls

namespace Sys2Proof.Machine.Code
/-- ADDR_UNMAPPED, class REPORTED. -/
def addrUnmapped := 0o0001
/-- REG_REFUSED, class REPORTED. -/
def regRefused := 0o0002
/-- PWR_LINE_CHANGE, class REPORTED. -/
def pwrLineChange := 0o0101
/-- PWR_INPUT_RANGE, class REPORTED. -/
def pwrInputRange := 0o0102
/-- PWR_MAINS_LOSS, class REPORTED. -/
def pwrMainsLoss := 0o0103
/-- PWR_MAINS_RETURN, class REPORTED. -/
def pwrMainsReturn := 0o0104
/-- PWR_SURGE, class PROTECT. -/
def pwrSurge := 0o0105
/-- PWR_OVERCURRENT, class PROTECT. -/
def pwrOvercurrent := 0o0106
/-- PWR_STAGE_HOT, class PROTECT. -/
def pwrStageHot := 0o0107
/-- PWR_THERM_THROTTLE, class PROTECT. -/
def pwrThermThrottle := 0o0110
/-- PWR_THERM_TRIP, class PROTECT. -/
def pwrThermTrip := 0o0111
/-- PWR_THERM_HIGH, class REPORTED. -/
def pwrThermHigh := 0o0112
/-- PWR_COOLANT, class REPORTED. -/
def pwrCoolant := 0o0113
/-- RSV_SHORT, class REPORTED. -/
def rsvShort := 0o0114
/-- RSV_HOT, class PROTECT. -/
def rsvHot := 0o0115
/-- RSV_WORN, class WEAR. -/
def rsvWorn := 0o0116
/-- FLASH_WORN, class WEAR. -/
def flashWorn := 0o0117
/-- VAULT_BEGIN, class REPORTED. -/
def vaultBegin := 0o0120
/-- VAULT_END, class REPORTED. -/
def vaultEnd := 0o0121
/-- VAULT_MISMATCH, class REPORTED. DESIGN CHOICE: log entry 16. -/
def vaultMismatch := 0o0122
/-- VAULT_DISCARD, class REPORTED. -/
def vaultDiscard := 0o0123
/-- PWR_CTL_REFUSED, class REPORTED. -/
def pwrCtlRefused := 0o0124
/-- CFG_CHARGE_TIMEOUT, class REPORTED. -/
def cfgChargeTimeout := 0o0201
/-- CFG_COPY_BAD, class REPORTED. -/
def cfgCopyBad := 0o0202
/-- CFG_NO_IMAGE, class FATAL-UNIT. -/
def cfgNoImage := 0o0203
/-- TILE_TEST_FAIL, class FATAL-UNIT. -/
def tileTestFail := 0o0204
/-- TILE_SPARED, class REPORTED. -/
def tileSpared := 0o0205
/-- TILE_SPARES_OUT, class WEAR. -/
def tileSparesOut := 0o0206
/-- CFG_NO_ALTERNATE, class FATAL-UNIT. -/
def cfgNoAlternate := 0o0207
/-- CFG_ALT_SWITCH, class REPORTED. -/
def cfgAltSwitch := 0o0210
/-- CFG_ALT_REFUSED, class REPORTED. -/
def cfgAltRefused := 0o0211
/-- HOST_EARLY_REQ, class REPORTED. -/
def hostEarlyReq := 0o0212
/-- CFG_UPD_RESULT, class REPORTED. -/
def cfgUpdResult := 0o0213
/-- CFG_UPD_REFUSED, class REPORTED. -/
def cfgUpdRefused := 0o0214
/-- ISL_NBR_LIMIT, class REPORTED. -/
def islNbrLimit := 0o0301
/-- ISL_XING_LATE, class REPORTED. -/
def islXingLate := 0o0302
/-- ISL_CHRON_SLEW, class CORRECTED. -/
def islChronSlew := 0o0303
/-- ISL_PSTATE_REFUSED, class REPORTED. -/
def islPstateRefused := 0o0304
/-- ISL_TILE_ASLEEP, class REPORTED. -/
def islTileAsleep := 0o0305
/-- WLD_ACCESS_REFUSED, class REPORTED. -/
def wldAccessRefused := 0o0401
/-- WLD_OWNER_REFUSED, class REPORTED. -/
def wldOwnerRefused := 0o0402
/-- WLD_KEY_REFUSED, class REPORTED. -/
def wldKeyRefused := 0o0403
/-- WLD_SOURCE_REFUSED, class REPORTED. -/
def wldSourceRefused := 0o0404
/-- IVC_UNROUTED, class REPORTED. -/
def ivcUnrouted := 0o0501
/-- IVC_COUNT_SAT, class REPORTED. -/
def ivcCountSat := 0o0502
/-- SLC_QUEUE_UNDEFINED, class REPORTED. -/
def slcQueueUndefined := 0o0601
/-- SLC_RING_OVERFLOW, class REPORTED. -/
def slcRingOverflow := 0o0602
/-- SLC_RELEASE_BAD, class REPORTED. -/
def slcReleaseBad := 0o0603
/-- SLC_DATA_ERROR, class REPORTED. -/
def slcDataError := 0o0604
/-- SLC_DELIVERY_ABANDONED, class REPORTED. -/
def slcDeliveryAbandoned := 0o0605
/-- SLC_DELIVERY_STALLED, class REPORTED. -/
def slcDeliveryStalled := 0o0606
/-- CUL_NO_RECORD, class REPORTED. -/
def culNoRecord := 0o0701
/-- CUL_CQ_FULL, class REPORTED. -/
def culCqFull := 0o0702
/-- CUL_KCMD_REFUSED, class REPORTED. -/
def culKcmdRefused := 0o0703
/-- CHT_INSERT_FULL, class REPORTED. -/
def chtInsertFull := 0o1001
/-- CHT_STASH_HIGH, class REPORTED. -/
def chtStashHigh := 0o1002
/-- CHT_ACTION_BADQ, class REPORTED. -/
def chtActionBadq := 0o1003
/-- CHT_RESULT_HELD, class REPORTED. -/
def chtResultHeld := 0o1004
/-- CHT_TABLE_ERROR, class REPORTED. -/
def chtTableError := 0o1005
/-- CHT_TABLE_WRITE, class REPORTED. -/
def chtTableWrite := 0o1006
/-- CHT_CACHE_CORRECTED, class CORRECTED. -/
def chtCacheCorrected := 0o1007
/-- CHT_CHANNEL_BUSY, class REPORTED. -/
def chtChannelBusy := 0o1010
/-- VIF_SHADOW_LOST, class REPORTED. -/
def vifShadowLost := 0o1101
/-- VIF_SYNC_TIMEOUT, class REPORTED. -/
def vifSyncTimeout := 0o1102
/-- VIF_HOST_REFUSED, class REPORTED. -/
def vifHostRefused := 0o1103
/-- VIF_FLR_LATE, class REPORTED. -/
def vifFlrLate := 0o1104
/-- VIF_CTL_BAD, class REPORTED. -/
def vifCtlBad := 0o1105
/-- PRT_LANE_FAULT, class REPORTED. -/
def prtLaneFault := 0o1201
/-- PRT_LINK_UP, class REPORTED. -/
def prtLinkUp := 0o1202
/-- PRT_LINK_DOWN, class REPORTED. -/
def prtLinkDown := 0o1203
/-- PRT_LINK_DEGRADED, class REPORTED. -/
def prtLinkDegraded := 0o1204
/-- PRT_LINK_NOFLIT, class REPORTED. -/
def prtLinkNoflit := 0o1205
/-- PRT_FEC_HIGH, class REPORTED. -/
def prtFecHigh := 0o1206
/-- PRT_RX_OVERRUN, class REPORTED. -/
def prtRxOverrun := 0o1207
/-- PRT_TX_BAD, class REPORTED. -/
def prtTxBad := 0o1210
/-- PRT_TX_ABORT, class REPORTED. -/
def prtTxAbort := 0o1211
/-- PRT_TX_PAUSED_LONG, class REPORTED. -/
def prtTxPausedLong := 0o1212
/-- DRC_CORRECTED, class CORRECTED. -/
def drcCorrected := 0o1301
/-- DRC_UNCORRECTABLE, class REPORTED. -/
def drcUncorrectable := 0o1302
/-- DRC_POISON_READ, class REPORTED. -/
def drcPoisonRead := 0o1303
/-- DRC_DEVICE_FAILED, class WEAR. -/
def drcDeviceFailed := 0o1304
/-- DRC_DEVFAIL_REFUSED, class REPORTED. -/
def drcDevfailRefused := 0o1305
/-- DRC_TRAIN_FAIL, class FATAL-UNIT. -/
def drcTrainFail := 0o1306
/-- DRC_SHADOW_FAIL, class REPORTED. -/
def drcShadowFail := 0o1307
/-- DRC_FREQ_DONE, class REPORTED. -/
def drcFreqDone := 0o1310
/-- DRC_FREQ_REFUSED, class REPORTED. -/
def drcFreqRefused := 0o1311
/-- LGB_LOST, class REPORTED. -/
def lgbLost := 0o1401
/-- LGB_RECOVERED, class REPORTED. -/
def lgbRecovered := 0o1402
/-- WKT_LOSS, class REPORTED. -/
def wktLoss := 0o1501
/-- WKT_PARITY, class REPORTED. -/
def wktParity := 0o1502
/-- DBG_SESSION, class REPORTED. -/
def dbgSession := 0o1601
/-- DBG_HALT, class REPORTED. -/
def dbgHalt := 0o1602
/-- DBG_RUN_REFUSED, class REPORTED. -/
def dbgRunRefused := 0o1603
/-- DBG_SECURE_REFUSED, class REPORTED. -/
def dbgSecureRefused := 0o1604
/-- DBG_PEEK_REFUSED, class REPORTED. -/
def dbgPeekRefused := 0o1605
/-- HLT_THRESHOLD, class WEAR. -/
def hltThreshold := 0o1701
/-- HLT_SIGNAL_LOST, class REPORTED. -/
def hltSignalLost := 0o1702
/-- CORE_DOUBLE_FAULT, class FATAL-UNIT. -/
def coreDoubleFault := 0o2001
/-- CORE_LANDING_COLLISION, class REPORTED. -/
def coreLandingCollision := 0o2002
/-- CORE_DROUGHT, class REPORTED. -/
def coreDrought := 0o2003
/-- CORE_FLAG_OVERRUN, class REPORTED. -/
def coreFlagOverrun := 0o2004
/-- L1_PARITY_CLEAN, class CORRECTED. -/
def l1ParityClean := 0o2005
/-- L1_PARITY_DIRTY, class FATAL-UNIT. -/
def l1ParityDirty := 0o2006
/-- L1_PARITY_LOCAL, class REPORTED. -/
def l1ParityLocal := 0o2007
/-- CACHE_LOCK_FULL, class REPORTED. -/
def cacheLockFull := 0o2010
/-- CACHE_LOCK_DROPPED, class REPORTED. -/
def cacheLockDropped := 0o2011
/-- CACHE_RANGE_FULL, class REPORTED. -/
def cacheRangeFull := 0o2012
/-- TMEM_CORRECTED, class CORRECTED. -/
def tmemCorrected := 0o2013
/-- TMEM_UNCORRECTABLE, class REPORTED. -/
def tmemUncorrectable := 0o2014
/-- IVC_STACK_FAULT, class REPORTED. -/
def ivcStackFault := 0o2015
/-- IVC_STACK_HALT, class FATAL-UNIT. -/
def ivcStackHalt := 0o2016
/-- WDOG_EXPIRED, class REPORTED. -/
def wdogExpired := 0o2017
/-- WDOG_HALT, class FATAL-UNIT. -/
def wdogHalt := 0o2020
end Sys2Proof.Machine.Code
end

