-- ==== Sys2Proof/Config.lean ====
section
/-! DEFINITION. Config.lean: what an implementation fixes and the spec leaves open. Every constant here is opaque: no
proof can see its value, so a claim that mentions one holds for every value. -/

namespace Sys2Proof.Config

/-- The value of a result that the spec leaves open, at a numbered site and for the operands given. One free value for
every site; notes/assumptions lists the sites. DESIGN CHOICE: log entry 7. -/
opaque openValue (site : Nat) (operands : List Int) : Nat

/-- The key hash that is fused into the module at manufacture (R58): a value of one module. DESIGN CHOICE: log entry
15. -/
opaque fusedKeyHash : Nat

/-- The module-unique key, derived from fuses, under which the vault engine encrypts (R44): 64 octets as a number. No world
can read it. DESIGN CHOICE: log entry 70. -/
opaque vaultKey : Nat

/-- The hash of a vault region list (R45, R48): the spec names no hash function. DESIGN CHOICE: log entry 16. -/
opaque regionHash (regions : List (Nat × Nat)) : Nat

/-- The Device Serial Number that every PF of a host port group carries: the spec gives no value (R363). A free value: log
entry 56. -/
opaque deviceSerial : Nat → BitVec 64

end Sys2Proof.Config
end

