-- ==== Sys2Proof/Machine/Image.lean ====
section
/-! DEFINITION. Image.lean: reading the Bearing image (R57) octet by octet. -/

namespace Sys2Proof.Machine

/-- Octet `o` of a copy; an erased octet reads 255. -/
def imgOct (c : SMap Nat) (o : Nat) : Nat := mget 255 c o % 256

/-- A little-endian field of `n` octets at octet `o` (R57). -/
def imgLe (c : SMap Nat) (o : Nat) : Nat → Nat
  | 0 => 0
  | n + 1 => imgOct c o + 256 * imgLe c (o + 1) n

/-- `n` octets from octet `o`, in order. -/
def imgOcts (c : SMap Nat) (o n : Nat) : List Nat := (List.range n).map fun i => imgOct c (o + i)

/-- Whether `n` octets from `o` are all zero. -/
def imgZero (c : SMap Nat) (o n : Nat) : Bool :=
  (List.range n).all fun i => imgOct c (o + i) == 0

/-- NSECT of the header. -/
def imgNsect (c : SMap Nat) : Nat := imgLe c 24 4

/-- SEQ of the header. -/
def imgSeq (c : SMap Nat) : Nat := imgLe c 12 4

/-- LENGTH of the header. -/
def imgLength (c : SMap Nat) : Nat := imgLe c 16 8

/-- The (ID, OFFSET, LENGTH) of entry `i` of the section table. -/
def imgSect (c : SMap Nat) (i : Nat) : Nat × Nat × Nat :=
  (imgLe c (192 + 16 * i) 4, imgLe c (192 + 16 * i + 8) 4, imgLe c (192 + 16 * i + 12) 4)

/-- The offset and length of the section with an ID, when the table holds it. -/
def imgFind (c : SMap Nat) (id : Nat) : Option (Nat × Nat) :=
  ((List.range (min (imgNsect c) 16)).find? fun i => (imgSect c i).1 == id).map fun i => (imgSect c i).2

/-- A field of `n` octets at offset `o` of the section `id`; all ones when the section is absent, so that an expert
field takes its default. -/
def secLe (c : SMap Nat) (id o n : Nat) : Nat :=
  match imgFind c id with
  | none => 256 ^ n - 1
  | some (base, _) => imgLe c (base + o) n

/-- An expert field: the default where its octets are all ones (R59). -/
def secExpert (c : SMap Nat) (id o n dflt : Nat) : Nat :=
  let v := secLe c id o n
  if v = 256 ^ n - 1 then dflt else v

/-- The record of a tile lies in the TRACE section: an absent section or record leaves streaming off (R424). -/
def hasTrace (c : SMap Nat) (t : Nat) : Bool := match imgFind c 13 with
  | none => false
  | some (_, len) => decide (64 + 32 * (t + 1) ≤ len)

end Sys2Proof.Machine
end

