-- ==== Sys2Proof/Machine/Parts.lean ====
section
/-! DEFINITION. Parts.lean: the state of each unit, as plain data. Default values are the values at start (R6). -/

namespace Sys2Proof.Machine

/-- The start states and side states of R54. -/
inductive Phase
  | dark | charge | probe | load | test | lock | run | helm | ride | vault
  deriving DecidableEq, Repr

/-- A fault report (R453): the fields of the report word and the data double. -/
structure Report where
  unit : Nat
  cls  : Nat
  code : Nat
  inst : Nat
  data : Double
  deriving DecidableEq, Repr

/-- A logbook record (R403). -/
structure LogRec where
  opsec   : Nat := 0
  pcc     : Nat := 0
  unit    : Nat := 0
  cls     : Nat := 0
  code    : Nat := 0
  inst    : Nat := 0
  lastsec : Nat := 0
  data    : Double := 0
  rep     : Nat := 0
  frac    : Nat := 0
  state   : Nat := 0
  check   : Nat := 0
  deriving DecidableEq, Repr

/-- A key slot: its type (0 when empty, R306) and its material. -/
structure KeySlot where
  typ : Nat := 0
  mat : BitVec 512 := 0
  deriving DecidableEq, Repr

/-- The world assignments that LOCK step 1 writes (R231). -/
structure Worlds where
  locked : Bool := false
  dwm    : Nat := 0
  hwm    : Nat := 0
  kwm    : Nat := 0
  iwm    : Nat := 0
  blocks : BitVec 16 := 0
  quads  : BitVec 24 := 0
  tiles  : BitVec 48 := 0
  twm    : SMap Nat := []
  acc    : Nat := 0
  own    : Nat := 0
  deriving DecidableEq, Repr

/-- A vault image in a slot of persistence flash (R44–R46). The closing record gives the region list, the complete-region
mask, the poison count and the CRC-64 of each complete region. `lost` and `bad` are the poison marks: ranges of lines and the
subchannels whose lines in them are poisoned, and the lines that differ from that. `units` are the enciphered data units:
key slots, world assignments and memory; one that is not listed deciphers to zeros. DEDUCED: log entry 59. DESIGN CHOICE:
log entry 70. -/
structure VaultImage where
  regions : List (Nat × Nat)
  done    : Nat
  poison  : Nat
  units   : SMap (List Nat)
  bad     : SMap Bool
  lost    : List (Nat × Nat × BitVec 32)
  crcs    : List Nat
  deriving DecidableEq, Repr

/-- Progress through the vault sequence (R43). -/
inductive VaultStage
  | idle | entered | stopped | closed
  deriving DecidableEq, Repr

/-- One copy of the Bearing image in boot flash: its octets, an erased octet reading 255 (R57). -/
abbrev FlashCopy := SMap Nat

/-- What outlives DARK: boot flash, persistence flash and the MRAM state area and records (R54, R402). DESIGN CHOICE:
log entry 5. -/
structure Persist where
  copyA     : FlashCopy := []
  copyB     : FlashCopy := []
  slot0     : Option VaultImage := none
  slot1     : Option VaultImage := none
  newest    : Option Bool := none
  spare0    : Nat := 4095
  spare1    : Nat := 4095
  spareBoot : Nat := 4095
  erases    : Nat := 0
  lastVault : Nat := 0
  pcc       : Nat := 0
  opsec     : Nat := 0
  total     : Nat := 0
  records   : SMap LogRec := []
  alertSeq  : Option Nat := none
  alertAns  : Option Nat := none
  retired   : BitVec 52 := 0
  failDev   : SMap Nat := []
  causes    : BitVec 8 := 0
  deriving DecidableEq, Repr

/-- The power stage, the reservoir and the vault engine (chapter 02). `excur` holds during an excursion of the input
that PWR_INPUT_RANGE has reported, and `vaultOff` once the vault sequence has switched the tile and quad islands off.
DESIGN CHOICE: log entry 4. -/
structure Power where
  pin       : Nat := 0
  vin       : Nat := 0
  freq      : Nat := 0
  loss      : Bool := false
  crit      : Nat := 0
  discon    : Bool := false
  dcIn      : Bool := false
  excur     : Bool := false
  ceilLow   : Bool := false
  line      : Nat := 0
  pstat     : Nat := 0
  temp      : Nat := 0
  esr       : Nat := 0
  cap       : Nat := 0
  worn      : Bool := false
  ready     : Bool := false
  required  : Nat := 0
  usable    : Nat := 0
  vPoison   : Nat := 0
  vDone     : Nat := 0
  vSlot     : Bool := false
  vRestore  : Nat := 0
  vLast     : Nat := 0
  coolOut   : Bool := false
  flow      : Nat := 0
  inlet     : Nat := 0
  reprobing : Bool := false
  chargeOff : Bool := false
  tmoVolt   : Option Nat := none
  waitFrom  : Nat := 0
  rideFrom  : Nat := 0
  rideHelm  : Bool := false
  reqHeld   : Bool := false
  foundReady : Bool := false
  vault     : VaultStage := .idle
  vaultFrom : Nat := 0
  vaultTb   : Nat := 0
  vaultEnd  : Nat := 0
  vaultStop : Option Nat := none
  stopAt    : Nat := 0
  vaultOff  : Bool := false
  deriving DecidableEq, Repr

/-- Start and configuration (chapter 03). DESIGN CHOICE: log entry 4. -/
structure Cfg where
  phase   : Phase := .dark
  hnoalt  : Bool := false
  hwait   : Bool := false
  copy    : Nat := 0
  held    : Bool := false
  loadIn  : Bool := false
  seq     : Nat := 0
  tileSt  : SMap Nat := []
  lmap    : SMap (Option PTileId) := []
  off     : SMap Bool := []
  pend    : Bool := false
  palt    : Nat := 0
  noAlt   : Bool := false
  cur     : Nat := 0
  nalt    : Nat := 0
  updBusy : Bool := false
  updOp   : Nat := 0
  updB    : Bool := false
  updLine : Nat := 0
  updVal  : Nat := 0
  updRes  : Nat := 0
  updBuf  : SMap Nat := []
  early   : Bool := false
  deriving DecidableEq, Repr

/-- The power state of a tile (PSTATE codes 0–3). -/
inductive TileState
  | run | nap | darkKeep | darkLose
  deriving DecidableEq, Repr

/-- The island unit's record of a logical tile (chapter 04). `volt` is the step whose supply the island had at the time
`since`, from which a raise ramps; `supplyBy` the tiles that cause its supply hold, `tempBy` the islands that cause a
temperature hold; `droop` is 1 + the percentage by which a droop stretches the tile's cycles (0 for no droop) and `stretch`
the drooping neighbours for which it stretches too; `closing` holds while a
tile that has gone dark still has power; the chronometer copy differs from the master by `copyDiff` at `copyAt`
and had reached `copyMin` then. -/
structure TileIsl where
  pstate   : Nat := 0
  req      : Nat := 15
  state    : TileState := .darkLose
  pend     : Nat := 0
  ceil     : Nat := 0
  step     : Nat := 0
  target   : Nat := 0
  changing : Bool := false
  volt     : Nat := 0
  since    : Nat := 0
  supplyBy : List Nat := []
  holdLo   : Nat := 15
  holdHi   : Nat := 15
  tempOn   : Bool := false
  tempHold : Nat := 15
  tempBy   : List Nat := []
  droop    : Nat := 0
  stretch  : List Nat := []
  copyDiff : Int := 0
  copyAt   : Nat := 0
  copyMin  : Nat := 0
  exiting  : Bool := false
  closing  : Bool := false
  deriving DecidableEq, Repr

/-- The island unit (chapter 04). `hubDiff` holds the quads' chronometer copies as TileIsl holds a tile's, and `high` the
pairs of islands, 128 × hotter + other, in which a hub or quad is too hot; `hot` are the physical tiles that the thermal
throttle holds (R50). -/
structure Islands where
  chron  : Nat := 0
  tiles  : SMap TileIsl := []
  tj     : SMap Nat := []
  hubDiff : SMap (Int × Nat × Nat) := []
  high   : SMap Bool := []
  hot    : SMap Bool := []
  deriving DecidableEq, Repr

/-- An entry of the log queue: the report, its time, the power-cycle count and whether it folds (R403, R405, R406). -/
structure LogEntry where
  rep   : Report
  opsec : Nat
  frac  : Nat
  pcc   : Nat
  fold  : Bool
  deriving DecidableEq, Repr

/-- The newest record of this power cycle, as the fold comparison needs it (R406). -/
structure NewestRec where
  num  : Nat
  unit : Nat
  cls  : Nat
  code : Nat
  inst : Nat
  rep  : Nat
  deriving DecidableEq, Repr

/-- A signal element waiting to be posted (R459): w, the report, the record number when logged, the acceptance time
and whether its data are withheld. -/
structure Signal where
  w     : Nat
  queue : Nat
  rep   : Report
  recNo : Option Nat
  time  : Nat
  hide  : Bool
  deriving DecidableEq, Repr

/-- The health unit (chapter 19). -/
structure Health where
  waiting  : List Report := []
  logq     : List LogEntry := []
  newest   : Option NewestRec := none
  signals  : List Signal := []
  cnt      : SMap Nat := []
  repl     : BitVec 8 := 0
  siglost  : SMap Nat := []
  lost     : Nat := 0
  lostPend : Nat := 0
  signalOn : Bool := false
  deriving DecidableEq, Repr

/-- An index and latch of the logbook readout (R410). -/
structure LogLatch where
  idx   : Nat := 0
  rstat : Nat := 0
  words : List Word := List.replicate 8 0
  deriving DecidableEq, Repr

/-- The logbook's volatile part: its two latches, the start of the unfinished second, and the SMBus target (chapter
17): what it last gave, the PEC of that, and whether it acknowledged. DESIGN CHOICE: log entry 53. -/
structure Logbook where
  own     : LogLatch := {}
  smb     : LogLatch := {}
  secFrom : Nat := 0
  addr    : Nat := 0
  alert   : Bool := false
  selWin  : Nat := 0
  selOff  : Nat := 0
  selOk   : Bool := false
  answer  : List Nat := []
  pec     : Nat := 0
  acked   : Bool := true
  deriving DecidableEq, Repr

/-- A result in flight or held (R144, R123): its identity, destination (0–63 general, 64 lk, 65 none), slot, the contract
cycle it is due (for a held result, its remaining count), value, floating-point flags, DZ and OV, whether it occupies
S2, its world, whether it belongs to the floating-point group, its issue cycle, and the miss it waits for. -/
structure Landing where
  id     : Nat
  reg    : Nat
  slot   : Nat
  due    : Nat
  val    : Double
  flags  : Nat := 0
  dz     : Bool := false
  ov     : Bool := false
  busy   : Bool := false
  sec    : Bool := false
  fp     : Bool := false
  issued : Nat := 0
  miss   : Option Nat := none
  deriving DecidableEq, Repr

/-- The registers that exist once for each world (R103, TCTL, TBASE). -/
structure Bank where
  vbase  : Nat := 0
  epc    : Nat := 0
  etgt   : Nat := 0
  ecause : Word := 0
  eval   : Nat := 0
  tctl   : Bool := false
  tbase  : Nat := 0
  deriving DecidableEq, Repr

/-- A store to the core's own tile memory or to a cached line that the other cores cannot see yet (R148), or that a
locked sequence holds (R131): the line, the stored bits replaced, their value, for a cached line the earlier value that
the other cores still read, and the issue cycle. -/
structure PendStore where
  line   : Nat
  lo     : Nat
  width  : Nat
  val    : Nat
  old    : Nat := 0
  cached : Bool := false
  issued : Nat := 0
  sec    : Bool := false
  deriving DecidableEq, Repr

/-- How a load fills its destination (R113): zeros, copies of the highest loaded bit, or the side field. -/
inductive LoadExt
  | zero | sign
  deriving DecidableEq, Repr

/-- A cache operation on one line (R212). -/
inductive LineOp
  | clean | flush | discard | fill
  deriving DecidableEq, Repr

/-- One access that waits on a miss, with the world of the core when it issued: a store's data, the landing of a load, or a
cache operation on the line. `olds` are
the stored bits (lowest, count, value) that other cores' stores replaced since the load issued: it reads those (R148). `seq`
is its place in the order in which the tile's waiting accesses issued. -/
structure MissAcc where
  op      : Option LineOp := none
  olds    : List (Nat × Nat × Nat) := []
  store   : Bool
  lo      : Nat
  width   : Nat
  val     : Nat := 0
  landing : Nat := 0
  ext     : LoadExt := .zero
  sec     : Bool := false
  seq     : Nat := 0
  deriving DecidableEq, Repr

/-- What a miss brings: a cached line, a line for DFILLK, an uncached access, or an instruction line. -/
inductive MissKind
  | line | fillLocked | uncached | fetch
  deriving DecidableEq, Repr

/-- An outstanding miss (R149–R152): its place among those of its tile, its contract cycle, its physical address (of the
access), its accesses in issue order, the size in units and the view of an uncached access, and what its data line has
brought through the crossbar: its bits, and whether they are uncorrectable (R12, R270). -/
structure Miss where
  id    : Nat
  order : Nat := 0
  got   : Option (Nat × Bool) := none
  cyc   : Nat
  kind  : MissKind
  addr  : Nat
  size  : Nat
  oct   : Bool
  side  : Bool
  sec   : Bool
  accs  : List MissAcc
  deriving DecidableEq, Repr

/-- A table walk in progress (R153, R196): the virtual address and the access that started it, with the table base, CTX
and world it began with (R204). -/
structure Walk where
  va    : Nat
  store : Bool
  fetch : Bool
  need  : Nat
  slot  : Nat
  sec   : Bool
  ctx   : Nat
  base  : Nat
  deriving DecidableEq, Repr

/-- An open locked sequence (R130–R132): the contract cycle of its LCK bundle, whether it is broken, the lines it has
reserved and the stores it holds, oldest first. -/
structure LockSeq where
  opened : Nat
  broken : Bool
  lines  : List Nat
  stores : List PendStore
  deriving DecidableEq, Repr

/-- A TLB entry (R202): a leaf's level, its virtual page and physical page numbers at that level's size, and its
attributes. -/
structure TlbEntry where
  sec : Bool
  ctx : Nat
  g   : Bool
  lvl : Nat
  va  : Nat
  pa  : Nat
  mt  : Nat
  oct : Bool
  u   : Bool
  x   : Bool
  w   : Bool
  r   : Bool
  deriving DecidableEq, Repr

/-- A frame of an L1 cache (R206): the line number, its 576 bits, dirty state, the world of its newest store, last use,
and its parity errors: bit j for word j, bit 16 for the tag, bit 17 for the state (R221). -/
structure CLine where
  line  : Nat
  bits  : Nat
  dirty : Bool := false
  sec   : Bool := false
  used  : Nat := 0
  bad   : Nat := 0
  deriving DecidableEq, Repr

/-- A line in the eviction buffer (R218): the bits its write-back sends and the world that sends them, its place among the
write-backs of its tile, whether its data has crossed to its target, whether an access waits for room to reinstall it, and
the bits it holds after stores that were served from the buffer, with the world of the newest of them; `took` when another
core has taken the responsibility to write those back (R216). -/
structure EvLine where
  line    : Nat
  bits    : Nat
  dirty   : Bool
  sec     : Bool := false
  served  : Bool := true
  victim  : Bool := true
  order   : Nat := 0
  crossed : Bool := false
  kept    : Bool := false
  later   : Option Nat := none
  newSec  : Bool := false
  took    : Bool := false
  deriving DecidableEq, Repr

/-- A frame of the priority stack (R255, R261): its level (none for base under a stack-fault frame), whether it is a
stack-fault frame, resume address, PMODE, IE, source, NMSG, OVF, and the WAITM destination whose status it carries. -/
structure Frame where
  level  : Option Nat
  fault  : Bool
  resume : Nat
  pmode  : Bool
  ie     : Bool
  src    : Nat
  nmsg   : Nat
  ovf    : Bool
  waitm  : Option Nat
  deriving DecidableEq, Repr

/-- A delivery offered to a core (R252): source, level, vector, and the order in which it fired. -/
structure Offer where
  src   : Nat
  level : Nat
  vec   : Nat
  fired : Nat
  deriving DecidableEq, Repr

/-- A WAITM freeze (R157): flag, K, the chronometer-copy limit, the destination and whether the boundary after the
WAITM bundle is a safe point. -/
structure WaitM where
  flag  : Nat
  keep  : Bool
  limit : Option Nat
  dest  : Nat
  safe  : Bool
  deriving DecidableEq, Repr

/-- A pending floating-point trap cause (R186): the flags, their world and the issue cycle of the operation. -/
structure FpCause where
  flags  : Nat
  sec    : Bool
  issued : Nat
  deriving DecidableEq, Repr

/-- A cause that a bundle in issue has met, before the bundle's end decides which is taken (R121): its rank, slot,
vector, code and value. -/
structure Cause where
  rank : Nat
  slot : Nat
  vec  : Nat
  code : Nat
  eval : Nat
  deriving DecidableEq, Repr

/-- A comparator (R448): DBG_CADDR and DBG_CCTL. -/
structure Comparator where
  addr : BitVec 72 := 0
  ctl  : Word := 0
  deriving DecidableEq, Repr

/-- A core's side of the wake trace (R416–R419): the BRANCH accumulator, the delta base, the packets of its FIFO, the
words lost, the words written since its last SYNC, the SYNC owed before the next bundle, whether WCALL stopped it, whether the
buffer has lost packets of it, the REASON and bundle of a SYNC that waits for that bundle to issue, whether what precedes
the bundle in issue has been emitted, and the bundle of a return whose TARGET follows the SYNC owed there. -/
structure CoreTrace where
  acc    : List Bool := []
  base   : Option Nat := none
  fifo   : List (List Word) := []
  lostW  : Nat := 0
  since  : Nat := 0
  owed   : Option Nat := none
  hidden : Bool := false
  full   : Bool := false
  named  : Option (Nat × Nat) := none
  begun  : Bool := false
  ret    : Option Nat := none
  deriving DecidableEq, Repr

/-- A watchdog (R263–R265): EN, PERIOD, REMAIN at an instant of the island copy, and STATE. -/
structure Watchdog where
  en     : Bool := false
  period : Nat := 0
  remain : Nat := 0
  from'  : Nat := 0
  state  : Nat := 0
  deriving DecidableEq, Repr

/-- A debug halt in force (R442): CAUSE, the comparators, whether it broke a locked sequence or deferred a monitor match,
and whether the core dozed, waited or was fenced before it. -/
structure HaltInfo where
  cause  : Nat
  cmp    : Nat := 0
  lkbrk  : Bool := false
  mdef   : Bool := false
  dozed  : Bool := false
  deriving DecidableEq, Repr

/-- A drought not yet recorded: the bundle that reached it, its world, DR and TDR as it issued, and whether its own MTS
cleared DR, which acts after the set (R102, R163). -/
structure Drought where
  pc      : Nat
  sec     : Bool
  dr      : Bool
  tdr     : Bool
  cleared : Bool := false
  deriving DecidableEq, Repr

/-- A core (chapters 05–10, 18). `dueAt` is a drought not yet recorded; `frozen` holds while the core waits for every
outstanding line (R152); `cleared` is an arrival flag that a wait cleared for the bundle that issues next (R157); `served`
is an instruction line that has come and that no way takes (R207); `stepped` holds at the boundary where a step has halted
the core (R444). DESIGN CHOICE: log entry 4. -/
structure Core where
  on      : Bool := false
  regs    : SMap Double := []
  lk      : Double := 0
  fs      : Word := 0
  sec     : Bool := false
  kernel  : Bool := true
  ex      : Bool := false
  tdr     : Bool := false
  tlc     : Bool := false
  ie      : Bool := false
  lb      : Bool := false
  ov      : Bool := false
  dz      : Bool := false
  dr      : Bool := false
  lc      : Bool := false
  ctx     : BitVec 16 := 0
  secB    : Bank := {}
  norB    : Bank := {}
  wra     : Nat := 0
  pc      : Nat := 0
  dly     : Nat := 0
  tgt     : Nat := 0
  cyc     : Nat := 0
  nid     : Nat := 0
  slot    : Nat := 0
  cause   : Option Cause := none
  taken   : Option Nat := none
  later   : List (Nat × Double) := []
  s2coll  : Option Nat := none
  dueAt   : Option Drought := none
  passCmp : List Nat := []
  resend  : Bool := false
  flight  : List Landing := []
  held    : List Landing := []
  drought : Nat := 0
  fpPend  : List FpCause := []
  ctPend  : List (Nat × Bool) := []
  fbars   : List (Nat × Nat) := []
  hbars   : List (Nat × Nat) := []
  statDue : Option Nat := none
  seq     : Option LockSeq := none
  misses  : List Miss := []
  walk    : Option Walk := none
  frozen  : Bool := false
  stores  : List PendStore := []
  dozing  : Bool := false
  cleared : Option Nat := none
  served  : Option Nat := none
  wait    : Option WaitM := none
  fence   : Bool := false
  fatal   : Bool := false
  halt    : Option HaltInfo := none
  haltReq : Option Nat := none
  haltCmp : Nat := 0
  haltNow : Bool := false
  step    : Bool := false
  stepped : Bool := false
  maskI   : Bool := false
  brkH    : Bool := false
  hout    : Nat := 0
  rin     : Nat := 0
  hin     : Nat := 0
  comps   : SMap Comparator := []
  mdef    : Nat := 0
  stack   : List Frame := []
  offers  : List Offer := []
  fpend   : Option Nat := none
  badcnt  : Nat := 0
  tlb1    : List TlbEntry := []
  tlb2    : List TlbEntry := []
  dway    : BitVec 16 := 0
  iway    : BitVec 16 := 0
  dcache  : SMap (Option CLine) := []
  icache  : SMap (Option CLine) := []
  local'  : SMap Nat := []
  lbad    : SMap Bool := []
  evict   : List EvLine := []
  relock  : SMap Nat := []
  irelock : SMap Nat := []
  ranges  : List (Nat × Nat × Bool) := []
  clock   : Nat := 0
  flags   : BitVec 16 := 0
  ovr     : BitVec 16 := 0
  lccnt   : Nat := 0
  drcnt   : Nat := 0
  lastReg : Nat := 0
  lastWin : Nat := 0
  lastLose : Nat := 0
  lastKind : Bool := false
  dmax    : Nat := 0
  crcPoly : Nat := 0
  ldrop   : Nat := 0
  pclean  : Nat := 0
  vhit    : Nat := 0
  wd      : Watchdog := {}
  trace   : CoreTrace := {}
  deriving DecidableEq, Repr

/-- The wake unit and the memory-error counts of a tile (chapters 08, 17); `order` counts its misses and write-backs, and
`issued` holds the cores that have issued since the last cycle of the wake unit, which stands at `wakeAt`. `fulls` are the hub
cycles since which the full lines from number `fullsAt` on have stood ready for the drain. -/
structure Tile where
  order   : Nat := 0
  corr    : Nat := 0
  unc     : Nat := 0
  bmode   : Bool := false
  syncper : Nat := 0
  cen     : BitVec 8 := 0
  full    : Bool := false
  wrapped : Bool := false
  perr    : Bool := false
  widx    : Nat := 0
  lossw   : Nat := 0
  ridx    : Nat := 0
  buf     : SMap Word := []
  bufBad  : SMap Bool := []
  used    : Nat := 0
  drained : Nat := 0
  tileQ   : List (List Word) := []
  lostBuf : Nat := 0
  reason  : Nat := 0
  unrep   : Nat := 0
  repAt   : Option Nat := none
  rr      : Nat := 0
  issued  : BitVec 8 := 0
  wakeAt  : Nat := 0
  fulls   : List Nat := []
  fullsAt : Nat := 0
  wptr    : Nat := 0
  rdptr   : Nat := 0
  darkW   : Nat := 0
  deriving DecidableEq, Repr

/-- A doorbell on its way to the router: source, requester code and world (R245). -/
structure Bell where
  src  : Nat
  code : Nat
  sec  : Bool
  deriving DecidableEq, Repr

/-- IVC_ROUTEs (R248). -/
structure Route where
  tile   : Nat := 0
  core   : Nat := 0
  level  : Nat := 0
  vec    : Nat := 0
  routed : Bool := false
  en     : Bool := false
  ccount : Nat := 0
  ctime  : Nat := 0
  deriving DecidableEq, Repr

/-- The window and pending delivery of a source (R249, R250, IVC_SSTATs): `t0` is the timer's start and `order` its
place in firing order. -/
structure SrcState where
  unr    : Bool := false
  ovf    : Bool := false
  timer  : Bool := false
  fired  : Bool := false
  nfired : Nat := 0
  cnt    : Nat := 0
  t0     : Nat := 0
  order  : Nat := 0
  deriving DecidableEq, Repr

/-- The interrupt message router (chapter 10): doorbells not yet accepted, routes, windows, fired sources not yet
launched and launched deliveries not yet offered, oldest first. -/
structure Router where
  bells  : List Bell := []
  routes : SMap Route := []
  srcs   : SMap SrcState := []
  fires  : Nat := 0
  wait   : List Nat := []
  flying : List Nat := []
  deriving DecidableEq, Repr

/-- An access of the debug master (R436): its DCMD value, whether it has been performed at its target, and then its result
and REASON (0 for success). -/
structure DbgAccess where
  cmd    : Nat
  done   : Bool := false
  result : Nat := 0
  reason : Nat := 0
  deriving DecidableEq, Repr

/-- What the port drove for the newest frame (R430, R431): the 5 bits of the response, the 40 bits of the data phase of
a read, and the 5 bits of the receipt of a write. -/
structure DbgAnswer where
  response : Nat
  data     : Nat := 0
  receipt  : Option Nat := none
  deriving DecidableEq, Repr

/-- The debug unit (chapter 18). `pulses` are channel pulses on their way: the channels, and the tile they come from, or
48 from the hub. Then XTRIG_OUT, and the two-wire port: whether it is desynchronised, whether it has answered a frame,
its last performed write, its registers, the access in progress, and what it drove for the newest frame. -/
structure DebugUnit where
  pulses : List (Nat × Nat) := []
  outch  : Nat := 0
  inch   : Nat := 0
  xout   : Bool := false
  xoutTo : Nat := 0
  desync : Bool := true
  began  : Bool := false
  hasSeq : Bool := false
  lseq   : Bool := false
  keptReg  : Nat := 0
  keptData : Nat := 0
  fault  : Bool := false
  reason : Nat := 0
  addr   : Nat := 0
  data   : Nat := 0
  access : Option DbgAccess := none
  answer : Option DbgAnswer := none
  deriving DecidableEq, Repr

/-- A queue record (R271): ring in DRAM or hub memory, lines per element, ring size, kind, first ring line, landing place,
culvert, and doorbell. -/
structure QRec where
  rdram  : Bool := false
  elines : Nat := 1
  rsz    : Nat := 0
  culv   : Bool := false
  rbase  : Nat := 0
  tile   : Nat := 0
  core   : Nat := 0
  flag   : Nat := 0
  lsz    : Nat := 0
  lbase  : Nat := 0
  cul    : Nat := 0
  dbe    : Bool := false
  src    : Nat := 0
  deriving DecidableEq, Repr

/-- The state of a queue (R273, R276). -/
structure QState where
  head   : Nat := 0
  tail   : Nat := 0
  dcount : Nat := 0
  rcount : Nat := 0
  stop   : Bool := false
  busy   : Bool := false
  deriving DecidableEq, Repr

/-- A ditch: its record (R271) and its state (SLC_DSTATd). -/
structure Ditch where
  qfirst : Nat := 0
  nq     : Nat := 0
  burst  : Nat := 0
  last   : Nat := 0
  own    : Nat := 0
  don    : Nat := 0
  deriving DecidableEq, Repr

/-- What a line bound in the crossbar is: line `k` of element `pos` of a grant of queue `q`, read from ring line `line`;
line `idx` that culvert `c` reads from `line` (from a quad's ingress buffer when none); the next destination line of
culvert `c`'s transfer; the data of miss `id` of core `i`, to it or from it; write-back `order` of core `i`; a table
line that the chart engine reads; line `idx` of read `num` of the shadow page of VI `v`; octets of the host, from
position `off` of the stream that culvert `c` reads; 16 trace words of tile `t` for ring line `line` (R425); or a line
that a requester read, with the uncorrectable mark or without (R384). -/
inductive Cargo
  | elem (q pos k line : Nat)
  | source (c idx : Nat) (line : Option Nat)
  | dest (c : Nat)
  | miss (i id line : Nat)
  | back (i order line : Nat)
  | tableRead (line : Nat)
  | page (v num idx line : Nat)
  | host (c off : Nat) (octets : List Nat)
  | drain (t line bits : Nat)
  | data (code line bits : Nat) (bad : Bool)
  deriving DecidableEq, Repr

/-- A line bound from a source port to a destination port (R268), with the hub cycle in which it became bound. -/
structure BLine where
  src   : Nat
  dst   : Nat
  since : Nat
  cargo : Cargo
  deriving DecidableEq, Repr

/-- A delivery that has not committed (R282): its elements, lines not yet launched, lines launched, ERRMASK, the state
of its header (0 lines to come, 1 waiting for its connection, 2 connected), and whether it was reported as stalled. -/
structure Deliv where
  n        : Nat
  left     : Nat
  launched : Nat
  err      : Nat
  hdr      : Nat
  stalled  : Bool
  deriving DecidableEq, Repr

/-- An item in a crossing to a tile: a whole or partial line with the stored bits it replaces, the requester, the
arrival flag that its arrival sets (R283, R308), the source that its delivery rang, whose interrupt follows it (R283), the
core and miss whose uncached store it performs; or the answer to a core's miss, or the interrupt message of a source. -/
structure XItem where
  tile  : Nat
  line  : Nat := 0
  parts : List (Nat × Nat × Nat) := []
  rq    : Sys2Proof.Req := ⟨0, false⟩
  flag  : Option (Nat × Nat) := none
  bell  : Option Nat := none
  store : Option (Nat × Nat) := none
  reply : Option (Nat × Nat) := none
  intr  : Option Nat := none
  deriving DecidableEq, Repr

/-- The sluice engine and the crossbar (chapter 11). `pat` is the alternate and the pattern of the newest hub cycle;
`joined` are the connections (source, destination) that the hub formed in it under the management schedule; `spent` are the
destinations whose connection in it has been used, and `touched` the memory lines that its requests have reached. `toHub`
are the lines bound by an item that a tile has sent and that has not arrived in the hub (R161). -/
structure Slc where
  mode    : Nat := 0
  slot    : Nat := 0
  next    : Nat := 0
  cycle   : Nat := 0
  tide    : Nat := 0
  idle    : Nat := 0
  don     : Nat := 0
  xconn   : Nat := 0
  xlines  : Nat := 0
  cIdle   : Nat := 0
  cDon    : Nat := 0
  cConn   : Nat := 0
  cLines  : Nat := 0
  qrecs   : SMap (Option QRec) := []
  ditches : SMap Ditch := []
  queues  : SMap QState := []
  rptr    : SMap Nat := []
  mgmtPtr : Nat := 0
  bound   : List BLine := []
  delivs  : SMap (Option Deliv) := []
  headers : List Nat := []
  xing    : List XItem := []
  pat     : Option (Nat × Nat) := none
  joined  : List (Nat × Nat) := []
  spent   : List Nat := []
  touched : List Nat := []
  toHub   : List BLine := []
  deriving DecidableEq, Repr

/-- A descriptor element as a culvert receives it (R297): its lines 0 and 1, its queue and that queue's world, and whether
an abort removed it before it was checked (R310). -/
structure Desc where
  l0     : Nat
  l1     : Nat
  elines : Nat
  queue  : Nat
  sec    : Bool
  cut    : Bool := false
  deriving DecidableEq, Repr

/-- A destination line of a transfer that the culvert has not launched: stored bits of a module line, a host write, or a
line of a quad's egress buffer; with the octets of the stream that it writes. -/
inductive OutKind
  | mem (line : Nat) (parts : List (Nat × Nat × Nat))
  | host (addr : Nat) (octets : List Nat)
  | quad (q bits : Nat)
  deriving DecidableEq, Repr

/-- See `OutKind`. -/
structure OutItem where
  kind   : OutKind
  octets : Nat
  deriving DecidableEq, Repr

/-- The stages of a held descriptor (R295, R307): waiting, moving lines, past its completion point or ended early. -/
inductive Stage
  | waiting | moving | pointed
  deriving DecidableEq, Repr

/-- The result of a chart lookup as it reaches the culvert (R323, R325). -/
structure Look where
  hit    : Bool
  stash  : Bool
  err    : Bool
  pos    : Nat
  action : Nat
  deriving DecidableEq, Repr

/-- A held descriptor (R295) and its transfer: source lines awaited and received, host octets received by position of the
stream, destination lines not yet launched, whether its last line has its connection, what its record will hold, the first
failing line or octet with its address, the status that it gives, and its chart lookup: the key, its number, the result,
and whether its element is written, held, or has had its wrong queue reported. `unasked` are the host read requests not yet
sent (address, octets), `reqs` those outstanding, with the time each was sent (R360); `told` whether a refused host request
of it was reported (R348), `lastAt` the hub cycle in which its last line was taken to the destination (R369). -/
structure Held where
  desc   : Desc
  stage  : Stage := .waiting
  need   : Nat := 0
  got    : SMap Nat := []
  octets : List (Nat × List Nat) := []
  outs   : List OutItem := []
  ready  : Bool := false
  last   : Bool := false
  done   : Nat := 0
  status : Nat := 0
  crc    : Nat := 0
  ntrunc : Nat := 0
  eaddr  : Nat := 0
  gtag   : Nat := 0
  fail   : Option (Nat × Nat) := none
  failSt : Nat := 0o13
  full   : Bool := false
  key    : Option Nat := none
  lookup : Nat := 0
  look   : Option Look := none
  elem   : Bool := false
  elHeld : Bool := false
  elBadq : Bool := false
  unasked : List (Nat × Nat) := []
  reqs   : List (Nat × Nat × Nat) := []
  told   : Bool := false
  lastAt : Nat := 0
  deriving DecidableEq, Repr

/-- A culvert (chapter 12): lines of elements it is receiving, by (16 × queue + position) × 4 + line, received elements not
yet checked, descriptors held, elements that an abort removed before they had arrived, STATUS of the last record, and the
abort outcome of each world. -/
structure Culvert where
  lines  : SMap (Option Nat) := []
  queued : List Desc := []
  held   : List Held := []
  cut    : List Nat := []
  lstat  : Nat := 0
  astatS : Nat := 0
  astatN : Nat := 0
  deriving DecidableEq, Repr

/-- A lookup (R320): its culvert, world, masked key words and number. -/
structure Lookup where
  cul : Nat
  sec : Bool
  key : Nat
  num : Nat := 0
  deriving DecidableEq, Repr

/-- A host read request that was outstanding as its descriptor's record was written (R360): its culvert, the VI, where
the stream began, its address and octets, and when it was sent. PRESUMED: log entry 56. -/
structure LateReq where
  cul  : Nat
  vi   : Nat
  base : Nat
  addr : Nat
  len  : Nat
  sent : Nat
  deriving DecidableEq, Repr

/-- The culverts, their two key buffers, the newest host write that one of them sent (VI, address, octets) and the host
read requests that the newest command to send any sent (VI, address, number of octets). `late` are
the host reads outstanding of descriptors no longer held; `lane` holds the keys that wait on key lanes (R320), and `looks`
counts them. PRESUMED: log entry 56. -/
structure Culverts where
  culs   : SMap Culvert := []
  kbufS  : BitVec 512 := 0
  kbufN  : BitVec 512 := 0
  wrote  : Option (Nat × Nat × List Nat) := none
  asked  : List (Nat × Nat × Nat) := []
  late   : List LateReq := []
  lane   : List Lookup := []
  looks  : Nat := 0
  deriving DecidableEq, Repr

/-- An entry of a VI's error log (R340). -/
structure ErrEnt where
  code   : Nat := 0
  detail : Nat := 0
  time   : Nat := 0
  deriving DecidableEq, Repr

/-- An MSI-X vector of a VI: its coalescing window and its table entry (R339, R347). -/
structure Vec where
  ccount : Nat := 1
  ctime  : Nat := 0
  cnt    : Nat := 0
  timer  : Bool := false
  t0     : Nat := 0
  pend   : Bool := false
  mask   : Bool := true
  addr   : Nat := 0
  data   : Nat := 0
  deriving DecidableEq, Repr

/-- A read of a shadowed window that waits for SACK (R345): offset, octets, SPOST at acceptance, and the time. -/
structure WaitRead where
  off   : Nat
  len   : Nat
  spost : Nat
  at'   : Nat
  deriving DecidableEq, Repr

/-- A read of a shadow page whose lines cross the crossbar (R343): its number, offset and octets, and the lines that have
come, by their place. -/
structure PageRead where
  num  : Nat
  off  : Nat
  len  : Nat
  got  : List (Nat × Nat) := []
  deriving DecidableEq, Repr

/-- A virtual interface (chapter 14) with its configuration space: Bus Master Enable, MSI-X control, D3hot, BARs and
Device Control (R338, R348, R363), Completion Timeout, ASPM L1 and L0p (R360). `waits` are the reads that wait for SACK,
`reads` those whose lines cross, `readNum` counts them. -/
structure Vi where
  bme    : Bool := false
  msixEn : Bool := false
  fmask  : Bool := false
  d3     : Bool := false
  bar0   : Nat := 0
  bar2   : Nat := 0
  mps    : Nat := 0
  mrrs   : Nat := 2
  relax  : Bool := true
  snoopless : Bool := true
  ctoVal : BitVec 4 := 0
  ctoOff : Bool := false
  aspmL1 : Bool := false
  l0p    : Bool := false
  l0pWidth : BitVec 3 := 0
  reset  : Bool := false
  rdone  : Bool := false
  late   : Bool := false
  from'  : Nat := 0
  flrgen : Nat := 0
  spost  : Nat := 0
  sack   : Nat := 0
  lost   : Bool := false
  errcnt : Nat := 0
  errs   : SMap ErrEnt := []
  dbval  : SMap Nat := []
  dbpend : Nat := 0
  vecs   : SMap Vec := []
  waits  : List WaitRead := []
  reads  : List PageRead := []
  readNum : Nat := 0
  deriving DecidableEq, Repr

/-- SR-IOV capability of a PF (R337, R338): VF Enable, NumVFs and the VF BARs. -/
structure Sriov where
  enable : Bool := false
  numVfs : Nat := 0
  vbar0  : Nat := 0
  vbar2  : Nat := 0
  deriving DecidableEq, Repr

/-- How the module answers a host request: normal completion with octets, Unsupported Request, Request Retry Status, or
nothing. -/
inductive HostAnswer
  | normal (octets : List Nat)
  | unsupported
  | retry
  | nothing
  deriving DecidableEq, Repr

/-- Advanced Error Reporting of a PF (R360, R363): Uncorrectable and Correctable Error Status, and the masks and severities.
PRESUMED: log entry 56. -/
structure Aer where
  unc     : BitVec 32 := 0
  cor     : BitVec 32 := 0
  mask    : BitVec 32 := 0
  sev     : BitVec 32 := 0x00462030
  corMask : BitVec 32 := 0x0000E000
  deriving DecidableEq, Repr

/-- The VI unit: the VIs, SR-IOV and AER by 4 × group + PF, the answers to host requests that the newest command which gives
any gave, each with its VI, and the newest MSI-X message: VI, vector, address, data. PRESUMED: log entry 56. -/
structure Vifs where
  vis    : SMap Vi := []
  pfs    : SMap Sriov := []
  aers   : SMap Aer := []
  answers : List (Nat × HostAnswer) := []
  msix   : Option (Nat × Nat × Nat × Nat) := none
  deriving DecidableEq, Repr

/-- A host port group's link (R361, R362, PRT_GSTAT). -/
structure GroupLink where
  width  : Nat := 0
  rate   : Nat := 0
  noflit : Bool := false
  deriving DecidableEq, Repr

/-- A frame in an egress buffer (R369): port, class, octets to send, its lines, the lines to come, and the hub cycle in which
its first line arrived. -/
structure EFrame where
  port  : Nat
  pri   : Nat
  len   : Nat
  lines : List Nat
  left  : Nat
  order : Nat
  side  : Nat
  deriving DecidableEq, Repr

/-- A quad's buffers and lanes (R365, R369, R373). -/
structure QuadBuf where
  ingress : List Nat := []
  egress  : List EFrame := []
  los     : BitVec 4 := 0
  lock    : BitVec 4 := 0
  deriving DecidableEq, Repr

/-- A network port (R364–R372): link, pauses in force by class with the time each ends, classes reported as paused long,
frames since link-up, the frame in transmission (its octets and the time it ends), the time of the newest PFC frame and the
counts of PRT_RXERR. -/
structure Port where
  up     : Bool := false
  xoff   : Bool := false
  pause  : SMap Nat := []
  paused : BitVec 8 := 0
  long'  : BitVec 8 := 0
  frames : Nat := 0
  tx     : Option (Nat × Nat) := none
  pfcAt  : Nat := 0
  fcs    : Nat := 0
  ovrun  : Nat := 0
  hdisc  : Nat := 0
  deriving DecidableEq, Repr

/-- The lanes and ports (chapter 15): groups, ports, quads, the last report of each code for each instance with the
events counted since, and the newest frame and PFC frame sent. -/
structure Ports where
  groups : SMap GroupLink := []
  ports  : SMap Port := []
  quads  : SMap QuadBuf := []
  limits : SMap (Option Nat × Nat) := []
  sent   : Option (Nat × List Nat) := none
  pfc    : Option (Nat × Nat × Nat) := none
  idle   : Bool := false
  deriving DecidableEq, Repr

/-- A line in the chart cache (R333): line number, stored bits, last use, and its error (0 none, 1 corrected when read,
2 uncorrectable). -/
structure ChtLine where
  line : Nat
  bits : Nat
  used : Nat
  err  : Nat := 0
  deriving DecidableEq, Repr

/-- A command channel (R326): buffer words, the command accepted, and STAT. -/
structure Chan where
  buf  : SMap Nat := []
  busy : Bool := false
  cmd  : Nat := 0
  code : Nat := 0
  hc   : Bool := false
  hp   : Bool := false
  pos  : Nat := 0
  deriving DecidableEq, Repr

/-- The chart engine (chapter 13). Entries of the stash, errors and hit bits are keyed by world and position; `bad0` and
`bad1` give the error of a hit-plane word (1 corrected when read, 2 uncorrectable, 3 uncorrectable and reported); `waits`
are the lookups accepted and not yet decided, `queue` the channels whose commands wait, `writes` the changed bucket lines
not yet in DRAM. -/
structure Chart where
  plane    : Bool := false
  epoch    : Nat := 0
  hits0    : SMap Bool := []
  hits1    : SMap Bool := []
  bad0     : SMap Nat := []
  bad1     : SMap Nat := []
  stash    : SMap Nat := []
  stashErr : SMap Nat := []
  cache    : SMap (Option ChtLine) := []
  clock    : Nat := 0
  lineErr  : SMap Bool := []
  writes   : List (Nat × Nat) := []
  usedS    : Nat := 0
  usedN    : Nat := 0
  chans    : SMap Chan := []
  queue    : List Nat := []
  waits    : List Lookup := []
  deriving DecidableEq, Repr

/-- Who has asked for a read that is queued, and takes its outcome (R384): a line that waits to leave, the table walk of a core,
a store of a core, a culvert or a requester for the merge read of its write (R383), or the debug master. -/
inductive Asker
  | bound (b : BLine)
  | walk (i : Nat) (w : Walk)
  | store (i : Nat)
  | culvert (c : Nat)
  | port (code : Nat)
  | debug
  deriving DecidableEq, Repr

/-- A request in a DRAM subchannel (R384): its line, whether it writes, the requester's code and world, its place in
acceptance order, the younger requests issued ahead of it (R387), and for a read the stored bits and the error symbols that
its line had before a later write of it was accepted (R385), who has asked for it, and whether it is the merge read of a
write. -/
structure DReq where
  line   : Nat
  write  : Bool
  code   : Nat
  sec    : Bool
  order  : Nat
  passed : Nat := 0
  kept   : Option (Nat × List (Nat × Nat)) := none
  asker  : Option Asker := none
  merge  : Bool := false
  deriving DecidableEq, Repr

/-- A DRAM subchannel: read and write queues, reads that wait to enter, reads issued and not yet delivered, the phase of
R386, the open rows (bank to 1 + row) and the last use of each bank, refreshes postponed, whether the controller's own
timer runs (R395), the instant from which the refresh timer runs (R394), MR4 above 85 °C, its error counts, and the
refused accesses not yet reported (R398). -/
structure SubCh where
  reads  : List DReq := []
  writes : List DReq := []
  waits  : List DReq := []
  issued : List DReq := []
  wphase : Bool := false
  rows   : SMap Nat := []
  used   : SMap Nat := []
  postp  : Nat := 0
  almanac : Bool := false
  refAt  : Nat := 0
  hot    : Bool := false
  corr   : Nat := 0
  unc    : Nat := 0
  devs   : SMap Nat := []
  unrep  : Nat := 0
  repAt  : Option Nat := none
  deriving DecidableEq, Repr

/-- A DRAM channel: in self-refresh, entry requested, exit started, in a frequency step, its speed set, REFRESH entries
skipped, and since when it holds no request. -/
structure DChan where
  sr     : Bool := false
  srReq  : Bool := false
  exit'  : Bool := false
  step   : Bool := false
  set'   : Nat := 0
  rskip  : Nat := 0
  idle   : Nat := 0
  deriving DecidableEq, Repr

/-- The DRAM controller (chapter 16): subchannels, channels, the frequency step, unusable sets and down subchannels, the
symbol errors of stored lines, and the newest read delivered: requester code, line, bits, uncorrectable mark. `lost` holds
ranges of lines (first line, count) and the subchannels whose lines in them the vault restore wrote poisoned (R48). `ready`
are the outcomes that wait for those who asked: asker, line, bits, uncorrectable mark; `taken` is the one, of a line, that the
request under way takes. -/
structure Drc where
  subs   : SMap SubCh := []
  chans  : SMap DChan := []
  busy   : Bool := false
  cur    : Nat := 0
  target : Nat := 0
  longest : Nat := 0
  unus   : BitVec 4 := 0
  down   : BitVec 32 := 0
  order  : Nat := 0
  marks  : SMap (List (Nat × Nat)) := []
  lost   : List (Nat × Nat × BitVec 32) := []
  ready  : List (Asker × Nat × Nat × Bool) := []
  taken  : Option (Nat × Nat × Bool) := none
  out    : Option (Nat × Nat × Nat × Bool) := none
  deriving DecidableEq, Repr

end Sys2Proof.Machine
end

