-- ==== Sys2Proof/Machine/State.lean ====
section
/-! DEFINITION. State.lean: the state of the module, the reasons a step can stop, and the state after reset. -/

namespace Sys2Proof.Machine

/-- A step never ends in a fault: every command the spec describes has an effect, and what the module refuses it
reports. The type is closed and has one constructor that no meaning raises. DESIGN CHOICE: log entry 54. -/
inductive Fault where
  /-- Raised by no meaning; kept so that the type is inhabited. Safe. -/
  | noFault
  deriving DecidableEq, Repr

/-- The reasons a command has no meaning. DESIGN CHOICE: log entry 54. -/
inductive Refusal where
  /-- Raised by Dispatch.lean alone, for a command that has no meaning yet. Safe. -/
  | notModelled (mnemonic : String)
  deriving DecidableEq, Repr

/-- The state of the module: every register, queue, buffer, counter, mode and pin that the spec gives it, and the
commands that wait. -/
structure State where
  /-- The commands that wait, first in, first out. -/
  pending : List Sys2Proof.Instr := []
  /-- The model's own count of free values drawn; no spec state. -/
  draws : Nat := 0
  /-- Start state and configuration registers. -/
  cfg : Cfg := {}
  /-- What outlives DARK. -/
  nv : Persist := {}
  /-- Power stage, reservoir, vault. -/
  pwr : Power := {}
  /-- Islands, clocks and the chronometer. -/
  isl : Islands := {}
  /-- World assignments. -/
  wld : Worlds := {}
  /-- Health unit. -/
  hlt : Health := {}
  /-- Logbook and SMBus target. -/
  lgb : Logbook := {}
  /-- DRAM, tile memories and hub memory: stored octets by line number and position. -/
  mem : List Host.Cell := []
  /-- The levels of the pins HPERST_N0–7. -/
  hperst : BitVec 8 := 255
  /-- DRAM lines whose poison mark (R382) differs from the one that the restored image gave them. -/
  poison : SMap Bool := []
  /-- Key slots (R306). -/
  keys : SMap KeySlot := []
  /-- Cores by 8 × logical tile + core. -/
  cores : SMap Core := []
  /-- Wake units and memory-error counts, by logical tile. -/
  tiles : SMap Tile := []
  /-- Tile memory words with a SECDED error, by line × 16 + word: 1 + the bit of a single-bit error, or 255 for an
  uncorrectable word (R224, R225). -/
  tmErr : SMap Nat := []
  /-- Interrupt message router. -/
  ivc : Router := {}
  /-- Debug unit and cross-trigger pins. -/
  dbu : DebugUnit := {}

  /-- The sluice engine and the crossbar. -/
  slc : Slc := {}
  /-- The culverts. -/
  cul : Culverts := {}
  /-- The virtual interfaces. -/
  vif : Vifs := {}
  /-- Lanes and ports. -/
  prt : Ports := {}
  /-- The value that the newest register read by a command's own row returned. -/
  answer : Double := 0
  /-- The chart engine. -/
  cht : Chart := {}
  /-- The DRAM controller. -/
  drc : Drc := {}
  deriving DecidableEq, Repr

/-- The machine right after reset: a module without power (DARK), every register at its at-start value (R6), nothing
stored and nothing waiting. DESIGN CHOICE: log entries 4 and 5. -/
def State.reset : State where

end Sys2Proof.Machine
end

