-- ==== Sys2Proof/Machine/Report.lean ====
section
/-! DEFINITION. Report.lean: making a fault report, and the health unit's acceptance of it (chapter 19, R402–R413). -/

namespace Sys2Proof.Machine

/-- The Bearing image copy in use: A, B or, before one is selected, an erased copy (R60). -/
def image (s : State) : FlashCopy :=
  if s.cfg.copy = 1 then s.nv.copyA else if s.cfg.copy = 2 then s.nv.copyB else []

/-- A field of `n` octets of a section of the image in use. -/
def sec (s : State) (id o n : Nat) : Nat := secLe (image s) id o n

/-- An expert field of the image in use. -/
def secX (s : State) (id o n dflt : Nat) : Nat := secExpert (image s) id o n dflt

/-- A fault report with its data fields packed as R471 gives. -/
def mkReport (unit cls code inst : Nat) (fields : List (Nat × Nat)) : Report :=
  ⟨unit, cls, code, inst, BitVec.ofNat 72 (packFields fields)⟩

/-- The counts of WLD_REFCNT that a report raises (R244, Registers). -/
def countRefusal (r : Report) (w : Worlds) : Worlds :=
  if r.code = Code.wldAccessRefused ∨ r.code = Code.wldKeyRefused ∨ r.code = Code.wldSourceRefused then
    { w with acc := satW 18 (w.acc + 1) }
  else if r.code = Code.wldOwnerRefused then { w with own := satW 18 (w.own + 1) }
  else w

/-- Two reports come from one unit; every tile is a unit of its own (R454, R455). DESIGN CHOICE: log entry 17. -/
def sameUnit (a b : Report) : Bool := a.unit == b.unit && (a.unit != Unit.tile || a.inst / 8 == b.inst / 8)

/-- A unit makes a report: it waits for acceptance, or it is discarded and counted where 8 reports of its unit wait
(R455). DESIGN CHOICE: log entry 17. -/
def report (r : Report) (s : State) : State :=
  let s := { s with wld := countRefusal r s.wld }
  if (s.hlt.waiting.filter (sameUnit r)).length < 8 then
    { s with hlt := { s.hlt with waiting := s.hlt.waiting ++ [r] } }
  else
    { s with hlt := { s.hlt with lost := satW 36 (s.hlt.lost + 1), lostPend := satW 18 (s.hlt.lostPend + 1) } }

/-- `n` further reports of a unit that holds 8 already (R455). -/
def discardReports (n : Nat) (s : State) : State :=
  { s with hlt := { s.hlt with lost := satW 36 (s.hlt.lost + n), lostPend := satW 18 (s.hlt.lostPend + n) } }

/-- Makes a report when a condition holds. -/
def reportIf (c : Bool) (r : Report) (s : State) : State := if c then report r s else s

/-- FIRSTQ of host port group `g`, or 24 where the group is absent (R356). -/
def groupQuad (s : State) (g : Nat) : Nat :=
  if sec s 4 (33 + 8 * g) 1 = 0 then 24 else sec s 4 (32 + 8 * g) 1

/-- A field of the record of VI `v` (R335). -/
def viField (s : State) (v o n : Nat) : Nat := sec s 8 (1088 + 32 * v + o) n

/-- The host port group of a VI. -/
def viGroup (s : State) (v : Nat) : Nat := viField s v 0 1

/-- The quad of the first lane of network port `p`, or 24 where the port is absent (R356). -/
def portQuad (s : State) (p : Nat) : Nat :=
  if sec s 4 (128 + 16 * p) 1 = 1 then sec s 4 (129 + 16 * p) 1 / 4 else 24

/-- The world of a report (R458): true for secure. The codes of the port unit itself name a lane, quad, port or group. -/
def reportSec (s : State) (r : Report) : Bool :=
  if r.unit = Unit.tile then bitOf s.wld.tiles.toNat (r.inst / 8)
  else if r.unit = Unit.prt ∧ r.code / 64 = Unit.prt then
    let q := if r.inst < 96 then r.inst / 4
      else if r.inst < 104 then groupQuad s (r.inst - 96)
      else if r.inst < 168 then portQuad s (r.inst - 104)
      else r.inst - 200
    bitOf s.wld.quads.toNat q
  else bitOf s.wld.blocks.toNat r.unit

/-- The report word (R453). -/
def reportWord (r : Report) : Nat := packFields [(r.inst, 16), (r.code, 12), (r.cls, 3), (r.unit, 5)]

/-- The bit of HLT_REPL that a code sets when its report is a replacement cause (R464). -/
def replBit (code : Nat) : Option Nat :=
  if code = Code.rsvWorn then some 0
  else if code = Code.flashWorn then some 1
  else if code = Code.tileSparesOut then some 2
  else if code = Code.drcDeviceFailed then some 3
  else if code = Code.cfgNoAlternate then some 4
  else if code = Code.drcTrainFail then some 5
  else if code = Code.hltThreshold then some 6
  else none

/-- A replacement cause asserts REPLACE_REQ and sets its bit; the WEAR causes are stored (R464). -/
def assertReplace (bit : Nat) (s : State) : State :=
  let m := BitVec.ofNat 8 (2 ^ bit)
  let s := { s with hlt := { s.hlt with repl := s.hlt.repl ||| m ||| 128#8 } }
  if bit = 4 ∨ bit = 5 then s else { s with nv := { s.nv with causes := s.nv.causes ||| m } }

/-- Microseconds past the operating second (R403, FRAC). -/
def fracNow (s : State) : Nat := min ((s.isl.chron - s.lgb.secFrom) / 1000) 999999

/-- The number the next new record will take: after the records written and those still queued (R402, R405). -/
def nextRecord (s : State) : Nat := s.nv.total + (s.hlt.logq.filter fun e => !e.fold).length

/-- Whether a report folds into the newest record (R406). -/
def folds (r : Report) (s : State) : Bool :=
  match s.hlt.newest with
  | none => false
  | some n =>
    (r.cls == Cls.corrected || r.cls == Cls.reported) && n.unit == r.unit && n.inst == r.inst && n.cls == r.cls &&
      n.code == r.code && decide (n.rep < 65535)

/-- Places an accepted report in the log queue, or counts it as lost where the queue is full (R405–R407). -/
def logReport (r : Report) (s : State) : State × Option Nat :=
  if 64 ≤ s.hlt.logq.length then
    ({ s with hlt := { s.hlt with lost := satW 36 (s.hlt.lost + 1), lostPend := satW 18 (s.hlt.lostPend + 1) } }, none)
  else
    let f := folds r s
    let e : LogEntry := ⟨r, s.nv.opsec, fracNow s, s.nv.pcc, f⟩
    match f, s.hlt.newest with
    | true, some n =>
      ({ s with hlt := { s.hlt with logq := s.hlt.logq ++ [e], newest := some { n with rep := n.rep + 1 } } }, some n.num)
    | _, _ =>
      let n := nextRecord s
      ({ s with hlt := { s.hlt with logq := s.hlt.logq ++ [e], newest := some ⟨n, r.unit, r.cls, r.code, r.inst, 1⟩ } },
        some n)

/-- The queue number that stands for none in the HEALTH section (R457). -/
def noQueue : Nat := 1048576

/-- Where HEALTH keeps the record of unit `u` (R457). -/
def healthRec (u : Nat) : Nat := 16 + 16 * u

/-- The signal elements an accepted report gives its owners (R459, R461). -/
def signalsOf (r : Report) (recNo : Option Nat) (s : State) : List Signal :=
  if !s.hlt.signalOn || s.cfg.phase == .vault || r.code == Code.hltSignalLost then []
  else
    let b := healthRec r.unit
    let sc := reportSec s r
    let kq := if sc then sec s 11 b 4 else sec s 11 (b + 4) 4
    let hq := sec s 11 0 4
    let k := if bitOf (sec s 11 (b + 8) 1) r.cls && decide (kq < noQueue) then
        [⟨if sc then 0 else 1, kq, r, recNo, s.isl.chron, false⟩] else []
    let h := if bitOf (sec s 11 (b + 9) 1) r.cls && decide (hq < noQueue) then
        [⟨2, hq, r, recNo, s.isl.chron, sc⟩] else []
    k ++ h

/-- CTHRESH of a unit's HEALTH record. -/
def cthresh (s : State) (u : Nat) : Nat :=
  if s.cfg.copy = 0 then 0 else secX s 11 (healthRec u + 10) 2 0

/-- The corrected count of a unit became equal to its threshold: HLT_THRESHOLD, whose cause is stored (R463, R464). -/
def thresholdMet (u was n : Nat) (s : State) : State :=
  if cthresh s u ≠ 0 ∧ n = cthresh s u ∧ was ≠ n then
    report (mkReport Unit.hlt Cls.wear Code.hltThreshold u [(u, 5), (n, 36)])
      { s with nv := { s.nv with causes := s.nv.causes ||| 64#8 } }
  else s

/-- Sets a count of HLT_CNT (R456, R463). -/
def setCount (u c n : Nat) (s : State) : State :=
  let was := mget 0 s.hlt.cnt (8 * u + c)
  let s := { s with hlt := { s.hlt with cnt := mset 0 s.hlt.cnt (8 * u + c) n } }
  if c = Cls.corrected then thresholdMet u was n s else s

/-- Counts an accepted report (R456). -/
def countReport (r : Report) (s : State) : State :=
  setCount r.unit r.cls (satW 36 (mget 0 s.hlt.cnt (8 * r.unit + r.cls) + 1)) s

/-- The health unit accepts a report: it logs it, signals its owners and counts it, and asserts REPLACE_REQ for a
replacement cause (R456, R464). DESIGN CHOICE: log entry 17. -/
def acceptReport (r : Report) (s : State) : State :=
  let (s, recNo) := logReport r s
  let s := { s with hlt := { s.hlt with signals := s.hlt.signals ++ signalsOf r recNo s } }
  let s := countReport r s
  match replBit r.code with
  | none => s
  | some b => assertReplace b s

/-- Logs one LGB_LOST report with the count of reports lost, when the log queue has room (R407). -/
def flushLost (s : State) : State :=
  if s.hlt.lostPend = 0 ∨ 64 ≤ s.hlt.logq.length then s
  else
    let n := s.hlt.lostPend
    let s := { s with hlt := { s.hlt with lostPend := 0 } }
    acceptReport (mkReport Unit.lgb Cls.reported Code.lgbLost 0 [(n, 18)]) s

/-- Moves the chronometer to an instant that a time-driven command stands for; it never goes back (R90). DESIGN
CHOICE: log entry 3. -/
def reachTime (t : Nat) (s : State) : State :=
  { s with isl := { s.isl with chron := max s.isl.chron t } }

/-- The states in which the module runs services (R54, R40). -/
def serving (s : State) : Bool :=
  s.cfg.phase == .run || s.cfg.phase == .helm || s.cfg.phase == .ride ||
    (s.cfg.phase == .vault && s.pwr.vault == .entered)

/-- The states from the end of LOCK in which almanac, cores and register accesses go on. -/
def runOrHelm (s : State) : Bool := s.cfg.phase == .run || s.cfg.phase == .helm

end Sys2Proof.Machine
end

