-- ==== Sys2Proof/Machine/Logbook.lean ====
section
/-! DEFINITION. Logbook.lean: records, their commit to MRAM, the latches and the alert (R402–R413), the entry to DARK,
and the meanings of REPORT_ACCEPT, LOG_COMMIT, OPSEC_TICK and LGB_RIDX_WRITE's shared operations. -/

namespace Sys2Proof.Machine

/-- Words 0 to 6 of a record (R403). -/
def recWords (r : LogRec) : List Nat :=
  [r.opsec % 2 ^ 36, r.pcc % 2 ^ 36, packFields [(r.inst, 16), (r.code, 12), (r.cls, 3), (r.unit, 5)],
    r.lastsec % 2 ^ 36, field r.data.toNat 0 36, field r.data.toNat 36 36, packFields [(r.frac, 20), (r.rep, 16)]]

/-- CHECK of a record (R404): CRC32C of the 32 octets that words 0 to 6 form. -/
def recCheck (r : LogRec) : Nat := crc32c (splitUnits 8 32 (joinUnits 36 (recWords r)))

/-- The eight words of a record as readout gives them. -/
def recAll (r : LogRec) : List Word :=
  (recWords r ++ [packFields [(r.check, 32), (r.state, 4)]]).map (BitVec.ofNat 36)

/-- A record slot: permanent slot n, or 2,048 + (n - 2,048) mod 16,384 for the circulating area (R402). -/
def recSlot (n : Nat) : Nat := if n < 2048 then n else 2048 + (n - 2048) % 16384

/-- Whether record n is retained (R402). -/
def retained (s : State) (n : Nat) : Bool :=
  if n < 2048 then decide (n < s.nv.total) else decide (s.nv.total ≤ n + 16384) && decide (n < s.nv.total)

/-- The record in its slot. -/
def recAt (s : State) (n : Nat) : LogRec := mget {} s.nv.records (recSlot n)

/-- Writes a record, with its CHECK. -/
def putRec (n : Nat) (r : LogRec) (s : State) : State :=
  let r := { r with check := recCheck r }
  { s with nv := { s.nv with records := mset {} s.nv.records (recSlot n) r } }

/-- Whether a class drives the alert (R413). -/
def alertClass (c : Nat) : Bool := c == Cls.fatal || c == Cls.protect || c == Cls.wear

/-- Commits one log queue entry to MRAM: a new record and LGB_TOTAL, or a fold into the newest record; a new record of
an alert class drives SMB_ALERT_N low (R405, R406, R413). -/
def commitEntry (e : LogEntry) (s : State) : State :=
  if e.fold then
    let n := s.nv.total - 1
    let r := recAt s n
    putRec n { r with rep := satW 16 (r.rep + 1), lastsec := e.opsec } s
  else
    let n := s.nv.total
    let r : LogRec :=
      { opsec := e.opsec, pcc := e.pcc, unit := e.rep.unit, cls := e.rep.cls, code := e.rep.code
        inst := e.rep.inst, lastsec := e.opsec, data := e.rep.data, rep := 1, frac := e.frac, state := 10 }
    let s := putRec n r s
    let s := { s with nv := { s.nv with total := (s.nv.total + 1) % 2 ^ 72 } }
    if alertClass e.rep.cls then
      { s with nv := { s.nv with alertSeq := some n }, lgb := { s.lgb with alert := true } }
    else s

/-- Commits the oldest log queue entry. -/
def commitOne (s : State) : State :=
  match s.hlt.logq with
  | [] => s
  | e :: t => commitEntry e { s with hlt := { s.hlt with logq := t } }

/-- The condition LGB_RSTAT gives of record n: b00 not retained, b01 committed, b10 recovered, b11 CHECK failed. -/
def recCond (s : State) (n : Nat) : Nat :=
  if retained s n then
    let r := recAt s n
    if r.check = recCheck r then (if r.state = 11 then 2 else 1) else 3
  else 0

/-- Latches a copy of record n (R410). -/
def latchRec (s : State) (n : Nat) : LogLatch :=
  if retained s n then ⟨n, recCond s n, recAll (recAt s n)⟩ else ⟨n, 0, List.replicate 8 0⟩

/-- Whether the SMBus target responds in a state (R24). -/
def smbResponds (s : State) : Bool :=
  match s.cfg.phase with
  | .load | .test | .lock | .run | .helm | .ride => true
  | _ => false

/-- The level of SMB_ALERT_N: low is true (R413, R24). -/
def smbAlertLow (s : State) : Bool := s.lgb.alert && smbResponds s

/-- The level of PWR_GOOD (R24, R54): in LOAD it rises once the health unit has evaluated the reservoir energy and the
stored causes, which is the first thing that LOAD_ENTRY does, so that REPLACE_REQ is valid with it. -/
def pwrGood (s : State) : Bool :=
  match s.cfg.phase with
  | .load => s.cfg.loadIn
  | .test | .lock | .run | .helm => true
  | _ => false

/-- Whether REPLACE_REQ is asserted at the pin (R24, R464): in RIDE and VAULT it holds its value. DEDUCED: log entry
58. -/
def replaceReq (s : State) : Bool :=
  match s.cfg.phase with
  | .dark | .charge | .probe => false
  | .ride | .vault => s.pwr.reqHeld
  | _ => s.hlt.repl.getLsbD 7

/-- Commits every queued log entry: the logbook stays supplied after an entry to DARK (R408). -/
def commitAll : Nat → State → State
  | 0, s => s
  | n + 1, s => commitAll n (commitOne s)

/-- Accepts every report that waits, in order. -/
def acceptAll : List Report → State → State
  | [], s => s
  | r :: t, s => acceptAll t (acceptReport r s)

/-- How far an interrupted image update got: the number of octets already changed (R77, free). DESIGN CHOICE: log
entry 8. -/
def partialUpdate (s : State) : Persist :=
  if s.cfg.updBusy && (s.cfg.updOp == 1 || s.cfg.updOp == 2) then
    let c := if s.cfg.updB then s.nv.copyB else s.nv.copyA
    let c' : FlashCopy :=
      if s.cfg.updOp = 1 then
        c.filter fun e => decide (Config.openValue 1 [s.draws] ≤ e.1)
      else
        (List.range (min 64 (Config.openValue 2 [s.draws]))).foldl
          (fun c i => mset 255 c (64 * s.cfg.updLine + i) (mget 0 s.cfg.updBuf i)) c
    if s.cfg.updB then { s.nv with copyB := c' } else { s.nv with copyA := c' }
  else s.nv

/-- Entry to DARK: the reports made so far, and those that their acceptance makes, reach the logbook, which stays supplied
(R408); then everything that does not outlive DARK is at its at-start value (R6, R54). DESIGN CHOICE: log entry 8. -/
def goDark (s : State) : State :=
  let accepted := fun (s : State) => acceptAll s.hlt.waiting { s with hlt := { s.hlt with waiting := [] } }
  let s := accepted (accepted s)
  let s := commitAll s.hlt.logq.length s
  { State.reset with pending := s.pending, draws := s.draws + 1, nv := partialUpdate s, hperst := s.hperst }

/-- Entry to DARK with mains lost: the loss and a disconnection last until mains is valid again (R32). -/
def darkOnLoss (s : State) : State :=
  let d := s.pwr.discon
  let s := goDark s
  { s with pwr := { s.pwr with loss := true, discon := d } }

/-- The module leaves DARK for CHARGE: every field is at its at-start value and the chronometer at zero (R6, R90). The
power stage classifies its input as AC or DC (R31). -/
def leaveDark (dc : Bool) (s : State) : State :=
  { State.reset with pending := s.pending, draws := s.draws, nv := s.nv, hperst := s.hperst,
                     cfg := { State.reset.cfg with phase := .charge },
                     pwr := { State.reset.pwr with dcIn := dc } }

end Sys2Proof.Machine
end

