-- ==== Sys2Proof/Machine/World.lean ====
section
/-! DEFINITION. World.lean: the world rules on controls (R227, R237) and the reports that refuse an access. -/

namespace Sys2Proof.Machine

/-- The world that owns unit window `k` (0–15) (R229, R237): true for secure. -/
def blockSec (s : State) (k : Nat) : Bool := bitOf s.wld.blocks.toNat k

/-- The world that owns a logical tile. -/
def tileSec (s : State) (t : Nat) : Bool := bitOf s.wld.tiles.toNat t

/-- The world that owns a quad. -/
def quadSec (s : State) (q : Nat) : Bool := bitOf s.wld.quads.toNat q

/-- Register accesses take place from LOCK on, while services run (R231); before LOCK step 1 only the loader makes
accesses. -/
def live (s : State) : Bool := s.wld.locked && (s.cfg.phase == .lock || serving s)

/-- PORTEN of the DEBUG section (R450). -/
def portEnabled (s : State) : Bool := secX s 14 2 1 1 == 1

/-- The debug port is active (R428). -/
def portActive (s : State) : Bool :=
  match s.cfg.phase with
  | .test | .lock | .run | .helm | .ride => portEnabled s
  | .load => s.cfg.held
  | _ => false

/-- The port stops being active: when it next becomes active its registers are zero, it is desynchronised and it has no
last sequence bit; XTRIG_OUT is low (R428, R435). -/
def restPort (d : DebugUnit) : DebugUnit :=
  { d with desync := true, began := false, hasSeq := false, lseq := false, keptReg := 0, keptData := 0, fault := false
           reason := 0, addr := 0, data := 0, access := none, answer := none, xout := false }

/-- The requester code of the debug master (R17). -/
def dbgCode : BitVec 9 := 0o700

/-- Whether a requester's register accesses take place: from LOCK on, while services run; the debug master's, while
its port is active (R231, R428). DEDUCED: log entry 45. -/
def reach (rq : Req) (s : State) : Bool := live s || (rq.code == dbgCode && portActive s)

/-- The INSTANCE of a register refusal: logical tile × 8 for a TILE window, else 0 (R454, R472). -/
def winInst (win : Nat) : Nat := if 16 ≤ win then 8 * (win - 16) else 0

/-- The UNIT of the unit whose window an offset lies in (R453). -/
def winUnit (win : Nat) : Nat := if 16 ≤ win then Unit.tile else win

/-- The number that a register array gives an offset: `n` registers of a stride from a base. -/
def arrayIx (off base stride n : Nat) : Option Nat :=
  if base ≤ off ∧ off < base + stride * n then some ((off - base) / stride) else none

/-- The INSTANCE of an owner refusal (R454): the culvert, VI, subchannel or tile whose register the offset names, else that of
`winInst`. DESIGN CHOICE: log entry 62. -/
def ownerInst (win off : Nat) : Nat :=
  (if win = Unit.cul then (arrayIx off 0o200 4 32).orElse fun _ => arrayIx off 0o400 4 32
  else if win = Unit.vif then
    (((arrayIx off 0o1000 8 4096).orElse fun _ => arrayIx off 0o1000000 32 4096).orElse fun _ =>
      arrayIx off 0o2000000 256 4096).orElse fun _ => arrayIx off 0o10000000 1024 4096
  else if win = Unit.drc then
    ((arrayIx off 0o1000 4 32).orElse fun _ => arrayIx off 0o4000 64 32).orElse fun _ => arrayIx off 0o10000 4 32
  else if win = Unit.wkt then (arrayIx off 0 4 48).orElse fun _ => arrayIx off 0o400 4 48
  else none).getD (winInst win)

/-- WLD_OWNER_REFUSED (R237): unit window, offset, requester world and the value written, or a read. DESIGN CHOICE: log entry
62. -/
def ownerRefused (win off : Nat) (rq : Req) (isRead : Bool) (value : Nat) : Report :=
  mkReport (winUnit win) Cls.reported Code.wldOwnerRefused (ownerInst win off)
    [(win, 6), (off, 24), (b2n rq.sec, 1), (b2n isRead, 1), (if isRead then 0 else value, 36)]

/-- The KIND of REG_REFUSED (R472). -/
inductive RefKind
  | value | size | secField | afterLock
  deriving DecidableEq, Repr

def RefKind.num : RefKind → Nat
  | .value => 0
  | .size => 1
  | .secField => 2
  | .afterLock => 3

/-- REG_REFUSED (R472). -/
def regRefused (win off : Nat) (rq : Req) (kind : RefKind) (value : Nat) : Report :=
  mkReport (winUnit win) Cls.reported Code.regRefused (winInst win)
    [(off, 24), (rq.code.toNat, 9), (kind.num, 2), (0, 1), (value, 36)]

/-- The data double of R17. -/
def r17Fields (addr : Nat) (rq : Req) (write : Bool) : List (Nat × Nat) :=
  [(addr, 45), (rq.code.toNat, 9), (b2n write, 1), (b2n rq.sec, 1)]

/-- The requester's own unit and instance (R16, R454); that of the SMBus target is LGB, instance 0. DESIGN CHOICE: log
entry 62. -/
def reqUnit (rq : Req) : Nat × Nat :=
  let c := rq.code.toNat
  if c < 384 then (Unit.tile, c)
  else if c < 416 then (Unit.cul, c - 384)
  else if c = 0o700 then (Unit.dbg, 0)
  else if c = 0o701 then (Unit.cht, 0)
  else if c = 0o702 then (Unit.slc, 0)
  else if c = 0o703 then (Unit.vif, 0)
  else (Unit.lgb, 0)

/-- ADDR_UNMAPPED made by the requester's unit (R16, R17). -/
def addrUnmapped (addr : Nat) (rq : Req) (write : Bool) : Report :=
  let (u, i) := reqUnit rq
  mkReport u Cls.reported Code.addrUnmapped i (r17Fields addr rq write)

/-- WLD_ACCESS_REFUSED made by the requester's unit (R234, R235). -/
def accessRefused (addr : Nat) (rq : Req) (write : Bool) : Report :=
  let (u, i) := reqUnit rq
  mkReport u Cls.reported Code.wldAccessRefused i (r17Fields addr rq write)

/-- The requester code of the SMBus target, to which world rules do not apply (R17, R412). -/
def smbCode : BitVec 9 := 0o704

/-- Whether a requester may write a control that the world `ownSec` owns; the SMBus target is no world's (R412).
DEDUCED: log entry 30. -/
def mayWrite (rq : Req) (ownSec : Bool) : Bool := rq.code == smbCode || rq.sec == ownSec

/-- A write of a control of a hub block by its row: ignored outside the serving states, refused to the other world
(R237), else performed. DEDUCED: log entries 30 and 44. -/
def ownedWrite (win off : Nat) (ownSec : Bool) (rq : Req) (value : Nat) (act : State → State) (s : State) : State :=
  if !reach rq s then s
  else if mayWrite rq ownSec then act s
  else report (ownerRefused win off rq false value) s

end Sys2Proof.Machine
end

