-- ==== Sys2Proof/Machine/Steps.lean ====
section
/-! DEFINITION. Steps.lean: tile steps, ceilings, neighbour limits, junction samples, and the chronometer copies
(R78–R91). -/

namespace Sys2Proof.Machine

/-- The logical tile on a physical tile, when there is one (R9). -/
def logicalOf (s : State) (p : Nat) : Option Nat :=
  (s.cfg.lmap.find? fun e => decide ((e.2.map fun (x : PTileId) => x.val) = some p)).map fun e => e.1

/-- The physical tile of a logical tile, when it has one. -/
def physOf (s : State) (t : Nat) : Option Nat := (mget none s.cfg.lmap t).map fun (x : PTileId) => x.val

/-- A logical tile is available: it has a physical tile (R65). -/
def available (s : State) (t : Nat) : Bool := (physOf s t).isSome

/-- The available tiles as a mask. -/
def availMask (s : State) : Nat := ((List.range 48).map fun t => if available s t then 2 ^ t else 0).sum

/-- The island unit's record of a logical tile. -/
def tileIsl (s : State) (t : Nat) : TileIsl := mget {} s.isl.tiles t

/-- Changes the island unit's record of a logical tile. -/
def setTileIsl (t : Nat) (f : TileIsl → TileIsl) (s : State) : State :=
  { s with isl := { s.isl with tiles := mmod {} s.isl.tiles t f } }

/-- A tile that is running or dozing, with its crossings open (Neighbour limits). -/
def tileRunning (s : State) (t : Nat) : Bool := available s t && (tileIsl s t).state == .run

/-- The logical tiles on the physical neighbours of a tile's physical tile (R78): the lower and the higher one. -/
def adjacent (s : State) (t : Nat) : Option Nat × Option Nat :=
  match physOf s t with
  | none => (none, none)
  | some p => (if p % 13 = 0 then none else logicalOf s (p - 1), if p % 13 = 12 then none else logicalOf s (p + 1))

/-- The adjacent tiles that run. -/
def neighbours (s : State) (t : Nat) : Option Nat × Option Nat :=
  let run := fun (o : Option Nat) => o.bind fun u => if tileRunning s u then some u else none
  (run (adjacent s t).1, run (adjacent s t).2)

/-- The management tile (R70): MGMT_TILE when it is available, else the lowest available tile. -/
def mgmtTile (s : State) : Option Nat :=
  let m := secX s 0 16 1 0
  if available s m then some m else (List.range 48).find? fun t => available s t

/-- The step gap g of R84. -/
def stepGap (s : State) : Nat := 11 - secX s 3 0 1 0

/-- The ceiling of a tile for the line class in force and the current alternate (R81, R83); 5 for the management tile in
HELM-ONLY, and in RIDE out of HELM-ONLY. -/
def ceilingOf (s : State) (t : Nat) : Nat :=
  if (s.cfg.phase = .helm ∨ s.cfg.phase = .ride ∧ s.pwr.rideHelm = true) ∧ mgmtTile s = some t then 5
  else sec s 3 ((if s.pwr.ceilLow then 392 else 8) + 48 * s.cfg.cur + t) 1

/-- The thermal throttle holds a tile (R50). -/
def throttled (s : State) (t : Nat) : Bool := ((physOf s t).map (mget false s.isl.hot)).getD false

/-- The upper bound U of a tile's actual step (R80). -/
def upperBound (s : State) (t : Nat) : Nat :=
  let x := tileIsl s t
  min (min x.ceil (if x.tempOn then x.tempHold else 15)) (min (if throttled s t then 0 else 15) (min x.holdLo x.holdHi))

/-- The running neighbours of a tile as a list. -/
def runningNbrs (s : State) (t : Nat) : List Nat :=
  let (a, b) := neighbours s t
  a.toList ++ b.toList

/-- Bit pattern of ISL_TILE_STAT.LIM: every cause that holds the step of a running tile away from its request (R80). -/
def limBits (s : State) (t : Nat) : Nat :=
  let x := tileIsl s t
  let r := x.req
  if x.state != .run then 0
  else packFields [(0, 1), (b2n (decide (x.ceil < r)), 1), (b2n (!x.supplyBy.isEmpty), 1),
    (b2n (x.tempOn && decide (x.tempHold < r)), 1), (b2n (throttled s t && decide (0 < r)), 1), (b2n (!x.stretch.isEmpty), 1)]

/-- The island code of a logical tile: its physical tile. -/
def islOf (s : State) (t : Nat) : Nat := (physOf s t).getD 0

/-- ISL_NBR_LIMIT (R87): the two islands, the kind of limit, start or end, and both values. -/
def nbrLimit (a b kind : Nat) (start : Bool) (va vb : Nat) : Report :=
  mkReport Unit.isl Cls.reported Code.islNbrLimit a [(a, 7), (b, 7), (kind, 2), (b2n start, 1), (va, 8), (vb, 8)]

/-- The step nearest to `want` in the interval from `lo` to `hi`. -/
def nearest (want lo hi : Nat) : Nat := if want < lo then lo else if hi < want then hi else want

/-- The frequency of a step in MHz, and its supply in millivolts (R79). -/
def stepMHz (n : Nat) : Nat := 1500 + 100 * n
def stepMv (n : Nat) : Nat := 660 + 16 * n

/-- The step whose supply the island has at a time: a raise ramps by one step each microsecond, and a lowering moves the
supply after the clock (R82). -/
def rampStep (x : TileIsl) (now : Nat) : Nat := if x.volt < x.target then min x.target (x.volt + (now - x.since) / 1000) else x.volt

/-- A tile's supply in millivolts (R79, R82). -/
def tileMv (s : State) (t : Nat) : Nat := stepMv (rampStep (tileIsl s t) s.isl.chron)

/-- The next step boundary of a supply that ramps; at once where none ramps (R82). -/
def nextBoundary (x : TileIsl) (now : Nat) : Nat :=
  if x.changing && decide (rampStep x now < x.target) then x.since + (now - x.since + 999) / 1000 * 1000 else now

/-- A new target: a step change starts, or from the next step boundary the change under way goes to it (R82). -/
def retarget (v now : Nat) (x : TileIsl) : TileIsl :=
  if v = x.target then x
  else
    let b := nextBoundary x now
    let n := rampStep x b
    { x with target := v, changing := decide (x.step ≠ v ∨ n ≠ v), volt := n, since := b }

/-- The steps that a running tile's supply has until its change ends: a raise ramps from the old step to the new one, and a
lowering counts at once as the new step (R82, R84). -/
def stepSpan (x : TileIsl) : Nat × Nat := (min x.step x.target, x.target)

/-- Places or releases the hold-down that tile `t` puts on its neighbour `u` (R84). -/
def holdDown (s : State) (t u v : Nat) : State :=
  let (lo, _) := neighbours s u
  if lo = some t then setTileIsl u (fun x => { x with holdLo := v }) s
  else setTileIsl u (fun x => { x with holdHi := v }) s

/-- R80 and R84 for one tile: its new target, and the hold-down on its neighbours (15 for none). -/
def solveStep (s : State) (t : Nat) : Nat × Nat :=
  let g := stepGap s
  let u := upperBound s t
  let want := min u (tileIsl s t).req
  let ns := (runningNbrs s t).map fun n => stepSpan (tileIsl s n)
  let lo := ns.foldl (fun a n => max a (n.2 - g)) 0
  let hi := ns.foldl (fun a n => min a (n.1 + g)) u
  if lo ≤ hi then (nearest want lo hi, 15)
  else
    let v := min u ((ns.foldl (fun a n => min a n.1) 15) + g)
    (v, v + g)

/-- The neighbours that hold tile `t` at its new target: those that hold it down below its request, and those whose gap keeps
the target from it on either side (R80, R84, R87). -/
def holdCauses (s : State) (t : Nat) : List Nat :=
  let x := tileIsl s t
  let g := stepGap s
  let want := min (upperBound s t) x.req
  let v := (solveStep s t).1
  let (lo, hi) := neighbours s t
  let down := fun (h : Nat) => decide (h < min x.req x.ceil)
  let gap := fun (n : Nat) =>
    let (a, b) := stepSpan (tileIsl s n)
    (decide (v < want) && decide (a + g < want)) || (decide (want < v) && decide (want + g < b))
  (lo.toList.filter fun n => down x.holdLo || gap n) ++ hi.toList.filter fun n => down x.holdHi || gap n

/-- ISL_NBR_LIMIT for a supply hold on tile `t` that tile `n` causes (R87). -/
def supplyReport (s : State) (t n : Nat) (start : Bool) : Report :=
  nbrLimit (islOf s t) (islOf s n) 1 start (tileIsl s t).step (tileIsl s n).step

/-- Re-evaluates a tile and, while targets or hold-downs change, its neighbours in turn (R84); each neighbour that begins or
ceases to hold the tile is reported (R87). The fuel bounds the length of the die's chain of changes. -/
def steer : Nat → List Nat → State → State
  | 0, _, s => s
  | _ + 1, [], s => s
  | n + 1, t :: rest, s =>
    if !tileRunning s t then steer n rest s
    else
      let old := tileIsl s t
      let (v, hd) := solveStep s t
      let by' := holdCauses s t
      let nbs := runningNbrs s t
      let s1 := setTileIsl t (fun x => { retarget v s.isl.chron x with supplyBy := by' }) s
      let s2 := nbs.foldl (fun s u => holdDown s t u (if hd < (stepSpan (tileIsl s u)).2 then hd else 15)) s1
      let ends := old.supplyBy.filter fun c => !by'.contains c
      let starts := by'.filter fun c => !old.supplyBy.contains c
      let s3 := starts.foldl (fun s c => report (supplyReport s t c true) s)
        (ends.foldl (fun s c => report (supplyReport s t c false) s) s2)
      let moved := nbs.filter fun u => decide (tileIsl s u ≠ tileIsl s3 u)
      if v = old.target ∧ moved = [] then steer n rest s3
      else steer n (rest ++ nbs) s3

/-- The step rules after a change at tile `t`. -/
def resteer (t : Nat) (s : State) : State := steer 64 (t :: runningNbrs s t) s

/-- The ceilings take the values of the line class, alternate and state in force (R81). -/
def loadCeilings (s : State) : State :=
  let s := (List.range 48).foldl (fun s t =>
    if available s t then setTileIsl t (fun x => { x with ceil := ceilingOf s t }) s else s) s
  (List.range 48).foldl (fun s t => if tileRunning s t then steer 64 [t] s else s) s

/-- A droop of tile `t` would take it and its faster neighbour `n`, itself perhaps drooping, beyond 2:1 (R85). -/
def beyondRatio (s : State) (t n : Nat) : Bool :=
  let x := tileIsl s t
  let y := tileIsl s n
  tileRunning s t && tileRunning s n && x.droop != 0 &&
    decide (2 * (stepMHz x.step * (100 + (y.droop - 1))) < stepMHz y.step * (100 + (x.droop - 1)))

/-- Tile `t`'s droop is weighed against tile `n`: one that it would leave beyond 2:1 stretches too, and the hold is reported
at its start and at its end (R85, R87). -/
def restretchPair (t n : Nat) (s : State) : State :=
  let on := beyondRatio s t n
  let y := tileIsl s n
  if on == y.stretch.contains t then s
  else
    report (nbrLimit (islOf s t) (islOf s n) 3 on (tileIsl s t).step y.step)
      (setTileIsl n (fun x => { x with stretch := if on then x.stretch ++ [t] else x.stretch.erase t }) s)

/-- Tile `t`'s droop is weighed against each adjacent tile (R85). -/
def restretch (t : Nat) (s : State) : State :=
  ((adjacent s t).1.toList ++ (adjacent s t).2.toList).foldl (fun s n => restretchPair t n s) s

/-- The droops of a tile and of its running neighbours are weighed anew. -/
def restretchAll (t : Nat) (s : State) : State := (t :: runningNbrs s t).foldl (fun s u => restretch u s) s

/-- A tile that leaves nap or dark enters at the step that R80 and R84 give at that moment, and the droops about it are
weighed (R84, R85). -/
def enterStep (t : Nat) (s : State) : State :=
  let v := (solveStep s t).1
  restretchAll t (resteer t
    (setTileIsl t (fun x => { x with step := v, target := v, volt := v, since := s.isl.chron, changing := false }) s))

/-- STEP_CHANGE_COMPLETE (R82): the supply has ramped to the target of a raise, the clock runs at the target step, and
the supply of a lowering follows. What the tile's change held back is re-evaluated (R84, R85). DESIGN CHOICE: log
entry 3. -/
def execStepChangeComplete (t : TileId) (s : State) : Host.Outcome State Fault Refusal :=
  let x := tileIsl s t.val
  if x.changing then
    let s := reachTime (x.since + 1000 * (x.target - x.volt)) s
    let done := fun (x : TileIsl) => { x with step := x.target, changing := false, volt := x.target, since := s.isl.chron }
    .next (restretchAll t.val (resteer t.val (setTileIsl t.val done s)))
  else .next s

/-- SUPPLY_DROOP_STRETCH (R85): a droop of a running tile starts, with its stretch in per cent, or ends. Its own droop and
those of the adjacent tiles are weighed anew. -/
def execSupplyDroopStretch (t : TileId) (stretch : Fin 101) (start : Bool) (s : State) :
    Host.Outcome State Fault Refusal :=
  if !tileRunning s t.val then .next s
  else
    let s := setTileIsl t.val (fun x => { x with droop := if start then 1 + stretch.val else 0 }) s
    .next (((adjacent s t.val).1.toList ++ (adjacent s t.val).2.toList).foldl
      (fun s n => restretchPair n t.val (restretchPair t.val n s)) s)

/-- A junction temperature in °C plus 40, by island code (R86). -/
def tjOf (s : State) (i : Nat) : Nat := mget 0 s.isl.tj i

/-- The permitted temperature difference (R86). -/
def tempLimit (s : State) : Nat := 30 - secX s 3 1 1 0

/-- ISL_NBR_LIMIT for a difference of junction temperature between two islands (R87). -/
def tempReport (s : State) (a b : Nat) (start : Bool) : Report := nbrLimit a b 2 start (tjOf s a) (tjOf s b)

/-- A temperature hold starts on a tile that runs too far above a neighbouring island: its step no longer rises, a raise
under way included (R80, R86, R87). -/
def startTempHold (t other : Nat) (s : State) : State :=
  let x := tileIsl s t
  if x.tempBy.contains other then s
  else
    resteer t (report (tempReport s (islOf s t) other true)
      (setTileIsl t (fun x => { x with
        tempBy := x.tempBy ++ [other], tempOn := true, tempHold := if x.tempOn then x.tempHold else x.step }) s))

/-- The islands that a tile is compared with (R86): its running neighbours, and the hub. -/
def tempPeers (s : State) (t : Nat) : List Nat := (runningNbrs s t).map (islOf s) ++ [52]

/-- Whether a tile is more than `d` °C hotter than some island it is compared with. -/
def hotterThan (s : State) (t d : Nat) : Option Nat :=
  (tempPeers s t).find? fun i => decide (tjOf s i + d < tjOf s (islOf s t))

/-- A running tile is held for every island that it is too much hotter than (R86). -/
def checkTemp (t : Nat) (s : State) : State :=
  (tempPeers s t).foldl (fun s o =>
    if tjOf s o + tempLimit s < tjOf s (islOf s t) then startTempHold t o s else s) s

/-- A quad island is not dark: it has a role and is not switched off (R86, R358). -/
def quadLit (s : State) (q : Nat) : Bool :=
  s.wld.locked && sec s 4 q 1 != 0 && !mget false s.cfg.off (53 + q) && !s.pwr.vaultOff

/-- The pairs in which a hub or quad can be the hotter island and island `i` takes part (R78, R86). -/
def hubPairs (s : State) (i : Nat) : List (Nat × Nat) :=
  let tiles := ((List.range 48).filter (tileRunning s)).map (islOf s)
  let quads := ((List.range 24).filter (quadLit s)).map fun q => 53 + q
  ((tiles ++ quads).map (fun p => (52, p)) ++ quads.map fun p => (p, 52)).filter fun p => p.1 == i || p.2 == i

/-- A hub or quad that is the hotter island is reported once for the pair, and no action is taken (R86). -/
def markHot (p : Nat × Nat) (s : State) : State :=
  let on := decide (tjOf s p.2 + tempLimit s < tjOf s p.1)
  let k := 128 * p.1 + p.2
  reportIf (on && !mget false s.isl.high k) (tempReport s p.1 p.2 true)
    { s with isl := { s.isl with high := mset false s.isl.high k on } }

/-- JUNCTION_SAMPLE (R86): the sample is recorded and the island is compared with each island that it has an open
crossing to, in rising INSTANCE order (R455). DESIGN CHOICE: log entry 17. -/
def execJunctionSample (isl : IslandId) (tj : BitVec 8) (s : State) : Host.Outcome State Fault Refusal :=
  if s.cfg.phase = .dark then .next s
  else
    let i := isl.val
    let s := { s with isl := { s.isl with tj := mset 0 s.isl.tj i tj.toNat } }
    let ts := if i = 52 then (List.range 48).filter (tileRunning s)
      else match logicalOf s i with
        | none => []
        | some t => if tileRunning s t then t :: runningNbrs s t else []
    let s := (sortBy (islOf s) ts).foldl (fun s t => checkTemp t s) s
    .next ((hubPairs s i).foldl (fun s p => markHot p s) s)

/-- TEMP_HOLD_STEP_DOWN (R86): one step lower while the difference stays above the limit. -/
def execTempHoldStepDown (t : TileId) (s : State) : Host.Outcome State Fault Refusal :=
  if (tileIsl s t.val).tempOn && (hotterThan s t.val (tempLimit s)).isSome then
    .next (resteer t.val (setTileIsl t.val (fun x => { x with tempHold := min x.tempHold x.step - 1 }) s))
  else .next s

/-- The islands that a tile is held for and still more than the limit less 5 °C above (R86). -/
def stillHolding (s : State) (t : Nat) : List Nat :=
  (tileIsl s t).tempBy.filter fun o =>
    (tempPeers s t).contains o && decide (tjOf s o + (tempLimit s - 5) < tjOf s (islOf s t))

/-- TEMP_HOLD_RELEASE (R86, R87): a hold whose difference has stayed low ends while another one lasts; without another, the
tile's hold rises by one step, and ends when it no longer holds the tile. -/
def execTempHoldRelease (t : TileId) (s : State) : Host.Outcome State Fault Refusal :=
  let x := tileIsl s t.val
  let still := stillHolding s t.val
  let ended := fun (os : List Nat) (s : State) => os.foldl (fun s o => report (tempReport s (islOf s t.val) o false) s) s
  if !x.tempOn then .next s
  else if still ≠ [] then
    .next (setTileIsl t.val (fun x => { x with tempBy := still }) (ended (x.tempBy.filter fun o => !still.contains o) s))
  else if min x.req x.ceil ≤ x.tempHold + 1 then
    .next (resteer t.val (setTileIsl t.val (fun x => { x with tempHold := 15, tempOn := false, tempBy := [] }) (ended x.tempBy s)))
  else .next (resteer t.val (setTileIsl t.val (fun x => { x with tempHold := x.tempHold + 1 }) s))

/-- The difference of an island copy from the master after slewing at 1 ns per µs since a synchronisation; a difference
of at most 1 ns is left (R91). -/
def slewed (diff : Int) (since now : Nat) : Int :=
  let k : Int := ((now - since) / 1000 : Nat)
  if diff.natAbs ≤ 1 then diff else if 0 < diff then max 0 (diff - k) else min 0 (diff + k)

/-- A tile's chronometer copy; it never goes backwards (R90, R91). -/
def tileChron (s : State) (t : Nat) : Nat :=
  let x := tileIsl s t
  max x.copyMin ((s.isl.chron : Int) + slewed x.copyDiff x.copyAt s.isl.chron).toNat

/-- A quad's chronometer copy. -/
def quadChron (s : State) (q : Nat) : Nat :=
  let (d, a, m) := mget ((0 : Int), 0, 0) s.isl.hubDiff (53 + q)
  max m ((s.isl.chron : Int) + slewed d a s.isl.chron).toNat

/-- CHRONOMETER_SYNC (R91): the differences found are the ones to slew away; each of more than 2 ns is reported. An
island that is dark has no copy, and no copy goes backwards. The reports are made in rising INSTANCE order (R455).
DESIGN CHOICE: log entry 17. -/
def execChronometerSync (diffs : List (IslandId × Int)) (s : State) : Host.Outcome State Fault Refusal :=
  if s.cfg.phase = .dark then .next s
  else
    let s := reachTime ((s.isl.chron + 65535) / 65536 * 65536) s
    .next <| (sortBy (fun e : IslandId × Int => e.1.val) diffs).foldl (fun s (i, d) =>
      let slew := mkReport Unit.isl Cls.corrected Code.islChronSlew i.val
        [(i.val, 7), ((BitVec.ofInt 36 d).toNat, 36)]
      if i.val < 52 then
        match logicalOf s i.val with
        | none => s
        | some t =>
          if (tileIsl s t).state = .darkKeep ∨ (tileIsl s t).state = .darkLose then s
          else reportIf (decide (2 < d.natAbs)) slew
            (setTileIsl t (fun x => { x with copyDiff := d, copyAt := s.isl.chron, copyMin := tileChron s t }) s)
      else if i.val = 52 then s
      else reportIf (decide (2 < d.natAbs)) slew
        { s with isl := { s.isl with
          hubDiff := mset ((0 : Int), 0, 0) s.isl.hubDiff i.val (d, s.isl.chron, quadChron s (i.val - 53)) } }) s

end Sys2Proof.Machine
end

