-- ==== Sys2Proof/Machine/Ops.lean ====
section
/-! DEFINITION. Ops.lean: the physical map (R14–R16), the stored lines of memory (R193), the world rule on memory
(R228, R232), tile memory with its SECDED marks (R224, R225), and access to the records of cores and tiles. -/

namespace Sys2Proof.Machine

/-- The record of core `i` = 8 × logical tile + core. -/
def coreAt (s : State) (i : Nat) : Core := mget {} s.cores i

/-- Changes a core. -/
def setCore (i : Nat) (f : Core → Core) (s : State) : State :=
  { s with cores := mmod {} s.cores i f }

/-- The wake unit and error counts of a tile. -/
def tileAt (s : State) (t : Nat) : Tile := mget {} s.tiles t

/-- Changes a tile's record. -/
def setTile (t : Nat) (f : Tile → Tile) (s : State) : State :=
  { s with tiles := mmod {} s.tiles t f }

/-- What a physical address names (R14): DRAM, a populated tile memory, hub memory, an offset of a unit window, or
nothing. -/
inductive Target
  | dram
  | tile (t : Nat)
  | hub
  | control (win off : Nat)
  | unmapped
  deriving DecidableEq, Repr

/-- The target of a physical address; the memory of a logical tile without a physical tile is unpopulated, and so is its
window (R10, R14). -/
def targetOf (s : State) (a : Nat) : Target :=
  if a < 2 ^ 40 then .dram
  else if 2 ^ 42 ≤ a ∧ a < 2 ^ 42 + 48 * 2 ^ 20 then
    let t := (a - 2 ^ 42) / 2 ^ 20
    if available s t then .tile t else .unmapped
  else if 2 ^ 43 ≤ a ∧ a < 2 ^ 43 + 24 * 2 ^ 20 then .hub
  else if 2 ^ 44 ≤ a ∧ a < 2 ^ 44 + 64 * 2 ^ 24 then
    let w := (a - 2 ^ 44) / 2 ^ 24
    if w < 16 ∨ available s (w - 16) then .control w ((a - 2 ^ 44) % 2 ^ 24) else .unmapped
  else .unmapped

/-- The first line of a logical tile's memory (R15). -/
def tileLine0 (t : Nat) : Nat := 2 ^ 36 + t * 2 ^ 14

/-- The line number of the first line of hub memory. -/
def hubLine0 : Nat := 2 ^ 37

/-- The 576 stored bits of a line (R193). DESIGN CHOICE: log entry 6. -/
def lineBits (s : State) (l : Nat) : Nat :=
  joinUnits 8 ((List.range 72).map fun j => (mget (0 : BitVec 8) s.mem (72 * l + j)).toNat)

/-- Replaces the 576 stored bits of a line. -/
def putLine (l v : Nat) (s : State) : State :=
  let put := fun (m : List Host.Cell) j => mset (0 : BitVec 8) m (72 * l + j) (BitVec.ofNat 8 (field v (8 * j) 8))
  { s with mem := (List.range 72).foldl put s.mem }

/-- Replaces stored bits `[lo + w - 1 : lo]` of a line. -/
def putBits (l lo w v : Nat) (s : State) : State := putLine l (setField (lineBits s l) lo w v) s

/-- The stored bits an access of `n` units at physical address `a` names, as their lowest number and their count, in
word or octet view (R111, R193). -/
def unitBits (a n : Nat) (oct : Bool) : Nat × Nat :=
  if oct then (8 * (a % 64), 8 * n) else (9 * (a % 64), 9 * n)

/-- The stored bits of the side field (R193). -/
def sideBits : Nat × Nat := (512, 64)

/-- An address lies in secure memory (R228). Only memory has watermarks; an address that nothing populates, the memory of a
logical tile without a physical tile included, is outside the secure spans (R10). -/
def memSecure (s : State) (a : Nat) : Bool := match targetOf s a with
  | .dram => decide (a < s.wld.dwm * 2 ^ 21)
  | .hub => decide (a < 2 ^ 43 + s.wld.hwm * 2 ^ 12)
  | .tile t => decide (a < 2 ^ 42 + t * 2 ^ 20 + mget 0 s.wld.twm t * 2 ^ 12)
  | _ => false

/-- Whether a requester's world may access data at an address (R232). -/
def worldMay (s : State) (sec : Bool) (a : Nat) : Bool := sec || !memSecure s a

/-- The REGION of a WORLD exception's CODE (R234). -/
def worldRegion (a : Nat) : Nat := if a < 2 ^ 40 then 1 else if 2 ^ 43 ≤ a then 2 else 3

/-- The tile memory words that stored bits reach into. -/
def wordsOf (lo w : Nat) : List Nat := (List.range 16).filter fun i => decide (36 * i < lo + w) && decide (lo < 36 * i + 36)

/-- TMEM_CORRECTED (R224). -/
def tmemCorrected (t line word bit : Nat) : Report :=
  mkReport Unit.tile Cls.corrected Code.tmemCorrected (8 * t) [(64 * line + 4 * word, 45), (bit, 6)]

/-- TMEM_UNCORRECTABLE (R225). -/
def tmemUncorrectable (t line word req : Nat) : Report :=
  mkReport Unit.tile Cls.reported Code.tmemUncorrectable (8 * t) [(64 * line + 4 * word, 45), (req, 9)]

/-- One word of tile memory is read: a single-bit error is corrected and rewritten, an uncorrectable word is counted and
reported (R224, R225). Answers whether the word is uncorrectable. -/
def readWordMark (t line word req : Nat) (s : State) : State × Bool :=
  let k := 16 * line + word
  match mget 0 s.tmErr k with
  | 0 => (s, false)
  | 255 =>
    (report (tmemUncorrectable t line word req)
      (setTile t (fun x => { x with unc := satW 18 (x.unc + 1) }) s), true)
  | b + 1 =>
    (report (tmemCorrected t line word b)
      (setTile t (fun x => { x with corr := satW 18 (x.corr + 1) }) { s with tmErr := mset 0 s.tmErr k 0 }), false)

/-- Reads words of a tile memory line for a requester: the line's bits, with uncorrectable words as zero, and whether any
word read was uncorrectable. -/
def readWords (t line req : Nat) (words : List Nat) (s : State) : State × Nat × Bool :=
  words.foldl (fun (acc : State × Nat × Bool) i =>
    let (s, v, bad) := acc
    let (s, b) := readWordMark t line i req s
    (s, if b then setField v (36 * i) 36 0 else v, bad || b)) (s, lineBits s line, false)

/-- Reads stored bits of a tile memory line for a requester: uncorrectable words read as zero. Answers whether any word
read was uncorrectable. -/
def readTileBits (t line lo w req : Nat) (s : State) : State × Nat × Bool :=
  let (s, v, bad) := readWords t line req (wordsOf lo w) s
  (s, field v lo w, bad)

/-- A read of a tile memory line that the crossbar carries: writes that earlier slots carried and that have not arrived
yet lie over the line, since requests take effect in the order of their slots (R12). -/
def readAcross (t line lo w req : Nat) (s : State) : State × Nat × Bool :=
  let parts := (s.slc.xing.filter fun x => x.line == line).flatMap fun x => x.parts
  let hid := fun (i : Nat) => parts.any fun p => decide (p.1 ≤ 36 * i ∧ 36 * i + 36 ≤ p.1 + p.2.1)
  let (s, v, bad) := readWords t line req ((wordsOf lo w).filter fun i => !hid i) s
  (s, field (parts.foldl (fun v p => setField v p.1 p.2.1 p.2.2) v) lo w, bad)

/-- Writes stored bits of a tile memory line (R225): a store that reaches into part of an uncorrectable word is not
performed; one that writes the whole word clears the error. -/
def writeTileBits (t line lo w v req : Nat) (s : State) : State :=
  let bad := (wordsOf lo w).filter fun i => mget 0 s.tmErr (16 * line + i) == 255
  let s := bad.foldl (fun s i => report (tmemUncorrectable t line i req)
    (setTile t (fun x => { x with unc := satW 18 (x.unc + 1) }) s)) s
  if bad.any fun i => decide (36 * i < lo) || decide (lo + w < 36 * i + 36) then s
  else
    let whole := (wordsOf lo w).filter fun i => decide (lo ≤ 36 * i) && decide (36 * i + 36 ≤ lo + w)
    let s := { s with tmErr := whole.foldl (fun m i => mset 0 m (16 * line + i) 0) s.tmErr }
    putBits line lo w v s

/-- The crossbar ports (R267). -/
def portCanal (t : Nat) : Nat := t
def portCulvert (c : Nat) : Nat := 0o140 + c
def portQuad' (q : Nat) : Nat := 0o200 + q
/-- The chart engine's port: table lines; the keys and results of lookups take the key lane of R320. DESIGN CHOICE: log entry
74. -/
def portChart : Nat := 0o230

/-- The memory port that holds a physical line: a subchannel, a hub memory bank, or a tile's canal (R267, R269). -/
def portOfLine (l : Nat) : Nat :=
  if l < 2 ^ 34 then 0o100 + l % 32
  else if hubLine0 ≤ l then 0o060 + (l - hubLine0) % 16
  else portCanal ((l - 2 ^ 36) / 2 ^ 14)

/-- A line that a tile sends to the hub, or asks the hub for: a miss, a write-back, or a line of its memory (R88). -/
def fromTile (b : BLine) : Bool := match b.cargo with
  | .miss _ _ _ => true
  | .back _ _ _ => true
  | .source _ _ _ => decide (b.src < 48)
  | _ => false

/-- Binds lines in order (R268); those from a tile are on their way to the hub (R161). -/
def bindAll (ls : List BLine) (s : State) : State :=
  { s with slc := { s.slc with bound := s.slc.bound ++ ls, toHub := s.slc.toHub ++ ls.filter fromTile } }

/-- A destination line of a culvert. -/
def isDestLine (b : BLine) : Bool := match b.cargo with
  | .dest _ => true
  | _ => false

/-- Unbinds every line of the cargo given. -/
def unbind (c : Cargo) (s : State) : State :=
  { s with slc := { s.slc with bound := s.slc.bound.filter fun b => b.cargo != c } }

/-- Words of a hub or tile memory line, among those that stored bits reach, are uncorrectable (R225, R284). DESIGN
CHOICE: log entry 13. -/
def hubWordBad (s : State) (l lo w : Nat) : Bool := (wordsOf lo w).any fun j => mget 0 s.tmErr (16 * l + j) == 255

/-- A hub memory line has an uncorrectable word. -/
def hubBad (s : State) (l : Nat) : Bool := hubWordBad s l 0 576

/-- A tile is in nap or a dark state, so its memory takes no part in traffic (R95). -/
def tileAsleep (s : State) (t : Nat) : Bool := available s t && (tileIsl s t).state != .run

/-- ISL_TILE_ASLEEP (R95): tile, requester, address. -/
def asleepReport (s : State) (t : Nat) (rq : Req) (a : Nat) : Report :=
  mkReport Unit.isl Cls.reported Code.islTileAsleep (islOf s t) [(t, 6), (rq.code.toNat, 9), (a, 45)]

end Sys2Proof.Machine
end

