-- ==== Sys2Proof/Machine/Trace.lean ====
section
/-! DEFINITION. Trace.lean: the wake trace's packets, FIFOs and buffer (R414–R425). -/

namespace Sys2Proof.Machine

/-- A packet header word (R415). -/
def pktHead (core typ payload : Nat) : Word := BitVec.ofNat 36 (packFields [(payload, 29), (typ, 4), (core, 3)])

/-- The words of a TIME packet (R415, R418). -/
def pktTime (core chron : Nat) : List Word :=
  [pktHead core 5 (field chron 36 26), BitVec.ofNat 36 (field chron 0 36)]

/-- The words of a SYNC packet. -/
def pktSync (core reason addr : Nat) : List Word :=
  [pktHead core 3 (packFields [(field addr 40 8, 8), (0, 18), (reason, 3)]), BitVec.ofNat 36 (field addr 4 36)]

/-- The fields of a tile's TRACE record (R424). -/
def streaming (s : State) (t : Nat) : Bool := hasTrace (image s) t && secX s 13 (64 + 32 * t) 1 0 == 1
def traceHold (s : State) (t : Nat) : Bool := secX s 13 (65 + 32 * t) 1 0 == 1
def traceCul (s : State) (t : Nat) : Nat := secX s 13 (66 + 32 * t) 1 0
def traceSize (s : State) (t : Nat) : Nat := 2 ^ secX s 13 (67 + 32 * t) 1 6
def traceBase (s : State) (t : Nat) : Nat := secX s 13 (72 + 32 * t) 8 0

/-- Tracing of core `i` is enabled and not stopped by a world call (R414, R421). -/
def tracing (s : State) (i : Nat) : Bool :=
  (tileAt s (i / 8)).cen.getLsbD (i % 8) && !(coreAt s i).trace.hidden

/-- The words a core's FIFO holds. -/
def fifoWords (x : CoreTrace) : Nat := (x.fifo.map List.length).sum

/-- A packet enters the FIFO, or is discarded and its words counted where the 16 words have no room, or where LOSS and
SYNC are owed for packets lost before it (R419). DEDUCED: log entry 66. -/
def fifoPut (p : List Word) (x : CoreTrace) : CoreTrace :=
  if x.lostW = 0 ∧ fifoWords x + p.length ≤ 16 then { x with fifo := x.fifo ++ [p], since := x.since + p.length }
  else { x with lostW := x.lostW + p.length, base := none }

/-- The delta base becomes a bundle, unless the packet that names it was lost (R417). -/
def setBase (b : Nat) (x : CoreTrace) : CoreTrace := { x with base := if x.lostW = 0 then some b else none }

/-- The BRANCH accumulator is emitted before any other packet (R416). -/
def flushBranch (core : Nat) (x : CoreTrace) : CoreTrace :=
  if x.acc = [] then x
  else
    fifoPut [pktHead core 1 (packFields [(joinUnits 1 (x.acc.map b2n), 24), (x.acc.length, 5)])] { x with acc := [] }

/-- The words of a TARGET packet. -/
def pktTarget (core kind : Nat) (d : Word) : List Word := [pktHead core 2 (kind * 2 ^ 27), d]

/-- A SYNC and the TIME that follows it at once (R417, R418), and then the TARGET of a return to the bundle it names, which
waited for it. -/
def emitSync (core reason addr chron : Nat) (x : CoreTrace) : CoreTrace :=
  let y := fifoPut (pktSync core reason addr) (flushBranch core x)
  let y := fifoPut (pktTime core chron) { y with
    since := 0, owed := none, ret := none, named := if y.named.any (fun n => n.2 == addr) then none else y.named }
  setBase addr (if x.ret = some addr then fifoPut (pktTarget core 3 0) y else y)

/-- A signed bundle delta when it fits in 36 bits (R417). -/
def bundleDelta (base addr : Nat) : Option Word :=
  let d : Int := (addr / 16 : Nat) - (base / 16 : Nat)
  if -(2 ^ 35) ≤ d ∧ d < 2 ^ 35 then some (BitVec.ofInt 36 d) else none

/-- The REASON of a SYNC that names a bundle (R417): the one owed, or that of the SYNC that waits for this bundle. -/
def syncReason (pc : Nat) (x : CoreTrace) : Nat := match x.owed, x.named with
  | some r, _ => r
  | none, some (r, a) => if a = pc then r else 2
  | none, none => 2

/-- The core's delta base, after the SYNC owed where B has no value (R417): the bundle named is the one in issue, or the one
whose place an entry takes. After a loss, that SYNC follows the LOSS (R419). DEDUCED: log entry 66. -/
def withBase (core pc chron : Nat) (x : CoreTrace) : CoreTrace :=
  match x.base, x.owed with
  | some _, none => x
  | _, _ => if x.lostW = 0 then emitSync core (syncReason pc x) pc chron x else x

/-- The FIFO has lost packets and has room again for LOSS, SYNC and TIME (R419). DEDUCED: log entry 66. -/
def roomAgain (x : CoreTrace) : Bool := decide (0 < x.lostW) && decide (fifoWords x + 5 ≤ 16)

/-- LOSS with REASON b00 (R419). The SYNC with REASON b011 is owed: it comes with the bundle it names, whose issue its
TIME gives (R418). DEDUCED: log entry 66. -/
def emitLoss (core : Nat) (x : CoreTrace) : CoreTrace :=
  { fifoPut [pktHead core 7 (satW 27 x.lostW)] { x with lostW := 0 } with base := none, owed := some 3 }

/-- A SYNC that names a bundle to come waits, with its TIME, until that bundle issues (R417, R418). DEDUCED: log entry 66. -/
def nameSync (reason addr : Nat) (x : CoreTrace) : CoreTrace := { x with base := none, named := some (reason, addr) }

/-- TARGET (R417), or a SYNC with REASON b101 where the delta does not fit. -/
def emitTarget (core kind pc addr chron : Nat) (x : CoreTrace) : CoreTrace :=
  let x := withBase core pc chron (flushBranch core x)
  match bundleDelta (x.base.getD pc) addr with
  | some d => setBase addr (fifoPut (pktTarget core kind d) x)
  | none => nameSync 5 addr x

/-- TARGET of a resumption (R417, KIND b11). Where the delta base has no value, it follows the SYNC that names the
bundle as that bundle issues (R418). DEDUCED: log entry 66. -/
def emitReturn (core addr : Nat) (x : CoreTrace) : CoreTrace :=
  let x := flushBranch core x
  match x.base, x.owed with
  | some b, none =>
    match bundleDelta b addr with
    | some d => setBase addr (fifoPut (pktTarget core 3 d) x)
    | none => nameSync 5 addr x
  | _, _ =>
    if x.lostW = 0 then { x with owed := some (syncReason addr x), ret := some addr }
    else fifoPut (pktTarget core 3 0) x

/-- EVENT (R417): kind, vector, resume address and entry address. A SYNC with REASON b101 that names the resume bundle stands
for a delta of word 1 that does not fit, and word 1 is then 0; one that names the entered code stands for an EVENT whose
word 2 does not fit. DEDUCED: log entry 66. -/
def emitEvent (core kind vec pc p entry chron : Nat) (x : CoreTrace) : CoreTrace :=
  let x := withBase core pc chron (flushBranch core x)
  let x := if (bundleDelta (x.base.getD p) p).isNone then emitSync core 5 p chron x else x
  match bundleDelta (x.base.getD p) p, bundleDelta p entry with
  | some d1, some d2 =>
    setBase entry (fifoPut [pktHead core 4 (packFields [(0, 18), (vec, 9), (kind, 2)]), d1, d2] x)
  | _, _ => nameSync 5 entry x

/-- A core STATE packet and, but for resume, the TIME that follows it (R418, R422). -/
def emitState (core st chron : Nat) (x : CoreTrace) : CoreTrace :=
  let x := fifoPut [pktHead core 6 (st * 2 ^ 26)] (flushBranch core x)
  if st = 5 then x else fifoPut (pktTime core chron) x

/-- Words lost are added to LOSSW and to the count that WKT_LOSS will report (R427). -/
def traceLost (t n reason : Nat) (s : State) : State :=
  setTile t (fun x => { x with lossw := satW 18 (x.lossw + n), unrep := x.unrep + n, reason := reason }) s

/-- A change of a core's trace; the words that it loses are counted (R419, R427). DEDUCED: log entry 66. -/
def changeTrace (i : Nat) (f : CoreTrace → CoreTrace) (s : State) : State :=
  let x := (coreAt s i).trace
  let n := (f x).lostW - x.lostW
  let s := setCore i (fun c => { c with trace := f c.trace }) s
  if n = 0 then s else traceLost (i / 8) n 0 s

/-- One word enters the buffer in wrap or stop mode (R420). In stop mode a buffer that holds 8,192 words takes none.
DEDUCED: log entry 66. -/
def bufWord (w : Word) (x : Tile) : Tile :=
  if x.bmode && (x.full || decide (8192 ≤ x.used)) then { x with full := true }
  else
    let n := x.used + 1
    let x := { x with
      buf := mset 0 x.buf x.widx w, bufBad := mset false x.bufBad x.widx false, widx := (x.widx + 1) % 8192 }
    if x.bmode then { x with used := n, full := decide (n = 8192) }
    else { x with used := min n 8192, wrapped := x.wrapped || decide (x.widx = 0) }

/-- A packet does not enter a streaming buffer: its words are counted, and its core loses the packets that follow until it
has started again with a SYNC (R417, R425). DEDUCED: log entry 66. -/
def bufLost (t : Nat) (src : Option Nat) (p : List Word) (s : State) : State :=
  let s := traceLost t p.length 1 (setTile t (fun x => { x with lostBuf := x.lostBuf + p.length }) s)
  match src with
  | none => s
  | some c => setCore (8 * t + c) (fun k => { k with trace := { k.trace with full := true, base := none } }) s

/-- The core that sends a packet has lost earlier ones to the buffer. -/
def lostBefore (s : State) (t : Nat) (src : Option Nat) : Bool := match src with
  | none => false
  | some c => (coreAt s (8 * t + c)).trace.full

/-- A packet enters the buffer. With streaming, one that finds 8,192 words not yet drained is discarded (R425). -/
def bufPacket (t : Nat) (src : Option Nat) (p : List Word) (s : State) : State :=
  let x := tileAt s t
  if streaming s t then
    if x.used + p.length ≤ 8192 ∧ !lostBefore s t src then
      setTile t (fun x => p.foldl (fun x w =>
        { x with buf := mset 0 x.buf x.widx w, bufBad := mset false x.bufBad x.widx false, widx := (x.widx + 1) % 8192
                 used := x.used + 1 }) x) s
    else bufLost t src p s
  else setTile t (fun x => p.foldl (fun x w => bufWord w x) x) s

/-- The tile's own packets enter, within the words left in this cycle (R419). -/
def roundTile (t : Nat) : Nat → Nat → State → State × Nat
  | 0, room, s => (s, room)
  | n + 1, room, s =>
    match (tileAt s t).tileQ with
    | [] => (s, room)
    | p :: ps =>
      if p.length ≤ room then
        roundTile t n (room - p.length) (bufPacket t none p (setTile t (fun x => { x with tileQ := ps }) s))
      else (s, 0)

/-- One packet of each core in turn, within the words left (R419). -/
def roundCores (t : Nat) : List Nat → Nat → State → State
  | [], _, s => s
  | c :: cs, room, s =>
    match (coreAt s (8 * t + c)).trace.fifo with
    | [] => roundCores t cs room s
    | p :: ps =>
      if p.length ≤ room then
        roundCores t cs (room - p.length) (bufPacket t (some c) p
          (setCore (8 * t + c) (fun k => { k with trace := { k.trace with fifo := ps } }) s))
      else roundCores t cs room s

/-- Room returns in a streaming buffer as a drain line leaves it: one LOSS with REASON b01, and a SYNC owed by each
core that lost packets (R425). DEDUCED: log entry 66. -/
def roomReturned (t : Nat) (s : State) : State :=
  let x := tileAt s t
  if 0 < x.lostBuf ∧ x.used + 1 ≤ 8192 then
    let s := bufPacket t none [pktHead 0 7 (packFields [(satW 27 (tileAt s t).lostBuf, 27), (1, 2)])]
      (setTile t (fun x => { x with lostBuf := 0 }) s)
    (List.range 8).foldl (fun s c =>
      if (coreAt s (8 * t + c)).trace.full then
        setCore (8 * t + c) (fun k => { k with trace := { k.trace with full := false, owed := some 3, base := none } }) s
      else s) s
  else s

/-- Packets wait in the FIFOs of a tile. -/
def tracePending (s : State) (t : Nat) : Bool :=
  !(tileAt s t).tileQ.isEmpty || (List.range 8).any fun c => !(coreAt s (8 * t + c)).trace.fifo.isEmpty

/-- One tile cycle of the wake unit: up to 4 words, whole packets, the tile's own first, then the cores from one higher
than last (R419). -/
def wakeRound (t : Nat) (s : State) : State :=
  let (s, room) := roundTile t 4 4 s
  let r := (tileAt s t).rr
  let s := roundCores t ((List.range 8).map fun k => (r + k) % 8) room s
  setTile t (fun x => { x with rr := (r + 1) % 8 }) s

/-- A core issues a bundle: where it has issued one since the last cycle of the wake unit, a tile cycle has passed (R419).
DESIGN CHOICE: log entry 70. -/
def wakeCycle (i : Nat) (s : State) : State :=
  let t := i / 8
  let b := BitVec.ofNat 8 (2 ^ (i % 8))
  if !tracePending s t then s
  else if (tileAt s t).issued.getLsbD (i % 8) then wakeRound t (setTile t (fun x => { x with issued := b }) s)
  else setTile t (fun x => { x with issued := x.issued ||| b }) s

/-- Tile cycles pass until every packet has left its FIFO (R419). DESIGN CHOICE: log entry 70. -/
def wakeRounds (t : Nat) : Nat → State → State
  | 0, s => s
  | n + 1, s => if tracePending s t then wakeRounds t n (wakeRound t s) else s

/-- The time that has passed as the wake units count it: a tile cycle for each nanosecond and for each hub cycle. DESIGN
CHOICE: log entry 70. -/
def wakeNow (s : State) : Nat := s.isl.chron + s.slc.cycle

/-- The tile cycles that have passed since the wake unit last stood at an instant move what waits in the FIFOs (R419). DESIGN
CHOICE: log entry 70. -/
def catchUp (t : Nat) (s : State) : State :=
  let n := wakeNow s - (tileAt s t).wakeAt
  setTile t (fun x => { x with wakeAt := wakeNow s }) (wakeRounds t (min n (136 + (tileAt s t).tileQ.length)) s)

/-- See `wakeRounds`: the FIFOs of a tile hold at most 128 words beside its own packets. DESIGN CHOICE: log entry 70.
-/
def wakeSettle (t : Nat) (s : State) : State := wakeRounds t (136 + (tileAt s t).tileQ.length) s

/-- A change of the trace of a core that emits: the words of its FIFO have moved on until now, and LOSS precedes it where
room has returned; outcomes gathered since the loss are lost with it (R416, R419). DEDUCED: log entry 66. -/
def traceEmit (i : Nat) (f : Nat → CoreTrace → CoreTrace) (s : State) : State :=
  let s := catchUp (i / 8) s
  let s :=
    if roomAgain (coreAt s i).trace then changeTrace i (emitLoss (i % 8)) (changeTrace i (flushBranch (i % 8)) s) else s
  changeTrace i (f (tileChron s (i / 8))) s

/-- Applies a change to a core's trace when it is traced (R414, R421). DEDUCED: log entry 66. -/
def traceCore (i : Nat) (f : Nat → CoreTrace → CoreTrace) (s : State) : State :=
  if tracing s i then traceEmit i f s else s

/-- The outcome of a conditional branch (R416). -/
def traceBranch (i : Nat) (taken : Bool) (s : State) : State :=
  traceCore i (fun _ x =>
    let x := { x with acc := x.acc ++ [taken] }
    if x.acc.length = 24 then flushBranch (i % 8) x else x) s

/-- The SYNC that precedes the bundle at `pc` (R414, R417, R418): one owed, one that names this bundle, or a periodic one. -/
def syncDue (per pc : Nat) (x : CoreTrace) : Option Nat :=
  match x.owed, x.named with
  | some r, _ => some r
  | none, some (r, a) => if a = pc then some r else none
  | none, none => if per ≠ 0 ∧ 2 ^ (per + 5) ≤ x.since then some 1 else none

/-- What precedes a bundle in the trace, once, as the bundle issues (R414, R418). -/
def traceIssue (i pc : Nat) (s : State) : State :=
  let per := (tileAt s (i / 8)).syncper
  traceCore i (fun ch x =>
    if x.begun then x
    else
      let x := { x with begun := true }
      if x.lostW ≠ 0 then x
      else
        match syncDue per pc x with
        | some r => emitSync (i % 8) r pc ch x
        | none => x) s

/-- The drain lines of a tile that its culvert has not yet written (R425). -/
def drains (s : State) (t : Nat) : List BLine :=
  s.slc.bound.filter fun b => match b.cargo with
    | .drain t' _ _ => t' == t
    | _ => false

/-- WPTR once every drain line on its way is written. -/
def drainPtr (s : State) (t : Nat) : Nat := ((tileAt s t).wptr + (drains s t).length) % 2 ^ 36

/-- The drain of a tile stops in hold mode while the ring is full, lines on their way counted (R426). DEDUCED: log
entry 66. -/
def drainHeld (s : State) (t : Nat) : Bool :=
  traceHold s t && (drainPtr s t + 2 ^ 36 - (tileAt s t).rdptr) % 2 ^ 36 == traceSize s t

/-- A drain line stands ready in a tile's buffer; the drain goes on while a tile that has gone dark still has power (R423,
R425). -/
def drainReady (s : State) (t : Nat) : Bool :=
  streaming s t && (tileRunning s t || (tileIsl s t).closing) && decide (16 ≤ (tileAt s t).used) && !drainHeld s t

/-- A line of a descriptor stands in the hub for the connection, so that no drain line uses it (R161, R425). -/
def culvertWork (s : State) (src d : Nat) : Bool :=
  s.slc.bound.any fun b => b.src == src && b.dst == d && !s.slc.toHub.contains b && match b.cargo with
    | .drain _ _ _ => false
    | _ => true

/-- A tile STATE packet with its TIME, after every packet that its cores have emitted (R422). DEDUCED: log entry 66.
-/
def traceTile (t st : Nat) (s : State) : State :=
  let s := wakeSettle t s
  let ch := tileChron s t
  setTile t (fun x => { x with tileQ := x.tileQ ++ [[pktHead 0 6 (st * 2 ^ 26)], pktTime 0 ch], wakeAt := wakeNow s }) s

end Sys2Proof.Machine
end

