-- ==== Sys2Proof/Machine/CoreOps.lean ====
section
/-! DEFINITION. CoreOps.lean: contract time, landings, bundles, safe points, exceptions and their return (chapters 05 and
06), and the comparators (R446, R448). -/

namespace Sys2Proof.Machine

/-- The number of a core: 8 × logical tile + core. -/
def coreIx (c : CoreId) : Nat := 8 * c.tile.val + c.core.val

/-- The number of the core a syllable issues on. -/
def issueIx (x : Issue) : Nat := 8 * x.tile.val + x.core.val

/-- A core's requester code and world (R17, R227). -/
def coreReq (s : State) (i : Nat) : Req := ⟨BitVec.ofNat 9 i, (coreAt s i).sec⟩

/-- A core's report: UNIT o20 and INSTANCE logical tile × 8 + core (R454). -/
def coreReport (cls code i : Nat) (fields : List (Nat × Nat)) : Report := mkReport Unit.tile cls code i fields

/-- Bits [47:4] of a bundle address, as reports carry it (R471). -/
def bundleField (pc : Nat) : Nat × Nat := (field pc 4 44, 44)

/-- The bank of registers of a world (R103). -/
def Core.bankOf (k : Core) (sec : Bool) : Bank := if sec then k.secB else k.norB

/-- Changes the bank of a world. -/
def Core.setBank (k : Core) (sec : Bool) (f : Bank → Bank) : Core :=
  if sec then { k with secB := f k.secB } else { k with norB := f k.norB }

/-- Reads a general register; g0 reads as zero (R101). -/
def Core.read (k : Core) (r : BitVec 6) : Double := if r = 0 then 0 else mget 0 k.regs r.toNat

/-- Writes a landing's destination: a general register other than g0, or lk (R101, R116). -/
def Core.write (k : Core) (r : Nat) (v : Double) : Core :=
  if r = 0 then k
  else if r < 64 then { k with regs := mset 0 k.regs r v }
  else if r = 64 then { k with lk := v &&& 0o7777777777777760#72 }
  else k

/-- The current level CL: none for base (R253). -/
def Core.level (k : Core) : Option Nat :=
  match k.stack with
  | [] => none
  | f :: _ => f.level

/-- The core runs in the world that owns its tile (R253). -/
def ownWorld (s : State) (i : Nat) : Bool := (coreAt s i).sec == tileSec s (i / 8)

/-- The watchdog counts: it is armed or expired and no debug halt is in force (R263, R451). -/
def wdCounts (k : Core) : Bool := k.wd.en && (k.wd.state == 1 || k.wd.state == 2) && k.halt.isNone && !k.fatal

/-- REMAIN of a core's watchdog now (R263). -/
def wdRemain (s : State) (i : Nat) : Nat :=
  let k := coreAt s i
  if wdCounts k then k.wd.remain - (tileChron s (i / 8) - k.wd.from') / 1000 else k.wd.remain

/-- The misses outstanding (R149): a line that DFILLK fetches counts once a load or a store waits for it (R147, R212). -/
def Core.missing (k : Core) : List Miss := k.misses.filter fun m => m.kind != .fillLocked || m.accs.any fun a => a.op.isNone

/-- The boundary before the next bundle is a safe point (R162): every result has landed, no miss is outstanding, nothing
is held, and it lies in no delay and no locked sequence. -/
def Core.safe (k : Core) : Bool :=
  k.flight.all (fun l => decide (l.due ≤ k.cyc)) && k.missing.isEmpty && k.held.isEmpty && k.dly == 0 && k.seq.isNone

/-- Among results due together on one register, whether `a` gives way to `b`: the higher slot is written; within one
slot the spec gives no order, and a free value decides (R145). DESIGN CHOICE: log entry 10. -/
def yields (s : State) (a b : Landing) : Bool :=
  a.id != b.id && a.reg == b.reg && a.due == b.due && a.reg != 0 && decide (a.reg ≤ 64) &&
    (decide (a.slot < b.slot) ||
      (a.slot == b.slot && (decide (a.id < b.id) == (Config.openValue 10 [a.reg, a.slot, a.due] % 2 == s.draws % 2))))

/-- CSTAT.LC, LCCNT and TILE_CLAST after a collision (R145, R146, R164, R165). DESIGN CHOICE: log entry 10. -/
def collide (i reg win lose : Nat) (kind : Bool) (s : State) : State :=
  let k := coreAt s i
  let s := reportIf (!k.lc) (coreReport Cls.reported Code.coreLandingCollision i
    [(reg, 6), (win, 2), (lose, 2), (b2n kind, 1), bundleField k.pc]) s
  setCore i (fun k => { k with
    lc := true, lccnt := satW 18 (k.lccnt + 1), lastReg := reg, lastWin := win, lastLose := lose, lastKind := kind
    ctPend := if k.tlc && !k.ctPend.contains (1, k.sec) then k.ctPend ++ [(1, k.sec)] else k.ctPend }) s

/-- The flags of a landing: DZ and OV of CSTAT, FS.FL, and the trap that an enabled flag makes pending (R171, R184,
R186). -/
def landFlags (l : Landing) (k : Core) : Core :=
  let k := { k with dz := k.dz || l.dz, ov := k.ov || l.ov }
  let te := field k.fs.toNat 8 5
  let k := { k with fs := k.fs ||| BitVec.ofNat 36 (l.flags % 32) }
  let en := l.flags &&& te
  if en = 0 then k else { k with fpPend := k.fpPend ++ [⟨en, l.sec, l.issued⟩] }

/-- One landing reaches its destination, unless another result due with it wins the register (R144, R145). DESIGN CHOICE: log
entry 67. -/
def landOne (i : Nat) (ready : List Landing) (l : Landing) (s : State) : State :=
  let s := setCore i (landFlags l) s
  match ready.filter (yields s l) with
  | [] =>
    let s := setCore i (fun k => k.write l.reg l.val) s
    match (ready.filter fun a => yields s a l).foldl (fun m a => max m (a.slot + 1)) 0 with
    | 0 => s
    | lose + 1 => collide i l.reg l.slot lose false s
  | _ => s

/-- The status 2 that an exit brings to the resumed bundle joins the results due (R256, R259). -/
def exitStatus (k : Core) : Core :=
  match k.statDue with
  | none => k
  | some d =>
    { k with statDue := none, nid := k.nid + 1
             flight := k.flight ++ [{ id := k.nid, reg := d, slot := 3, due := k.cyc, val := 2, sec := k.sec }] }

/-- An outstanding miss freezes the core before its next bundle (R150, R152). -/
def Core.missFrozen (k : Core) : Bool := k.frozen || k.missing.any fun m => decide (m.cyc + 4 ≤ k.cyc)

/-- The contract cycle of the next bundle has not begun: a miss, a wait or a fence freezes the core before it (R144, R150,
R157, R159). -/
def Core.stalled (k : Core) : Bool := k.missFrozen || k.wait.isSome || k.fence

/-- Every result due in contract cycle C, which the core issues next, or earlier lands (R144, R145, R150, R440). A result that
waits for a miss does not. DESIGN CHOICE: log entry 67. -/
def landNow (i : Nat) (s : State) : State :=
  let s := setCore i exitStatus s
  let k := coreAt s i
  let isDue := fun (l : Landing) => decide (l.due ≤ k.cyc) && l.miss.isNone
  let ready := k.flight.filter isDue
  let s := setCore i (fun k => { k with flight := k.flight.filter fun l => !isDue l }) s
  ready.foldl (fun s l => landOne i ready l s) s

/-- The results due land once their contract cycle has begun (R144). -/
def landDue (i : Nat) (s : State) : State := if (coreAt s i).stalled then s else landNow i s

/-- A drought reached its 65th bundle: DR, DRCNT, the report, and the trap of the world in which it arose (R163–R165), by DR
and TDR as the bundle issued. -/
def drought (i : Nat) (s : State) : State :=
  let k := coreAt s i
  match k.dueAt with
  | none => s
  | some d =>
    let s := reportIf (!d.dr) (coreReport Cls.reported Code.coreDrought i [bundleField d.pc]) s
    setCore i (fun k => { k with
      dueAt := none, dr := !d.cleared, drcnt := satW 18 (k.drcnt + 1)
      ctPend := if d.tdr && !k.ctPend.contains (2, d.sec) then k.ctPend ++ [(2, d.sec)] else k.ctPend }) s

/-- The open sequence has no ULK by the end of bundle b + 8 (R132). -/
def Core.seqOver (k : Core) : Bool :=
  match k.seq with
  | none => false
  | some q => decide (q.opened + 8 < k.cyc)

/-- The sequence closes broken and LB is set (R132). -/
def seqTimeout (i : Nat) (s : State) : State :=
  if (coreAt s i).seqOver then setCore i (fun k => { k with seq := none, lb := true }) s else s

/-- What comes about at a boundary before the next bundle: results land, a locked sequence runs out, a drought is
recorded. -/
def settle (i : Nat) (s : State) : State := drought i (seqTimeout i (landDue i s))

/-- The open sequence breaks (R132). -/
def Core.breakSeq (k : Core) : Core := { k with seq := k.seq.map fun q => { q with broken := true } }

/-- Whether a floating-point trap of a world is pending. -/
def Core.fpDue (k : Core) : Bool := k.fpPend.any fun p => p.sec == k.sec

/-- Whether a barrier boundary holds a trap (R188): the named boundary is this one and a pending flag comes from an
operation issued before FBAR. -/
def Core.barrierDue (k : Core) : Bool :=
  k.fbars.any fun b => b.1 == k.cyc && k.fpPend.any fun p => p.sec == k.sec && decide (p.issued < b.2)

/-- Whether a CONTRACT trap of the current world is pending. -/
def Core.ctDue (k : Core) : Bool := k.ctPend.any fun p => p.2 == k.sec

/-- A trap is to be taken at this boundary (R165, R187, R188). -/
def Core.trapDue (k : Core) : Bool := !k.ex && ((k.safe && (k.fpDue || k.ctDue)) || k.barrierDue)

/-- The offered delivery that the core takes at this boundary (R253): the highest level, then the earliest fired, then
the lowest source. -/
def bestOffer (k : Core) : Option Offer :=
  k.offers.foldl (fun b o =>
    match b with
    | none => some o
    | some p =>
      if p.level < o.level ∨ (p.level = o.level ∧ (o.fired < p.fired ∨ (o.fired = p.fired ∧ o.src < p.src)))
      then some o else some p) none

/-- SPOL of the DEBUG section: true for open (R450). -/
def spolOpen (s : State) : Bool := secX s 14 0 1 0 == 1

/-- Under the closed policy, a halt waits while the core runs in the secure world on a normal-owned tile (R450, R452). -/
def haltWaits (s : State) (i : Nat) : Bool := (coreAt s i).sec && !tileSec s (i / 8) && !spolOpen s

/-- The halt requests under which a core still issues: none, one on its way (R442), and one that waits for WRET; after WRET
the last is taken at once (R450). -/
def issuesOn (s : State) (i : Nat) : Bool :=
  (coreAt s i).haltReq == none || ((coreAt s i).haltReq == some 1 && !(coreAt s i).haltNow) || haltWaits s i

/-- A level is above CL (R253). -/
def aboveLevel (k : Core) (l : Nat) : Bool :=
  match k.level with
  | none => true
  | some c => decide (c < l)

/-- A delivery can be taken at this boundary (R253); with MASKI none is taken at the boundary that ends a step, before the halt
or after it (R444). -/
def interruptDue (s : State) (i : Nat) : Bool :=
  let k := coreAt s i
  k.safe && k.ie && !k.ex && ownWorld s i && k.halt.isNone && !k.fatal && !(k.maskI && (k.haltReq == some 4 || k.stepped)) &&
    match bestOffer k with
    | none => false
    | some o => aboveLevel k o.level

/-- A stack-fault entry is to be taken at this boundary (R261). -/
def stackFaultDue (s : State) (i : Nat) : Bool :=
  let k := coreAt s i
  k.fpend.isSome && k.safe && !k.ex && ownWorld s i

/-- The core's clock runs and it may execute: its tile runs, the module serves, and it has neither halted nor dozed.
DEDUCED: log entry 19. -/
def coreLive (s : State) (i : Nat) : Bool :=
  let k := coreAt s i
  k.on && serving s && tileRunning s (i / 8) && !k.fatal && k.halt.isNone && !k.dozing

/-- A bundle may issue at this boundary. DEDUCED: log entry 19. -/
def mayOpen (s : State) (i : Nat) : Bool :=
  let k := coreAt s i
  coreLive s i && k.wait.isNone && !k.fence && k.walk.isNone && !k.missFrozen &&
    issuesOn s i && !k.trapDue && !stackFaultDue s i && !interruptDue s i

/-- Comparator `j` of a core. -/
def Core.comp (k : Core) (j : Nat) : Comparator := mget {} k.comps j

/-- The world, mode and context conditions of a comparator (R448). -/
def compGate (k : Core) (c : Comparator) : Bool :=
  let w := c.ctl.toNat
  (field w 6 2 == 0 || field w 6 2 == (if k.sec then 2 else 1)) &&
    (field w 8 2 == 0 || field w 8 2 == (if k.kernel then 2 else 1)) &&
    (!bitOf w 10 || field w 11 16 == k.ctx.toNat)

/-- The address condition of comparator `j`, with the low `z` bits ignored, for the units from `lo` to `hi` (R448). -/
def compAddr (k : Core) (j z lo hi : Nat) : Bool :=
  let a := (k.comp j).addr.toNat % 2 ^ 48 / 2 ^ z * 2 ^ z
  if j % 2 = 0 ∧ bitOf (k.comp j).ctl.toNat 5 then
    decide (a ≤ hi) && decide (lo ≤ (k.comp (j + 1)).addr.toNat % 2 ^ 48)
  else decide (lo ≤ a) && decide (a ≤ hi)

/-- ACT of a comparator. -/
def compAct (k : Core) (j : Nat) : Nat := field (k.comp j).ctl.toNat 0 2

/-- The world, mode, context and address conditions of the comparators for the bundle at `pc` (R448). -/
def bundleFits (k : Core) (pc j : Nat) : Bool := compGate k (k.comp j) && compAddr k j 4 pc pc

/-- The comparators that match the bundle at `pc` (R448). -/
def bundleMatches (k : Core) (pc : Nat) : List Nat :=
  (List.range 8).filter fun j => compAct k j != 0 && bundleFits k pc j

/-- A comparator with the halt or channel action does not match in the secure world under SPOL 0 (R450), one with the monitor
action not while EX = 1 (R446). -/
def compLive (s : State) (k : Core) (j : Nat) : Bool :=
  match compAct k j with
  | 0 => true
  | 1 => !k.ex
  | _ => !(k.sec && !spolOpen s)

/-- The data comparators that match an access of units `lo` to `hi` in virtual addresses (R448); the linked comparator matches
the bundle under the conditions of its own action, and may be off. DESIGN CHOICE: log entry 74. -/
def accessMatches (s : State) (k : Core) (pc lo hi : Nat) (store : Bool) : List Nat :=
  [8, 9, 10, 11].filter fun j =>
    let w := (k.comp j).ctl.toNat
    let link := field w 30 3
    compAct k j != 0 && compGate k (k.comp j) && bitOf (field w 27 2) (if store then 1 else 0) &&
      compAddr k j 0 lo hi && (!bitOf w 29 || (bundleFits k pc link && compLive s k link))

/-- Those of some comparators that can match now. -/
def liveMatches (s : State) (k : Core) (js : List Nat) : List Nat := js.filter (compLive s k)

/-- Adds a cause to the bundle in issue; the lowest in the order of R121, then the lowest slot, is kept. -/
def addCause (i : Nat) (c : Cause) (s : State) : State :=
  setCore i (fun k =>
    match k.cause with
    | none => { k with cause := some c }
    | some d => if c.rank < d.rank ∨ (c.rank = d.rank ∧ c.slot < d.slot) then { k with cause := some c } else k) s

/-- A pulse leaves on channels, from a tile or from the hub (R449). -/
def pulseFrom (origin mask : Nat) (s : State) : State :=
  if mask = 0 then s else { s with dbu := { s.dbu with pulses := s.dbu.pulses ++ [(mask, origin)] } }

/-- The effects of comparator matches (R444, R446, R448): a channel pulse, a halt before the bundle, which the
comparator makes once, or COMPARE, which a match in a locked body defers. -/
def applyMatches (i slot eval : Nat) (js : List Nat) (s : State) : State :=
  js.foldl (fun s j =>
    let k := coreAt s i
    match compAct k j with
    | 1 =>
      if k.seq.isSome then (if k.mdef = 0 then setCore i (fun k => { k with mdef := 1 + j + 16 * eval }) s else s)
      else addCause i ⟨4, slot, 0o13, j, eval⟩ s
    | 2 =>
      if k.passCmp.contains j then s
      else setCore i (fun k => { k with haltReq := some 2, haltCmp := j, passCmp := j :: k.passCmp }) s
    | 3 => if k.resend then s else pulseFrom (i / 8) (2 ^ field (k.comp j).ctl.toNat 2 3) s
    | _ => s) s

/-- The first syllable of a bundle: the boundary settles, the drought counter restarts at a safe point, and the bundle's
comparators match. -/
def openBundle (i : Nat) (s : State) : State :=
  let s := setCore i (fun k => { k with
    drought := if k.safe || !k.ie || k.ex then 0 else k.drought, cause := none, taken := none, later := []
    s2coll := none, cleared := none, trace := { k.trace with begun := false } }) s
  let k := coreAt s i
  applyMatches i 0 k.pc (liveMatches s k (bundleMatches k k.pc)) s

/-- The bundle is annulled: its results, branch and register writes are absent (R121). -/
def annul (i : Nat) (s : State) : State :=
  setCore i (fun k => { k with
    flight := k.flight.filter fun l => decide (l.issued ≠ k.cyc), taken := none, later := [], s2coll := none
    cause := none, slot := 0 }) s

/-- The address and delay state of the bundle that follows the one in issue (R117): next, remaining delay, target. -/
def Core.after (k : Core) : Nat × Nat × Nat :=
  let nxt := (k.pc + 16) % 2 ^ 48
  match k.taken with
  | some t => (nxt, 2, t)
  | none => if k.dly = 0 then (nxt, 0, 0) else if k.dly = 1 then (k.tgt, 0, 0) else (nxt, k.dly - 1, k.tgt)

/-- The source with which the hub rings a core fault: CFAULT_BASE + 8 t + c (R262). -/
def coreFaultSource (s : State) (i : Nat) : Nat := secX s 9 8 4 4096 + i

/-- A doorbell reaches the router: its source, its requester code and world (R245). -/
def ringDoorbell (src code : Nat) (sec : Bool) (s : State) : State :=
  { s with ivc := { s.ivc with bells := s.ivc.bells ++ [⟨src % 262144, code, sec⟩] } }

/-- A core halts by a fault: it is reported, its watchdog's REMAIN stays as it is, and the hub rings its core-fault source
with the world of the tile (R125, R222, R261, R262, R265, R451). The doorbell carries the code of the halted core. DESIGN
CHOICE: log entry 72. -/
def coreFatal (i : Nat) (r : Report) (s : State) : State :=
  let left := wdRemain s i
  let s := setCore i (fun k => { k with fatal := true, slot := 0, cause := none, wd := { k.wd with remain := left } })
    (report r s)
  ringDoorbell (coreFaultSource s i) i (tileSec s (i / 8)) s

/-- ECAUSE as R122 sets it. -/
def ecauseWord (vec code slot dly : Nat) (sp pmode : Bool) : Word :=
  BitVec.ofNat 36 (packFields [(vec, 5), (0, 1), (b2n pmode, 1), (dly, 2), (slot, 2), (b2n sp, 1), (code, 15)])

/-- CORE_DOUBLE_FAULT (R125): ECAUSE and EPC of the new cause. -/
def doubleFault (i : Nat) (ec : Word) (epc : Nat) (s : State) : State :=
  coreFatal i (coreReport Cls.fatal Code.coreDoubleFault i [(field ec.toNat 0 27, 27), bundleField epc]) s

/-- The results in flight that land after the current contract cycle. -/
def Core.later' (k : Core) : List Landing := k.flight.filter fun l => decide (k.cyc < l.due)

/-- Results in flight move to the held landing buffer with their remaining counts, and barrier boundaries with them; those
due in the current contract cycle land as scheduled (R123, R188). -/
def holdFlight (k : Core) : Core :=
  { k with
    held := k.held ++ k.later'.map (fun l => { l with due := l.due - k.cyc })
    flight := k.flight.filter fun l => decide (l.due ≤ k.cyc)
    hbars := k.hbars ++ k.fbars.map (fun b => (b.1 - k.cyc, b.2)), fbars := [] }

/-- TAKING AN EXCEPTION (R122, R123, R125): at the boundary before bundle `p`, with delay state `dly` and `tgt` there and
every due result landed or about to. Results that land after that cycle move to the held landing buffer. -/
def enterException (i vec code slot eval p dly tgt : Nat) (s : State) : State :=
  let k := coreAt s i
  let ec := ecauseWord vec code slot dly (k.later'.isEmpty && k.missing.isEmpty && k.held.isEmpty && dly == 0 &&
    k.seq.isNone) k.kernel
  if k.ex || (!k.later'.isEmpty && !k.held.isEmpty) then doubleFault i ec p s
  else
    let entry := ((k.bankOf k.sec).vbase + 64 * vec) % 2 ^ 48
    let s := traceCore i (fun ch x => emitEvent (i % 8) 0 vec k.pc p entry ch x) s
    setCore i (fun k =>
      let k := k.setBank k.sec fun b => { b with epc := p, etgt := tgt, ecause := ec, eval := eval % 2 ^ 48 }
      { (holdFlight k).breakSeq with
        kernel := true, ex := true, pc := entry, dly := 0, tgt := 0, drought := 0, resend := false, cleared := none, passCmp := [] }) s

/-- The bundle counts as issued: the drought counter, the delay state, the contract cycle, and the special-register
writes that take effect for the next bundle (R102, R117, R142, R163). -/
def advance (i : Nat) (s : State) : State :=
  setCore i (fun k =>
    let (pc, dly, tgt) := k.after
    let d := if k.ie && !k.ex then k.drought + 1 else 0
    { k with
      pc := pc, dly := dly, tgt := tgt, cyc := k.cyc + 1, slot := 0, taken := none, passCmp := [], resend := false
      drought := d, dueAt := if d = 65 then some ⟨k.pc, k.sec, k.dr, k.tdr, false⟩ else k.dueAt, dmax := max k.dmax (satW 16 d)
      haltReq := if k.step then some 4 else k.haltReq, step := false, stepped := false
      fbars := k.fbars.filter fun b => decide (k.cyc < b.1) }) s

/-- A deferred monitor match is taken at the boundary after the sequence closes (R446). -/
def deferredCompare (i : Nat) (s : State) : State :=
  let k := coreAt s i
  if k.mdef ≠ 0 ∧ k.seq.isNone ∧ !k.ex then
    let s := landDue i (setCore i (fun k => { k with mdef := 0 }) s)
    let k' := coreAt s i
    enterException i 0o13 ((k.mdef - 1) % 16 + 16) 0 ((k.mdef - 1) / 16) k'.pc k'.dly k'.tgt s
  else s

/-- The end of a bundle that no cause stops: pending collision of S2, the advance, the writes of special registers by
`sr`, and a tile cycle of the wake unit. DESIGN CHOICE: log entry 18. -/
def commitBundle (sr : Nat → Nat → Double → State → State) (i : Nat) (s : State) : State :=
  let k := coreAt s i
  let s := match k.s2coll with
    | none => s
    | some r => collide i r 2 2 true s
  let s := advance i s
  let s := k.later.foldl (fun s w => sr i w.1 w.2 s) (setCore i (fun k => { k with later := [] }) s)
  seqTimeout i (wakeCycle i s)

/-- The end of a bundle that a cause stops (R121, R122): a precise fault resumes at the bundle itself; SYSC and BRK at
the next one. A step ends before the first bundle of the entered code (R444). DEDUCED: log entry 20. -/
def takeCause (i : Nat) (c : Cause) (s : State) : State :=
  if c.rank = 6 then
    let s := landDue i (advance i (annul i (traceIssue i (coreAt s i).pc s)))
    let k := coreAt s i
    enterException i c.vec c.code c.slot c.eval k.pc k.dly k.tgt s
  else
    let s := annul i s
    let k := coreAt s i
    let s := enterException i c.vec c.code c.slot c.eval k.pc k.dly k.tgt s
    setCore i (fun k => { k with haltReq := if k.step then some 4 else k.haltReq, step := false }) s

end Sys2Proof.Machine
end

