-- ==== Sys2Proof/Machine/Rs.lean ====
section
/-! DEFINITION. Rs.lean: the line code RS(40,36) over GF(2^16) (R378, R379): its field, its check symbols, the syndromes
of a burst, and the decoder that R380 describes. A burst is a list of 40 symbols, symbol s the coefficient of
x^(39 - s). -/

namespace Sys2Proof.Machine.Rs

/-- Multiplication by α: x^16 is x^12 + x^3 + x + 1. -/
def times2 (a : Nat) : Nat := if a < 32768 then 2 * a else (2 * a) ^^^ 0x1100B

/-- Multiplication by `n` bits of `b`. -/
def gmul : Nat → Nat → Nat → Nat
  | 0, _, _ => 0
  | n + 1, a, b => (if b % 2 = 1 then a else 0) ^^^ gmul n (times2 a) (b / 2)

/-- The product of two elements of GF(2^16). -/
def mul (a b : Nat) : Nat := gmul 16 a b

/-- The power α^n. -/
def alpha : Nat → Nat
  | 0 => 1
  | n + 1 => times2 (alpha n)

/-- `n` steps of squaring and multiplying that raise an element to 2^(n+1) - 2. -/
def invLoop : Nat → Nat → Nat → Nat
  | 0, _, r => r
  | n + 1, sq, r => invLoop n (mul sq sq) (mul r (mul sq sq))

/-- The inverse of an element: its power 2^16 - 2. -/
def inv (a : Nat) : Nat := invLoop 15 a 1

/-- One step of the division of D(x) x^4 by g(x) = x^4 + 15 x^3 + 54 x^2 + 120 x + 64, highest remainder symbol first. -/
def divStep (r : List Nat) (d : Nat) : List Nat :=
  match r with
  | [r3, r2, r1, r0] =>
    let f := d ^^^ r3
    [r2 ^^^ mul f 15, r1 ^^^ mul f 54, r0 ^^^ mul f 120, mul f 64]
  | _ => r

/-- The check symbols 36 to 39 of 36 data symbols (R379). -/
def check (data : List Nat) : List Nat := data.foldl divStep [0, 0, 0, 0]

/-- The data symbols of a line: symbol s is stored bits [16 s + 15 : 16 s] (R378). -/
def dataSymbols (bits : Nat) : List Nat := splitUnits 16 36 bits

/-- The burst of a line without errors (R378). -/
def burst (bits : Nat) : List Nat := dataSymbols bits ++ check (dataSymbols bits)

/-- A burst with error symbols added at their positions. -/
def withErrors (b : List Nat) (es : List (Nat × Nat)) : List Nat :=
  b.mapIdx fun i x => es.foldl (fun x e => if e.1 = i then x ^^^ (e.2 % 65536) else x) x

/-- The value of a burst at α^j. -/
def valueAt (b : List Nat) (j : Nat) : Nat := b.foldl (fun acc x => mul acc (alpha j) ^^^ x) 0

/-- The four syndromes of a burst. -/
def syndromes (b : List Nat) : List Nat := (List.range 4).map (valueAt b)

/-- The syndromes of one error symbol `v` at position `s`. -/
def oneError (s v : Nat) : List Nat := (List.range 4).map fun j => mul v (alpha (j * (39 - s)))

/-- The positions whose single error of value S0 has these syndromes; there is at most one. -/
def locate (syn : List Nat) : Option (Nat × Nat) :=
  let v := syn.headD 0
  if v = 0 then none else ((List.range 40).find? fun s => oneError s v == syn).map fun s => (s, v)

/-- The syndromes of the poison pattern of R382. -/
def poisonSyndromes : List Nat := List.zipWith (fun a b => a ^^^ b) (oneError 36 65535) (oneError 37 65535)

/-- The product of `x_i + x_k` over the other locators. -/
def denom (xs : List Nat) (x : Nat) : Nat := xs.foldl (fun p y => if y = x then p else mul p (x ^^^ y)) 1

/-- The coefficients of the product of `x + y` over locators, lowest power first. -/
def product (ys : List Nat) : List Nat :=
  ys.foldl (fun p y => List.zipWith (fun a b => a ^^^ b) (0 :: p) (p.map (fun c => mul c y) ++ [0])) [1]

/-- The values of the erased symbols 4 d to 4 d + 3 of a device that explain the syndromes: the inner product of the
syndromes with each Lagrange polynomial of the four locators. -/
def erasures (d : Nat) (syn : List Nat) : List (Nat × Nat) :=
  let xs := (List.range 4).map fun k => alpha (39 - (4 * d + k))
  (List.range 4).map fun k =>
    let x := xs.getD k 0
    let p := product (xs.filter fun y => y != x)
    let num := (List.zipWith mul p syn).foldl (fun a b => a ^^^ b) 0
    (4 * d + k, mul num (inv (denom xs x)))

/-- What the decoder makes of a burst (R380). -/
inductive Decode
  | clean
  | single (sym val : Nat)
  | erased (fix : List (Nat × Nat))
  | poison
  | bad
  deriving DecidableEq, Repr

/-- The decoder (R379–R382): no error, the poison syndromes, the erasures of the designated device, one symbol, or the
uncorrectable mark. For four or more symbols, and for symbols outside a designated device, what it gives may be a
wrong correction (R380). -/
def decode (b : List Nat) (dev : Option Nat) : Decode :=
  let syn := syndromes b
  if syn = [0, 0, 0, 0] then .clean
  else if syn = poisonSyndromes then .poison
  else match dev with
    | some d => .erased (erasures d syn)
    | none => match locate syn with
      | some (s, v) => .single s v
      | none => .bad

/-- The stored bits of a burst. -/
def dataBits (b : List Nat) : Nat := joinUnits 16 (b.take 36)

end Sys2Proof.Machine.Rs
end

