-- ==== Sys2Proof/Machine/DramMem.lean ====
section
/-! DEFINITION. DramMem.lean: reads and writes of DRAM lines by requesters: the line code and its decode outcomes
(R378–R383), the order of acceptance (R384, R385), chart tables (R317) and subchannels that are down (R398). The stored
bits of a line whose write is queued are that write's data. -/

namespace Sys2Proof.Machine

/-- The subchannel, the bank (bank group + 8 × bank) and the row of a line (R375). -/
def subOf (l : Nat) : Nat := l % 32
def bankOfLine (l : Nat) : Nat := field l 5 3 + 8 * field l 15 2
def rowOf (l : Nat) : Nat := field l 17 17

/-- Fields of the DRAM section (R401). -/
def drcSpeed (s : State) : Nat := sec s 10 0 1
def drcNshadow (s : State) : Nat := secX s 10 1 1 0
def drcPolicy (s : State) : Nat := secX s 10 5 1 0
def drcPlace (s : State) : Nat := secX s 10 6 1 1
def drcWhi (s : State) : Nat := secX s 10 7 1 48
def drcWlo (s : State) : Nat := secX s 10 8 1 16
def drcStarve (s : State) : Nat := secX s 10 9 1 16
def drcPgidle (s : State) : Nat := secX s 10 10 2 100
def drcSridle (s : State) : Nat := secX s 10 12 2 0
def drcDevfail (s : State) : Nat := secX s 10 14 1 0
def drcThresh (s : State) : Nat := secX s 10 16 2 16

/-- A subchannel. -/
def subAt (s : State) (u : Nat) : SubCh := mget {} s.drc.subs u

/-- Changes a subchannel. -/
def setSub (u : Nat) (f : SubCh → SubCh) (s : State) : State := { s with drc := { s.drc with subs := mmod {} s.drc.subs u f } }

/-- A channel. -/
def chanSt (s : State) (c : Nat) : DChan := mget {} s.drc.chans c

/-- Changes a channel. -/
def setChanSt (c : Nat) (f : DChan → DChan) (s : State) : State :=
  { s with drc := { s.drc with chans := mmod {} s.drc.chans c f } }

/-- A subchannel failed its training (R398). -/
def subDown (s : State) (u : Nat) : Bool := bitOf s.drc.down.toNat u

/-- The DRAM report of a subchannel. -/
def drcReport (cls code u : Nat) (fields : List (Nat × Nat)) : Report := mkReport Unit.drc cls code u fields

/-- DRC_UNCORRECTABLE and DRC_POISON_READ: line, requester, count (R380, R398). -/
def drcBad (l code n : Nat) : Report :=
  drcReport Cls.reported Code.drcUncorrectable (subOf l) [(64 * l, 45), (code, 9), (n, 18)]
def drcPoison (l code : Nat) : Report := drcReport Cls.reported Code.drcPoisonRead (subOf l) [(64 * l, 45), (code, 9)]

/-- Accesses to a subchannel that is down, the first of them to line `l`: counted, and reported at most once per second
(R398). -/
def downAccesses (n l code : Nat) (s : State) : State :=
  let u := subOf l
  let s := setSub u (fun x => { x with unc := satW 18 (x.unc + n), unrep := satW 18 (x.unrep + n) }) s
  let x := subAt s u
  let due := match x.repAt with
    | none => true
    | some t => decide (t + 1000000000 ≤ s.isl.chron)
  if due then report (drcBad l code x.unrep) (setSub u (fun x => { x with unrep := 0, repAt := some s.isl.chron }) s) else s

/-- An access to a subchannel that is down (R398). -/
def downAccess (l code : Nat) (s : State) : State := downAccesses 1 l code s

/-- The requester code under which the configuration loader and the vault engine are reported: R17 lists none for them.
DESIGN CHOICE: log entry 67. -/
def hubCode : Nat := 0o702

/-- Lines of a range of line numbers on a subchannel. -/
def linesOn (u : Nat) (r : Nat × Nat) : Nat := (r.1 + r.2 + 31 - u) / 32 - (r.1 + 31 - u) / 32

/-- The accesses of the hub to ranges of lines, as far as they meet subchannels that are down (R398). -/
def downRanges (rs : List (Nat × Nat)) (s : State) : State :=
  (List.range 32).foldl (fun s u =>
    match rs.find? fun r => subDown s u && linesOn u r != 0 with
    | none => s
    | some r => downAccesses (rs.map (linesOn u)).sum (r.1 + (u + 32 - r.1 % 32) % 32) hubCode s) s

/-- The designation that the logbook stores for a subchannel (R381). -/
def storedDev (s : State) (u : Nat) : Option Nat := match mget 0 s.nv.failDev u with
  | 0 => none
  | d + 1 => some d

/-- The designated device of a subchannel: LOCK step 3 applies the stored designation (R381). -/
def failedDev (s : State) (u : Nat) : Option Nat := if s.wld.locked then storedDev s u else none

/-- Designates a device failed: stored, and reported in class WEAR (R381). -/
def designate (u d : Nat) (policy : Bool) (s : State) : State :=
  report (drcReport Cls.wear Code.drcDeviceFailed u
    [(u, 5), (d, 4), (b2n policy, 1), (mget 0 (subAt s u).devs d, 12)])
    { s with nv := { s.nv with failDev := mset 0 s.nv.failDev u (d + 1) } }

/-- A corrected single-symbol error counts in its subchannel and device (R381). DEDUCED: log entry 65. -/
def countSymbol (u d : Nat) (s : State) : State :=
  let s := setSub u (fun x => { x with
    corr := satW 18 (x.corr + 1), devs := mset 0 x.devs d (satW 12 (mget 0 x.devs d + 1)) }) s
  if drcDevfail s = 1 ∧ (storedDev s u).isNone ∧ drcThresh s ≤ mget 0 (subAt s u).devs d then designate u d true s else s

/-- A line lies in one of these ranges, on a subchannel that the range names. -/
def inLost (rs : List (Nat × Nat × BitVec 32)) (l : Nat) : Bool :=
  rs.any fun e => decide (e.1 ≤ l) && decide (l < e.1 + e.2.1) && e.2.2.getLsbD (subOf l)

/-- The vault restore wrote the line with the poison mark, and LOCK step 6 did not zero it (R48). -/
def lostLine (s : State) (l : Nat) : Bool := inLost s.drc.lost l

/-- The part of a range that lies in lines `a` to `b - 1`. -/
def clipLost (a b : Nat) (e : Nat × Nat × BitVec 32) : List (Nat × Nat × BitVec 32) :=
  let x := max a e.1
  let y := min b (e.1 + e.2.1)
  if x < y then [(x, y - x, e.2.2)] else []

/-- Lines `a` to `b - 1` are no longer poisoned by the restore. -/
def cutLost (a b : Nat) (rs : List (Nat × Nat × BitVec 32)) : List (Nat × Nat × BitVec 32) :=
  if a < b then rs.flatMap fun e => clipLost 0 a e ++ clipLost b (e.1 + e.2.1) e else rs

/-- The line is stored as a poisoned line (R382). -/
def poisoned (s : State) (l : Nat) : Bool := mget false s.poison l != lostLine s l

/-- A line is stored with the poison mark, or without it. -/
def setPoison (l : Nat) (b : Bool) (s : State) : State :=
  { s with poison := mset false s.poison l (b != lostLine s l) }

/-- The error symbols of a stored line: its marks, and the pattern of a poisoned line (R378, R382). -/
def lineErrors (s : State) (l : Nat) : List (Nat × Nat) :=
  let m := (mget [] s.drc.marks l).filter fun e => e.2 % 65536 != 0
  if poisoned s l then
    let at' := fun k => ((m.find? fun e => e.1 == k).map fun e => e.2 % 65536).getD 0
    let p := [(36, 65535 ^^^ at' 36), (37, 65535 ^^^ at' 37)].filter fun e => e.2 != 0
    m.filter (fun e => e.1 != 36 && e.1 != 37) ++ p
  else m

/-- The burst of stored bits as the devices answer it: its symbols with their errors (R378, R379). -/
def burstOf (bits : Nat) (es : List (Nat × Nat)) : List Nat := Rs.withErrors (Rs.burst bits) es

/-- The decoder's result on a burst of a subchannel (R380). A burst without errors is a codeword, so no syndrome is formed. -/
def decodedBurst (s : State) (u bits : Nat) (es : List (Nat × Nat)) : Rs.Decode :=
  if es = [] then .clean else Rs.decode (burstOf bits es) (failedDev s u)

/-- The decoder's result on a stored line. -/
def decoded (s : State) (l : Nat) : Rs.Decode := decodedBurst s (subOf l) (lineBits s l) (lineErrors s l)

/-- The result delivers the uncorrectable mark. -/
def marked (d : Rs.Decode) : Bool := match d with
  | .poison => true
  | .bad => true
  | _ => false

/-- The bits that a burst delivers once the decoder's corrections are applied. -/
def corrected (bits : Nat) (es fix : List (Nat × Nat)) : Nat := Rs.dataBits (Rs.withErrors (burstOf bits es) fix)

/-- The bits that a stored line delivers once the decoder's corrections are applied. -/
def delivered (s : State) (l : Nat) (fix : List (Nat × Nat)) : Nat := corrected (lineBits s l) (lineErrors s l) fix

/-- A write of the line is queued (R385). -/
def writeQueued (s : State) (l : Nat) : Bool := (subAt s (subOf l)).writes.any fun r => r.line == l

/-- The stored line is free of errors from now on. -/
def clearLine (l : Nat) (s : State) : State :=
  setPoison l false { s with drc := { s.drc with marks := mset [] s.drc.marks l [] } }

/-- A read that has been accepted of a line keeps what the line holds before a later write of it (R385). -/
def keepRead (s : State) (l : Nat) (r : DReq) : DReq :=
  if r.line = l ∧ r.kept = none then { r with kept := some (lineBits s l, lineErrors s l) } else r

/-- A write of a line is about to be stored: the reads accepted before it keep the line. -/
def keepReads (l : Nat) (s : State) : State :=
  setSub (subOf l) (fun x => { x with reads := x.reads.map (keepRead s l), issued := x.issued.map (keepRead s l) }) s

/-- A secure write that merges into a queued one makes it a secure transaction (R240, R385). -/
def mergeWorld (rq : Req) (l : Nat) (r : DReq) : DReq := if r.line = l then { r with sec := r.sec || rq.sec } else r

/-- A line enters the write queue, or merges into the write that is queued; the subchannel enters the WRITE phase at
WHI (R384–R386). -/
def enqueueWrite (rq : Req) (l : Nat) (s : State) : State :=
  let u := subOf l
  if writeQueued s l then setSub u (fun x => { x with writes := x.writes.map (mergeWorld rq l) }) s
  else if 64 ≤ (subAt s u).writes.length then s
  else
    let r : DReq := { line := l, write := true, code := rq.code.toNat, sec := rq.sec, order := s.drc.order }
    let s := { s with drc := { s.drc with order := s.drc.order + 1 } }
    setSub u (fun x => { x with
      writes := x.writes ++ [r]
      wphase := x.wphase || (drcPolicy s == 0 && decide (drcWhi s ≤ x.writes.length + 1)) }) s

/-- The requester code under which the controller's own write-backs stand in its queue. -/
def ownWrite : Req := ⟨0, false⟩

/-- The controller writes a corrected line back, unless a write of it is queued or the write queue is full (R380). -/
def writeBackFixed (l v : Nat) (s : State) : State :=
  if writeQueued s l ∨ 64 ≤ (subAt s (subOf l)).writes.length then s else enqueueWrite ownWrite l (putLine l v (clearLine l (keepReads l s)))

/-- What a decoded burst of a line delivers, with the counts, the report and, where `back` lets it, the write-back of R380.
DEDUCED: log entry 12. -/
def decodeBurst (back : Bool) (code l bits : Nat) (es : List (Nat × Nat)) (s : State) : State × Nat × Bool :=
  let u := subOf l
  match decodedBurst s u bits es with
  | .clean => (s, bits, false)
  | .single k v =>
    let d := corrected bits es [(k, v)]
    let r := drcReport Cls.corrected Code.drcCorrected u [(u, 5), (k / 4, 4), (64 * l, 45)]
    let s := report r (countSymbol u (k / 4) s)
    (if back then writeBackFixed l d s else s, d, false)
  | .erased fix => (setSub u (fun x => { x with corr := satW 18 (x.corr + 1) }) s, corrected bits es fix, false)
  | .poison => (report (drcPoison l code) s, bits, true)
  | .bad => (report (drcBad l code 0) (setSub u (fun x => { x with unc := satW 18 (x.unc + 1) }) s), bits, true)

/-- A stored line is read and decoded (R380). DEDUCED: log entry 12. -/
def decodeLine (code l : Nat) (s : State) : State × Nat × Bool := decodeBurst true code l (lineBits s l) (lineErrors s l) s

/-- The channel of a subchannel has just held a request (R396). -/
def markIdle (u : Nat) (s : State) : State := setChanSt (u / 2) (fun x => { x with idle := s.isl.chron }) s

/-- The subchannels of a channel (R374). -/
def subsOf (c : Nat) : List Nat := [2 * c, 2 * c + 1]

/-- R389, R400: banks precharged, READ phase, starvation counts zero, no PGIDLE timer; the refresh timer restarts. -/
def restSub (u : Nat) (s : State) : State :=
  setSub u (fun x => { x with
    rows := [], used := [], wphase := false, postp := 0, refAt := s.isl.chron
    reads := x.reads.map (fun r => { r with passed := 0 }), writes := x.writes.map (fun r => { r with passed := 0 }) }) s

/-- A request of the loader or the vault engine for a channel: it leaves self-refresh, and has just held a request (R396, R397,
R400). -/
def wakeChan (c : Nat) (s : State) : State :=
  let s := if (chanSt s c).sr then
      (subsOf c).foldl (fun s u => restSub u s) (setChanSt c (fun x => { x with sr := false, exit' := false }) s)
    else s
  markIdle (2 * c) s

/-- Requests of the loader or the vault engine for ranges of lines. DEDUCED: log entry 59. -/
def wakeRanges (rs : List (Nat × Nat)) (s : State) : State :=
  (List.range 16).foldl (fun s c =>
    if rs.any fun r => (subsOf c).any fun u => linesOn u r != 0 then wakeChan c s else s) s

/-- The row of a bank is closed, or is open at a row. -/
def openRow (x : SubCh) (b : Nat) : Option Nat := match mget 0 x.rows b with
  | 0 => none
  | r + 1 => some r

/-- A request hits an open row. -/
def rowHit (x : SubCh) (r : DReq) : Bool := openRow x (bankOfLine r.line) == some (rowOf r.line)

/-- A read of a line is issued ahead of every queued request: the row of its bank is open, and each of them counts it (R387,
R388). -/
def readIssued (l : Nat) (s : State) : State :=
  let b := bankOfLine l
  let count := fun (r : DReq) => { r with passed := r.passed + 1 }
  setSub (subOf l) (fun x => { x with
    reads := x.reads.map count, writes := x.writes.map count
    rows := mset 0 x.rows b (if drcPgidle s = 0 then 0 else rowOf l + 1), used := mset 0 x.used b s.isl.chron }) s

/-- No request that is queued or waits on its subchannel would be issued before a read that comes now, by the policy (R384,
R386, R387). DEDUCED: log entry 65. -/
def issuesNow (s : State) (l : Nat) : Bool :=
  let x := subAt s (subOf l)
  let all := x.reads ++ x.writes
  x.waits.isEmpty &&
    if drcPolicy s = 0 then !x.wphase && x.reads.isEmpty
    else all.isEmpty || (openRow x (bankOfLine l) == some (rowOf l) &&
      !all.any fun r => rowHit x r || decide (drcStarve s ≤ r.passed))

/-- The outcome of an asked read that the request under way takes. -/
def takenOf (s : State) (l : Nat) : Option (Nat × Bool) := (s.drc.taken.filter fun e => e.1 == l).map fun e => e.2

/-- No outcome is being taken. -/
def unclaim (s : State) : State := { s with drc := { s.drc with taken := none } }

/-- Reads a DRAM line for a requester: its bits, and whether it is delivered with the uncorrectable mark (R380, R382,
R385, R398): what an asked read brought, else the line itself. A queued write of the line answers without a DRAM access;
another read opens its row and ends the idle time of the channel (R388, R396). -/
def dramGet (rq : Req) (l : Nat) (s : State) : State × Nat × Bool :=
  match takenOf s l with
  | some v => (unclaim s, v)
  | none =>
    if subDown s (subOf l) then (downAccess l rq.code.toNat s, lineBits s l, true)
    else if writeQueued s l then (s, lineBits s l, false)
    else decodeLine rq.code.toNat l (markIdle (subOf l) (readIssued l s))

/-- NBLOG and BASE of a world's chart record, at `b` in the CHART section (R312). -/
def tableLines (s : State) (b : Nat) : Nat × Nat :=
  let n := sec s 7 b 1
  (sec s 7 (b + 8) 8, if n = 0 ∨ 23 < n then 0 else 2 * 2 ^ n)

/-- A DRAM line of a chart table, from the end of LOCK step 6 (R317). -/
def tableLine (s : State) (l : Nat) : Bool :=
  s.slc.mode != 0 && [8, 72].any fun b =>
    let (a, n) := tableLines s b
    decide (a ≤ l) && decide (l < a + n)

/-- The requester code of the chart engine (R17). -/
def chartCode : Nat := 0o701

/-- CHT_TABLE_WRITE, which the controller reports with R17 data (R317): the address is that of the first unit. -/
def tableWriteReport (rq : Req) (a : Nat) : Report :=
  drcReport Cls.reported Code.chtTableWrite (subOf (a / 64)) (r17Fields a rq true)

/-- The merge read of a partial write would deliver the uncorrectable mark, and the write is not performed (R383, R398).
DEDUCED: log entry 12. -/
def mergeMarked (s : State) (l w : Nat) : Bool :=
  decide (w < 576) && (subDown s (subOf l) || (!writeQueued s l && marked (decoded s l)))

/-- A write is accepted (R383, R385): a partial one merges with the line as read, unless the merge read delivers the
uncorrectable mark; a merge read that was not asked for is issued now, and the channel has held it (R396). DEDUCED: log entry
65. -/
def acceptWrite (rq : Req) (l lo w v : Nat) (s : State) : State :=
  if w < 576 ∧ !writeQueued s l then
    let s := if (takenOf s l).isSome then unclaim s else markIdle (subOf l) (readIssued l s)
    let (s, bits, bad) := decodeLine rq.code.toNat l s
    if bad then s else enqueueWrite rq l (putLine l (setField bits lo w v) (clearLine l (keepReads l s)))
  else enqueueWrite rq l (putBits l lo w v (clearLine l (keepReads l s)))

/-- The vault sequence has passed t_b: the DRAM controller accepts no write (R43, R44). -/
def pastTb (s : State) : Bool := s.cfg.phase == .vault && (s.pwr.vault == .stopped || s.pwr.vault == .closed)

/-- Writes stored bits of the DRAM line of address `a` for a requester (R44, R317, R383, R398). -/
def dramPutAt (rq : Req) (a lo w v : Nat) (s : State) : State :=
  let l := a / 64
  if pastTb s then s
  else if tableLine s l ∧ rq.code.toNat ≠ chartCode then report (tableWriteReport rq a) s
  else if subDown s (subOf l) then downAccess l rq.code.toNat s
  else acceptWrite rq l lo w v s

/-- Writes stored bits of a DRAM line. -/
def dramPut (rq : Req) (l lo w v : Nat) (s : State) : State := dramPutAt rq (64 * l) lo w v s

/-- Whether the channel of a line takes no new request: a frequency step holds it, or it is in self-refresh (R397, R399). -/
def dramHeld (s : State) (l : Nat) : Bool := (chanSt s (subOf l / 2)).step || (chanSt s (subOf l / 2)).sr

/-- A DRAM line cannot be read at once: its channel takes no request, the read queue is full or reads wait to enter it, or
another request is issued first (R384, R386, R387, R397, R399). DEDUCED: log entry 65. -/
def readHeld (s : State) (l : Nat) : Bool :=
  let x := subAt s (subOf l)
  dramHeld s l || decide (64 ≤ x.reads.length) || !x.waits.isEmpty || (!writeQueued s l && !issuesNow s l)

/-- A line of memory can be written: its subchannel, when it is in DRAM, takes a request and has room for the write (R384,
R397, R399). -/
def lineTakes (s : State) (l : Nat) : Bool :=
  decide (2 ^ 34 ≤ l) || (!dramHeld s l && decide ((subAt s (subOf l)).writes.length < 64))

/-- A request for a channel in self-refresh starts the exit (R397). -/
def startExit (u : Nat) (s : State) : State := if (chanSt s (u / 2)).sr then setChanSt (u / 2) (fun x => { x with exit' := true }) s else s

/-- A line of memory wanted by a requester starts the exit of its channel (R397). -/
def wakeLine (l : Nat) (s : State) : State := if l < 2 ^ 34 then startExit (subOf l) s else s

/-- A read takes its place in the read queue of its subchannel, or waits outside while the queue is full, while others wait
or while a frequency step holds it (R384, R397, R399). -/
def queueRead (who : Option Asker) (merge : Bool) (rq : Req) (l : Nat) (s : State) : State :=
  let u := subOf l
  let r : DReq := { line := l, write := false, code := rq.code.toNat, sec := rq.sec, order := s.drc.order, asker := who, merge := merge }
  let s := startExit u { s with drc := { s.drc with order := s.drc.order + 1 } }
  let x := subAt s u
  let full := decide (64 ≤ x.reads.length) || (chanSt s (u / 2)).step || !x.waits.isEmpty
  setSub u (fun x => if full then { x with waits := x.waits ++ [r] } else { x with reads := x.reads ++ [r] }) s

/-- The outcome that a read brought for its asker. -/
def outcome (s : State) (who : Asker) (l : Nat) : Option (Nat × Bool) :=
  (s.drc.ready.find? fun e => e.1 == who && e.2.1 == l).map fun e => e.2.2

/-- An asker's read stands in the queue, waits to enter it, or is on its way. -/
def asked (s : State) (who : Asker) (l : Nat) : Bool :=
  let x := subAt s (subOf l)
  (x.reads ++ x.waits ++ x.issued).any fun r => r.asker == some who && r.line == l

/-- A requester cannot read a DRAM line now: what it asked for has not come, or it has to ask (R384). DEDUCED: log entry 65. -/
def heldFor (s : State) (who : Asker) (l : Nat) : Bool := (outcome s who l).isNone && (asked s who l || readHeld s l)

/-- A requester that cannot read a line now asks for it, once: its read has its place in arrival order (R384, R386, R387,
R397). DEDUCED: log entry 65. -/
def askRead (who : Asker) (merge : Bool) (rq : Req) (l : Nat) (s : State) : State :=
  if asked s who l then startExit (subOf l) s else queueRead (some who) merge rq l s

/-- The request under way takes the outcome that its requester asked for. -/
def claim (who : Asker) (l : Nat) (s : State) : State :=
  match outcome s who l with
  | none => s
  | some v => { s with drc := { s.drc with
      taken := some (l, v), ready := s.drc.ready.filter fun e => !(e.1 == who && e.2.1 == l) } }

/-- A request of a requester is served, with the outcome that it asked for, if it did. -/
def withOutcome (who : Asker) (l : Nat) (act : State → State) (s : State) : State :=
  match outcome s who l with
  | none => act s
  | some _ => unclaim (act (claim who l s))

/-- An asker still waits for its read. -/
def asks (s : State) (who : Asker) : Bool := match who with
  | .bound b => s.slc.bound.contains b
  | .walk i w => (coreAt s i).walk == some w
  | .debug => s.dbu.access.isSome
  | _ => true

/-- An outcome waits for its asker. -/
def bring (who : Asker) (l v : Nat) (bad : Bool) (s : State) : State :=
  if asks s who then { s with drc := { s.drc with ready := s.drc.ready ++ [(who, l, v, bad)] } } else s

/-- A line of memory can be read by a requester (R384, R397, R399). -/
def lineReady (s : State) (who : Asker) (l : Nat) : Bool := decide (2 ^ 34 ≤ l) || !heldFor s who l

/-- A write of `w` bits of a line needs a merge read (R383): not where a write of the line is queued, nor where the controller
turns the write away. -/
def needsMerge (s : State) (l w : Nat) : Bool :=
  decide (w < 576) && decide (l < 2 ^ 34) && !writeQueued s l && !tableLine s l && !subDown s (subOf l) && !pastTb s

/-- A requester can write `w` bits of a line now: the line is taken, and its merge read has come or is issued at once (R383,
R384). DEDUCED: log entry 65. -/
def writeTakes (s : State) (who : Asker) (l w : Nat) : Bool := lineTakes s l && !(needsMerge s l w && heldFor s who l)

/-- A requester whose write is not taken wants its channel, or asks for the merge read. DEDUCED: log entry 65. -/
def askWrite (who : Asker) (rq : Req) (l w : Nat) (s : State) : State :=
  if lineTakes s l && needsMerge s l w then askRead who true rq l s else wakeLine l s

end Sys2Proof.Machine
end

