-- ==== Sys2Proof/Machine/Cache.lean ====
section
/-! DEFINITION. Cache.lean: translation, the TLBs, the L1 caches, the eviction buffer and the directory (chapter 08). -/

namespace Sys2Proof.Machine

/-- What an access asks of a translation (R199). -/
inductive Need
  | load | store | fetch
  deriving DecidableEq, Repr

def Need.num : Need → Nat
  | .load => 0
  | .store => 1
  | .fetch => 2

/-- The units that a leaf at a level maps, as a power of two (R198). -/
def pageBits (lvl : Nat) : Nat := if lvl = 1 then 30 else if lvl = 2 then 21 else 12

/-- A TLB entry translates an address for a world and context (R202). -/
def TlbEntry.hits (e : TlbEntry) (sec : Bool) (ctx va : Nat) : Bool :=
  e.sec == sec && (e.g || e.ctx == ctx) && e.va == va / 2 ^ pageBits e.lvl

/-- The outcome of a translation: a physical address with memory type and view, a fault with its cause and level, or a
miss in both TLB levels. -/
inductive Xlate
  | ok (pa mt : Nat) (oct : Bool)
  | fault (cause lvl : Nat)
  | miss
  deriving DecidableEq, Repr

/-- Whether a fetch may use a page and a physical address (R199). -/
def fetchable (i pa mt : Nat) (oct : Bool) : Bool :=
  mt == 0 && !oct && (decide (pa < 2 ^ 40) || pa / 2 ^ 20 == 2 ^ 22 + i / 8)

/-- The checks made on every access from its TLB entry (R199, R202, R210). -/
def checkEntry (k : Core) (i : Nat) (e : TlbEntry) (need : Need) (lvl va : Nat) : Xlate :=
  let z := pageBits e.lvl
  let pa := e.pa * 2 ^ z + va % 2 ^ z
  let perm := match need with
    | .load => e.r
    | .store => e.w
    | .fetch => e.x
  if (!k.kernel && !e.u) || !perm then .fault 3 lvl
  else if need = .fetch ∧ !fetchable i pa e.mt e.oct then .fault 5 lvl
  else if need ≠ .fetch ∧ e.mt = 2 ∧ field k.dway.toNat (2 * field pa 12 3) 2 ≠ 2 then .fault 8 lvl
  else .ok pa e.mt e.oct

/-- The entry that translates an address, in the first level, else in the second (R202). -/
def tlbFind (k : Core) (va : Nat) : Option TlbEntry :=
  match k.tlb1.find? fun e => e.hits k.sec k.ctx.toNat va with
  | some e => some e
  | none => k.tlb2.find? fun e => e.hits k.sec k.ctx.toNat va

/-- Translates a virtual address (R195, R199, R201, R202). At or above 2^45 with translation off cause 6 comes before cause
3. DESIGN CHOICE: log entry 72. -/
def translate (k : Core) (i va : Nat) (need : Need) : Xlate :=
  if (k.bankOf k.sec).tctl then
    match tlbFind k va with
    | some e => checkEntry k i e need 0 va
    | none => .miss
  else if 2 ^ 45 ≤ va then .fault 6 0
  else if !k.kernel then .fault 3 0
  else if need = .fetch ∧ !fetchable i va 0 false then .fault 5 0
  else .ok va 0 false

/-- Adds an entry to a TLB level of `n` entries; the spec names no replacement, so a free value picks the victim.
DESIGN CHOICE: log entry 11. -/
def tlbAdd (n : Nat) (e : TlbEntry) (draw : Nat) (l : List TlbEntry) : List TlbEntry :=
  let l := l.filter fun x => !(x.sec == e.sec && x.ctx == e.ctx && x.lvl == e.lvl && x.va == e.va && x.g == e.g)
  let v := Config.openValue 11 [draw, n]
  let l := if n ≤ l.length then l.eraseIdx (v % l.length) else if n = 1024 then l.eraseIdx v else l
  l ++ [e]

/-- A second-level hit refills the first level (R202). DESIGN CHOICE: log entry 11. -/
def tlbRefill (i va : Nat) (s : State) : State :=
  let k := coreAt s i
  match k.tlb1.find? fun e => e.hits k.sec k.ctx.toNat va with
  | some _ => s
  | none =>
    match k.tlb2.find? fun e => e.hits k.sec k.ctx.toNat va with
    | none => s
    | some e => setCore i (fun k => { k with tlb1 := tlbAdd 64 e s.draws k.tlb1 }) { s with draws := s.draws + 1 }

/-- The result of a table walk (R196–R198); `held` when the read of a table line in DRAM has to wait (R384). -/
inductive WalkEnd
  | leaf (e : TlbEntry)
  | stop (cause lvl : Nat)
  | held (line : Nat)
  deriving DecidableEq, Repr

/-- Reads a double of a translation table directly from memory (R196): none where the table may not lie there. -/
def readTable (i : Nat) (w : Walk) (a : Nat) (s : State) : State × Option (Nat × Bool) :=
  if !worldMay s w.sec a then (s, none)
  else
    let lo := 9 * (a % 64)
    match targetOf s a with
    | .dram =>
      let (s, v, bad) := dramGet ⟨BitVec.ofNat 9 i, w.sec⟩ (a / 64) (claim (.walk i w) (a / 64) s)
      (s, some (field v lo 72, bad))
    | .hub => (s, some (field (lineBits s (a / 64)) lo 72, hubWordBad s (a / 64) lo 72))
    | .tile t =>
      if t = i / 8 then
        let (s, v, bad) := readTileBits t (a / 64) lo 72 i s
        (s, some (v, bad))
      else (s, none)
    | _ => (s, none)

/-- The leaf format checks of R198: true when the entry is well formed at the level. -/
def leafOk (e lvl : Nat) : Bool :=
  let mt := field e 8 2
  field e 10 2 == 0 && mt != 3 && !(bitOf e 3 && !bitOf e 2) &&
    (lvl == 1 && field e 12 18 == 0 || lvl == 2 && field e 12 9 == 0 || lvl == 3) &&
    (mt != 2 || (lvl == 3 && field e 15 30 == 0))

/-- The entry that a leaf becomes in the TLBs. -/
def leafEntry (e lvl va ctx : Nat) (sec : Bool) : TlbEntry :=
  { sec := sec, ctx := ctx, g := bitOf e 6, lvl := lvl, va := va / 2 ^ pageBits lvl
    pa := field e 12 33 * 4096 / 2 ^ pageBits lvl, mt := field e 8 2, oct := bitOf e 7
    u := bitOf e 5, x := bitOf e 4, w := bitOf e 3, r := bitOf e 2 }

/-- The walk, level by level from `lvl` (R196–R198). -/
def walkTable (i : Nat) (w : Walk) : List Nat → Nat → State → State × WalkEnd
  | [], _, s => (s, .stop 2 3)
  | lvl :: rest, t, s =>
    let a := t + 8 * field w.va (39 - 9 * lvl) 9
    if a < 2 ^ 40 ∧ heldFor s (.walk i w) (a / 64) ∧ worldMay s w.sec a then (s, .held (a / 64))
    else
      let (s, r) := readTable i w a s
      match r with
      | none => (s, .stop 4 lvl)
      | some (e, bad) =>
        if bad then (s, .stop 7 lvl)
        else if !bitOf e 0 then (s, .stop 1 lvl)
        else if bitOf e 1 then
          if lvl < 3 ∧ field e 2 10 = 0 then walkTable i w rest (field e 12 33 * 4096) s else (s, .stop 2 lvl)
        else if lvl = 0 ∨ !leafOk e lvl then (s, .stop 2 lvl)
        else (s, .leaf (leafEntry e lvl w.va w.ctx w.sec))

/-- The mode of a way: 0 normal, 1 locked, 2 local store (R208). -/
def wayMode (m : BitVec 16) (w : Nat) : Nat := field m.toNat (2 * w) 2

/-- The key of a frame: set × 8 + way. -/
def frameKey (line w : Nat) : Nat := 8 * (line % 64) + w

/-- The way of a cache that holds a line, outside local-store ways (R206, R209). -/
def findWay (c : SMap (Option CLine)) (modes : BitVec 16) (line : Nat) : Option Nat :=
  (List.range 8).find? fun w =>
    wayMode modes w != 2 && ((mget none c (frameKey line w)).map fun f => f.line) == some line

/-- The frame that a fill takes (R207): the lowest empty frame of a normal way, else the least recently used one. -/
def victimWay (c : SMap (Option CLine)) (modes : BitVec 16) (line : Nat) : Option Nat :=
  let ws := (List.range 8).filter fun w => wayMode modes w == 0
  match ws.find? fun w => (mget none c (frameKey line w)).isNone with
  | some w => some w
  | none =>
    ws.foldl (fun b w =>
      match b with
      | none => some w
      | some v =>
        let use := fun x => ((mget none c (frameKey line x)).map fun f => f.used).getD 0
        if use w < use v then some w else some v) none

/-- Changes one frame of the data cache. -/
def setFrame (i key : Nat) (f : Option CLine) (s : State) : State :=
  setCore i (fun k => { k with dcache := mset none k.dcache key f }) s

/-- The data frame of a line in core `i`, with its key. -/
def dFrame (s : State) (i line : Nat) : Option (Nat × CLine) :=
  let k := coreAt s i
  match findWay k.dcache k.dway line with
  | none => none
  | some w => (mget none k.dcache (frameKey line w)).map fun f => (frameKey line w, f)

/-- The parity bits of a frame that an access to stored bits reaches: its words, the tag and the state (R221). -/
def reachMask (lo w : Nat) : Nat := (wordsOf lo w).foldl (fun m j => m ||| 2 ^ j) 0o600000

/-- Every parity bit of a frame. -/
def wholeMask : Nat := 0o777777

/-- An access that reaches the bits of a mask finds a parity error. -/
def CLine.fails (f : CLine) (mask : Nat) : Bool := f.bad &&& mask != 0

/-- A parity error found in a frame (R221, R222): a clean line is invalidated, counted and reported, and where an access
refetches it a locked one keeps its frame for that; a dirty one halts the core, is reported once, and stays. Bit 18 of
`bad` records that it was found. -/
def parity (i key : Nat) (f : CLine) (refetch : Bool) (s : State) : State :=
  if f.dirty then
    if bitOf f.bad 18 then s
    else
      coreFatal i (coreReport Cls.fatal Code.l1ParityDirty i [(key / 8, 6), (key % 8, 3), (64 * f.line, 45)])
        (setFrame i key (some { f with bad := f.bad ||| 2 ^ 18 }) s)
  else
    let keep := fun (k : Core) =>
      if refetch ∧ wayMode k.dway (key % 8) = 1 then mset 0 k.relock f.line (key + 1) else k.relock
    let s := setCore i (fun k => { k with
      dcache := mset none k.dcache key none, pclean := satW 12 (k.pclean + 1), relock := keep k }) s
    report (coreReport Cls.corrected Code.l1ParityClean i [(0, 1), (key / 8, 6), (key % 8, 3)]) s

/-- CACHE_LOCK_DROPPED (R215): the operation or coherence, and the count. -/
def lockDropped (i op n : Nat) (s : State) : State :=
  if n = 0 then s
  else
    report (coreReport Cls.reported Code.cacheLockDropped i [(op, 3), (n, 18)])
      (setCore i (fun k => { k with ldrop := satW 12 (k.ldrop + n) }) s)

/-- Takes the next place in the order of a tile's misses and write-backs. -/
def nextOrder (t : Nat) (s : State) : State × Nat :=
  let n := (tileAt s t).order
  (setTile t (fun x => { x with order := n + 1 }) s, n)

/-- Room for a victim in the eviction buffer of 4 lines (R218). DEDUCED: log entry 50. -/
def evictRoom (k : Core) : Bool := decide ((k.evict.filter fun e => e.victim).length < 4)

/-- Sends a dirty line to memory: it waits for its write-back to cross to the line's port and to become visible (R212,
R218, R270). -/
def startWriteBack (i line bits : Nat) (sec served victim : Bool) (s : State) : State :=
  let (s, n) := nextOrder (i / 8) s
  let e : EvLine := { line := line, bits := bits, dirty := true, sec := sec, served := served, victim := victim, order := n }
  bindAll [⟨portCanal (i / 8), portOfLine line, s.slc.cycle, .back i n line⟩]
    (setCore i (fun k => { k with evict := k.evict ++ [e] }) s)

/-- The line in the eviction buffer that still answers accesses (R218), and its bits as they stand. -/
def evictFind (k : Core) (line : Nat) : Option EvLine := k.evict.find? fun e => e.line == line && e.served
def EvLine.now (e : EvLine) : Nat := e.later.getD e.bits

/-- The world of the newest store in a buffered line (R227). -/
def EvLine.nowSec (e : EvLine) : Bool := if e.later.isSome then e.newSec else e.sec

/-- Stores have made a buffered line dirty again, and its core has to write them back (R216, R218). -/
def EvLine.dirtyNow (e : EvLine) : Bool := e.later.isSome && !e.took

/-- Marks a buffered line as no longer served. -/
def unserve (i line : Nat) (s : State) : State :=
  setCore i (fun k => { k with evict := k.evict.map fun e =>
    if e.line = line then { e with served := false, kept := false, later := none, took := false } else e }) s

/-- Changes the bits of a buffered line that still answers accesses, by a store of a world; it is dirty again once
reinstalled. DEDUCED: log entry 50. -/
def evictWrite (i line bits : Nat) (sec : Bool) (s : State) : State :=
  setCore i (fun k => { k with evict := k.evict.map fun e =>
    if e.line = line ∧ e.served then { e with later := some bits, newSec := sec, took := false } else e }) s

/-- The core's stores to a cached line that the other cores cannot see yet. -/
def Core.waiting (k : Core) (line : Nat) : List PendStore := k.stores.filter fun p => p.cached && p.line == line

/-- A line that leaves the core's cache has to be written back: it is dirty, or stores of the core in it still wait (R212). -/
def Core.owes (k : Core) (f : CLine) : Bool := f.dirty || !(k.waiting f.line).isEmpty

/-- The world of the newest store of the core in a line that still waits (R227). -/
def Core.storeWorld (k : Core) (line : Nat) (sec : Bool) : Bool := ((k.waiting line).getLast?.map fun p => p.sec).getD sec

/-- A line as the other cores of the tile see it: without the stores that are not yet visible (R148). -/
def seenBits (k : Core) (line bits : Nat) : Nat :=
  (k.waiting line).foldr (fun p b => setField b p.lo p.width p.old) bits

/-- The core's waiting stores lie over a new base of their line: the core's view of it, and the stores with the values
they replace there (R115, R148). -/
def rebase (i line base : Nat) (s : State) : State × Nat :=
  let mine := fun (p : PendStore) => p.cached && p.line == line
  let over' := (coreAt s i).stores.foldl (fun (acc : List PendStore × Nat) p =>
    if mine p then (acc.1 ++ [{ p with old := field acc.2 p.lo p.width }], setField acc.2 p.lo p.width p.val)
    else (acc.1 ++ [p], acc.2)) ([], base)
  (setCore i (fun k => { k with stores := over'.1 }) s, over'.2)

/-- The other cores of a core's tile. -/
def siblings (i : Nat) : List Nat := ((List.range 8).map fun c => 8 * (i / 8) + c).filter fun j => j ≠ i

/-- Invalidates a core's copy of a line for the directory (R216): a locked line is dropped, written back first if it is
dirty (R215); a parity error is found (R221, R222). -/
def invalidateCopy (i line : Nat) (s : State) : State :=
  let s := unserve i line s
  match dFrame s i line with
  | none => s
  | some (key, f) =>
    if f.bad ≠ 0 then parity i key f false s
    else
      let locked := wayMode (coreAt s i).dway (key % 8) = 1
      let s := if f.dirty && locked then startWriteBack i line (seenBits (coreAt s i) line f.bits) f.sec false false s else s
      let s := setFrame i key none s
      if locked then lockDropped i 4 1 s else s

/-- The directory invalidates every other copy of a line in the tile (R216). -/
def invalidateOthers (i line : Nat) (s : State) : State :=
  (siblings i).foldl (fun s j => invalidateCopy j line s) s

/-- A line leaves the core's cache with the stores of the core in it: no other core keeps an older copy (R148, R212). -/
def leaveLine (i line : Nat) (s : State) : State :=
  if ((coreAt s i).waiting line).isEmpty then s
  else
    setCore i (fun k => { k with stores := k.stores.filter fun p => !(p.cached && p.line == line) }) (invalidateOthers i line s)

/-- Installs a line in a normal way of the data cache (R207). Answers none when a victim finds no room in the eviction
buffer, which every victim of a fill enters and a dirty one of a line reinstalled (R218); a set with no normal way
allocates nothing; a dirty victim with a parity error halts the core (R222). DEDUCED: log entry 50. -/
def installLine (fill : Bool) (i line bits : Nat) (dirty sec : Bool) (s : State) : Option State :=
  let k := coreAt s i
  match victimWay k.dcache k.dway line with
  | none => some s
  | some w =>
    let key := frameKey line w
    let put := fun s => setCore i (fun k => { k with
      dcache := mset none k.dcache key (some { line := line, bits := bits, dirty := dirty, sec := sec, used := k.clock + 1 })
      clock := k.clock + 1 }) s
    match mget none k.dcache key with
    | none => some (put s)
    | some v =>
      if v.bad ≠ 0 then some (if v.dirty then parity i key v false s else put (parity i key v false s))
      else if !k.owes v then if fill && !evictRoom k then none else some (put (leaveLine i v.line s))
      else if evictRoom k then some (put (startWriteBack i v.line v.bits v.sec true true (leaveLine i v.line s)))
      else none

/-- A buffered line that an access named is reinstalled (R218): dirty again after a store. It stays in the buffer, and is
served there, while a dirty victim finds no room and where its set has no normal way. -/
def reinstall (i : Nat) (e : EvLine) (s : State) : State :=
  let k := coreAt s i
  let keep := setCore i (fun k => { k with evict := k.evict.map fun x => if x.order = e.order then { x with kept := true } else x }) s
  if (victimWay k.dcache k.dway e.line).isNone then keep
  else
    match installLine false i e.line e.now e.dirtyNow e.nowSec s with
    | none => keep
    | some s => unserve i e.line s

/-- An access to a buffered line (R218): it counts, and the line is reinstalled. -/
def bufferHit (i : Nat) (e : EvLine) (s : State) : State :=
  reinstall i e (setCore i (fun k => { k with vhit := satW 12 (k.vhit + 1) }) s)

/-- What the data cache and the eviction buffer answer an access that reaches the parity bits of a mask: the bits of the
line, or a miss (R209, R218, R221, R222). -/
def lookLine (i line mask : Nat) (s : State) : State × Option Nat :=
  match dFrame s i line with
  | some (key, f) =>
    if f.fails mask then (parity i key f true s, none)
    else
      (setCore i (fun k => { k with
        dcache := mset none k.dcache key (some { f with used := k.clock + 1 }), clock := k.clock + 1 }) s, some f.bits)
  | none =>
    match evictFind (coreAt s i) line with
    | none => (s, none)
    | some e => (bufferHit i e s, some e.now)

/-- The core's store takes the responsibility to write a line back from the copies of the other cores (R216); a locked dirty
copy, which the directory will drop, is written back first (R215). -/
def takeOver (i line : Nat) (s : State) : State :=
  (siblings i).foldl (fun s j =>
    match dFrame s j line with
    | some (key, f) =>
      if !f.dirty || f.bad != 0 then s
      else
        let s := if wayMode (coreAt s j).dway (key % 8) = 1 then
            startWriteBack j line (seenBits (coreAt s j) line f.bits) f.sec false false s
          else s
        setFrame j key (some { f with dirty := false }) s
    | none => setCore j (fun k => { k with evict := k.evict.map fun e =>
        if e.line = line ∧ e.served ∧ e.later.isSome then { e with took := true } else e }) s) s

/-- Writes bits of a line that the cache or the eviction buffer holds; the line is dirty from then on. -/
def storeLine (i line bits : Nat) (s : State) : State :=
  match dFrame s i line with
  | some (key, f) => takeOver i line (setFrame i key (some { f with bits := bits, dirty := true, sec := (coreAt s i).sec }) s)
  | none => takeOver i line (evictWrite i line bits (coreAt s i).sec s)

/-- A core's copy of a line as the tile sees it, in its cache or, still served, in its eviction buffer; with whether it is
dirty there, and the buffered line. -/
def copyOf (s : State) (j line : Nat) : Option (Nat × Bool × Option EvLine) :=
  let k := coreAt s j
  match dFrame s j line with
  | some (_, f) => if f.bad ≠ 0 then none else some (seenBits k line f.bits, f.dirty, none)
  | none => (evictFind k line).map fun e => (seenBits k line e.now, e.dirtyNow, some e)

/-- A parity error that a directory request finds in a sibling's copy (R221, R222). -/
def directoryParity (j line : Nat) (s : State) : State :=
  match dFrame s j line with
  | some (key, f) => if f.bad ≠ 0 then parity j key f false s else s
  | none => s

/-- A dirty line with a parity error stands in a core's cache: it answers zero (R222). -/
def deadCopy (s : State) (j line : Nat) : Bool := match dFrame s j line with
  | some (_, f) => f.bad != 0 && f.dirty
  | none => false

/-- The line that the directory serves to core `i` from a sibling's cache or eviction buffer (R216, R218): a dirty copy
first. A halted core's bad line answers zero (R222). -/
def fromSiblings (i line : Nat) (s : State) : State × Option Nat :=
  let s := (siblings i).foldl (fun s j => directoryParity j line s) s
  if (siblings i).any fun j => deadCopy s j line then (s, some 0)
  else
    let cs := (siblings i).filterMap fun j => (copyOf s j line).map fun c => (j, c)
    match (cs.find? fun c => c.2.2.1).orElse fun _ => cs.head? with
    | none => (s, none)
    | some (j, b, _, e) => (match e with
      | some e => bufferHit j e s
      | none => s, some b)

/-- A store waits to become visible to the other cores of the tile (R148). -/
def pendStore (i : Nat) (p : PendStore) (s : State) : State :=
  setCore i (fun k => { k with stores := k.stores ++ [p] }) s

/-- A store to a line breaks every open sequence of the tile's other cores that has reserved it (R132). DEDUCED: log
entry 21. -/
def breakReservations (t : Nat) (except : Option Nat) (line : Nat) (s : State) : State :=
  (List.range 8).foldl (fun s c =>
    let j := 8 * t + c
    if some j = except then s
    else
      match (coreAt s j).seq with
      | none => s
      | some q => if q.lines.contains line then setCore j Core.breakSeq s else s) s

/-- The value a load delivers from the bits it moved (R113, R114). -/
def extendLoad (ext : LoadExt) (width v : Nat) : Double :=
  match ext with
  | .zero => BitVec.ofNat 72 v
  | .sign => (BitVec.ofNat width v).signExtend 72

/-- Delivers the value of a load that waited for a miss, in flight or held. -/
def deliver (i landing : Nat) (v : Double) (s : State) : State :=
  let fix := fun (l : Landing) => if l.id = landing then { l with val := v, miss := none } else l
  setCore i (fun k => { k with flight := k.flight.map fix, held := k.held.map fix }) s

/-- A miss of core `i` gets its data or its acknowledgement, which crosses to the tile as an item (R88). -/
def gotMiss (i id : Nat) (v : Nat) (bad : Bool) (s : State) : State :=
  let s := setCore i (fun k => { k with misses := k.misses.map fun m => if m.id = id then { m with got := some (v, bad) } else m }) s
  { s with slc := { s.slc with xing := s.slc.xing ++ [{ tile := i / 8, reply := some (i, id) }] } }

/-- The answer to a miss has come, or can come now: no earlier item of the tile's crossing is on its way (R88).
DEDUCED: log entry 63. -/
def replyReady (s : State) (i id : Nat) : Bool := match s.slc.xing.findIdx? fun x => x.reply == some (i, id) with
  | none => true
  | some n => !(s.slc.xing.take n).any fun x => x.tile == i / 8

/-- Whether two misses of a tile wait for one fill (R17). -/
def sameFill (a b : Miss) : Bool :=
  a.addr / 64 == b.addr / 64 && a.kind != .uncached && b.kind != .uncached && (a.kind == .fetch) == (b.kind == .fetch)

/-- The crossbar connection that the data of a miss needs (R267, R270): none for control space, and for an instruction line
of the core's own tile memory. -/
def missPorts (s : State) (i pa : Nat) (store : Bool) : Option (Nat × Nat) :=
  let own := portCanal (i / 8)
  match targetOf s pa with
  | .control _ _ => none
  | .unmapped => none
  | .tile t => if t = i / 8 then none else some (if store then (own, portCanal t) else (portCanal t, own))
  | _ => some (if store then (own, portOfLine (pa / 64)) else (portOfLine (pa / 64), own))

/-- A second outstanding data miss, and every fetch miss, freezes the core until every outstanding line has come
(R152). -/
def freezeMore (k : Core) : Core :=
  { k with frozen := k.frozen || decide (2 ≤ k.missing.length) || k.missing.any fun m => m.kind == .fetch }

/-- Starts a miss (R150): its data line is bound in the crossbar; a fill that a sibling has under way brings it too. -/
def startMiss (i : Nat) (kind : MissKind) (pa n : Nat) (oct side : Bool) (accs : List MissAcc) (s : State) : State :=
  let (s, o) := nextOrder (i / 8) s
  let k := coreAt s i
  let m : Miss := { id := k.nid, order := o, cyc := k.cyc, kind := kind, addr := pa, size := n, oct := oct, side := side
                    sec := k.sec, accs := accs.map fun a => { a with seq := o } }
  let under := (siblings i).findSome? fun j => ((coreAt s j).misses.find? fun x => sameFill x m && x.got.isSome).bind fun x =>
    x.got.map fun g => (g, s.slc.xing.any fun y => y.reply == some (j, x.id))
  let m := { m with got := under.map fun u => u.1 }
  let s := if (under.map fun u => u.2).getD false then
      { s with slc := { s.slc with xing := s.slc.xing ++ [{ tile := i / 8, reply := some (i, m.id) }] } }
    else s
  let s := setCore i (fun k => freezeMore { k with nid := k.nid + 1, misses := k.misses ++ [m] }) s
  match missPorts s i pa (kind == .uncached && accs.any fun a => a.store), under with
  | some (a, b), none => bindAll [⟨a, b, s.slc.cycle, .miss i m.id (pa / 64)⟩] s
  | _, _ => s

/-- The miss leaves the list of those outstanding; the last one ends the freeze of R152. The frame that it would have refilled
after a parity error is kept for it no longer (R221). -/
def endMiss (i id : Nat) (s : State) : State :=
  let m := (coreAt s i).misses.find? fun m => m.id == id
  let line := (m.map fun m => m.addr / 64).getD 0
  let code := (m.map fun m => m.kind == .fetch).getD false
  let s := { s with slc := { s.slc with xing := s.slc.xing.filter fun x => x.reply != some (i, id) } }
  unbind (.miss i id line) (setCore i (fun k =>
    let k := { k with misses := k.misses.filter fun m => m.id != id }
    let k := if code then { k with irelock := mset 0 k.irelock line 0 } else { k with relock := mset 0 k.relock line 0 }
    { k with frozen := k.frozen && !k.missing.isEmpty }) s)

/-- CODE of FETCH and DATA (R200). -/
def transCode (cause lvl : Nat) (store : Bool) : Nat := cause + 16 * lvl + 64 * b2n store

/-- CODE of WORLD (R234). -/
def worldCode (a : Nat) (fetch store sec : Bool) : Nat :=
  packFields [(worldRegion a, 3), (b2n fetch, 1), (b2n store, 1), (b2n sec, 1)]

/-- A parity error found in an instruction frame (R221): the line is invalidated, counted and reported; where a fetch
refetches it, a locked one keeps its frame for that. -/
def parityFetch (i key : Nat) (refetch : Bool) (s : State) : State :=
  let keep := fun (k : Core) =>
    match mget none k.icache key with
    | none => k.irelock
    | some f => if refetch ∧ wayMode k.iway (key % 8) = 1 then mset 0 k.irelock f.line (key + 1) else k.irelock
  report (coreReport Cls.corrected Code.l1ParityClean i [(1, 1), (key / 8, 6), (key % 8, 3)])
    (setCore i (fun k => { k with
      pclean := satW 12 (k.pclean + 1), irelock := keep k, icache := mset none k.icache key none }) s)

/-- What the instruction cache answers for the bundle at a physical address: whether it holds it (R206, R221). -/
def lookFetch (i pa : Nat) (s : State) : State × Bool :=
  let k := coreAt s i
  match findWay k.icache k.iway (pa / 64) with
  | none => (s, false)
  | some w =>
    let key := frameKey (pa / 64) w
    match mget none k.icache key with
    | none => (s, false)
    | some f =>
      let (lo, n) := unitBits pa 16 false
      if f.fails (reachMask lo n) then (parityFetch i key true s, false)
      else
        (setCore i (fun k => { k with
          icache := mset none k.icache key (some { f with used := k.clock + 1 }), clock := k.clock + 1 }) s, true)

/-- The locked frame that a fetch refills after a parity error (R221), while it is empty and locked. -/
def relockFetch (k : Core) (line : Nat) : Option Nat :=
  match mget 0 k.irelock line with
  | 0 => none
  | f + 1 => if wayMode k.iway (f % 8) = 1 ∧ (mget none k.icache f).isNone then some f else none

/-- A fetched line enters the instruction cache: the locked frame that lost it to a parity error (R221), else a normal way; a
set with no normal way serves it without allocating (R206, R207). -/
def installFetch (i line bits : Nat) (s : State) : State :=
  let k := coreAt s i
  match (relockFetch k line).orElse fun _ => (victimWay k.icache k.iway line).map (frameKey line) with
  | none => setCore i (fun k => { k with served := some line }) s
  | some key =>
    setCore i (fun k => { k with
      icache := mset none k.icache key (some { line := line, bits := bits, used := k.clock + 1 })
      clock := k.clock + 1 }) s

/-- How the fetch of the next bundle stands: it has come, it starts or waits for a walk or a fill, or the bundle raises a
cause. -/
inductive Fetch
  | come | wait | cause (c : Cause)
  deriving DecidableEq, Repr

/-- The translation and the world rule of the fetch of the next bundle (R117, R121, R153, R199, R234): its physical
address, or how it ends. -/
def fetchAddress (i : Nat) (s : State) : State × (Nat ⊕ Fetch) :=
  let s := tlbRefill i (coreAt s i).pc s
  let k := coreAt s i
  match translate k i k.pc .fetch with
  | .miss =>
    (setCore i (fun k => { k with
      walk := some ⟨k.pc, false, true, 2, 0, k.sec, k.ctx.toNat, (k.bankOf k.sec).tbase⟩ }) s, .inr .wait)
  | .fault cause lvl => (s, .inr (.cause ⟨1, 0, 2, transCode cause lvl false, k.pc⟩))
  | .ok pa _ _ =>
    if memSecure s pa != k.sec then
      (report (accessRefused pa (coreReq s i) false) s, .inr (.cause ⟨1, 0, 6, worldCode pa true false k.sec, k.pc⟩))
    else (s, .inl pa)

/-- The fetch of the next bundle (R149, R152): a bundle that the instruction cache does not hold starts a miss. -/
def fetchBundle (i : Nat) (s : State) : State × Fetch :=
  match fetchAddress i s with
  | (s, .inr r) => (s, r)
  | (s, .inl pa) =>
    let served := (coreAt s i).served == some (pa / 64)
    match lookFetch i pa (setCore i (fun k => { k with served := none }) s) with
    | (s, true) => (s, .come)
    | (s, false) => if served then (s, .come) else (startMiss i .fetch pa 16 false false [] s, .wait)

end Sys2Proof.Machine
end

