-- ==== Sys2Proof/Machine/Flags.lean ====
section
/-! DEFINITION. Flags.lean: the special registers of a core as MFS reads and MTS writes them (R102, *Special registers*),
CSTAT, ECAUSE, FS, ISRC and IVLEV among them, and the mode changes of cache ways (R208). -/

namespace Sys2Proof.Machine

/-- CSTAT as software reads it. -/
def cstatWord (k : Core) : Nat :=
  packFields [(b2n k.kernel, 1), (b2n k.sec, 1), (0, 1), (b2n k.lc, 1), (b2n k.dr, 1), (b2n k.dz, 1), (b2n k.ov, 1),
    (b2n k.lb, 1), (b2n k.ie, 1), (b2n k.tlc, 1), (b2n k.tdr, 1), (b2n k.seq.isSome, 1), (b2n k.ex, 1),
    (b2n (!k.held.isEmpty), 1)]

/-- A write of CSTAT: EX clears only while nothing is held; LB, OV, DZ, DR and LC clear by a 1. -/
def writeCstat (v : Nat) (k : Core) : Core :=
  { k with
    ex := k.ex && (bitOf v 12 || !k.held.isEmpty), tdr := bitOf v 10, tlc := bitOf v 9, ie := bitOf v 8
    lb := k.lb && !bitOf v 7, ov := k.ov && !bitOf v 6, dz := k.dz && !bitOf v 5, dr := k.dr && !bitOf v 4
    lc := k.lc && !bitOf v 3
    dueAt := k.dueAt.map fun d => { d with cleared := d.cleared || bitOf v 4 } }

/-- FS keeps RM, TE and FL (FS fields). -/
def writeFs (v : Nat) (k : Core) : Core := { k with fs := BitVec.ofNat 36 v &&& 0o157437#36 }

/-- ECAUSE keeps CODE, SLOT, SP, EDLY, PMODE and VEC; EDLY b11 is held as written. -/
def ecauseMask : Word := 0o777777737#36

/-- ISRC: the top frame of the priority stack, or zero. -/
def isrcWord (k : Core) : Nat :=
  match k.stack with
  | [] => 0
  | f :: _ =>
    packFields [(f.src, 18), (f.nmsg, 8), (f.level.getD 0, 4), (b2n f.fault, 1), (b2n f.ovf, 1)]

/-- IVLEV. -/
def ivlevWord (k : Core) : Nat :=
  packFields [(k.level.getD 0, 4), (0, 1), (b2n k.level.isNone, 1), (k.stack.length, 5), (b2n k.fpend.isSome, 1),
    ((List.range 16).foldl (fun m l => if k.offers.any (fun o => o.level == l) then m + 2 ^ l else m) 0, 16),
    (k.badcnt, 8)]

/-- CID. -/
def cidWord (s : State) (i : Nat) : Nat := packFields [(i % 8, 3), (i / 8, 6), (islOf s (i / 8), 6)]

/-- What the special-register table gives a number: no register, or whether the current mode may read and write it and
whether it is writable at all. -/
structure SrRule where
  read  : Bool
  write : Bool
  ro    : Bool
  deriving DecidableEq, Repr

/-- The row of a special register for a core in its current mode and world. -/
def srRule (s : State) (i n : Nat) : Option SrRule :=
  let k := coreAt s i
  let kern : SrRule := ⟨k.kernel, k.kernel, false⟩
  let kernRo : SrRule := ⟨k.kernel, true, true⟩
  let allRo : SrRule := ⟨true, true, true⟩
  let all : SrRule := ⟨true, true, false⟩
  let ways : SrRule := ⟨k.kernel, k.kernel && ownWorld s i, false⟩
  match n with
  | 0o00 => some ⟨true, k.kernel, false⟩
  | 0o01 => some all
  | 0o02 => some kernRo
  | 0o03 | 0o04 | 0o05 | 0o06 | 0o07 | 0o10 => some kern
  | 0o11 => some ⟨k.kernel && k.sec, k.kernel && k.sec, false⟩
  | 0o12 | 0o13 => some allRo
  | 0o14 => some all
  | 0o20 | 0o21 => some kern
  | 0o22 | 0o23 => some ways
  | 0o24 | 0o30 => some kernRo
  | _ => none

/-- The value MFS reads; a 36-bit register is read zero-extended. -/
def srRead (s : State) (i n : Nat) : Double :=
  let k := coreAt s i
  let b := k.bankOf k.sec
  BitVec.ofNat 72 (match n with
    | 0o00 => cstatWord k
    | 0o01 => k.fs.toNat
    | 0o02 => isrcWord k
    | 0o03 => k.ctx.toNat
    | 0o04 => b.vbase
    | 0o05 => b.epc
    | 0o06 => b.etgt
    | 0o07 => b.ecause.toNat
    | 0o10 => b.eval
    | 0o11 => k.wra
    | 0o12 => tileChron s (i / 8)
    | 0o13 => cidWord s i
    | 0o14 => k.lk.toNat
    | 0o20 => b2n b.tctl
    | 0o21 => b.tbase
    | 0o22 => k.dway.toNat
    | 0o23 => k.iway.toNat
    | 0o24 => k.ranges.length
    | 0o30 => ivlevWord k
    | _ => 0)

/-- A bundle address keeps bits [47:4]. -/
def bundleAddr (v : Nat) : Nat := v % 2 ^ 48 / 16 * 16

/-- Bits [hi:12] of a value. -/
def pageBase (v hi : Nat) : Nat := v % 2 ^ hi / 4096 * 4096

/-- A data way enters local-store mode (R208): its dirty lines are written back once through the eviction buffer, and it
reads as zero. All of them stand in the buffer at once. DESIGN CHOICE: log entry 72. -/
def wayToLocal (i w : Nat) (s : State) : State :=
  (List.range 64).foldl (fun s set =>
    match mget none (coreAt s i).dcache (8 * set + w) with
    | none => s
    | some f =>
      if f.bad ≠ 0 then parity i (8 * set + w) f false s
      else
        let owes := (coreAt s i).owes f
        let s := setFrame i (8 * set + w) none (leaveLine i f.line s)
        if owes then startWriteBack i f.line f.bits f.sec true true s else s) s

/-- A data way leaves local-store mode (R208): its contents are discarded. -/
def wayFromLocal (i w : Nat) (s : State) : State :=
  setCore i (fun k => { k with
    local' := k.local'.filter fun e => decide (e.1 / 64 ≠ w), lbad := k.lbad.filter fun e => decide (e.1 / 1024 ≠ w) }) s

/-- DWAY takes a new value; b11 in any way leaves the field unchanged (R5, R208). DEDUCED: log entry 25. -/
def writeDway (i v : Nat) (s : State) : State :=
  let bad := (List.range 8).any fun w => field v (2 * w) 2 == 3
  if bad then report (regRefused (16 + i / 8) 0 (coreReq s i) .value (v % 2 ^ 36)) s
  else
    let ran := !(coreAt s i).fatal
    let s := (List.range 8).foldl (fun s w =>
      let old := wayMode (coreAt s i).dway w
      let new := field v (2 * w) 2
      if new = 2 ∧ old ≠ 2 then wayToLocal i w s
      else if old = 2 ∧ new ≠ 2 then wayFromLocal i w s
      else s) s
    if ran && (coreAt s i).fatal then s else setCore i (fun k => { k with dway := BitVec.ofNat 16 v }) s

/-- IWAY takes a new value; b10 and b11 leave the field unchanged (R5). DEDUCED: log entry 25. -/
def writeIway (i v : Nat) (s : State) : State :=
  if (List.range 8).any fun w => decide (2 ≤ field v (2 * w) 2) then
    report (regRefused (16 + i / 8) 0 (coreReq s i) .value (v % 2 ^ 36)) s
  else setCore i (fun k => { k with iway := BitVec.ofNat 16 v }) s

/-- A write of a special register, as it takes effect for the bundle that follows the MTS (R102). DEDUCED: log entry
26. -/
def srWrite (i n : Nat) (x : Double) (s : State) : State :=
  let v := x.toNat
  let bank := fun (f : Bank → Bank) => setCore i (fun k => k.setBank k.sec f) s
  match n with
  | 0o00 => setCore i (writeCstat v) s
  | 0o01 => setCore i (writeFs v) s
  | 0o03 => setCore i (fun k => { k with ctx := BitVec.ofNat 16 v }) s
  | 0o04 => bank fun b => { b with vbase := pageBase v 48 }
  | 0o05 => bank fun b => { b with epc := bundleAddr v }
  | 0o06 => bank fun b => { b with etgt := bundleAddr v }
  | 0o07 => bank fun b => { b with ecause := BitVec.ofNat 36 v &&& ecauseMask }
  | 0o10 => bank fun b => { b with eval := v % 2 ^ 48 }
  | 0o11 => setCore i (fun k => { k with wra := bundleAddr v }) s
  | 0o14 => setCore i (fun k => k.write 64 x) s
  | 0o20 => bank fun b => { b with tctl := bitOf v 0 }
  | 0o21 => bank fun b => { b with tbase := pageBase v 45 }
  | 0o22 => writeDway i v s
  | 0o23 => writeIway i v s
  | _ => s

end Sys2Proof.Machine
end

