-- ==== Sys2Proof/Machine/Operands.lean ====
section
/-! DEFINITION. Operands.lean: the forms of a syllable (R104, R107), its operands, and the issue of one syllable in its
bundle (R105–R108, R121, R143–R146). -/

namespace Sys2Proof.Machine

/-- The word of a register-form syllable. -/
def regWord (op : Nat) (f : RegForm) : Nat :=
  packFields [(f.func.toNat, 9), (f.b.toNat, 6), (f.a.toNat, 6), (f.dest.toNat, 6), (op, 9)]

/-- The word of an immediate-form syllable. -/
def immWord (op : Nat) (f : ImmForm) : Nat :=
  packFields [(f.imm.toNat, 15), (f.a.toNat, 6), (f.dest.toNat, 6), (op, 9)]

/-- The opcode of a pair "x, x + 1": .W, then .D (R109). -/
def wOp (op : Nat) (wd : Width) : Nat := match wd with
  | .w => op
  | .d => op + 1

/-- The operand srcB of a register form, or the long immediate (R107). -/
def srcB (k : Core) (x : Issue) (f : RegForm) : Double := if f.func = 0o777 then x.next.signExtend 72 else k.read f.b

/-- imm15 sign-extended (R104). -/
def immVal (f : ImmForm) : Double := f.imm.signExtend 72

/-- The ILLEGAL code of a syllable's slot (R106). DEDUCED: log entry 22. -/
def slotCause (x : Issue) (slots : List Nat) : Option Nat := if slots.contains x.slot.val then none else some 2

/-- The ILLEGAL code of a field that must be zero, or of a value that is not listed (R108, R109). DEDUCED: log entry
22. -/
def fieldCause (ok : Bool) : Option Nat := if ok then none else some 3

/-- The first of two causes. -/
def orCause (a b : Option Nat) : Option Nat := match a with
  | some c => some c
  | none => b

/-- The cause of a register form that may take a long immediate: func o000 or o777 (R107, R109). DEDUCED: log entry
22. -/
def regCause (x : Issue) (slots : List Nat) (f : RegForm) : Option Nat :=
  if f.func = 0o777 ∧ x.slot = 3 then some 4
  else orCause (slotCause x slots) (fieldCause (f.func == 0 || f.func == 0o777))

/-- The cause of a register form whose row reads no srcB (R107, R109). -/
def unaryCause (x : Issue) (slots : List Nat) (f : RegForm) : Option Nat :=
  if f.func = 0o777 then some 4 else orCause (slotCause x slots) (fieldCause (f.func == 0 && f.b == 0))

/-- Whether S2 is occupied by a division in this contract cycle (R146). -/
def Core.s2Busy (k : Core) : Bool := k.flight.any fun l => l.busy && decide (k.cyc < l.due)

/-- A result of latency `lat` leaves on its way (R144). `extra` adds what a divide, a floating-point operation or a load
that waits brings. -/
def launch (i slot lat reg : Nat) (val : Double) (extra : Landing → Landing) (s : State) : State :=
  setCore i (fun k => { k with
    nid := k.nid + 1
    flight := k.flight ++ [extra
      { id := k.nid, reg := reg, slot := slot, due := k.cyc + lat, val := val, sec := k.sec, issued := k.cyc }] }) s

/-- A plain result. -/
def result (i slot lat : Nat) (dest : BitVec 6) (val : Double) (s : State) : State :=
  launch i slot lat dest.toNat val id s

/-- A bundle can open here: the boundary settles; where something is due before the bundle, nothing issues; and the
bundle's fetch has come, or raises its cause (R117, R121, R152). DESIGN CHOICE: log entry 18. DEDUCED: log entry 19. -/
def tryOpen (i : Nat) (s : State) : State × Bool :=
  if (coreAt s i).slot ≠ 0 then (s, true)
  else if (coreAt s i).statDue.isSome ∧ (interruptDue s i ∨ stackFaultDue s i) then (s, false)
  else
    let s1 := settle i s
    if !mayOpen s1 i then (s1, false)
    else
      match fetchBundle i s1 with
      | (s1, .wait) => (s1, false)
      | (s1, .cause c) => (takeCause i c s1, false)
      | (s1, .come) =>
        let s2 := openBundle i s1
        if (coreAt s2 i).haltReq = some 2 then
          let k := coreAt s2 i
          (setCore i (fun c => { c with haltReq := k.haltReq, haltCmp := k.haltCmp, passCmp := k.passCmp }) s1, false)
        else (s2, true)

/-- The end of a bundle: a fatal error, a table walk or a halt leaves the bundle unissued; a cause is taken; else the
bundle takes effect, and then `post`. -/
def endBundle (i : Nat) (post : Nat → State → State) (s : State) : State :=
  let k := coreAt s i
  if k.fatal || k.walk.isSome || k.haltReq == some 2 then annul i s
  else
    match k.cause with
    | some c => takeCause i c s
    | none => deferredCompare i (post i (commitBundle srWrite i (traceIssue i k.pc s)))

/-- A syllable begins: its core runs, no earlier slot is named again, and its bundle is open or opens here. -/
def beginSyllable (x : Issue) (s : State) : State × Bool :=
  if !coreLive s (issueIx x) || decide (x.slot.val < (coreAt s (issueIx x)).slot) then (s, false)
  else tryOpen (issueIx x) s

/-- What a syllable does in its turn: it meets an ILLEGAL cause, it collides with a division in S2 (R146), or it acts.
DESIGN CHOICE: log entry 18. -/
def runSyllable (x : Issue) (word : Nat) (ill : Core → Option Nat) (dest : Nat) (act : Nat → State → State) (s : State) :
    State :=
  let i := issueIx x
  match ill (coreAt s i) with
  | some c => addCause i ⟨2, x.slot.val, 0, c, word⟩ s
  | none =>
    if x.slot = 2 ∧ (coreAt s i).s2Busy ∧ 2 ^ 27 ≤ word then setCore i (fun k => { k with s2coll := some dest }) s
    else act i s

/-- The end of a syllable: a syllable of S3 and the last one named end the bundle. DESIGN CHOICE: log entry 18. -/
def closeSyllable (x : Issue) (long : Bool) (post : Nat → State → State) (s : State) : State :=
  let used := x.slot.val + (if long then 2 else 1)
  if x.last || decide (4 ≤ used) then endBundle (issueIx x) post s
  else setCore (issueIx x) (fun k => { k with slot := used }) s

/-- One syllable of a bundle: its word, the ILLEGAL code it meets, whether it takes the next slot's word, what it does in
its turn, and what follows the end of its bundle. -/
def syllable (x : Issue) (word : Nat) (ill : Core → Option Nat) (long : Bool) (dest : Nat)
    (act : Nat → State → State) (post : Nat → State → State) (s : State) : State :=
  let (s, opened) := beginSyllable x s
  if !opened then s else closeSyllable x long post (runSyllable x word ill dest act s)

/-- Nothing follows the bundle. -/
def noPost : Nat → State → State := fun _ s => s

/-- A syllable whose only effect is a result of latency `lat` (R147). -/
def computes (x : Issue) (word : Nat) (ill : Option Nat) (long : Bool) (lat : Nat) (dest : BitVec 6)
    (val : Core → Double) (s : State) : State :=
  syllable x word (fun _ => ill) long dest.toNat
    (fun i s => result i x.slot.val lat dest (val (coreAt s i)) s) noPost s

end Sys2Proof.Machine
end

