-- ==== Sys2Proof/Machine/CoreInt.lean ====
section
/-! DEFINITION. CoreInt.lean: the integer, immediate, and multiply and divide groups (R109, R166–R173, R190–R192). -/

namespace Sys2Proof.Machine

/-- A register form of the integer group: S0 or S1, latency 1 (R109). -/
def intReg (op : Nat) (g : (n : Nat) → BitVec n → BitVec n → BitVec n) (x : Issue) (wd : Width) (f : RegForm)
    (s : State) : Host.Outcome State Fault Refusal :=
  .next (computes x (regWord (wOp op wd) f) (regCause x [0, 1] f) (f.func == 0o777) 1 f.dest
    (fun k => alu wd g (k.read f.a) (srcB k x f)) s)

/-- An immediate form of the integer group: S0 or S1, latency 1 (R109). -/
def intImm (op : Nat) (g : (n : Nat) → BitVec n → BitVec n → BitVec n) (x : Issue) (wd : Width) (f : ImmForm)
    (s : State) : Host.Outcome State Fault Refusal :=
  .next (computes x (immWord (wOp op wd) f) (slotCause x [0, 1]) false 1 f.dest
    (fun k => alu wd g (k.read f.a) (immVal f)) s)

/-- A register form that reads only srcA: S0 or S1, latency 1 (R109). -/
def intUnary (op : Nat) (val : Double → Double) (x : Issue) (f : RegForm) (s : State) :
    Host.Outcome State Fault Refusal :=
  .next (computes x (regWord op f) (unaryCause x [0, 1] f) false 1 f.dest (fun k => val (k.read f.a)) s)

/-- A multiply: S2, latency 3 (R109, R169). -/
def intMul (op : Nat) (g : (n : Nat) → BitVec n → BitVec n → BitVec n) (x : Issue) (wd : Width) (f : RegForm)
    (s : State) : Host.Outcome State Fault Refusal :=
  .next (computes x (regWord (wOp op wd) f) (regCause x [2] f) (f.func == 0o777) 3 f.dest
    (fun k => alu wd g (k.read f.a) (srcB k x f)) s)

/-- The latency of an integer divide (R147). -/
def divLatency (wd : Width) : Nat := match wd with
  | .w => 11
  | .d => 19

/-- A divide: S2, which it occupies until it lands; DZ and OV travel with the result (R109, R146, R170, R171). -/
def intDiv (op : Nat) (signed : Bool) (g : (n : Nat) → BitVec n → BitVec n → BitVec n) (x : Issue) (wd : Width)
    (f : RegForm) (s : State) : Host.Outcome State Fault Refusal :=
  .next (syllable x (regWord (wOp op wd) f) (fun _ => regCause x [2] f) (f.func == 0o777) f.dest.toNat
    (fun i s =>
      let k := coreAt s i
      let a := k.read f.a
      let b := srcB k x f
      launch i x.slot.val (divLatency wd) f.dest.toNat (alu wd g a b)
        (fun l => { l with busy := true, dz := divZero wd b, ov := signed && divOver wd a b }) s)
    noPost s)

/-- NOP: nothing, in every slot, whatever its other fields hold (R106). -/
def execNop (x : Issue) (s : State) : Host.Outcome State Fault Refusal :=
  .next (syllable x 0 (fun _ => none) false 0 (fun _ s => s) noPost s)

/-- ADD: dest ← srcA + srcB (R109, R166). -/
def execAdd (x : Issue) (wd : Width) (f : RegForm) (s : State) : Host.Outcome State Fault Refusal :=
  intReg 0o002 calcAdd x wd f s

/-- SUB: dest ← srcA − srcB (R109, R166). -/
def execSub (x : Issue) (wd : Width) (f : RegForm) (s : State) : Host.Outcome State Fault Refusal :=
  intReg 0o004 calcSub x wd f s

/-- AND: dest ← srcA and srcB (R109, R166). -/
def execAnd (x : Issue) (wd : Width) (f : RegForm) (s : State) : Host.Outcome State Fault Refusal :=
  intReg 0o006 calcAnd x wd f s

/-- OR: dest ← srcA or srcB (R109, R166). -/
def execOr (x : Issue) (wd : Width) (f : RegForm) (s : State) : Host.Outcome State Fault Refusal :=
  intReg 0o010 calcOr x wd f s

/-- XOR: dest ← srcA xor srcB (R109, R166). -/
def execXor (x : Issue) (wd : Width) (f : RegForm) (s : State) : Host.Outcome State Fault Refusal :=
  intReg 0o012 calcXor x wd f s

/-- ANDN: dest ← srcA and not srcB (R109, R166). -/
def execAndn (x : Issue) (wd : Width) (f : RegForm) (s : State) : Host.Outcome State Fault Refusal :=
  intReg 0o014 calcAndn x wd f s

/-- SHL: shift left by srcB (R109, R166). -/
def execShl (x : Issue) (wd : Width) (f : RegForm) (s : State) : Host.Outcome State Fault Refusal :=
  intReg 0o016 calcShl x wd f s

/-- SHR: logical shift right by srcB (R109, R166). -/
def execShr (x : Issue) (wd : Width) (f : RegForm) (s : State) : Host.Outcome State Fault Refusal :=
  intReg 0o020 calcShr x wd f s

/-- SAR: arithmetic shift right by srcB (R109, R166). -/
def execSar (x : Issue) (wd : Width) (f : RegForm) (s : State) : Host.Outcome State Fault Refusal :=
  intReg 0o022 calcSar x wd f s

/-- ROL: rotate left by srcB (R109, R166). -/
def execRol (x : Issue) (wd : Width) (f : RegForm) (s : State) : Host.Outcome State Fault Refusal :=
  intReg 0o024 calcRol x wd f s

/-- CMPEQ: dest ← 1 if equal, else 0 (R109, R166). -/
def execCmpeq (x : Issue) (wd : Width) (f : RegForm) (s : State) : Host.Outcome State Fault Refusal :=
  intReg 0o026 calcEq x wd f s

/-- CMPLT: dest ← 1 if srcA < srcB signed, else 0 (R109, R166). -/
def execCmplt (x : Issue) (wd : Width) (f : RegForm) (s : State) : Host.Outcome State Fault Refusal :=
  intReg 0o030 calcLt x wd f s

/-- CMPLTU: dest ← 1 if srcA < srcB unsigned, else 0 (R109, R166). -/
def execCmpltu (x : Issue) (wd : Width) (f : RegForm) (s : State) : Host.Outcome State Fault Refusal :=
  intReg 0o032 calcLtu x wd f s

/-- MIN: signed minimum (R109, R166). -/
def execMin (x : Issue) (wd : Width) (f : RegForm) (s : State) : Host.Outcome State Fault Refusal :=
  intReg 0o034 calcMin x wd f s

/-- MAX: signed maximum (R109, R166). -/
def execMax (x : Issue) (wd : Width) (f : RegForm) (s : State) : Host.Outcome State Fault Refusal :=
  intReg 0o036 calcMax x wd f s

/-- PAR: 1 when srcA holds an odd number of one bits over w bits (R192). -/
def execPar (x : Issue) (wd : Width) (f : RegForm) (s : State) : Host.Outcome State Fault Refusal :=
  intUnary (wOp 0o042 wd) (fun a => BitVec.ofNat 72 (popCount (widthBits wd) (lowBits wd a) % 2)) x f s

/-- BREV.O: bits reversed within each of the 9 octets of srcA (R192). -/
def execBrevO (x : Issue) (f : RegForm) (s : State) : Host.Outcome State Fault Refusal :=
  intUnary 0o044 (fun a => BitVec.ofNat 72 (reverseUnits 8 9 a.toNat)) x f s

/-- BREV.W: bits reversed within each word of srcA (R192). -/
def execBrevW (x : Issue) (f : RegForm) (s : State) : Host.Outcome State Fault Refusal :=
  intUnary 0o045 (fun a => BitVec.ofNat 72 (reverseUnits 36 2 a.toNat)) x f s

/-- TILE_CRCPc.POLY as a load of core `i` itself would read it in this cycle (R115, R191): zero in the world that does not
own the tile (R237), else the newest store of the tile's cores to the register that has not been performed, else the value it holds. -/
def crcPolyNow (s : State) (i : Nat) (k : Core) : Nat :=
  let owner := tileSec s (i / 8)
  let reg := 2 ^ 44 + (16 + i / 8) * 2 ^ 24 + 0o700200 + 4 * (i % 8)
  let toReg := fun (m : Miss) => m.kind == .uncached && m.got.isNone && m.addr == reg && m.size == 4 && !m.oct && !m.side &&
    mayWrite ⟨0, m.sec⟩ owner
  let puts := fun (k : Core) => (k.misses.filter toReg).flatMap fun m =>
    (m.accs.filter fun a => a.store).map fun a => (m.order, a.val % 2 ^ 32)
  let newest := fun (b : Option (Nat × Nat)) (p : Nat × Nat) => match b with
    | some x => if p.1 < x.1 then b else some p
    | none => some p
  if !mayWrite ⟨0, k.sec⟩ owner then 0
  else (((k :: (siblings i).map fun j => coreAt s j).flatMap puts).foldl newest none).elim k.crcPoly fun p => p.2

/-- The polynomial that func[1:0] selects (R191). -/
def crcSelect (poly : Nat) (func : BitVec 9) : Nat :=
  match func.toNat % 4 with
  | 0 => polyCrc32c
  | 1 => polyCrc64
  | _ => poly

/-- One step of a reflected CRC (R190). -/
def crcStep (poly : Nat) (func : BitVec 9) (a b : Double) : Double :=
  let c := if func.toNat % 4 = 1 then 64 else 32
  let n := if bitOf func.toNat 2 then 8 else 4
  BitVec.ofNat 72 (crcOctets (crcSelect poly func) (splitUnits 8 n b.toNat) (a.toNat % 2 ^ c))

/-- The cause of a CRC syllable: no long immediate; func[1:0] = b11 and func[8:3] ≠ 0 are not listed (R107, R109). -/
def crcCause (x : Issue) (f : RegForm) : Option Nat :=
  if f.func = 0o777 then some 4
  else orCause (slotCause x [0, 1]) (fieldCause (decide (f.func.toNat < 8) && f.func.toNat % 4 != 3))

/-- CRC: one step, latency 2 (R109, R190). -/
def execCrc (x : Issue) (f : RegForm) (s : State) : Host.Outcome State Fault Refusal :=
  .next (computes x (regWord 0o046 f) (crcCause x f) false 2 f.dest
    (fun k => crcStep (crcPolyNow s (issueIx x) k) f.func (k.read f.a) (k.read f.b)) s)

/-- CLZ: leading zeros over w bits; w for zero (R168). -/
def execClz (x : Issue) (wd : Width) (f : RegForm) (s : State) : Host.Outcome State Fault Refusal :=
  intUnary (wOp 0o050 wd) (fun a => BitVec.ofNat 72 (leadZeros (widthBits wd) (lowBits wd a))) x f s

/-- CTZ: trailing zeros over w bits; w for zero (R168). -/
def execCtz (x : Issue) (wd : Width) (f : RegForm) (s : State) : Host.Outcome State Fault Refusal :=
  intUnary (wOp 0o052 wd) (fun a => BitVec.ofNat 72 (trailZeros (widthBits wd) (lowBits wd a))) x f s

/-- POPC: one bits over w bits (R168). -/
def execPopc (x : Issue) (wd : Width) (f : RegForm) (s : State) : Host.Outcome State Fault Refusal :=
  intUnary (wOp 0o054 wd) (fun a => BitVec.ofNat 72 (popCount (widthBits wd) (lowBits wd a))) x f s

/-- ADDI: dest ← srcA + the sign-extended imm15 (R109, R166). -/
def execAddi (x : Issue) (wd : Width) (f : ImmForm) (s : State) : Host.Outcome State Fault Refusal :=
  intImm 0o102 calcAdd x wd f s

/-- SUBI: dest ← srcA − the sign-extended imm15 (R109, R166). -/
def execSubi (x : Issue) (wd : Width) (f : ImmForm) (s : State) : Host.Outcome State Fault Refusal :=
  intImm 0o104 calcSub x wd f s

/-- ANDI: dest ← srcA and the sign-extended imm15 (R109, R166). -/
def execAndi (x : Issue) (wd : Width) (f : ImmForm) (s : State) : Host.Outcome State Fault Refusal :=
  intImm 0o106 calcAnd x wd f s

/-- ORI: dest ← srcA or the sign-extended imm15 (R109, R166). -/
def execOri (x : Issue) (wd : Width) (f : ImmForm) (s : State) : Host.Outcome State Fault Refusal :=
  intImm 0o110 calcOr x wd f s

/-- XORI: dest ← srcA xor the sign-extended imm15 (R109, R166). -/
def execXori (x : Issue) (wd : Width) (f : ImmForm) (s : State) : Host.Outcome State Fault Refusal :=
  intImm 0o112 calcXor x wd f s

/-- ANDNI: dest ← srcA and not the sign-extended imm15 (R109, R166). -/
def execAndni (x : Issue) (wd : Width) (f : ImmForm) (s : State) : Host.Outcome State Fault Refusal :=
  intImm 0o114 calcAndn x wd f s

/-- SHLI: shift left by the sign-extended imm15 (R109, R166). -/
def execShli (x : Issue) (wd : Width) (f : ImmForm) (s : State) : Host.Outcome State Fault Refusal :=
  intImm 0o116 calcShl x wd f s

/-- SHRI: logical shift right by the sign-extended imm15 (R109, R166). -/
def execShri (x : Issue) (wd : Width) (f : ImmForm) (s : State) : Host.Outcome State Fault Refusal :=
  intImm 0o120 calcShr x wd f s

/-- SARI: arithmetic shift right by the sign-extended imm15 (R109, R166). -/
def execSari (x : Issue) (wd : Width) (f : ImmForm) (s : State) : Host.Outcome State Fault Refusal :=
  intImm 0o122 calcSar x wd f s

/-- ROLI: rotate left by the sign-extended imm15 (R109, R166). -/
def execRoli (x : Issue) (wd : Width) (f : ImmForm) (s : State) : Host.Outcome State Fault Refusal :=
  intImm 0o124 calcRol x wd f s

/-- CMPEQI: dest ← 1 if equal, else 0 (R109, R166). -/
def execCmpeqi (x : Issue) (wd : Width) (f : ImmForm) (s : State) : Host.Outcome State Fault Refusal :=
  intImm 0o126 calcEq x wd f s

/-- CMPLTI: dest ← 1 if srcA < the sign-extended imm15 signed, else 0 (R109, R166). -/
def execCmplti (x : Issue) (wd : Width) (f : ImmForm) (s : State) : Host.Outcome State Fault Refusal :=
  intImm 0o130 calcLt x wd f s

/-- CMPLTUI: dest ← 1 if srcA < the sign-extended imm15 unsigned, else 0 (R109, R166). -/
def execCmpltui (x : Issue) (wd : Width) (f : ImmForm) (s : State) : Host.Outcome State Fault Refusal :=
  intImm 0o132 calcLtu x wd f s

/-- MINI: signed minimum (R109, R166). -/
def execMini (x : Issue) (wd : Width) (f : ImmForm) (s : State) : Host.Outcome State Fault Refusal :=
  intImm 0o134 calcMin x wd f s

/-- MAXI: signed maximum (R109, R166). -/
def execMaxi (x : Issue) (wd : Width) (f : ImmForm) (s : State) : Host.Outcome State Fault Refusal :=
  intImm 0o136 calcMax x wd f s

/-- MUL: low half of the product (R169). -/
def execMul (x : Issue) (wd : Width) (f : RegForm) (s : State) : Host.Outcome State Fault Refusal :=
  intMul 0o200 calcMul x wd f s

/-- MULH: high half of the signed product (R169). -/
def execMulh (x : Issue) (wd : Width) (f : RegForm) (s : State) : Host.Outcome State Fault Refusal :=
  intMul 0o202 calcMulh x wd f s

/-- MULHU: high half of the unsigned product (R169). -/
def execMulhu (x : Issue) (wd : Width) (f : RegForm) (s : State) : Host.Outcome State Fault Refusal :=
  intMul 0o204 calcMulhu x wd f s

/-- DIV: signed quotient (R170). -/
def execDiv (x : Issue) (wd : Width) (f : RegForm) (s : State) : Host.Outcome State Fault Refusal :=
  intDiv 0o206 true calcDiv x wd f s

/-- DIVU: unsigned quotient (R170). -/
def execDivu (x : Issue) (wd : Width) (f : RegForm) (s : State) : Host.Outcome State Fault Refusal :=
  intDiv 0o210 false calcDivu x wd f s

/-- REM: signed remainder (R170). -/
def execRem (x : Issue) (wd : Width) (f : RegForm) (s : State) : Host.Outcome State Fault Refusal :=
  intDiv 0o212 true calcRem x wd f s

/-- REMU: unsigned remainder (R170). -/
def execRemu (x : Issue) (wd : Width) (f : RegForm) (s : State) : Host.Outcome State Fault Refusal :=
  intDiv 0o214 false calcRemu x wd f s

end Sys2Proof.Machine
end

