-- ==== Sys2Proof/Machine/Fp.lean ====
section
/-! DEFINITION. Fp.lean: binary36 and binary72 arithmetic, exact and then rounded once (R174–R183, R189). -/

namespace Sys2Proof.Machine

/-- A floating-point format: exponent bits and fraction bits (*Formats*). -/
structure Fmt where
  eb : Nat
  fb : Nat
  deriving DecidableEq, Repr

def binary36 : Fmt := ⟨8, 27⟩
def binary72 : Fmt := ⟨11, 60⟩

/-- The format of a width (R174). -/
def fmtOf (wd : Width) : Fmt := match wd with
  | .w => binary36
  | .d => binary72

def Fmt.bias (f : Fmt) : Int := 2 ^ (f.eb - 1) - 1
def Fmt.emin (f : Fmt) : Int := 1 - f.bias
def Fmt.emax (f : Fmt) : Int := f.bias
/-- Precision p. -/
def Fmt.prec (f : Fmt) : Nat := f.fb + 1
/-- Width in bits. -/
def Fmt.size (f : Fmt) : Nat := 1 + f.eb + f.fb

/-- The rounding modes, in the order of FS.RM and func[1:0] (R110). -/
inductive Rnd
  | near | zero | up | down
  deriving DecidableEq, Repr

def rndOf (n : Nat) : Rnd := match n % 4 with
  | 0 => .near
  | 1 => .zero
  | 2 => .up
  | _ => .down

/-- A floating-point datum: a NaN, signalling or quiet; an infinity; or the number (−1)^neg × m × 2^e. -/
inductive FVal
  | nan (sig : Bool)
  | inf (neg : Bool)
  | num (neg : Bool) (m : Nat) (e : Int)
  deriving DecidableEq, Repr

/-- The datum that bits encode (R174). -/
def decodeF (f : Fmt) (x : Nat) : FVal :=
  let frac := x % 2 ^ f.fb
  let ex := x / 2 ^ f.fb % 2 ^ f.eb
  let neg := x / 2 ^ (f.fb + f.eb) % 2 == 1
  if ex = 2 ^ f.eb - 1 then
    if frac = 0 then .inf neg else .nan (frac / 2 ^ (f.fb - 1) == 0)
  else if ex = 0 then .num neg frac (f.emin - f.fb)
  else .num neg (2 ^ f.fb + frac) (ex - f.bias - f.fb)

/-- The sign bit in place. -/
def signBit (f : Fmt) (neg : Bool) : Nat := if neg then 2 ^ (f.fb + f.eb) else 0

/-- The canonical NaN (*Named values*). -/
def canonNan (f : Fmt) : Nat := (2 ^ f.eb - 1) * 2 ^ f.fb + 2 ^ (f.fb - 1)

def infBits (f : Fmt) (neg : Bool) : Nat := signBit f neg + (2 ^ f.eb - 1) * 2 ^ f.fb

/-- ±M, the largest finite magnitude. -/
def maxBits (f : Fmt) (neg : Bool) : Nat := signBit f neg + (2 ^ f.eb - 1) * 2 ^ f.fb - 1

def zeroBits (f : Fmt) (neg : Bool) : Nat := signBit f neg

/-- The flags in the bit order of FS.FL (FS fields). -/
def flNV : Nat := 16
def flDZ : Nat := 8
def flOF : Nat := 4
def flUF : Nat := 2
def flNX : Nat := 1

/-- Whether a magnitude with quotient q and remainder r over d (r < d) rounds away from zero. -/
def roundsUp (rm : Rnd) (neg : Bool) (q r d : Nat) : Bool :=
  match rm with
  | .near => decide (d < 2 * r) || (2 * r == d && q % 2 == 1)
  | .zero => false
  | .up => !neg && r != 0
  | .down => neg && r != 0

/-- m ÷ 2^sh rounded to an integer, and whether that was inexact; a negative shift is exact. -/
def roundShift (rm : Rnd) (neg : Bool) (m : Nat) (sh : Int) : Nat × Bool :=
  if sh ≤ 0 then (m * 2 ^ (-sh).toNat, false)
  else
    let d := 2 ^ sh.toNat
    let q := m / d
    let r := m % d
    (if roundsUp rm neg q r d then q + 1 else q, r != 0)

/-- What overflow delivers (R183). -/
def overflowBits (f : Fmt) (rm : Rnd) (neg : Bool) : Nat :=
  match rm with
  | .near => infBits f neg
  | .zero => maxBits f neg
  | .up => if neg then maxBits f neg else infBits f neg
  | .down => if neg then infBits f neg else maxBits f neg

/-- The number (−1)^neg × m × 2^e, m > 0, rounded to a format with its flags: overflow and tininess by the rounding to
p bits with unbounded exponent (R175, R178, R183). -/
def roundNum (f : Fmt) (rm : Rnd) (neg : Bool) (m : Nat) (e : Int) : Nat × Nat :=
  let len : Int := (Nat.log2 m + 1 : Nat)
  let top := e + len - 1
  let (m1, _) := roundShift rm neg m (len - f.prec)
  let top1 := if m1 = 2 ^ f.prec ∧ f.prec < len then top + 1 else top
  if f.emax < top1 then (overflowBits f rm neg, flOF + flNX)
  else
    let sh := max (len - f.prec) (f.emin - f.fb - e)
    let (m2, inexact) := roundShift rm neg m sh
    let biased := e + sh + f.fb + f.bias
    let bits := signBit f neg + (biased.toNat * 2 ^ f.fb + m2 - 2 ^ f.fb)
    let tiny := decide (top1 < f.emin)
    (bits, (if inexact then flNX else 0) + (if tiny && inexact then flUF else 0))

/-- An exact value rounded: zero takes the given sign (R178). -/
def roundExact (f : Fmt) (rm : Rnd) (neg : Bool) (m : Nat) (e : Int) : Nat × Nat :=
  if m = 0 then (zeroBits f neg, 0) else roundNum f rm neg m e

/-- A signed magnitude as an integer. -/
def signed (neg : Bool) (m : Nat) : Int := if neg then -(m : Int) else m

/-- The sum of two numbers, exact: its sign when zero follows R178. -/
def addNum (f : Fmt) (rm : Rnd) (na : Bool) (ma : Nat) (ea : Int) (nb : Bool) (mb : Nat) (eb : Int) : Nat × Nat :=
  let e := min ea eb
  let v := signed na (ma * 2 ^ (ea - e).toNat) + signed nb (mb * 2 ^ (eb - e).toNat)
  if v = 0 then
    let neg := if ma = 0 ∧ mb = 0 ∧ na = nb then na else rm == .down
    (zeroBits f neg, 0)
  else roundNum f rm (decide (v < 0)) v.natAbs e

/-- Whether an operand is a signalling NaN. -/
def isSig : FVal → Bool
  | .nan s => s
  | _ => false

def isNan : FVal → Bool
  | .nan _ => true
  | _ => false

def isInf : FVal → Bool
  | .inf _ => true
  | _ => false

def isZero : FVal → Bool
  | .num _ m _ => m == 0
  | _ => false

def negOf : FVal → Bool
  | .nan _ => false
  | .inf n => n
  | .num n _ _ => n

def negate : FVal → FVal
  | .nan s => .nan s
  | .inf n => .inf (!n)
  | .num n m e => .num (!n) m e

/-- A NaN result with invalid raised as R176 gives for operands that only signalling NaNs make invalid. -/
def nanResult (f : Fmt) (xs : List FVal) : Nat × Nat := (canonNan f, if xs.any isSig then flNV else 0)

def invalid (f : Fmt) : Nat × Nat := (canonNan f, flNV)

/-- a + b (R175, R176). -/
def fAdd (f : Fmt) (rm : Rnd) (a b : FVal) : Nat × Nat :=
  match a, b with
  | .nan _, _ | _, .nan _ => nanResult f [a, b]
  | .inf na, .inf nb => if na = nb then (infBits f na, 0) else invalid f
  | .inf na, .num .. => (infBits f na, 0)
  | .num .., .inf nb => (infBits f nb, 0)
  | .num na ma ea, .num nb mb eb => addNum f rm na ma ea nb mb eb

/-- a × b. -/
def fMul (f : Fmt) (rm : Rnd) (a b : FVal) : Nat × Nat :=
  match a, b with
  | .nan _, _ | _, .nan _ => nanResult f [a, b]
  | .inf na, y => if isZero y then invalid f else (infBits f (na != negOf y), 0)
  | x, .inf nb => if isZero x then invalid f else (infBits f (negOf x != nb), 0)
  | .num na ma ea, .num nb mb eb => roundExact f rm (na != nb) (ma * mb) (ea + eb)

/-- a ÷ b (R183 for a zero divisor). -/
def fDiv (f : Fmt) (rm : Rnd) (a b : FVal) : Nat × Nat :=
  match a, b with
  | .nan _, _ | _, .nan _ => nanResult f [a, b]
  | .inf _, .inf _ => invalid f
  | .inf na, .num nb _ _ => (infBits f (na != nb), 0)
  | .num na _ _, .inf nb => (zeroBits f (na != nb), 0)
  | .num na ma ea, .num nb mb eb =>
    let neg := na != nb
    if mb = 0 then (if ma = 0 then invalid f else (infBits f neg, flDZ))
    else if ma = 0 then (zeroBits f neg, 0)
    else
      let k := Nat.log2 mb + f.prec + 4
      let q := ma * 2 ^ k / mb
      let r := ma * 2 ^ k % mb
      roundNum f rm neg (2 * q + (if r = 0 then 0 else 1)) (ea - eb - k - 1)

/-- c + a × b with one rounding (R175, R176). -/
def fFma (f : Fmt) (rm : Rnd) (a b c : FVal) : Nat × Nat :=
  let wild := (isInf a && isZero b) || (isZero a && isInf b)
  if wild then invalid f
  else
    match a, b, c with
    | .nan _, _, _ | _, .nan _, _ | _, _, .nan _ => nanResult f [a, b, c]
    | .num na ma ea, .num nb mb eb, .num nc mc ec => addNum f rm (na != nb) (ma * mb) (ea + eb) nc mc ec
    | .num .., .num .., .inf nc => (infBits f nc, 0)
    | x, y, z =>
      let np := negOf x != negOf y
      if isInf z ∧ negOf z ≠ np then invalid f else (infBits f np, 0)

/-- Order of two values that are not NaNs: less, with −0 = +0. -/
def fLess (a b : FVal) : Bool :=
  match a, b with
  | .inf na, .inf nb => na && !nb
  | .inf na, _ => na
  | _, .inf nb => !nb
  | .num na ma ea, .num nb mb eb =>
    let e := min ea eb
    decide (signed na (ma * 2 ^ (ea - e).toNat) < signed nb (mb * 2 ^ (eb - e).toNat))
  | _, _ => false

def fSame (a b : FVal) : Bool := !fLess a b && !fLess b a

/-- The bits of a datum of a format, unchanged. -/
def fPick (f : Fmt) (x : Nat) : Nat × Nat := (x % 2 ^ f.size, 0)

/-- FMIN and FMAX (R178): −0 is below +0. -/
def fMinMax (f : Fmt) (isMax : Bool) (x y : Nat) : Nat × Nat :=
  let a := decodeF f x
  let b := decodeF f y
  if isNan a || isNan b then nanResult f [a, b]
  else
    let aBelow := fLess a b || (fSame a b && negOf a && !negOf b)
    if aBelow != isMax then fPick f x else fPick f y

/-- FCMPEQ, FCMPLT and FCMPLE (R176, R179): 0 equal, 1 less, 2 less or equal. -/
def fCompare (kind : Nat) (a b : FVal) : Nat × Nat :=
  if isNan a || isNan b then (0, if kind ≠ 0 ∨ isSig a ∨ isSig b then flNV else 0)
  else
    let r := match kind with
      | 0 => fSame a b
      | 1 => fLess a b
      | _ => fLess a b || fSame a b
    (b2nF r, 0)
where b2nF (b : Bool) : Nat := if b then 1 else 0

/-- A conversion between formats (R180). -/
def fConvert (f : Fmt) (rm : Rnd) (a : FVal) : Nat × Nat :=
  match a with
  | .nan _ => nanResult f [a]
  | .inf n => (infBits f n, 0)
  | .num n m e => roundExact f rm n m e

/-- FTOI: to a signed integer of width n (R181). -/
def fToInt (n : Nat) (rm : Rnd) (a : FVal) : Int × Nat :=
  let hi : Int := 2 ^ (n - 1) - 1
  let lo : Int := -(2 ^ (n - 1))
  match a with
  | .nan _ => (0, flNV)
  | .inf neg => (if neg then lo else hi, flNV)
  | .num neg m e =>
    let (q, inexact) := roundShift rm neg m (-e)
    let v := signed neg q
    if v < lo then (lo, flNV) else if hi < v then (hi, flNV) else (v, if inexact then flNX else 0)

/-- ITOF: from a signed integer (R182). -/
def fOfInt (f : Fmt) (rm : Rnd) (v : Int) : Nat × Nat := roundExact f rm (decide (v < 0)) v.natAbs 0

end Sys2Proof.Machine
end

