-- ==== Sys2Proof/Machine/CoreFp.lean ====
section
/-! DEFINITION. CoreFp.lean: the floating-point group: S2, its rounding, latencies and flags (R109, R110, R174–R184). -/

namespace Sys2Proof.Machine

/-- The rounding mode of an operation: FS.RM, or the mode of func (R110, R177). -/
def rndFor (k : Core) (func : BitVec 9) : Rnd :=
  if func = 0 then rndOf (field k.fs.toNat 14 2) else rndOf func.toNat

/-- func holds a listed value (R110). -/
def fpFuncOk (func : BitVec 9) : Bool := func == 0 || (decide (4 ≤ func.toNat) && decide (func.toNat ≤ 7))

/-- The cause of a floating-point syllable with srcB (R110). -/
def fpCause (x : Issue) (f : RegForm) : Option Nat := orCause (slotCause x [2]) (fieldCause (fpFuncOk f.func))

/-- The cause of one whose row reads no srcB. -/
def fpUnaryCause (x : Issue) (f : RegForm) : Option Nat :=
  orCause (slotCause x [2]) (fieldCause (fpFuncOk f.func && f.b == 0))

/-- An operand as a datum of its width. -/
def fpRead (wd : Width) (k : Core) (r : BitVec 6) : FVal := decodeF (fmtOf wd) (lowBits wd (k.read r))

/-- A register value of a width (R101). -/
def widthValue (wd : Width) (v : Nat) : Double := match wd with
  | .w => wResult (BitVec.ofNat 36 v)
  | .d => BitVec.ofNat 72 v

/-- A floating-point result: the value for its width, and its flags, raised when it lands (R184). -/
def fpIssue (x : Issue) (word : Nat) (ill : Option Nat) (lat : Nat) (busy : Bool) (dest : BitVec 6) (wd : Width)
    (val : Core → Nat × Nat) (s : State) : Host.Outcome State Fault Refusal :=
  .next (syllable x word (fun _ => ill) false dest.toNat
    (fun i s =>
      let r := val (coreAt s i)
      launch i x.slot.val lat dest.toNat (widthValue wd r.1)
        (fun l => { l with flags := r.2, fp := true, busy := busy }) s)
    noPost s)

/-- A two-operand operation. -/
def fpBinary (op lat : Nat) (busy : Bool) (g : Fmt → Rnd → FVal → FVal → Nat × Nat) (x : Issue) (wd : Width)
    (f : RegForm) (s : State) : Host.Outcome State Fault Refusal :=
  fpIssue x (regWord (wOp op wd) f) (fpCause x f) lat busy f.dest wd
    (fun k => g (fmtOf wd) (rndFor k f.func) (fpRead wd k f.a) (fpRead wd k f.b)) s

/-- FADD: srcA + srcB, latency 4 (R175). -/
def execFadd (x : Issue) (wd : Width) (f : RegForm) (s : State) : Host.Outcome State Fault Refusal :=
  fpBinary 0o300 4 false fAdd x wd f s

/-- FSUB: srcA − srcB, exactly FADD of (a, −b), latency 4 (R175). -/
def execFsub (x : Issue) (wd : Width) (f : RegForm) (s : State) : Host.Outcome State Fault Refusal :=
  fpBinary 0o302 4 false (fun fm rm a b => fAdd fm rm a (negate b)) x wd f s

/-- FMUL: srcA × srcB, latency 4 (R175). -/
def execFmul (x : Issue) (wd : Width) (f : RegForm) (s : State) : Host.Outcome State Fault Refusal :=
  fpBinary 0o304 4 false fMul x wd f s

/-- A fused operation: it also reads dest in its issue cycle (R143); latency 5. -/
def fpFused (op : Nat) (neg : Bool) (x : Issue) (wd : Width) (f : RegForm) (s : State) :
    Host.Outcome State Fault Refusal :=
  fpIssue x (regWord (wOp op wd) f) (fpCause x f) 5 false f.dest wd
    (fun k =>
      let a := fpRead wd k f.a
      fFma (fmtOf wd) (rndFor k f.func) (if neg then negate a else a) (fpRead wd k f.b) (fpRead wd k f.dest)) s

/-- FMA: dest + srcA × srcB with one rounding (R175). -/
def execFma (x : Issue) (wd : Width) (f : RegForm) (s : State) : Host.Outcome State Fault Refusal :=
  fpFused 0o306 false x wd f s

/-- FNMA: dest − srcA × srcB with one rounding (R175). -/
def execFnma (x : Issue) (wd : Width) (f : RegForm) (s : State) : Host.Outcome State Fault Refusal :=
  fpFused 0o310 true x wd f s

/-- The latency of FDIV (R147). -/
def fdivLatency (wd : Width) : Nat := match wd with
  | .w => 14
  | .d => 22

/-- FDIV: srcA ÷ srcB; it occupies S2 until it lands (R109, R146). -/
def execFdiv (x : Issue) (wd : Width) (f : RegForm) (s : State) : Host.Outcome State Fault Refusal :=
  fpBinary 0o312 (fdivLatency wd) true fDiv x wd f s

/-- An operation on the operands' bits, latency 4. -/
def fpBits (op : Nat) (g : Fmt → Nat → Nat → Nat × Nat) (x : Issue) (wd : Width) (f : RegForm) (s : State) :
    Host.Outcome State Fault Refusal :=
  fpIssue x (regWord (wOp op wd) f) (fpCause x f) 4 false f.dest wd
    (fun k => g (fmtOf wd) (lowBits wd (k.read f.a)) (lowBits wd (k.read f.b))) s

/-- FMIN: the minimum of IEEE 754-2019 (R178). -/
def execFmin (x : Issue) (wd : Width) (f : RegForm) (s : State) : Host.Outcome State Fault Refusal :=
  fpBits 0o314 (fun fm a b => fMinMax fm false a b) x wd f s

/-- FMAX: the maximum of IEEE 754-2019 (R178). -/
def execFmax (x : Issue) (wd : Width) (f : RegForm) (s : State) : Host.Outcome State Fault Refusal :=
  fpBits 0o316 (fun fm a b => fMinMax fm true a b) x wd f s

/-- FCMPEQ: dest ← 1 if equal, else 0 (R179). -/
def execFcmpeq (x : Issue) (wd : Width) (f : RegForm) (s : State) : Host.Outcome State Fault Refusal :=
  fpBits 0o320 (fun fm a b => fCompare 0 (decodeF fm a) (decodeF fm b)) x wd f s

/-- FCMPLT: dest ← 1 if less, else 0 (R179). -/
def execFcmplt (x : Issue) (wd : Width) (f : RegForm) (s : State) : Host.Outcome State Fault Refusal :=
  fpBits 0o322 (fun fm a b => fCompare 1 (decodeF fm a) (decodeF fm b)) x wd f s

/-- FCMPLE: dest ← 1 if less or equal, else 0 (R179). -/
def execFcmple (x : Issue) (wd : Width) (f : RegForm) (s : State) : Host.Outcome State Fault Refusal :=
  fpBits 0o324 (fun fm a b => fCompare 2 (decodeF fm a) (decodeF fm b)) x wd f s

/-- FCVT.D.W: binary36 to binary72 (R180). -/
def execFcvtDW (x : Issue) (f : RegForm) (s : State) : Host.Outcome State Fault Refusal :=
  fpIssue x (regWord 0o326 f) (fpUnaryCause x f) 4 false f.dest .d
    (fun k => fConvert binary72 (rndFor k f.func) (fpRead .w k f.a)) s

/-- FCVT.W.D: binary72 to binary36 (R180). -/
def execFcvtWD (x : Issue) (f : RegForm) (s : State) : Host.Outcome State Fault Refusal :=
  fpIssue x (regWord 0o327 f) (fpUnaryCause x f) 4 false f.dest .w
    (fun k => fConvert binary36 (rndFor k f.func) (fpRead .d k f.a)) s

/-- FTOI: to a signed integer of the same width (R181). -/
def execFtoi (x : Issue) (wd : Width) (f : RegForm) (s : State) : Host.Outcome State Fault Refusal :=
  fpIssue x (regWord (wOp 0o330 wd) f) (fpUnaryCause x f) 4 false f.dest wd
    (fun k =>
      let r := fToInt (widthBits wd) (rndFor k f.func) (fpRead wd k f.a)
      ((r.1 % 2 ^ widthBits wd).toNat, r.2)) s

/-- ITOF: from a signed integer of the same width (R182). -/
def execItof (x : Issue) (wd : Width) (f : RegForm) (s : State) : Host.Outcome State Fault Refusal :=
  fpIssue x (regWord (wOp 0o332 wd) f) (fpUnaryCause x f) 4 false f.dest wd
    (fun k =>
      let v := match wd with
        | .w => ((k.read f.a).setWidth 36).toInt
        | .d => (k.read f.a).toInt
      fOfInt (fmtOf wd) (rndFor k f.func) v) s

end Sys2Proof.Machine
end

