-- ==== Sys2Proof/Machine/CoreMem.lean ====
section
/-! DEFINITION. CoreMem.lean: loads, stores, cache and translation operations as they issue in S3 (R109, R111–R115,
R149–R152, R199, R203, R210–R215), and the visibility of stores (R148). -/

namespace Sys2Proof.Machine

/-- A cause of the S3 syllable. -/
def s3Cause (i rank vec code eval : Nat) (s : State) : State := addCause i ⟨rank, 3, vec, code, eval⟩ s

/-- The data comparators see an access of S3 (R448). -/
def watchAccess (i va n : Nat) (store : Bool) (s : State) : State :=
  let k := coreAt s i
  applyMatches i 3 va (liveMatches s k (accessMatches s k k.pc va (va + n - 1) store)) s

/-- The bundle stops here: a cause, or a halt before it. -/
def stopped (s : State) (i : Nat) : Bool := (coreAt s i).cause.isSome || (coreAt s i).haltReq == some 2

/-- A core access in S3 after its comparators: ALIGN, translation, VIEW and the world rule, in this order (R199, R233),
and then the access itself at its physical address, memory type and view. -/
def dataAccess (i va n : Nat) (need : Need) (store side : Bool) (act : Nat → Nat → Bool → State → State) (s : State) :
    State :=
  if stopped s i then s
  else if va % n ≠ 0 then s3Cause i 5 4 n va s
  else
    let s := tlbRefill i va s
    let k := coreAt s i
    let vec := if need = .fetch then 2 else 3
    match translate k i va need with
    | .miss =>
      setCore i (fun k => { k with
        walk := some ⟨va, store, decide (need = .fetch), need.num, 3, k.sec, k.ctx.toNat, (k.bankOf k.sec).tbase⟩
        resend := true }) s
    | .fault c l => s3Cause i 5 vec (transCode c l store) va s
    | .ok pa mt oct =>
      if side ∧ !oct then s3Cause i 5 5 0 va s
      else if mt ≠ 2 ∧ !worldMay s k.sec pa then
        s3Cause i 5 6 (worldCode pa false store false) va (report (accessRefused pa (coreReq s i) store) s)
      else act pa mt oct s

/-- How an access is served (R149, R211). -/
inductive Route3
  | cached | own | localWay | uncached
  deriving DecidableEq, Repr

/-- The target of a data access by memory type and physical address (R211). -/
def routeOf (s : State) (i pa mt : Nat) : Route3 :=
  if mt = 2 then .localWay
  else
    match targetOf s pa with
    | .dram => if mt = 0 then .cached else .uncached
    | .tile t => if t = i / 8 then .own else .uncached
    | _ => .uncached

/-- An access outside the core's own tile memory breaks an open sequence (R132). -/
def bodyOutside (i : Nat) (s : State) : State := setCore i Core.breakSeq s

/-- The key of a line of a local-store way (R210). -/
def localKey (pa : Nat) : Nat := 64 * (field pa 12 3) + field pa 6 6

/-- L1_PARITY_LOCAL for each bad word that a load reaches (R223). -/
def localParity (i key lo w : Nat) (s : State) : State :=
  (wordsOf lo w).foldl (fun s j =>
    if mget false (coreAt s i).lbad (16 * key + j) then
      report (coreReport Cls.reported Code.l1ParityLocal i [(key / 64, 3), (64 * (key % 64) + 4 * j, 12)]) s
    else s) s

/-- Reads bits of a local-store line; words with a parity error land zero (R210, R223). -/
def readLocal (i key lo w : Nat) (s : State) : State × Nat :=
  let k := coreAt s i
  let v := (wordsOf lo w).foldl (fun v j =>
    if mget false k.lbad (16 * key + j) then setField v (36 * j) 36 0 else v) (mget 0 k.local' key)
  (localParity i key lo w s, field v lo w)

/-- Writes bits of a local-store line; a whole word clears its error (R210, R223). -/
def writeLocal (i key lo w v : Nat) (s : State) : State :=
  let whole := (wordsOf lo w).filter fun j => decide (lo ≤ 36 * j) && decide (36 * j + 36 ≤ lo + w)
  setCore i (fun k => { k with
    local' := mset 0 k.local' key (setField (mget 0 k.local' key) lo w v)
    lbad := whole.foldl (fun m j => mset false m (16 * key + j) false) k.lbad }) s

/-- A load's result, 4 cycles after issue (R147). -/
def loadResult (i : Nat) (dest : BitVec 6) (ext : LoadExt) (w v : Nat) (s : State) : State :=
  result i 3 4 dest (extendLoad ext w v) s

/-- The outstanding miss on a data line (R151). -/
def missOn (k : Core) (line : Nat) : Option Miss :=
  k.misses.find? fun m => (m.kind == .line || m.kind == .fillLocked) && m.addr / 64 == line

/-- Adds an access or a cache operation to an outstanding miss; the first load or store of a line that DFILLK fetches sets
its contract cycle (R151, R212). -/
def joinMiss (i id : Nat) (a : MissAcc) (s : State) : State :=
  let (s, o) := nextOrder (i / 8) s
  setCore i (fun k => freezeMore { k with misses := k.misses.map fun m =>
    if m.id = id then
      { m with
        accs := m.accs ++ [{ a with seq := o }]
        cyc := if m.kind = .fillLocked ∧ a.op = none ∧ m.accs.all (fun x => x.op != none) then k.cyc else m.cyc }
    else m }) s

/-- A load that waits: its landing, and the access that will fill it. -/
def loadMiss (i : Nat) (kind : MissKind) (dest : BitVec 6) (ext : LoadExt) (pa n lo w : Nat) (oct side : Bool)
    (s : State) : State :=
  let k := coreAt s i
  let a : MissAcc := { store := false, lo := lo, width := w, landing := k.nid, ext := ext, sec := k.sec }
  let s := launch i 3 4 dest.toNat 0 (fun l => { l with miss := some 0 }) s
  match (if kind = .line then missOn k (pa / 64) else none) with
  | some m => joinMiss i m.id a s
  | none => startMiss i kind pa n oct side [a] s

/-- A store that waits for a fill or for its target. -/
def storeMiss (i : Nat) (kind : MissKind) (pa n lo w v : Nat) (oct side : Bool) (s : State) : State :=
  let k := coreAt s i
  let a : MissAcc := { store := true, lo := lo, width := w, val := v, sec := k.sec }
  match (if kind = .line then missOn k (pa / 64) else none) with
  | some m => joinMiss i m.id a s
  | none => startMiss i kind pa n oct side [a] s

/-- A line of the core's own tile memory as the core sees it under its own stores (R115, R130): an uncorrectable word reads
as zero until a store writes the whole of it, and a store into part of one is not performed (R225). -/
def ownView (s : State) (line : Nat) (ps : List PendStore) : Nat :=
  let bad0 := (List.range 16).filter fun j => mget 0 s.tmErr (16 * line + j) == 255
  let part := fun (p : PendStore) j => decide (36 * j < p.lo) || decide (p.lo + p.width < 36 * j + 36)
  let (b, bad) := ps.foldl (fun (acc : Nat × List Nat) p =>
    let hit := (wordsOf p.lo p.width).filter acc.2.contains
    if p.line ≠ line ∨ hit.any (part p) then acc
    else (setField acc.1 p.lo p.width p.val, acc.2.filter fun j => !hit.contains j)) (lineBits s line, bad0)
  bad.foldl (fun b j => setField b (36 * j) 36 0) b

/-- A load of the core's own tile memory: it never misses, reads the core's own earlier stores, and takes a reservation
in a body (R115, R130, R134). -/
def loadOwn (i : Nat) (dest : BitVec 6) (ext : LoadExt) (pa lo w : Nat) (s : State) : State :=
  let line := pa / 64
  let (s, _, _) := readTileBits (i / 8) line lo w i s
  let k := coreAt s i
  let held := match k.seq with
    | none => []
    | some q => q.stores
  let b := ownView s line (k.stores.filter (fun p => !p.cached) ++ held)
  let s := match k.seq with
    | none => s
    | some q => setCore i (fun k => { k with
        seq := some { q with lines := if q.lines.contains line then q.lines else q.lines ++ [line] } }) s
  loadResult i dest ext w (field b lo w) s

/-- A store to the core's own tile memory: held in an open sequence, else it waits to become visible (R130, R148). -/
def storeOwn (i pa lo w v : Nat) (s : State) : State :=
  let k := coreAt s i
  let p : PendStore := { line := pa / 64, lo := lo, width := w, val := v % 2 ^ w, issued := k.cyc, sec := k.sec }
  match k.seq with
  | some q => setCore i (fun k => { k with seq := some { q with stores := q.stores ++ [p] } }) s
  | none => breakReservations (i / 8) (some i) p.line (pendStore i p s)

/-- A load through the data cache (R209, R216, R218). -/
def loadCached (i : Nat) (dest : BitVec 6) (ext : LoadExt) (pa n lo w : Nat) (oct side : Bool) (s : State) : State :=
  let (s, r) := lookLine i (pa / 64) (reachMask lo w) (bodyOutside i s)
  if (coreAt s i).fatal then s
  else
    match r with
    | some b => loadResult i dest ext w (field b lo w) s
    | none => loadMiss i .line dest ext pa n lo w oct side s

/-- A store through the data cache (R209, R216, R218). -/
def storeCached (i pa n lo w v : Nat) (oct side : Bool) (s : State) : State :=
  let (s, r) := lookLine i (pa / 64) (reachMask lo w) (bodyOutside i s)
  let k := coreAt s i
  if k.fatal then s
  else
    match r with
    | some b =>
      pendStore i { line := pa / 64, lo := lo, width := w, val := v % 2 ^ w, old := field b lo w, cached := true
                    issued := k.cyc, sec := k.sec }
        (storeLine i (pa / 64) (setField b lo w v) s)
    | none => storeMiss i .line pa n lo w v oct side s

/-- The stored bits of an access: its units, or the side field (R111, R114, R193). -/
def accessBits (pa n : Nat) (oct side : Bool) : Nat × Nat := if side then sideBits else unitBits pa n oct

/-- A load of n units, or of the side field, at a virtual address. -/
def loadAt (dest : BitVec 6) (ext : LoadExt) (n : Nat) (side : Bool) (va : Nat) (i : Nat) (s : State) : State :=
  dataAccess i va n .load false side
    (fun pa mt oct s =>
      let (lo, w) := accessBits pa n oct side
      match routeOf s i pa mt with
      | .localWay =>
        let (s, v) := readLocal i (localKey pa) lo w (bodyOutside i s)
        loadResult i dest ext w v s
      | .own => loadOwn i dest ext pa lo w s
      | .cached => loadCached i dest ext pa n lo w oct side s
      | .uncached => loadMiss i .uncached dest ext pa n lo w oct side (bodyOutside i s))
    (watchAccess i va n false s)

/-- A store of n units, or of the side field, at a virtual address. -/
def storeAt (data : Nat) (n : Nat) (side : Bool) (va : Nat) (i : Nat) (s : State) : State :=
  dataAccess i va n .store true side
    (fun pa mt oct s =>
      let (lo, w) := accessBits pa n oct side
      match routeOf s i pa mt with
      | .localWay => writeLocal i (localKey pa) lo w data (bodyOutside i s)
      | .own => storeOwn i pa lo w data s
      | .cached => storeCached i pa n lo w data oct side s
      | .uncached => storeMiss i .uncached pa n lo w (data % 2 ^ w) oct side (bodyOutside i s))
    (watchAccess i va n true s)

/-- The virtual address srcA + imm15 (R195). DEDUCED: log entry 24. -/
def eaImm (k : Core) (f : ImmForm) : Nat := (k.read f.a + immVal f).toNat % 2 ^ 48

/-- The virtual address srcA + srcB (R195). DEDUCED: log entry 24. -/
def eaReg (k : Core) (f : RegForm) : Nat := (k.read f.a + k.read f.b).toNat % 2 ^ 48

/-- The cause of a register form of S3 whose func is zero. -/
def s3RegCause (x : Issue) (f : RegForm) : Option Nat := orCause (slotCause x [3]) (fieldCause (f.func == 0))

/-- A load with an immediate offset (R109). -/
def loadImm (op n : Nat) (ext : LoadExt) (x : Issue) (f : ImmForm) (s : State) : Host.Outcome State Fault Refusal :=
  .next (syllable x (immWord op f) (fun _ => slotCause x [3]) false f.dest.toNat
    (fun i s => loadAt f.dest ext n false (eaImm (coreAt s i) f) i s) noPost s)

/-- A load with an index register (R109). -/
def loadReg (op n : Nat) (ext : LoadExt) (x : Issue) (f : RegForm) (s : State) : Host.Outcome State Fault Refusal :=
  .next (syllable x (regWord op f) (fun _ => s3RegCause x f) false f.dest.toNat
    (fun i s => loadAt f.dest ext n false (eaReg (coreAt s i) f) i s) noPost s)

/-- A store with an immediate offset; dest names the data register (R109, R113). -/
def storeImm (op n : Nat) (x : Issue) (f : ImmForm) (s : State) : Host.Outcome State Fault Refusal :=
  .next (syllable x (immWord op f) (fun _ => slotCause x [3]) false f.dest.toNat
    (fun i s =>
      let k := coreAt s i
      storeAt (k.read f.dest).toNat n false (eaImm k f) i s) noPost s)

/-- A store with an index register (R109, R113). -/
def storeReg (op n : Nat) (x : Issue) (f : RegForm) (s : State) : Host.Outcome State Fault Refusal :=
  .next (syllable x (regWord op f) (fun _ => s3RegCause x f) false f.dest.toNat
    (fun i s =>
      let k := coreAt s i
      storeAt (k.read f.dest).toNat n false (eaReg k f) i s) noPost s)

/-- LDQ: load 1 unit, zero-extended at srcA + imm15 (R109, R113). -/
def execLdq (x : Issue) (f : ImmForm) (s : State) : Host.Outcome State Fault Refusal :=
  loadImm 0o400 1 .zero x f s

/-- LDQS: load 1 unit, sign-extended at srcA + imm15 (R109, R113). -/
def execLdqs (x : Issue) (f : ImmForm) (s : State) : Host.Outcome State Fault Refusal :=
  loadImm 0o401 1 .sign x f s

/-- LDH: load 2 units, zero-extended at srcA + imm15 (R109, R113). -/
def execLdh (x : Issue) (f : ImmForm) (s : State) : Host.Outcome State Fault Refusal :=
  loadImm 0o402 2 .zero x f s

/-- LDHS: load 2 units, sign-extended at srcA + imm15 (R109, R113). -/
def execLdhs (x : Issue) (f : ImmForm) (s : State) : Host.Outcome State Fault Refusal :=
  loadImm 0o403 2 .sign x f s

/-- LDW: load 4 units, sign-extended at srcA + imm15 (R109, R113). -/
def execLdw (x : Issue) (f : ImmForm) (s : State) : Host.Outcome State Fault Refusal :=
  loadImm 0o404 4 .sign x f s

/-- LDWU: load 4 units, zero-extended at srcA + imm15 (R109, R113). -/
def execLdwu (x : Issue) (f : ImmForm) (s : State) : Host.Outcome State Fault Refusal :=
  loadImm 0o405 4 .zero x f s

/-- LDD: load 8 units at srcA + imm15 (R109, R113). -/
def execLdd (x : Issue) (f : ImmForm) (s : State) : Host.Outcome State Fault Refusal :=
  loadImm 0o406 8 .zero x f s

/-- LDQX: load 1 unit, zero-extended at srcA + srcB (R109, R113). -/
def execLdqx (x : Issue) (f : RegForm) (s : State) : Host.Outcome State Fault Refusal :=
  loadReg 0o410 1 .zero x f s

/-- LDQSX: load 1 unit, sign-extended at srcA + srcB (R109, R113). -/
def execLdqsx (x : Issue) (f : RegForm) (s : State) : Host.Outcome State Fault Refusal :=
  loadReg 0o411 1 .sign x f s

/-- LDHX: load 2 units, zero-extended at srcA + srcB (R109, R113). -/
def execLdhx (x : Issue) (f : RegForm) (s : State) : Host.Outcome State Fault Refusal :=
  loadReg 0o412 2 .zero x f s

/-- LDHSX: load 2 units, sign-extended at srcA + srcB (R109, R113). -/
def execLdhsx (x : Issue) (f : RegForm) (s : State) : Host.Outcome State Fault Refusal :=
  loadReg 0o413 2 .sign x f s

/-- LDWX: load 4 units, sign-extended at srcA + srcB (R109, R113). -/
def execLdwx (x : Issue) (f : RegForm) (s : State) : Host.Outcome State Fault Refusal :=
  loadReg 0o414 4 .sign x f s

/-- LDWUX: load 4 units, zero-extended at srcA + srcB (R109, R113). -/
def execLdwux (x : Issue) (f : RegForm) (s : State) : Host.Outcome State Fault Refusal :=
  loadReg 0o415 4 .zero x f s

/-- LDDX: load 8 units at srcA + srcB (R109, R113). -/
def execLddx (x : Issue) (f : RegForm) (s : State) : Host.Outcome State Fault Refusal :=
  loadReg 0o416 8 .zero x f s

/-- STQ: store 1 unit at srcA + imm15 (R109, R113). -/
def execStq (x : Issue) (f : ImmForm) (s : State) : Host.Outcome State Fault Refusal :=
  storeImm 0o500 1 x f s

/-- STH: store 2 units at srcA + imm15 (R109, R113). -/
def execSth (x : Issue) (f : ImmForm) (s : State) : Host.Outcome State Fault Refusal :=
  storeImm 0o502 2 x f s

/-- STW: store 4 units at srcA + imm15 (R109, R113). -/
def execStw (x : Issue) (f : ImmForm) (s : State) : Host.Outcome State Fault Refusal :=
  storeImm 0o504 4 x f s

/-- STD: store 8 units at srcA + imm15 (R109, R113). -/
def execStd (x : Issue) (f : ImmForm) (s : State) : Host.Outcome State Fault Refusal :=
  storeImm 0o506 8 x f s

/-- STQX: store 1 unit at srcA + srcB (R109, R113). -/
def execStqx (x : Issue) (f : RegForm) (s : State) : Host.Outcome State Fault Refusal :=
  storeReg 0o510 1 x f s

/-- STHX: store 2 units at srcA + srcB (R109, R113). -/
def execSthx (x : Issue) (f : RegForm) (s : State) : Host.Outcome State Fault Refusal :=
  storeReg 0o512 2 x f s

/-- STWX: store 4 units at srcA + srcB (R109, R113). -/
def execStwx (x : Issue) (f : RegForm) (s : State) : Host.Outcome State Fault Refusal :=
  storeReg 0o514 4 x f s

/-- STDX: store 8 units at srcA + srcB (R109, R113). -/
def execStdx (x : Issue) (f : RegForm) (s : State) : Host.Outcome State Fault Refusal :=
  storeReg 0o516 8 x f s

/-- LDSF: the side field of the line at srcA + imm15, zero-extended (R114). -/
def execLdsf (x : Issue) (f : ImmForm) (s : State) : Host.Outcome State Fault Refusal :=
  .next (syllable x (immWord 0o420 f) (fun _ => slotCause x [3]) false f.dest.toNat
    (fun i s => loadAt f.dest .zero 1 true (eaImm (coreAt s i) f) i s) noPost s)

/-- STSF: bits [63:0] of the data register to the side field of the line at srcA + imm15 (R114). -/
def execStsf (x : Issue) (f : ImmForm) (s : State) : Host.Outcome State Fault Refusal :=
  .next (syllable x (immWord 0o520 f) (fun _ => slotCause x [3]) false f.dest.toNat
    (fun i s =>
      let k := coreAt s i
      storeAt (k.read f.dest).toNat 1 true (eaImm k f) i s) noPost s)

/-- PRIV where the mode does not allow the syllable (R109, R129). -/
def needMode (i word : Nat) (ok : Bool) (act : State → State) (s : State) : State :=
  if ok then (if stopped s i then s else act s) else s3Cause i 3 1 0 word s

/-- A clean or dirty frame that a cache operation of the core names, after the parity check (R221, R222). -/
def opFrame (i line : Nat) (s : State) : State × Option (Nat × CLine) :=
  match dFrame s i line with
  | none => (s, none)
  | some (key, f) => if f.bad ≠ 0 then (parity i key f false s, none) else (s, some (key, f))

/-- A frame lies in a locked way. -/
def lockedKey (k : Core) (key : Nat) : Bool := wayMode k.dway (key % 8) == 1

/-- A cache operation on a line that a miss is to bring waits for the fill, behind the accesses issued before it (R151,
R212). -/
def joinOp (op : LineOp) (i line : Nat) (act : State → State) (s : State) : State :=
  match missOn (coreAt s i) line with
  | some m => joinMiss i m.id { op := some op, store := false, lo := 0, width := 0 } s
  | none => act s

/-- A buffered line that stores made dirty again is written back once more (R212, R218). -/
def flushBuffered (i line : Nat) (s : State) : State :=
  match (evictFind (coreAt s i) line).filter fun e => e.dirtyNow with
  | some e => startWriteBack i line e.now e.newSec false false s
  | none => s

/-- DCLEAN on a physical line: written back if dirty; the line stays, clean (R212). -/
def cleanLine (i line : Nat) (s : State) : State :=
  match opFrame i line s with
  | (s, none) =>
    setCore i (fun k => { k with evict := k.evict.map fun e =>
      if e.line = line ∧ e.served ∧ e.dirtyNow then { e with bits := e.now, later := none } else e })
      (flushBuffered i line s)
  | (s, some (key, f)) =>
    if (coreAt s i).owes f then startWriteBack i line f.bits f.sec false false (setFrame i key (some { f with dirty := false }) s)
    else s

/-- DFLUSH on a physical line: written back if dirty, and invalidated; no longer served from the eviction buffer
(R212, R215). -/
def flushLine (i line : Nat) (s : State) : State :=
  match opFrame i line s with
  | (s, none) =>
    if (evictFind (coreAt s i) line).isSome then unserve i line (leaveLine i line (flushBuffered i line s)) else s
  | (s, some (key, f)) =>
    let drop := lockedKey (coreAt s i) key
    let owes := (coreAt s i).owes f
    let s := setFrame i key none (leaveLine i line s)
    let s := if owes then startWriteBack i line f.bits f.sec false false s else s
    if drop then lockDropped i 0 1 s else s

/-- The core's waiting stores to a line are discarded (R212). -/
def discardStores (i line : Nat) (s : State) : State :=
  setCore i (fun k => { k with stores := k.stores.filter fun p => !(p.cached && p.line == line) }) s

/-- DINV on a physical line: invalidated without write-back (R212, R215). -/
def discardLine (i line : Nat) (s : State) : State :=
  match opFrame i line (unserve i line s) with
  | (s, none) => s
  | (s, some (key, _)) =>
    let s := setFrame i key none s
    if lockedKey (coreAt s i) key then lockDropped i 1 1 s else s

/-- The lowest empty locked frame of a line's set. -/
def emptyLocked (k : Core) (line : Nat) : Option Nat :=
  ((List.range 8).find? fun w => wayMode k.dway w == 1 && (mget none k.dcache (frameKey line w)).isNone).map
    fun w => frameKey line w

/-- CACHE_LOCK_FULL (R212). -/
def lockFull (i line : Nat) (s : State) : State :=
  report (coreReport Cls.reported Code.cacheLockFull i [(64 * line, 45)]) s

/-- DFILLK on a physical line (R212). -/
def fillLine (i pa : Nat) (oct : Bool) (s : State) : State :=
  let line := pa / 64
  match opFrame i line s with
  | (s, some (key, f)) =>
    let k := coreAt s i
    if k.fatal || lockedKey k key then s
    else
      match emptyLocked k line with
      | none => lockFull i line s
      | some key' => setFrame i key' (some f) (setFrame i key none s)
  | (s, none) =>
    let k := coreAt s i
    if k.fatal then s
    else
      match emptyLocked k line with
      | none => lockFull i line s
      | some key' =>
        match evictFind k line with
        | some e =>
          unserve i line (setFrame i key' (some
            { line := line, bits := e.now, dirty := e.dirtyNow, sec := e.nowSec
              used := k.clock }) s)
        | none => startMiss i .fillLocked pa 64 oct false [] s

/-- IINV on a physical line: the instruction line is invalidated (R212, R215). -/
def invalidateFetchLine (i line : Nat) (s : State) : State :=
  let k := coreAt s i
  match findWay k.icache k.iway line with
  | none => s
  | some w =>
    let bad := ((mget none k.icache (frameKey line w)).map fun f => f.bad != 0).getD false
    let s := setCore i (fun k => { k with icache := mset none k.icache (frameKey line w) none }) s
    if bad then parityFetch i (frameKey line w) false s
    else if wayMode k.iway w = 1 then lockDropped i 2 1 s else s

/-- A data-cache operation acts on lines of DRAM through MT b00 alone (R211); one at an unpopulated address is reported
(R16, R199). -/
def onCached (i : Nat) (store : Bool) (act : Nat → Bool → State → State) : Nat → Nat → Bool → State → State :=
  fun pa mt oct s =>
    if routeOf s i pa mt = .cached then act pa oct s
    else if mt ≠ 2 ∧ targetOf s pa = .unmapped then report (addrUnmapped pa (coreReq s i) store) s
    else s

/-- A line operation with an immediate offset: `kern` when it is kernel only (R109, R212). -/
def lineOp (op : Nat) (kern store : Bool) (need : Need) (act : Nat → Nat → Nat → Bool → State → State) (x : Issue)
    (f : ImmForm) (s : State) : Host.Outcome State Fault Refusal :=
  .next (syllable x (immWord op f) (fun _ => slotCause x [3]) false f.dest.toNat
    (fun i s =>
      let k := coreAt s i
      needMode i (immWord op f) (!kern || k.kernel) (dataAccess i (eaImm k f) 1 need store false (act i)) s) noPost s)

/-- DCLEAN: write back the line if it is dirty (R212). -/
def execDclean (x : Issue) (f : ImmForm) (s : State) : Host.Outcome State Fault Refusal :=
  lineOp 0o430 false false .load (fun i => onCached i false fun pa _ => joinOp .clean i (pa / 64) (cleanLine i (pa / 64)))
    x f s

/-- DFLUSH: write back and invalidate the line (R212). -/
def execDflush (x : Issue) (f : ImmForm) (s : State) : Host.Outcome State Fault Refusal :=
  lineOp 0o431 false false .load (fun i => onCached i false fun pa _ => joinOp .flush i (pa / 64) (flushLine i (pa / 64)))
    x f s

/-- DINV: invalidate without write-back; kernel only; checked as a store (R199, R212, R233). -/
def execDinv (x : Issue) (f : ImmForm) (s : State) : Host.Outcome State Fault Refusal :=
  lineOp 0o432 true true .store (fun i => onCached i true fun pa _ =>
    joinOp .discard i (pa / 64) (discardLine i (pa / 64)) ∘ discardStores i (pa / 64)) x f s

/-- DFILLK: fill the line into a locked way; kernel only (R212). -/
def execDfillk (x : Issue) (f : ImmForm) (s : State) : Host.Outcome State Fault Refusal :=
  lineOp 0o433 true false .load (fun i => onCached i false fun pa oct => joinOp .fill i (pa / 64) (fillLine i pa oct))
    x f s

/-- IINV: invalidate the instruction-cache line; kernel only; translated as a fetch (R212). -/
def execIinv (x : Issue) (f : ImmForm) (s : State) : Host.Outcome State Fault Refusal :=
  lineOp 0o434 true false .fetch (fun i pa _ _ s => invalidateFetchLine i (pa / 64) s) x f s

/-- The lines of a range (R213): from srcA's line, clipped at 2^45. -/
def rangeLines (a n : Nat) : Nat × Nat :=
  let l := a % 2 ^ 45 / 64
  (l, min n (2 ^ 39 - l))

/-- RNGINV: a range for the range engine; kernel only (R213). -/
def execRnginv (x : Issue) (f : RegForm) (s : State) : Host.Outcome State Fault Refusal :=
  .next (syllable x (regWord 0o435 f) (fun _ => s3RegCause x f)
    false f.dest.toNat
    (fun i s =>
      let k := coreAt s i
      needMode i (regWord 0o435 f) k.kernel
        (fun s =>
          let a := (k.read f.a).toNat
          let n := (k.read f.b).toNat
          let (l, c) := rangeLines a n
          if 8 ≤ k.ranges.length then report (coreReport Cls.reported Code.cacheRangeFull i [(a, 45), (n, 27)]) s
          else if 2 ^ 45 ≤ a ∨ n = 0 then s
          else setCore i (fun k => { k with ranges := k.ranges ++ [(l, c, k.sec)] }) s) s) noPost s)

/-- Which TLB entries TLBI removes (R203). -/
def tlbiHits (kind : Nat) (sec : Bool) (ctx va : Nat) (e : TlbEntry) : Bool :=
  e.sec == sec &&
    match kind with
    | 0 => true
    | 1 => !e.g && e.ctx == ctx
    | 2 => e.va == va / 2 ^ pageBits e.lvl && (e.g || e.ctx == ctx)
    | _ => e.va == va / 2 ^ pageBits e.lvl

/-- TLBI: TLB invalidation; kernel only (R203). -/
def execTlbi (x : Issue) (f : RegForm) (s : State) : Host.Outcome State Fault Refusal :=
  .next (syllable x (regWord 0o436 f) (fun _ => s3RegCause x f)
    false f.dest.toNat
    (fun i s =>
      let k := coreAt s i
      needMode i (regWord 0o436 f) k.kernel
        (fun s =>
          let b := (k.read f.b).toNat
          let keep := fun e => !tlbiHits (b % 4) k.sec (field b 2 16) ((k.read f.a).toNat % 2 ^ 48) e
          setCore i (fun k => { k with tlb1 := k.tlb1.filter keep, tlb2 := k.tlb2.filter keep }) s) s) noPost s)

/-- Loads of other cores that wait for a line keep reading the bits that a store now replaces (R148); `sel` tells which
issued before the store. -/
def keepOlds (i line : Nat) (sel : MissAcc → Bool) (p : Nat × Nat × Nat) (s : State) : State :=
  let keep := fun (a : MissAcc) => if a.store ∨ a.op ≠ none ∨ !sel a then a else { a with olds := p :: a.olds }
  (siblings i).foldl (fun s j =>
    match missOn (coreAt s j) line with
    | none => s
    | some m => setCore j (fun k => { k with misses := k.misses.map fun x =>
        if x.id = m.id then { x with accs := x.accs.map keep } else x }) s) s

/-- A store reaches the copy of another core: under that core's own waiting stores, and with the responsibility to write
it back. -/
def storeInto (j key : Nat) (f : CLine) (p : PendStore) (s : State) : State :=
  let (s, b) := rebase j p.line (setField (seenBits (coreAt s j) p.line f.bits) p.lo p.width p.val) s
  setFrame j key (some { f with bits := b, dirty := true, sec := p.sec }) s

/-- A store reaches the line in another core's eviction buffer, which is dirty again from then on (R216, R218). -/
def storeIntoBuffer (j : Nat) (e : EvLine) (p : PendStore) (s : State) : State :=
  let (s, b) := rebase j p.line (setField (seenBits (coreAt s j) p.line e.now) p.lo p.width p.val) s
  evictWrite j p.line b p.sec s

/-- The newest write-back of a line that a core of the tile has sent and that is not yet visible: its core and itself. -/
def newestBack (s : State) (i line : Nat) : Option (Nat × EvLine) :=
  (i :: siblings i).foldl (fun b j => (coreAt s j).evict.foldl (fun b e =>
    if e.line ≠ line ∨ !e.dirty then b
    else
      match b with
      | some (_, x) => if x.order < e.order then some (j, e) else b
      | none => some (j, e)) b) none

/-- A store that reaches DRAM by itself is written there, with the merge read that it asked for (R383). -/
def storeWritten (i : Nat) (p : PendStore) (s : State) : State :=
  withOutcome (.store i) p.line (dramPut ⟨BitVec.ofNat 9 i, p.sec⟩ p.line p.lo p.width p.val) s

/-- A store whose line no core of the tile holds any more joins the line's write-back on its way, else DRAM. -/
def storeBehind (i : Nat) (p : PendStore) (s : State) : State :=
  match newestBack s i p.line with
  | some (j, e) =>
    if e.crossed then storeWritten i p s
    else
      setCore j (fun k => { k with evict := k.evict.map fun x =>
        if x.order = e.order then { x with bits := setField x.bits p.lo p.width p.val, sec := p.sec } else x }) s
  | none => storeWritten i p s

/-- A core holds a line in its cache, or in its eviction buffer where it still answers accesses. -/
def holdsLine (s : State) (i line : Nat) : Bool := (dFrame s i line).isSome || (evictFind (coreAt s i) line).isSome

/-- A core's copy of a line carries the responsibility to write it back (R216). -/
def owedCopy (s : State) (j line : Nat) : Bool := match copyOf s j line with
  | some (_, d, _) => d
  | none => false

/-- A core's copy of a line takes that responsibility, in the world of its newest store (R227); `sec` is that of the store
that becomes visible. -/
def ownDirty (i line : Nat) (sec : Bool) (s : State) : State :=
  let w := (coreAt s i).storeWorld line sec
  match dFrame s i line with
  | some (key, f) => setFrame i key (some { f with dirty := true, sec := if f.dirty then f.sec else w }) s
  | none =>
    match evictFind (coreAt s i) line with
    | some e => evictWrite i line e.now (if e.later.isSome then e.newSec else w) s
    | none => s

/-- A store that goes to DRAM by itself has to wait for its channel, for the write queue or for its merge read (R383, R384,
R397). -/
def storeHeld (s : State) (i : Nat) (p : PendStore) : Bool :=
  p.cached && !((i :: siblings i).any fun j => holdsLine s j p.line) &&
    ((newestBack s i p.line).map fun b => b.2.crossed).getD true && !writeTakes s (.store i) p.line p.width

/-- A cached store becomes visible (R148, R216, R217): the directory invalidates the other copies, one of which may have
carried the responsibility to write the line back; a line with a parity error stays as it is (R222). Where the storing
core no longer holds the line but another core does, in its cache or in its eviction buffer, the store reaches that copy.
DEDUCED: log entry 50. -/
def showCached (i : Nat) (p : PendStore) (s : State) : State :=
  let s := keepOlds i p.line (fun _ => true) (p.lo, p.width, p.old) s
  let alone := fun (j : Nat) (s : State) =>
    ((siblings i).filter fun m => m ≠ j).foldl (fun s m => invalidateCopy m p.line s) s
  if holdsLine s i p.line then
    invalidateOthers i p.line (if (siblings i).any fun j => owedCopy s j p.line then ownDirty i p.line p.sec s else s)
  else
    match (siblings i).findSome? fun j => (dFrame s j p.line).map fun f => (j, f),
        (siblings i).findSome? fun j => (evictFind (coreAt s j) p.line).map fun e => (j, e) with
    | some (j, key, f), _ => alone j (storeInto j key f p s)
    | none, some (j, e) => alone j (storeIntoBuffer j e p s)
    | none, none => storeBehind i p s

/-- A store to the core's own tile memory becomes visible (R148): it is written, and other cores' reservations on its
line break (R132). -/
def showOwn (i : Nat) (p : PendStore) (s : State) : State :=
  breakReservations (i / 8) (some i) p.line (writeTileBits (i / 8) p.line p.lo p.width p.val i s)

/-- STORE_VISIBLE: the oldest store of a core becomes visible to the other cores of its tile (R148); the stores that one
ULK wrote become visible together (R131), and one that needs a DRAM channel which takes no write waits for it (R397).
DEDUCED: log entry 21. DESIGN CHOICE: log entry 64. -/
def execStoreVisible (c : CoreId) (s : State) : Host.Outcome State Fault Refusal :=
  let i := coreIx c
  match (coreAt s i).stores with
  | [] => .next s
  | p :: ps =>
    let now := p :: ps.filter fun q => q.issued == p.issued
    if now.any (storeHeld s i) then .next (now.foldl (fun s q => if storeHeld s i q then askWrite (.store i) ⟨BitVec.ofNat 9 i, q.sec⟩ q.line q.width s else s) s)
    else
    let s := setCore i (fun k => { k with stores := ps.filter fun q => q.issued != p.issued }) s
    .next (now.foldl (fun s q => if q.cached then showCached i q s else showOwn i q s) s)

end Sys2Proof.Machine
end

