-- ==== Sys2Proof/Machine/CoreSys.lean ====
section
/-! DEFINITION. CoreSys.lean: the control group and the system group (R109, R116–R119, R124–R134, R155–R159, R188,
R259–R261). -/

namespace Sys2Proof.Machine

/-- A bundle address displaced by a signed number of bundles, modulo 2^48 (R116, R195). DEDUCED: log entry 24. -/
def bundleAt (pc : Nat) (off : Int) : Nat := (((pc : Int) + off * 16) % 2 ^ 48).toNat

/-- Acts unless a cause already stops the bundle. -/
def unlessStopped (i : Nat) (act : State → State) (s : State) : State := if stopped s i then s else act s

/-- A control-group syllable may not lie in the delay of a taken branch (R118). -/
def delayCause (k : Core) : Option Nat := if k.dly ≠ 0 then some 5 else none

/-- The cause of a control-group syllable whose unused fields must be zero (R109, R118). -/
def ctlCause (x : Issue) (ok : Bool) (k : Core) : Option Nat :=
  orCause (orCause (slotCause x [3]) (fieldCause ok)) (delayCause k)

/-- A control-group syllable: it breaks an open sequence and acts normally (R132). -/
def control (x : Issue) (word : Nat) (ok : Bool) (act : Nat → State → State) (s : State) :
    Host.Outcome State Fault Refusal :=
  .next (syllable x word (ctlCause x ok) false 0 (fun i s => unlessStopped i (fun s => act i (bodyOutside i s)) s) noPost s)

/-- A branch is taken to a target (R117). -/
def branchTo (i target : Nat) (s : State) : State := setCore i (fun k => { k with taken := some target }) s

/-- lk ← the address of the third bundle after the branch, landing 1 cycle after issue (R116). -/
def linkReturn (i : Nat) (s : State) : State :=
  launch i 3 1 64 (BitVec.ofNat 72 (((coreAt s i).pc + 48) % 2 ^ 48)) id s

/-- BR: branch to bundle + off27 × 16. -/
def execBr (x : Issue) (off : BitVec 27) (s : State) : Host.Outcome State Fault Refusal :=
  control x (packFields [(off.toNat, 27), (0o600, 9)]) true
    (fun i s => branchTo i (bundleAt (coreAt s i).pc off.toInt) s) s

/-- A conditional branch on all 72 bits of srcA (R116); its outcome enters the trace (R416). -/
def condBranch (op : Nat) (p : Double → Bool) (x : Issue) (a : BitVec 6) (off : BitVec 21) (s : State) :
    Host.Outcome State Fault Refusal :=
  control x (packFields [(off.toNat % 2 ^ 15, 15), (a.toNat, 6), (off.toNat / 2 ^ 15, 6), (op, 9)]) true
    (fun i s =>
      let k := coreAt s i
      let t := p (k.read a)
      let s := traceBranch i t (traceIssue i k.pc s)
      if t then branchTo i (bundleAt k.pc off.toInt) s else s) s

/-- BZ: branch if srcA = 0. -/
def execBz (x : Issue) (a : BitVec 6) (off : BitVec 21) (s : State) : Host.Outcome State Fault Refusal :=
  condBranch 0o601 (fun v => v == 0) x a off s

/-- BNZ: branch if srcA ≠ 0. -/
def execBnz (x : Issue) (a : BitVec 6) (off : BitVec 21) (s : State) : Host.Outcome State Fault Refusal :=
  condBranch 0o602 (fun v => v != 0) x a off s

/-- BLTZ: branch if srcA < 0. -/
def execBltz (x : Issue) (a : BitVec 6) (off : BitVec 21) (s : State) : Host.Outcome State Fault Refusal :=
  condBranch 0o603 (fun v => v.msb) x a off s

/-- BGEZ: branch if srcA ≥ 0. -/
def execBgez (x : Issue) (a : BitVec 6) (off : BitVec 21) (s : State) : Host.Outcome State Fault Refusal :=
  condBranch 0o604 (fun v => !v.msb) x a off s

/-- CALL: lk ← return address; branch. -/
def execCall (x : Issue) (off : BitVec 27) (s : State) : Host.Outcome State Fault Refusal :=
  control x (packFields [(off.toNat, 27), (0o610, 9)]) true
    (fun i s => branchTo i (bundleAt (coreAt s i).pc off.toInt) (linkReturn i s)) s

/-- A branch to a register value, which the trace names (R116, R417). -/
def indirect (i kind target : Nat) (s : State) : State :=
  let pc := (coreAt s i).pc
  branchTo i target (traceCore i (fun ch t => emitTarget (i % 8) kind pc target ch t) (traceIssue i pc s))

/-- JR: branch to srcA. -/
def execJr (x : Issue) (f : RegForm) (s : State) : Host.Outcome State Fault Refusal :=
  control x (regWord 0o620 f) (f.dest == 0 && f.b == 0 && f.func == 0)
    (fun i s => indirect i 0 (bundleAddr ((coreAt s i).read f.a).toNat) s) s

/-- CALLR: lk ← return address; branch to srcA. -/
def execCallr (x : Issue) (f : RegForm) (s : State) : Host.Outcome State Fault Refusal :=
  control x (regWord 0o621 f) (f.dest == 0 && f.b == 0 && f.func == 0)
    (fun i s => indirect i 1 (bundleAddr ((coreAt s i).read f.a).toNat) (linkReturn i s)) s

/-- RET: branch to lk. -/
def execRet (x : Issue) (f : RegForm) (s : State) : Host.Outcome State Fault Refusal :=
  control x (regWord 0o622 f) (f.dest == 0 && f.a == 0 && f.b == 0 && f.func == 0)
    (fun i s => indirect i 2 (bundleAddr (coreAt s i).lk.toNat) s) s

/-- LAPC: dest ← this bundle's address + imm15 × 16, latency 1. DEDUCED: log entry 24. -/
def execLapc (x : Issue) (f : ImmForm) (s : State) : Host.Outcome State Fault Refusal :=
  control x (immWord 0o630 f) (f.a == 0)
    (fun i s => result i 3 1 f.dest (BitVec.ofNat 72 (bundleAt (coreAt s i).pc f.imm.toInt)) s) s

/-- The fields of a system-group syllable that must be zero (R109). -/
def sysOk (f : ImmForm) (d a m : Bool) : Bool := (!d || f.dest == 0) && (!a || f.a == 0) && (!m || f.imm == 0)

/-- The cause of a system-group syllable. -/
def sysCause (x : Issue) (ok : Bool) : Option Nat := orCause (slotCause x [3]) (fieldCause ok)

/-- imm15 of MFS and MTS names an assigned special register (R102). -/
def srNamed (imm : BitVec 15) : Bool :=
  decide (imm.toNat < 64) &&
    [0o00, 0o01, 0o02, 0o03, 0o04, 0o05, 0o06, 0o07, 0o10, 0o11, 0o12, 0o13, 0o14, 0o20, 0o21, 0o22, 0o23, 0o24,
      0o30].contains imm.toNat

/-- MFS: dest ← special register, landing 1 cycle after issue; PRIV where the mode may not read it (R102). -/
def execMfs (x : Issue) (f : ImmForm) (s : State) : Host.Outcome State Fault Refusal :=
  .next (syllable x (immWord 0o700 f) (fun _ => sysCause x (sysOk f false true false && srNamed f.imm)) false f.dest.toNat
    (fun i s =>
      let may := ((srRule s i f.imm.toNat).map fun r => r.read).getD false
      needMode i (immWord 0o700 f) may (fun s => result i 3 1 f.dest (srRead s i f.imm.toNat) s) s) noPost s)

/-- MTS: special register ← srcA for the bundle that follows; a read-only register ignores it; PRIV where the mode may
not write it (R102). DEDUCED: log entry 26. -/
def execMts (x : Issue) (f : ImmForm) (s : State) : Host.Outcome State Fault Refusal :=
  .next (syllable x (immWord 0o701 f) (fun _ => sysCause x (sysOk f true false false && srNamed f.imm)) false f.dest.toNat
    (fun i s =>
      let r := (srRule s i f.imm.toNat).getD ⟨false, false, false⟩
      needMode i (immWord 0o701 f) r.write
        (fun s =>
          if r.ro then s
          else setCore i (fun k => { k with later := k.later ++ [(f.imm.toNat, k.read f.a)] }) s) s) noPost s)

/-- SYSC: the SYSC exception, with CODE ← imm15 (R109, R120). DEDUCED: log entry 20. -/
def execSysc (x : Issue) (f : ImmForm) (s : State) : Host.Outcome State Fault Refusal :=
  .next (syllable x (immWord 0o702 f) (fun _ => sysCause x (sysOk f true true false)) false 0
    (fun i s => s3Cause i 6 7 f.imm.toNat 0 s) noPost s)

/-- Held results and barrier boundaries return to flight with their remaining counts (R124, R188). -/
def restoreHeld (k : Core) : Core :=
  { k with
    flight := k.flight ++ k.held.map (fun l => { l with due := k.cyc + l.due }), held := []
    fbars := k.fbars ++ k.hbars.map (fun b => (k.cyc + b.1, b.2)), hbars := [] }

/-- THE RETURN FROM AN EXCEPTION (R124), after the ERET bundle has taken effect; a barrier of the handler stands where its
boundary is this one (R188). -/
def returnFromException (i : Nat) (s : State) : State :=
  let k := coreAt s i
  let b := k.bankOf k.sec
  let w := b.ecause.toNat
  let d := min (field w 7 2) 2
  let s := setCore i (fun k =>
    { restoreHeld { k with flight := [], fbars := k.fbars.filter fun b => b.1 == k.cyc } with
      kernel := bitOf w 6, ex := false, pc := b.epc, dly := d, tgt := if d = 0 then 0 else b.etgt }) s
  traceCore i (fun _ t => emitReturn (i % 8) b.epc t) s

/-- ERET: exception return; kernel only (R124). -/
def execEret (x : Issue) (f : ImmForm) (s : State) : Host.Outcome State Fault Refusal :=
  .next (syllable x (immWord 0o703 f)
    (fun k => orCause (sysCause x (sysOk f true true true)) (delayCause k)) false 0
    (fun i s => needMode i (immWord 0o703 f) (coreAt s i).kernel id s) returnFromException s)

/-- The RUNTIME section gives a secure image for logical tile `t` (R99, R135). -/
def hasSecureImage (s : State) (t : Nat) : Bool := sec s 12 (64 * t + 0o44) 4 != 0

/-- Secure trace is not permitted (R421, R450): STRACE of the DEBUG section. -/
def traceHides (s : State) (i : Nat) : Bool := !tileSec s (i / 8) && secX s 14 1 1 0 == 0

/-- ECAUSE as WCALL sets it in the secure copy (R126). -/
def wcallCause (imm : BitVec 15) : Word := BitVec.ofNat 36 (packFields [(0o37, 5), (0, 1), (1, 1), (0, 5), (imm.toNat, 15)])

/-- The entry of the secure world (R126), after the WCALL bundle has taken effect; a drought that this bundle made is the
normal world's (R165). DEDUCED: log entry 23. -/
def worldCall (imm : BitVec 15) (i : Nat) (s : State) : State :=
  let s := drought i (landDue i s)
  let k := coreAt s i
  let nxt := k.pc
  if !k.later'.isEmpty && !k.held.isEmpty then doubleFault i (wcallCause imm) nxt s
  else
    let entry := (k.secB.vbase + 0o3700) % 2 ^ 48
    let s := traceCore i (fun ch t => emitEvent (i % 8) 3 0o37 nxt nxt entry ch t) s
    let hide := traceHides s i
    setCore i (fun k => { holdFlight k with
      wra := nxt, secB := { k.secB with ecause := wcallCause imm, eval := 0 }, sec := true, kernel := true
      pc := entry, dly := 0, tgt := 0, drought := 0, trace := { k.trace with hidden := hide } }) s

/-- WCALL: world call from NK (R126, R129); without a secure image it is ILLEGAL in every mode (R100, R121). -/
def execWcall (x : Issue) (f : ImmForm) (s : State) : Host.Outcome State Fault Refusal :=
  let image := hasSecureImage s x.tile.val
  .next (syllable x (immWord 0o704 f)
    (fun k =>
      orCause (orCause (sysCause x (sysOk f true true false)) (delayCause k))
        (if k.sec || !image then some 6 else none)) false 0
    (fun i s => needMode i (immWord 0o704 f) (coreAt s i).kernel id s) (worldCall f.imm) s)

/-- The return to the normal world (R127), after the WRET bundle has taken effect; a drought that this bundle made ends
with the secure world's pending traps (R165, R187). A halt that waited is taken at the first boundary (R450). -/
def worldReturn (i : Nat) (s : State) : State :=
  let s := drought i s
  let k := coreAt s i
  let hid := k.trace.hidden
  let pended := k.haltReq.isSome && haltWaits s i
  let s := setCore i (fun k =>
    { restoreHeld { k with flight := [], fbars := [] } with
      regs := k.regs.filter fun e => decide (e.1 < 5), lk := 0, fs := 0, sec := false, kernel := true
      fpPend := k.fpPend.filter fun p => !p.sec, ctPend := k.ctPend.filter fun p => !p.2
      pc := k.wra, dly := 0, tgt := 0, drought := 0, haltNow := pended, trace := { k.trace with hidden := false } }) s
  traceCore i (fun _ t =>
    if hid then { flushBranch (i % 8) t with base := none, owed := some 4 } else emitReturn (i % 8) k.wra t) s

/-- WRET: world return from SK (R127, R129); on a tile that the secure world owns it is ILLEGAL (R100, R121). -/
def execWret (x : Issue) (f : ImmForm) (s : State) : Host.Outcome State Fault Refusal :=
  let owned := tileSec s x.tile.val
  .next (syllable x (immWord 0o705 f)
    (fun k =>
      orCause (orCause (sysCause x (sysOk f true true true)) (delayCause k))
        (if owned then some 6 else none)) false 0
    (fun i s =>
      let k := coreAt s i
      needMode i (immWord 0o705 f) (k.sec && k.kernel) id s) worldReturn s)

/-- LCK: opens a locked sequence; in a delay of a taken branch it opens broken (R130, R132). DESIGN CHOICE: log entry 67. -/
def execLck (x : Issue) (f : ImmForm) (s : State) : Host.Outcome State Fault Refusal :=
  .next (syllable x (immWord 0o706 f) (fun _ => sysCause x (sysOk f true true true)) false 0
    (fun i s => unlessStopped i (fun s => setCore i (fun k => { k with
      seq := some ⟨k.cyc, decide (k.dly ≠ 0), [], []⟩ }) s) s) noPost s)

/-- ULK: closes the sequence; dest ← 1 and the held stores are written as one update, or 0 and LB (R131, R133). DESIGN
CHOICE: log entry 64. -/
def closeSeq (i : Nat) (dest : BitVec 6) (s : State) : State :=
  let k := coreAt s i
  match k.seq with
  | some ⟨_, false, _, stores⟩ =>
    let now := stores.map fun p => { p with issued := k.cyc }
    let s := setCore i (fun k => { k with seq := none, stores := k.stores ++ now }) s
    let s := now.foldl (fun s p => breakReservations (i / 8) (some i) p.line s) s
    result i 3 1 dest 1 s
  | _ => result i 3 1 dest 0 (setCore i (fun k => { k with seq := none, lb := true }) s)

/-- ULK: closes the locked sequence (R131). -/
def execUlk (x : Issue) (f : ImmForm) (s : State) : Host.Outcome State Fault Refusal :=
  .next (syllable x (immWord 0o707 f) (fun _ => sysCause x (sysOk f false true true)) false f.dest.toNat
    (fun i s => unlessStopped i (closeSeq i f.dest) s) noPost s)

/-- A core leaves doze or a debug halt: the STATE resume packet, and the SYNC it owes (R422). -/
def traceResume (i : Nat) (s : State) : State :=
  traceCore i (fun ch t => { emitState (i % 8) 5 ch t with owed := some 2 }) s

/-- An offered delivery that lies above the core's level (R254). -/
def offeredAbove (k : Core) : Bool := k.offers.any fun o => aboveLevel k o.level

/-- The core enters doze; a delivery already offered above its level wakes it at once (R92, R254). DESIGN CHOICE: log entry
67. -/
def enterDoze (i : Nat) (s : State) : State :=
  let s := traceCore i (fun ch t => emitState (i % 8) 0 ch t) s
  if offeredAbove (coreAt s i) then traceResume i s else setCore i (fun k => { k with dozing := true }) s

/-- DOZE: enter doze; kernel only (R92). -/
def execDoze (x : Issue) (f : ImmForm) (s : State) : Host.Outcome State Fault Refusal :=
  .next (syllable x (immWord 0o710 f) (fun _ => sysCause x (sysOk f true true true)) false 0
    (fun i s => needMode i (immWord 0o710 f) (coreAt s i).kernel id s) enterDoze s)

/-- The status of a wait lands in the cycle of the bundle that follows (R157). -/
def waitStatus (i dest status : Nat) (s : State) : State :=
  setCore i (fun k => { k with
    nid := k.nid + 1
    flight := k.flight ++ [{ id := k.nid, reg := dest, slot := 3, due := k.cyc, val := BitVec.ofNat 72 status, sec := k.sec
                             issued := k.cyc - 1 }] }) s

/-- WAITM after its bundle (R157): the flag set ends the wait with status 1; else the core freezes. DESIGN CHOICE: log
entry 67. -/
def startWait (f : ImmForm) (i : Nat) (s : State) : State :=
  let w := f.imm.toNat
  let fl := field w 0 4
  let keep := bitOf w 4
  let lim := field w 5 10
  let k := coreAt s i
  if k.flags.getLsbD fl then
    let s := waitStatus i f.dest.toNat 1 s
    if keep then s
    else setCore i (fun k => { k with flags := k.flags &&& ~~~(BitVec.ofNat 16 (2 ^ fl)), cleared := some fl }) s
  else
    let limit := if lim = 0 then none else some (tileChron s (i / 8) + 64 * lim)
    setCore i (fun k => { k with wait := some ⟨fl, keep, limit, f.dest.toNat, k.safe⟩ }) s

/-- WAITM: cross-island wait (R156, R157). -/
def execWaitm (x : Issue) (f : ImmForm) (s : State) : Host.Outcome State Fault Refusal :=
  .next (syllable x (immWord 0o711 f) (fun _ => sysCause x (sysOk f false true false)) false f.dest.toNat
    (fun _ s => s) (startWait f) s)

/-- FBAR names the boundary before contract cycle J + 1, J being the last landing of the floating-point operations issued
before it; where one of them is held, that landing comes after the return (R123, R188). -/
def nameBarrier (k : Core) : Core :=
  let last := fun (ls : List Landing) (m : Nat) =>
    (ls.filter fun l => l.fp && decide (l.issued < k.cyc)).foldl (fun m l => max m l.due) m
  if k.held.any fun l => l.fp then { k with hbars := k.hbars ++ [(last k.held 0 + 1, k.cyc)] }
  else { k with fbars := k.fbars ++ [(last k.flight k.cyc + 1, k.cyc)] }

/-- FBAR: floating-point trap barrier (R188). -/
def execFbar (x : Issue) (f : ImmForm) (s : State) : Host.Outcome State Fault Refusal :=
  .next (syllable x (immWord 0o712 f) (fun _ => sysCause x (sysOk f true true true)) false 0
    (fun i s => unlessStopped i (setCore i nameBarrier) s) noPost s)

/-- BRK that the probe takes: the core halts at the next boundary (R442). -/
def breakHalt (i : Nat) (s : State) : State :=
  if (coreAt s i).brkH then setCore i (fun k => { k with haltReq := some 3 }) s else s

/-- BRK: the BRK exception with CODE ← imm15, or a halt while DBG_RUN.BRKH = 1 (R109, R120, R442). DEDUCED: log entry
20. -/
def execBrk (x : Issue) (f : ImmForm) (s : State) : Host.Outcome State Fault Refusal :=
  .next (syllable x (immWord 0o713 f) (fun _ => sysCause x (sysOk f true true false)) false 0
    (fun i s => if (coreAt s i).brkH then s else s3Cause i 6 0o10 f.imm.toNat 0 s) breakHalt s)

/-- CL as reports carry it (R471). -/
def levelField (k : Core) : Nat × Nat := (match k.level with
  | none => 16
  | some l => l, 5)

/-- Whether IDONE with this level is a good completion (R259, R261); that of a stack-fault frame too has EX = 0 and the world
that owns the tile. DESIGN CHOICE: log entry 74. -/
def goodCompletion (s : State) (i v : Nat) : Bool :=
  let k := coreAt s i
  !k.ex && ownWorld s i &&
    match k.stack with
    | [] => false
    | f :: _ => if f.fault then f.level.isNone || f.level == some v else f.level == some v

/-- The exit sequence of a good completion (R259). Whether the boundary after it is a safe point is as R162 says. DESIGN
CHOICE: log entry 72. -/
def exitInterrupt (i : Nat) (s : State) : State :=
  let k := coreAt s i
  match k.stack with
  | [] => s
  | f :: fs =>
    let s := setCore i (fun k => { k with
      flight := [], stack := fs, kernel := f.pmode, ie := f.ie, pc := f.resume, dly := 0, tgt := 0
      statDue := f.waitm }) s
    traceCore i (fun _ t => emitReturn (i % 8) f.resume t) s

/-- A bad completion (R261): counted, reported, and a stack-fault entry made pending, which halts the core under a
stack-fault frame. A second one before the entry keeps the level of the first. DESIGN CHOICE: log entry 72. -/
def badCompletion (pc v i : Nat) (s : State) : State :=
  let k := coreAt s i
  let s := report (coreReport Cls.reported Code.ivcStackFault i
    [(v, 4), levelField k, (k.stack.length, 5), bundleField pc]) s
  let s := setCore i (fun k => { k with badcnt := satW 8 (k.badcnt + 1), fpend := some (k.fpend.getD v) }) s
  if k.stack.any fun f => f.fault then
    coreFatal i (coreReport Cls.fatal Code.ivcStackHalt i [levelField k, (k.stack.length, 5)]) s
  else s

/-- IDONE: interrupt completion, with the level in imm15[3:0]; kernel only (R259, R261). DEDUCED: log entry 22. -/
def execIdone (x : Issue) (f : ImmForm) (s : State) : Host.Outcome State Fault Refusal :=
  let v := f.imm.toNat % 16
  let pc := (coreAt s (issueIx x)).pc
  .next (syllable x (immWord 0o714 f) (fun _ => sysCause x (sysOk f true true false && decide (f.imm.toNat < 16))) false 0
    (fun i s => needMode i (immWord 0o714 f) (coreAt s i).kernel id s)
    (fun i s => if goodCompletion s i v then exitInterrupt i s else badCompletion pc v i s) s)

/-- MFENCE: the next bundle issues only when every earlier store of this core is visible to all requesters (R159). -/
def execMfence (x : Issue) (f : ImmForm) (s : State) : Host.Outcome State Fault Refusal :=
  .next (syllable x (immWord 0o715 f) (fun _ => sysCause x (sysOk f true true true)) false 0
    (fun _ s => s) (fun i s => setCore i (fun k => { k with fence := true }) s) s)

end Sys2Proof.Machine
end

