-- ==== Sys2Proof/Machine/CoreEvents.lean ====
section
/-! DEFINITION. CoreEvents.lean: what happens to a core between its bundles: landings, droughts, traps, interrupt and
stack-fault entry, table walks, write-backs, range passes, fences and waits, watchdogs, and the two fault rows of an
instruction fetch and an unlisted opcode (chapters 05, 06, 08, 10). -/

namespace Sys2Proof.Machine

/-- A core at a bundle boundary: no bundle of it is partly issued. -/
def atBoundary (s : State) (i : Nat) : Bool := (coreAt s i).on && (coreAt s i).slot == 0

/-- RESULT_LANDING: every result due lands (R144, R145). -/
def execResultLanding (c : CoreId) (s : State) : Host.Outcome State Fault Refusal :=
  let i := coreIx c
  .next (if atBoundary s i then landDue i s else s)

/-- SAFE_POINT_DROUGHT: a bundle issue took D to 65 (R163–R165). -/
def execSafePointDrought (c : CoreId) (s : State) : Host.Outcome State Fault Refusal :=
  let i := coreIx c
  .next (if atBoundary s i then drought i s else s)

/-- LOCKED_SEQUENCE_TIMEOUT: the sequence closes broken and LB is set (R132). -/
def execLockedSequenceTimeout (c : CoreId) (s : State) : Host.Outcome State Fault Refusal :=
  let i := coreIx c
  .next (if atBoundary s i then deferredCompare i (seqTimeout i s) else s)

/-- A trap, an interrupt or a stack fault may be entered at this boundary: the core runs, and no freeze stands but a wait
at a safe point (R158, R162). -/
def boundaryFree (s : State) (i : Nat) : Bool :=
  let k := coreAt s i
  atBoundary s i && coreLive s i && (k.wait.map fun w => w.safe).getD true && !k.fence && k.walk.isNone && !k.missFrozen &&
    (issuesOn s i || k.haltReq == some 4)

/-- FPTRAP (R186): CODE holds every flag pending in the world. -/
def takeFpTrap (i : Nat) (s : State) : State :=
  let k := coreAt s i
  let fl := (k.fpPend.filter fun p => p.sec == k.sec).foldl (fun m p => m ||| p.flags) 0
  let s := setCore i (fun k => { k with fpPend := k.fpPend.filter fun p => p.sec != k.sec }) s
  enterException i 0o11 fl 0 0 k.pc k.dly k.tgt s

/-- CONTRACT (R165): code 1 before code 2. -/
def takeContract (i : Nat) (s : State) : State :=
  let k := coreAt s i
  let code := if k.ctPend.contains (1, k.sec) then 1 else 2
  let s := setCore i (fun k => { k with ctPend := k.ctPend.filter fun p => p != (code, k.sec) }) s
  enterException i 0o12 code 0 0 k.pc k.dly k.tgt s

/-- The boundary as an entry finds it: a wait that stands there ends, and results land. The destination of the status 2
that the entry carries is that of the wait, or of an exit that has not landed (R158, R256). -/
def entryBoundary (i : Nat) (s : State) : State × Option Nat :=
  let k := coreAt s i
  (settle i (setCore i (fun k => { k with statDue := none, wait := none }) s), match k.wait with
    | some w => some w.dest
    | none => k.statDue)

/-- TRAP_ENTRY: a pending FPTRAP or CONTRACT trap is taken in the order of R165 (R165, R187, R188). A wait goes on unless an
interrupt or a stack fault would end it there: the trap then comes first, and status 2 lands with the results due (R158,
R165). DEDUCED: log entry 20. -/
def execTrapEntry (c : CoreId) (s : State) : Host.Outcome State Fault Refusal :=
  let i := coreIx c
  if !boundaryFree s i then .next s
  else
    let trap := fun (s : State) => if (coreAt s i).fpDue then takeFpTrap i s else takeContract i s
    match (coreAt s i).wait with
    | none =>
      let s := settle i s
      .next (if (coreAt s i).trapDue then trap s else s)
    | some w =>
      let s' := (entryBoundary i s).1
      if (coreAt s' i).trapDue && (interruptDue s' i || stackFaultDue s' i) then .next (trap (landDue i (waitStatus i w.dest 2 s')))
      else .next s

/-- The entry sequence of R255: the frame is pushed, EPC receives p, the mode becomes kernel, and the vector's first bundle
issues next. -/
def pushFrame (i kind vec off : Nat) (f : Frame) (s : State) : State :=
  let k := coreAt s i
  let entry := ((k.bankOf k.sec).vbase + off) % 2 ^ 48
  let s := traceCore i (fun ch t => emitEvent (i % 8) kind vec k.pc k.pc entry ch t) s
  setCore i (fun k =>
    { k.setBank k.sec (fun b => { b with epc := k.pc }) with
      stack := f :: k.stack, kernel := true, pc := entry, dly := 0, tgt := 0, drought := 0, cleared := none, passCmp := [] }) s

/-- INTERRUPT_ENTRY: the core takes the offered delivery that R253 names, after any trap and any stack fault that is due
(R158, R165, R253, R255–R258). OVF of the frame is the sticky bit of the source. DESIGN CHOICE: log entry 72. -/
def execInterruptEntry (c : CoreId) (s : State) : Host.Outcome State Fault Refusal :=
  let i := coreIx c
  if !boundaryFree s i then .next s
  else
    let (s', carried) := entryBoundary i s
    let k := coreAt s' i
    if !interruptDue s' i || stackFaultDue s' i || k.trapDue then .next s
    else
      match bestOffer k with
      | none => .next s
      | some o =>
        let q := mget {} s'.ivc.srcs o.src
        let f : Frame :=
          { level := some o.level, fault := false, resume := k.pc, pmode := k.kernel, ie := k.ie, src := o.src
            nmsg := q.nfired, ovf := q.ovf, waitm := carried }
        let s := { s' with ivc := { s'.ivc with
          srcs := mmod {} s'.ivc.srcs o.src fun q => { q with fired := false, nfired := 0 } } }
        let s := setCore i (fun k => { k with offers := k.offers.filter fun p => p != o }) s
        .next (pushFrame i 1 o.vec (0o4000 + 64 * o.vec) f s)

/-- STACK_FAULT_ENTRY: the entry that a bad completion made pending (R158, R261). -/
def execStackFaultEntry (c : CoreId) (s : State) : Host.Outcome State Fault Refusal :=
  let i := coreIx c
  if !boundaryFree s i then .next s
  else
    let (s', carried) := entryBoundary i s
    let k := coreAt s' i
    match k.fpend with
    | none => .next s
    | some v =>
      if !stackFaultDue s' i || k.trapDue then .next s
      else
        let f : Frame :=
          { level := k.level, fault := true, resume := k.pc, pmode := k.kernel, ie := k.ie, src := v, nmsg := 0
            ovf := false, waitm := carried }
        .next (pushFrame i 2 0 0o4000 f (setCore i (fun k => { k with fpend := none }) s'))

/-- A wait ends with a status (R157). A flag that the release clears stays clear until the next bundle issues. -/
def endWait (i status : Nat) (s : State) : State :=
  match (coreAt s i).wait with
  | none => s
  | some w =>
    waitStatus i w.dest status (setCore i (fun k => { k with
      wait := none, cleared := if status = 1 ∧ !w.keep then some w.flag else none }) s)

/-- WAITM_LIMIT_EXPIRY: the island's chronometer copy reaches the limit of a wait (R157, R443). -/
def execWaitmLimitExpiry (c : CoreId) (s : State) : Host.Outcome State Fault Refusal :=
  let i := coreIx c
  match (coreAt s i).wait with
  | none => .next s
  | some w =>
    match w.limit with
    | none => .next s
    | some l => .next (endWait i 0 (reachTime (s.isl.chron + (l - tileChron s c.tile.val)) s))

/-- An arrival flag of a core is set (R155, R157): by a delivery or, `store`, by a store to TILE_AFSET. -/
def setArrival (i f : Nat) (store : Bool) (s : State) : State :=
  let k := coreAt s i
  let m := BitVec.ofNat 16 (2 ^ f)
  let set := setCore i (fun k => { k with flags := k.flags ||| m }) s
  match k.wait with
  | some w =>
    if w.flag = f then endWait i 1 (if w.keep then set else s)
    else if k.flags.getLsbD f then overrun k m
    else set
  | none => if k.flags.getLsbD f || k.cleared == some f then overrun k m else set
where
  /-- A set of a flag that already reads 1, or that a wait clears in this cycle (R155, R157, R164). -/
  overrun (k : Core) (m : BitVec 16) : State :=
    setCore i (fun k => { k with ovr := k.ovr ||| m })
      (reportIf (!k.ovr.getLsbD f) (coreReport Cls.reported Code.coreFlagOverrun i [(f, 4), (b2n store, 1)]) s)

/-- Everything that MFENCE waits for has become visible (R159, R213). -/
def fenceDone (k : Core) : Bool :=
  k.stores.isEmpty && k.ranges.isEmpty && !k.evict.any (fun e => e.dirty) &&
    !k.misses.any fun m => m.accs.any fun a => a.store || a.op == some .clean || a.op == some .flush

/-- MFENCE_COMPLETE (R159). -/
def execMfenceComplete (c : CoreId) (s : State) : Host.Outcome State Fault Refusal :=
  let i := coreIx c
  let k := coreAt s i
  .next (if k.fence && fenceDone k then setCore i (fun k => { k with fence := false }) s else s)

/-- One data frame that a range covers: written back if dirty, then invalidated (R213). Answers whether a locked line was
dropped. -/
def rangeFrame (i : Nat) (sec : Bool) (lo n key : Nat) (s : State) : State × Nat :=
  match mget none (coreAt s i).dcache key with
  | none => (s, 0)
  | some f =>
    if f.line < lo ∨ lo + n ≤ f.line ∨ !worldMay s sec (64 * f.line) then (s, 0)
    else if f.bad ≠ 0 then (parity i key f false s, 0)
    else
      let owes := (coreAt s i).owes f
      let s := setFrame i key none (leaveLine i f.line s)
      let s := if owes then startWriteBack i f.line f.bits f.sec false false s else s
      (s, if lockedKey (coreAt s i) key then 1 else 0)

/-- One instruction frame that a range covers (R213). -/
def rangeFetchFrame (i : Nat) (sec : Bool) (lo n key : Nat) (s : State) : State × Nat :=
  match mget none (coreAt s i).icache key with
  | none => (s, 0)
  | some f =>
    if f.line < lo ∨ lo + n ≤ f.line ∨ !worldMay s sec (64 * f.line) then (s, 0)
    else
      let s := setCore i (fun k => { k with icache := mset none k.icache key none }) s
      if f.bad ≠ 0 then (parityFetch i key false s, 0)
      else (s, if wayMode (coreAt s i).iway (key % 8) = 1 then 1 else 0)

/-- One range of a pass, over both L1 caches and the eviction buffer (R213, R215). -/
def applyRange (i : Nat) (r : Nat × Nat × Bool) (s : State) : State :=
  let (lo, n, sec) := r
  let k := coreAt s i
  let (s, a) := (k.dcache.map fun e => e.1).foldl (fun (p : State × Nat) key =>
    let (s, d) := rangeFrame i sec lo n key p.1
    (s, p.2 + d)) (s, 0)
  let (s, b) := (k.icache.map fun e => e.1).foldl (fun (p : State × Nat) key =>
    let (s, d) := rangeFetchFrame i sec lo n key p.1
    (s, p.2 + d)) (s, 0)
  let hide := fun (e : EvLine) => decide (lo ≤ e.line) && decide (e.line < lo + n) && worldMay s sec (64 * e.line)
  let s := ((coreAt s i).evict.filter fun e => e.served && hide e).foldl (fun s e =>
    unserve i e.line (leaveLine i e.line (flushBuffered i e.line s))) s
  lockDropped i 3 (a + b) s

/-- RANGE_ENGINE_PASS: every range held is applied to every set (R213). -/
def execRangeEnginePass (c : CoreId) (s : State) : Host.Outcome State Fault Refusal :=
  let i := coreIx c
  let rs := (coreAt s i).ranges
  .next (rs.foldl (fun s r => applyRange i r s) (setCore i (fun k => { k with ranges := [] }) s))

/-- The oldest write-back of a core. -/
def oldestWriteBack (k : Core) : Option EvLine := k.evict.find? fun e => e.dirty

/-- A buffered line that waited for room, or that stores made dirty again, finds its place once a write-back has left the
buffer (R218). -/
def settleBuffer (i : Nat) (e : EvLine) (s : State) : State :=
  let s := if e.kept ∨ e.later.isSome then
      match (installLine false i e.line e.now e.dirtyNow e.nowSec s),
          (victimWay (coreAt s i).dcache (coreAt s i).dway e.line) with
      | some s, some _ => s
      | _, _ => if e.dirtyNow then startWriteBack i e.line e.now e.newSec true true s else s
    else s
  ((coreAt s i).evict.filter fun x => x.kept && x.served).foldl (fun s x => reinstall i x s) s

/-- EVICTION_WRITEBACK_COMPLETE: the oldest write-back, once its data has crossed to its target, is visible to all
requesters and leaves the buffer (R218, R270). -/
def execEvictionWritebackComplete (c : CoreId) (s : State) : Host.Outcome State Fault Refusal :=
  let i := coreIx c
  match oldestWriteBack (coreAt s i) with
  | none => .next s
  | some e =>
    if !e.crossed then .next s
    else .next (settleBuffer i e (setCore i (fun k => { k with evict := k.evict.erase e }) s))

/-- The kind of access that a walk serves. -/
def needOf (n : Nat) : Need := match n with
  | 0 => .load
  | 1 => .store
  | _ => .fetch

/-- A walk ends in a fault: the bundle raises FETCH or DATA (R153, R200). -/
def walkFault (i : Nat) (w : Walk) (cause lvl : Nat) (s : State) : State :=
  takeCause i ⟨5, w.slot, if w.fetch then 2 else 3, transCode cause lvl w.store, w.va⟩ s

/-- The leaf of a walk enters both TLB levels (R202). DESIGN CHOICE: log entry 11. -/
def fillTlbs (i : Nat) (e : TlbEntry) (s : State) : State :=
  let d := s.draws
  setCore i (fun k => { k with tlb1 := tlbAdd 64 e d k.tlb1, tlb2 := tlbAdd 1024 e (d + 1) k.tlb2 })
    { s with draws := d + 2 }

/-- TLB_WALK_COMPLETE: the walk fills both levels, or its bundle raises a precise exception (R153, R196–R202). A table
line that cannot be read at once is asked for and waited for, and starts the exit from self-refresh (R240, R384, R397). DESIGN
CHOICE: log entry 57. The walk of a halted core goes on, and an exception that ends it is raised after the release (R443, R452).
DEDUCED: log entry 47. -/
def execTlbWalkComplete (c : CoreId) (s : State) : Host.Outcome State Fault Refusal :=
  let i := coreIx c
  let k := coreAt s i
  match k.walk with
  | none => .next s
  | some w =>
    if k.fatal || !k.on then .next s
    else
      let fault := fun (cause lvl : Nat) (u : State) => if k.halt.isSome then s else walkFault i w cause lvl u
      let (s', r) := walkTable i w [0, 1, 2, 3] w.base (setCore i (fun k => { k with walk := none }) s)
      match r with
      | .held l => .next (askRead (.walk i w) false ⟨BitVec.ofNat 9 i, w.sec⟩ l s)
      | .stop cause lvl => .next (fault cause lvl s')
      | .leaf e =>
        let s := fillTlbs i e s'
        match checkEntry (coreAt s i) i e (needOf w.need) e.lvl w.va with
        | .fault cause lvl => .next (fault cause lvl s)
        | _ => .next s

/-- FETCH_FAULT: the fetch of the next bundle misses in the TLBs, or faults, and FETCH or WORLD is raised at the bundle
(R117, R121, R153, R199, R234). A fetch that does not fault has no effect here. -/
def execFetchFault (c : CoreId) (s : State) : Host.Outcome State Fault Refusal :=
  let i := coreIx c
  if !atBoundary s i then .next s
  else
    let s := settle i s
    if !mayOpen s i then .next s
    else
      match fetchAddress i s with
      | (s, .inr (.cause c)) => .next (takeCause i c s)
      | (s, _) => .next s

/-- The opcodes that the opcode map lists (R109). -/
def opcodeListed (op : Nat) : Bool :=
  op == 0 || (decide (0o002 ≤ op) && decide (op ≤ 0o037)) || (decide (0o042 ≤ op) && decide (op ≤ 0o046)) ||
    (decide (0o050 ≤ op) && decide (op ≤ 0o055)) || (decide (0o102 ≤ op) && decide (op ≤ 0o137)) ||
    (decide (0o200 ≤ op) && decide (op ≤ 0o215)) || (decide (0o300 ≤ op) && decide (op ≤ 0o333)) ||
    (decide (0o400 ≤ op) && decide (op ≤ 0o406)) || (decide (0o410 ≤ op) && decide (op ≤ 0o416)) || op == 0o420 ||
    (decide (0o430 ≤ op) && decide (op ≤ 0o436)) ||
    [0o500, 0o502, 0o504, 0o506, 0o510, 0o512, 0o514, 0o516, 0o520].contains op ||
    (decide (0o600 ≤ op) && decide (op ≤ 0o604)) || [0o610, 0o620, 0o621, 0o622, 0o630].contains op ||
    (decide (0o700 ≤ op) && decide (op ≤ 0o715))

/-- UNLISTED_OPCODE: a syllable whose opcode the map does not list raises ILLEGAL with CODE 1 (R108). A word whose opcode
is listed is not this row's and has no effect here. -/
def execUnlistedOpcode (x : Issue) (word : Word) (s : State) : Host.Outcome State Fault Refusal :=
  if opcodeListed (word.toNat / 2 ^ 27) then .next s
  else .next (syllable x word.toNat (fun _ => some 1) false 0 (fun _ s => s) noPost s)

/-- A write of a TILE-window register: its window exists only for an available tile (R14, R16), and its writes belong to
the tile's world (R237). -/
def tileWrite (t off : Nat) (rq : Req) (value : Nat) (act : State → State) (s : State) : State :=
  if !reach rq s then s
  else if !available s t then report (addrUnmapped (2 ^ 44 + (16 + t) * 2 ^ 24 + off) rq true) s
  else ownedWrite (16 + t) off (tileSec s t) rq value act s

/-- TILE_AFSET_WRITE: each 1 sets the corresponding flag of the core (R155). -/
def execTileAfsetWrite (rq : Req) (c : CoreId) (value : Word) (s : State) : Host.Outcome State Fault Refusal :=
  let i := coreIx c
  .next (tileWrite c.tile.val (0o700040 + 4 * c.core.val) rq value.toNat
    (fun s => (List.range 16).foldl (fun s f => if value.getLsbD f then setArrival i f true s else s) s) s)

/-- REMAIN set to PERIOD, in a state (R264, R265). -/
def wdReload (i state : Nat) (s : State) : State :=
  let now := tileChron s (i / 8)
  setCore i (fun k => { k with wd := { k.wd with remain := k.wd.period, from' := now, state := state } }) s

/-- WATCHDOG_EXPIRY: REMAIN reaches 0 (R265). -/
def execWatchdogExpiry (c : CoreId) (s : State) : Host.Outcome State Fault Refusal :=
  let i := coreIx c
  let k := coreAt s i
  if !k.on || !wdCounts k then .next s
  else
    let s := reachTime (s.isl.chron + (k.wd.from' + 1000 * k.wd.remain - tileChron s c.tile.val)) s
    if k.wd.state = 1 then
      .next (wdReload i 2 (report (coreReport Cls.reported Code.wdogExpired i [(k.wd.period, 20), bundleField k.pc]) s))
    else
      let s := setCore i (fun k => { k with wd := { k.wd with state := 3, remain := 0 } }) s
      .next (coreFatal i (coreReport Cls.fatal Code.wdogHalt i [bundleField k.pc]) s)

/-- A write of TILE_WDKICK (R264). -/
def kickWatchdog (i : Nat) (value : Nat) (s : State) : State :=
  let k := coreAt s i
  if field value 18 18 = 0o246135 ∧ (k.wd.state = 1 ∨ k.wd.state = 2) then wdReload i 1 s else s

/-- WATCHDOG_KICK. -/
def execWatchdogKick (rq : Req) (c : CoreId) (value : Word) (s : State) : Host.Outcome State Fault Refusal :=
  .next (tileWrite c.tile.val (0o702100 + 4 * c.core.val) rq value.toNat (kickWatchdog (coreIx c) value.toNat) s)

/-- A write of TILE_WDCTL (R264): PERIOD 0 with EN = 1 leaves PERIOD unchanged and is reported (R5). DEDUCED: log entry 27.
EN acts with the PERIOD that stays. DESIGN CHOICE: log entry 72. -/
def writeWdctl (rq : Req) (i : Nat) (value : Nat) (s : State) : State :=
  let en := bitOf value 20
  let p := value % 2 ^ 20
  let bad := en && p == 0
  let s := reportIf bad (regRefused (16 + i / 8) (0o702000 + 4 * (i % 8)) rq .value (value % 2 ^ 36)) s
  let k := coreAt s i
  let r := wdRemain s i
  let s := setCore i (fun k => { k with wd := { k.wd with period := if bad then k.wd.period else p } }) s
  if !en then setCore i (fun k => { k with wd := { k.wd with en := false, state := 0, remain := r } }) s
  else if k.wd.en then s
  else wdReload i 1 (setCore i (fun k => { k with wd := { k.wd with en := true } }) s)

/-- WATCHDOG_CTL_WRITE. -/
def execWatchdogCtlWrite (rq : Req) (c : CoreId) (value : Word) (s : State) : Host.Outcome State Fault Refusal :=
  .next (tileWrite c.tile.val (0o702000 + 4 * c.core.val) rq value.toNat (writeWdctl rq (coreIx c) value.toNat) s)

end Sys2Proof.Machine
end

