-- ==== Sys2Proof/Machine/Interrupts.lean ====
section
/-! DEFINITION. Interrupts.lean: the interrupt message router (chapter 10, R245–R254). -/

namespace Sys2Proof.Machine

/-- MASK of an alternate's directory entry (R278). -/
def altMask (s : State) (a : Nat) : Nat := sec s 5 (64 + 32 * a) 8

/-- A tile is in the mask of the running schedule, or is the management tile in HELM-ONLY (R96, R276). -/
def inMask (s : State) (t : Nat) : Bool :=
  if s.cfg.phase == .helm || (s.cfg.phase == .ride && s.pwr.rideHelm) then mgmtTile s == some t
  else bitOf (altMask s s.cfg.cur) t

/-- The route of a source. -/
def routeAt (s : State) (src : Nat) : Route := mget {} s.ivc.routes src

/-- The window and pending delivery of a source. -/
def srcAt (s : State) (src : Nat) : SrcState := mget {} s.ivc.srcs src

/-- Changes a source's state. -/
def setSrc (src : Nat) (f : SrcState → SrcState) (s : State) : State :=
  { s with ivc := { s.ivc with srcs := mmod {} s.ivc.srcs src f } }

/-- A source's world: secure below IRQ_WM (R229, R239). -/
def srcSecure (s : State) (src : Nat) : Bool := decide (src < s.wld.iwm)

/-- OVF is set; its change from 0 to 1 is reported with CNT and NFIRED (R249, R250). -/
def overflow (src : Nat) (s : State) : State :=
  let q := srcAt s src
  reportIf (!q.ovf) (mkReport Unit.ivc Cls.reported Code.ivcCountSat 0 [(src, 18), (q.cnt, 8), (q.nfired, 8)])
    (setSrc src (fun q => { q with ovf := true }) s)

/-- The firing condition of R249 on a window as it stands. -/
def firesNow (s : State) (src : Nat) : Bool :=
  let r := routeAt s src
  let q := srcAt s src
  r.en && q.timer &&
    (decide (r.ccount ≤ q.cnt) || (r.ctime != 0 && decide (q.t0 + 64 * r.ctime ≤ s.isl.chron)))

/-- A firing (R250): CNT joins NFIRED and the window closes; a source without a pending delivery joins those that wait
for their lane. IVC_COUNT_SAT holds CNT and NFIRED as they were before it. DESIGN CHOICE: log entry 74. -/
def fire (src : Nat) (s : State) : State :=
  let q := srcAt s src
  let s := if 255 < q.nfired + q.cnt then overflow src s else s
  let s := setSrc src (fun q => { q with nfired := min 255 (q.nfired + q.cnt), cnt := 0, timer := false, t0 := 0 }) s
  if q.fired then s
  else
    let n := s.ivc.fires
    let s := setSrc src (fun q => { q with fired := true, order := n }) s
    { s with ivc := { s.ivc with fires := n + 1, wait := s.ivc.wait ++ [src] } }

/-- Fires a window that meets its condition. -/
def fireIf (src : Nat) (s : State) : State := if firesNow s src then fire src s else s

/-- A doorbell is counted (R249). -/
def countDoorbell (src : Nat) (s : State) : State :=
  let q := srcAt s src
  if q.cnt = 255 then overflow src s
  else
    setSrc src (fun q => { q with
      cnt := q.cnt + 1, timer := true, t0 := if q.cnt = 0 then s.isl.chron else q.t0 }) s

/-- A doorbell that names an unrouted source (R246). -/
def unrouted (b : Bell) (s : State) : State :=
  reportIf (!(srcAt s b.src).unr) (mkReport Unit.ivc Cls.reported Code.ivcUnrouted 0 [(b.src, 18), (b.code, 9)])
    (setSrc b.src (fun q => { q with unr := true }) s)

/-- A doorbell store to IVC_RING (R245): writable by both worlds. -/
def ringWrite (rq : Req) (value : Nat) (s : State) : State :=
  if reach rq s then ringDoorbell (value % 2 ^ 18) rq.code.toNat rq.sec s else s

/-- IVC_RING_WRITE. -/
def execIvcRingWrite (rq : Req) (value : Word) (s : State) : Host.Outcome State Fault Refusal :=
  .next (ringWrite rq value.toNat s)

/-- DOORBELL_ACCEPT (R245, R246, R249): the world rule, then the count and the firing condition. -/
def execDoorbellAccept (s : State) : Host.Outcome State Fault Refusal :=
  match s.ivc.bells with
  | [] => .next s
  | b :: rest =>
    let s := { s with ivc := { s.ivc with bells := rest } }
    if srcSecure s b.src && !b.sec then
      .next (report (mkReport Unit.ivc Cls.reported Code.wldSourceRefused 0 [(b.src, 18), (b.code, 9)]) s)
    else if !(routeAt s b.src).routed then .next (unrouted b s)
    else .next (fireIf b.src (countDoorbell b.src s))

/-- WINDOW_TIME_FIRE: the chronometer reaches T0 + 64 × CTIME (R249). DESIGN CHOICE: log entry 3. -/
def execWindowTimeFire (src : SourceId) (s : State) : Host.Outcome State Fault Refusal :=
  let i := src.val
  let q := srcAt s i
  let r := routeAt s i
  if q.timer ∧ r.ctime ≠ 0 ∧ r.en then .next (fireIf i (reachTime (q.t0 + 64 * r.ctime) s)) else .next s

/-- The window offset of IVC_ROUTEs. -/
def routeOffset (src : Nat) : Nat := 0o10000000 + 8 * src

/-- A write of EN, CCOUNT and CTIME (R248, R251); on an unrouted source, or with CCOUNT 0, as R5 gives. -/
def routeWrite (rq : Req) (src : Nat) (value : Nat) (s : State) : State :=
  let act := fun (s : State) =>
    let r := routeAt s src
    let cc := field value 24 8
    let bad := regRefused Unit.ivc (routeOffset src) rq .value (value % 2 ^ 36)
    if !r.routed then report bad s
    else
      let s := reportIf (cc == 0) bad s
      let r := { r with en := bitOf value 23, ctime := field value 32 16, ccount := if cc = 0 then r.ccount else cc }
      fireIf src { s with ivc := { s.ivc with routes := mset {} s.ivc.routes src r } }
  if srcSecure s src then ownedWrite Unit.ivc (routeOffset src) true rq value act s
  else if reach rq s then act s
  else s

/-- IVC_ROUTE_WRITE. -/
def execIvcRouteWrite (rq : Req) (src : SourceId) (value : BitVec 72) (s : State) :
    Host.Outcome State Fault Refusal :=
  .next (routeWrite rq src.val value.toNat s)

/-- A delivery may cross to a tile: it is available, in the mask, and running or in nap (R95, R252). -/
def deliverable (s : State) (t : Nat) : Bool :=
  available s t && inMask s t && ((tileIsl s t).state == .run || (tileIsl s t).state == .nap)

/-- INTERRUPT_DELIVERY_LAUNCH (R252): the oldest fired source of the tile is launched; a napping tile begins to wake
(R92). -/
def execInterruptDeliveryLaunch (t : TileId) (s : State) : Host.Outcome State Fault Refusal :=
  let i := t.val
  match s.ivc.wait.find? fun src => (routeAt s src).tile == i with
  | none => .next s
  | some src =>
    if !deliverable s i then .next s
    else
      let s := if (tileIsl s i).state = .nap then setTileIsl i (fun x => { x with exiting := true }) s else s
      .next { s with
        ivc := { s.ivc with wait := s.ivc.wait.erase src, flying := s.ivc.flying ++ [src] }
        slc := { s.slc with xing := s.slc.xing ++ [{ tile := i, intr := some src }] } }

/-- An offered delivery above its level wakes a dozing core (R92, R254). -/
def wakeIfOffered (i : Nat) (s : State) : State :=
  let k := coreAt s i
  if k.dozing && offeredAbove k then traceResume i (setCore i (fun k => { k with dozing := false }) s) else s

/-- A message has come to its tile, or can come now: no earlier item of the tile's crossing is on its way (R88).
DEDUCED: log entry 63. -/
def messageReady (s : State) (t src : Nat) : Bool := match s.slc.xing.findIdx? fun x => x.tile == t && x.intr == some src with
  | none => true
  | some n => !(s.slc.xing.take n).any fun x => x.tile == t

/-- The crossing holds the message of a source no longer. -/
def messageCome (t src : Nat) (s : State) : State :=
  { s with slc := { s.slc with xing := s.slc.xing.filter fun x => !(x.tile == t && x.intr == some src) } }

/-- INTERRUPT_DELIVERY_OFFER (R252): the vector controller offers the oldest launched delivery to its core, once it
and the landing header of a sluice delivery that rang its source have come (R88, R283). A message that comes to a
napping tile wakes it, and is offered once it runs (R92, R95). DEDUCED: log entry 35. -/
def execInterruptDeliveryOffer (t : TileId) (s : State) : Host.Outcome State Fault Refusal :=
  match s.ivc.flying.find? fun src => (routeAt s src).tile == t.val with
  | none => .next s
  | some src =>
    if !messageReady s t.val src ∨ s.slc.xing.any (fun x => x.tile == t.val && x.bell == some src) then .next s
    else if (tileIsl s t.val).state = .nap then
      .next (setTileIsl t.val (fun x => { x with exiting := true }) (messageCome t.val src s))
    else if !tileRunning s t.val then .next s
    else
      let r := routeAt s src
      let i := 8 * t.val + r.core
      let s := messageCome t.val src { s with ivc := { s.ivc with flying := s.ivc.flying.erase src } }
      let o : Offer := ⟨src, r.level, r.vec, (srcAt s src).order⟩
      .next (wakeIfOffered i (setCore i (fun k => { k with offers := k.offers ++ [o] }) s))

/-- Deliveries on their way to a tile, or offered in it, wait in the router again when the tile loses its cores (R95).
DEDUCED: log entry 35. -/
def withdraw (t : Nat) (s : State) : State :=
  let offered := (List.range 8).flatMap fun c => (coreAt s (8 * t + c)).offers.map fun o => o.src
  let back := offered ++ s.ivc.flying.filter fun src => (routeAt s src).tile == t
  let early := fun a b => decide ((srcAt s a).order ≤ (srcAt s b).order)
  { s with ivc := { s.ivc with
    wait := back.foldr (insertBy early) s.ivc.wait
    flying := s.ivc.flying.filter fun src => (routeAt s src).tile != t }
           slc := { s.slc with xing := s.slc.xing.filter fun x => !(x.tile == t && x.intr.isSome) } }

end Sys2Proof.Machine
end

