-- ==== Sys2Proof/Machine/Sluice.lean ====
section
/-! DEFINITION. Sluice.lean: queues, ditches, grants, deliveries, posts and releases (chapter 11, R267–R291). -/

namespace Sys2Proof.Machine

/-- The requester code of the sluice engine (R17). -/
def slcReq (sec : Bool) : Req := ⟨0o702, sec⟩

/-- Writes stored bits of a hub memory line; a word written whole loses its error. -/
def hubPut (l lo w v : Nat) (s : State) : State :=
  let whole := (wordsOf lo w).filter fun i => decide (lo ≤ 36 * i) && decide (36 * i + 36 ≤ lo + w)
  putBits l lo w v { s with tmErr := whole.foldl (fun m i => mset 0 m (16 * l + i) 0) s.tmErr }

/-- Reads a whole line of DRAM, hub memory or tile memory for a hub requester; an uncorrectable line is marked. -/
def readMemLine (rq : Req) (l : Nat) (s : State) : State × Nat × Bool :=
  if l < 2 ^ 34 then dramGet rq l s
  else if hubLine0 ≤ l then (s, lineBits s l, hubBad s l)
  else readAcross ((l - 2 ^ 36) / 2 ^ 14) l 0 576 rq.code.toNat s

/-- Bits of the image from octet `o` of the ALMANACS section. -/
def almLe (s : State) (o n : Nat) : Nat := sec s 5 o n

/-- The directory fields of an alternate (R278). -/
def altSlots (s : State) (a : Nat) : Nat := almLe s (72 + 32 * a) 4
def altPats (s : State) (a : Nat) : Nat := almLe s (76 + 32 * a) 4
def altNpat (s : State) (a : Nat) : Nat := almLe s (80 + 32 * a) 2
def altNring (s : State) (a : Nat) : Nat := secX s 5 (82 + 32 * a) 2 0
def altRings (s : State) (a : Nat) : Nat := secX s 5 (84 + 32 * a) 4 0

/-- `w` bits at bit `b` of the table at octet `o` of the ALMANACS section. -/
def almBits (s : State) (o b w : Nat) : Nat := field (almLe s (o + b / 8) ((w + 14) / 8)) (b % 8) w

/-- The source of destination port `d` in pattern `p` (R268, R278). -/
def patSource (s : State) (a p d : Nat) : Nat := almBits s (altPats s a) (2304 * p + 9 * d) 9

/-- The quarter that leaves a destination unconnected. -/
def unconnected : Nat := 0o777

/-- The newest hub cycle connects a source to a destination (R268, R291). -/
def connected (s : State) (src d : Nat) : Bool :=
  match s.slc.pat with
  | some (a, p) => patSource s a p d == src
  | none => s.slc.joined.contains (src, d)

/-- The newest hub cycle connects a port, as a source or as a destination (R270). -/
def portBusy (s : State) (port : Nat) : Bool :=
  (List.range 0o231).any fun d => connected s port d || (d == port && match s.slc.pat with
    | some (a, p) => patSource s a p d != unconnected
    | none => s.slc.joined.any fun j => j.2 == port)

/-- A hub cycle begins with the pattern of an alternate, or with connections yet to be formed. -/
def newCycle (pat : Option (Nat × Nat)) (s : State) : State :=
  { s with slc := { s.slc with pat := pat, joined := [], spent := [], touched := [] }, vif := { s.vif with answers := [] } }

/-- The connection to a destination is used in this hub cycle. -/
def spend (d : Nat) (s : State) : State := { s with slc := { s.slc with spent := d :: s.slc.spent } }

/-- A request of this hub cycle reaches a memory line: no other takes effect there in the same slot (R12). -/
def touch (l : Nat) (s : State) : State := { s with slc := { s.slc with touched := l :: s.slc.touched } }

/-- A connection is offered a line (HUB_XCONN). -/
def offered (s : State) : State := { s with slc := { s.slc with cConn := s.slc.cConn + 1 } }

/-- A line is carried (HUB_XLINES). -/
def carried (s : State) : State := { s with slc := { s.slc with cLines := s.slc.cLines + 1 } }

/-- The record of a queue, when it is defined. -/
def qrec (s : State) (q : Nat) : Option QRec := mget none s.slc.qrecs q

/-- The state of a queue. -/
def qst (s : State) (q : Nat) : QState := mget {} s.slc.queues q

/-- Changes the state of a queue. -/
def setQ (q : Nat) (f : QState → QState) (s : State) : State :=
  { s with slc := { s.slc with queues := mmod {} s.slc.queues q f } }

/-- A ditch. -/
def ditchAt (s : State) (d : Nat) : Ditch := mget {} s.slc.ditches d

/-- Changes a ditch. -/
def setDitch (d : Nat) (f : Ditch → Ditch) (s : State) : State :=
  { s with slc := { s.slc with ditches := mmod {} s.slc.ditches d f } }

/-- The physical line of ring line `i` of a queue. -/
def QRec.ringLine (r : QRec) (i : Nat) : Nat := (if r.rdram then 0 else hubLine0) + r.rbase + i

/-- The ring line of line `k` of element `x` (R273). -/
def QRec.elemLine (r : QRec) (x k : Nat) : Nat := r.ringLine (x % 2 ^ (r.rsz + 4) * r.elines + k)

/-- The landing line of line `k` of entry `x` (R273). -/
def QRec.landLine (r : QRec) (x k : Nat) : Nat :=
  tileLine0 r.tile + r.lbase + 1 + x % 2 ^ r.lsz * r.elines + k

/-- A number modulo 2^17. -/
def m17 (n : Nat) : Nat := n % 2 ^ 17

/-- The difference a - b modulo 2^17. -/
def diff17 (a b : Nat) : Nat := (a + 2 ^ 17 - b) % 2 ^ 17

/-- Elements in the ring (R273). -/
def QState.count (x : QState) : Nat := diff17 x.tail x.head

/-- Landing entries free (R273). -/
def landFree (r : QRec) (x : QState) : Nat := 2 ^ r.lsz - diff17 x.dcount x.rcount

/-- The world of a queue is that of its ring (R271): true for secure. -/
def queueSec (s : State) (q : Nat) : Bool :=
  match qrec s q with
  | none => false
  | some r => memSecure s (64 * r.ringLine 0)

/-- A culvert. -/
def culAt (s : State) (c : Nat) : Culvert := mget {} s.cul.culs c

/-- Changes a culvert. -/
def setCul (c : Nat) (f : Culvert → Culvert) (s : State) : State :=
  { s with cul := { s.cul with culs := mmod {} s.cul.culs c f } }

/-- A transfer ends early with a status and its failing address (R309): its lines not yet launched stay unsent. -/
def endTransfer (c status ea : Nat) (s : State) : State :=
  let mine := fun (b : BLine) => match b.cargo with
    | .source c' _ _ => c' == c
    | .dest c' => c' == c
    | .host c' _ _ => c' == c
    | _ => false
  let stop := fun (h : Held) =>
    { h with stage := .pointed, status := status, eaddr := ea, outs := [], need := 0, ready := false, last := false, unasked := [] }
  setCul c (fun k => { k with held := match k.held with
      | [] => []
      | h :: t => stop h :: t })
    { s with slc := { s.slc with bound := s.slc.bound.filter fun b => !mine b } }

/-- The elements, as 16 × queue + position, that a culvert is receiving. -/
def begun (k : Culvert) : List Nat := (k.lines.map fun e => e.1 / 4).eraseDups

/-- Elements granted to a culvert whose lines are not all there, as 16 × queue + position, in the order of their grants. -/
def coming (s : State) (c : Nat) : List Nat :=
  let bound := s.slc.bound.filterMap fun b =>
    match b.cargo with
    | .elem q pos _ _ => if b.dst = portCulvert c then some (16 * q + pos) else none
    | _ => none
  (begun (culAt s c) ++ bound).eraseDups

/-- Line 0 of an element that a culvert has been granted and that is not whole: as received, or as the ring holds it. -/
def comingLine (s : State) (c e : Nat) : Nat :=
  match mget none (culAt s c).lines (4 * e) with
  | some v => v
  | none => match qrec s (e / 16) with
    | some r => lineBits s (r.elemLine (m17 ((qst s (e / 16)).head + e % 16)) 0)
    | none => 0

/-- Elements granted to a culvert whose lines are not all there. -/
def culComing (s : State) (c : Nat) : Nat := (coming s c).length

/-- NHELD: the descriptors that a culvert holds, from their grant on (R295). -/
def nheld (s : State) (c : Nat) : Nat :=
  min 2 ((culAt s c).held.length + (culAt s c).queued.length + culComing s c)

/-- All eight cores of a tile doze (R92). -/
def allDoze (s : State) (t : Nat) : Bool := (List.range 8).all fun c => (coreAt s (8 * t + c)).dozing

/-- Some delivery to a tile has not committed (R285). -/
def uncommitted (s : State) (t : Nat) : Bool :=
  s.slc.delivs.any fun e => match qrec s e.1 with
    | some r => !r.culv && r.tile == t
    | none => false

/-- Nap or dark entry has begun on a tile (R276): a request stands, all its cores doze and every delivery to it has
committed. -/
def entryBegun (s : State) (t : Nat) : Bool := (tileIsl s t).pend != 0 && allDoze s t && !uncommitted s t

/-- A queue is eligible (R276). -/
def eligible (s : State) (q : Nat) : Bool :=
  match qrec s q with
  | none => false
  | some r =>
    let x := qst s q
    !x.stop && !x.busy && x.count != 0 &&
      if r.culv then decide (nheld s r.cul < 2)
      else decide (0 < landFree r x) && available s r.tile && inMask s r.tile && tileRunning s r.tile &&
        !entryBegun s r.tile

/-- The first eligible queue index of a ditch after LAST (R281). -/
def pickQueue (s : State) (d : Ditch) : Option Nat :=
  ((List.range d.nq).map fun i => (d.last + 1 + i) % d.nq).find? fun i => eligible s (d.qfirst + i)

/-- A ditch is eligible (R276). -/
def ditchEligible (s : State) (d : Nat) : Bool := (pickQueue s (ditchAt s d)).isSome

/-- A grant to a ditch (R281), in its own slot or by donation. -/
def grant (d : Nat) (donated : Bool) (s : State) : State :=
  let dt := ditchAt s d
  match pickQueue s dt with
  | none => s
  | some i =>
    let q := dt.qfirst + i
    match qrec s q with
    | none => s
    | some r =>
      let x := qst s q
      let n := min (min dt.burst x.count) (if r.culv then dt.burst else landFree r x)
      let dst := if r.culv then portCulvert r.cul else portCanal r.tile
      let lines := (List.range n).flatMap fun e => (List.range r.elines).map fun k =>
        let l := r.elemLine (m17 (x.head + e)) k
        (⟨portOfLine l, dst, s.slc.cycle, .elem q e k l⟩ : BLine)
      let s := setQ q (fun x => { x with busy := true }) s
      let s := setDitch d (fun t => { t with
        last := i
        own := if donated then t.own else satW 12 (t.own + 1)
        don := if donated then satW 12 (t.don + 1) else t.don }) s
      let s := { s with slc := { s.slc with
        delivs := mset none s.slc.delivs q (some ⟨n, lines.length, 0, 0, 0, false⟩) } }
      bindAll lines s

/-- Changes the delivery of a queue. -/
def setDeliv (q : Nat) (f : Deliv → Deliv) (s : State) : State :=
  match mget none s.slc.delivs q with
  | none => s
  | some x => { s with slc := { s.slc with delivs := mset none s.slc.delivs q (some (f x)) } }

/-- SLC_DATA_ERROR: queue, element position, ring line address (R284). -/
def slcDataError (q pos line : Nat) (s : State) : State :=
  report (mkReport Unit.slc Cls.reported Code.slcDataError 0 [(q, 20), (pos, 5), (64 * line, 45)])
    (setDeliv q (fun x => { x with err := x.err ||| 2 ^ pos }) s)

/-- A line of a delivery has left (R282): after the last line of a tile-bound delivery its header waits for the canal; a
culvert-bound delivery is at its commit. -/
def lineLaunched (q : Nat) (r : QRec) (s : State) : State :=
  match mget none s.slc.delivs q with
  | none => s
  | some x =>
    let s := setDeliv q (fun x => { x with
      left := x.left - 1, launched := x.launched + 1
      hdr := if x.left ≤ 1 then (if r.culv then 2 else 1) else 0 }) s
    if x.left ≤ 1 ∧ !r.culv then { s with slc := { s.slc with headers := s.slc.headers ++ [q] } } else s

/-- An element line of a tile-bound delivery is launched into the crossing (R282, R284). -/
def launchToTile (q pos k line : Nat) (r : QRec) (s : State) : State :=
  let sec := queueSec s q
  let (s, v, bad) := readMemLine (slcReq sec) line s
  let s := if bad then slcDataError q pos line s else s
  let land := r.landLine (m17 ((qst s q).dcount + pos)) k
  let s :=
    if worldMay s sec (64 * land) then
      let x : XItem := { tile := r.tile, line := land, parts := [(0, 576, if bad then 0 else v)], rq := slcReq sec, flag := none }
      { s with slc := { s.slc with xing := s.slc.xing ++ [x] } }
    else
      setDeliv q (fun x => { x with err := x.err ||| 2 ^ pos })
        (report (accessRefused (64 * land) (slcReq sec) true) s)
  lineLaunched q r s

/-- The oldest elements that a culvert is receiving from a queue, when whole, become received descriptors, in ring
order. -/
def promote (c q : Nat) (elines : Nat) (sec : Bool) : List Nat → State → State
  | [], s => s
  | e :: rest, s =>
    if e / 16 ≠ q then promote c q elines sec rest s
    else
      let ls := (culAt s c).lines
      let line := fun k => mget none ls (4 * e + k)
      if (List.range elines).any fun k => (line k).isNone then s
      else
        let d : Desc :=
          { l0 := (line 0).getD 0, l1 := (line 1).getD 0, elines := elines, queue := q, sec := sec
            cut := (culAt s c).cut.contains e }
        promote c q elines sec rest (setCul c (fun x => { x with
          lines := x.lines.filter (fun y => y.1 / 4 != e), queued := x.queued ++ [d], cut := x.cut.filter (· != e) }) s)

/-- A culvert has room for a line of an element: it is receiving that element, or it holds fewer than two descriptors and
the element is the next of its grant (R268, R295). -/
def culRoom (s : State) (c q pos : Nat) : Bool :=
  let k := culAt s c
  let e := 16 * q + pos
  let earlier := s.slc.bound.any fun b => match b.cargo with
    | .elem q' p' _ _ => q' == q && decide (p' < pos) && !(begun k).contains (16 * q + p')
    | _ => false
  (begun k).contains e || (decide (k.held.length + k.queued.length + (begun k).length < 2) && !earlier)

/-- An element line reaches a culvert (R282, R297). -/
def launchToCulvert (q pos k line : Nat) (r : QRec) (s : State) : State :=
  let sec := queueSec s q
  let (s, v, bad) := readMemLine (slcReq sec) line s
  let s := if bad then slcDataError q pos line s else s
  let s := setCul r.cul (fun c => { c with lines := mset none c.lines (4 * (16 * q + pos) + k) (some (if bad then 0 else v)) }) s
  lineLaunched q r (promote r.cul q r.elines sec (begun (culAt s r.cul)) s)

/-- The landing header (R282). -/
def headerBits (q n dcount err : Nat) : Nat :=
  m17 (dcount + n) + q % 2 ^ 20 * 2 ^ 36 + n * 2 ^ 72 + err % 2 ^ 16 * 2 ^ 108

/-- DELIVERY_COMMIT (R282, R283): the header is launched, or the last line of a culvert-bound delivery has been; HEAD
and DCOUNT advance, BUSY clears, and DBE rings SRC. DEDUCED: log entry 32. -/
def execDeliveryCommit (q : QueueId) (s : State) : Host.Outcome State Fault Refusal :=
  let q := q.val
  match mget none s.slc.delivs q, qrec s q with
  | some x, some r =>
    if x.hdr ≠ 2 then .next s
    else
      let sec := queueSec s q
      let s :=
        if r.culv then s
        else
          let h : XItem :=
            { tile := r.tile, line := tileLine0 r.tile + r.lbase, rq := slcReq sec, flag := some (r.core, r.flag)
              parts := [(0, 576, headerBits q x.n (qst s q).dcount x.err)], bell := if r.dbe then some r.src else none }
          { s with slc := { s.slc with xing := s.slc.xing ++ [h] } }
      let s := { s with slc := { s.slc with delivs := mset none s.slc.delivs q none } }
      let s := setQ q (fun y => { y with
        head := m17 (y.head + x.n), dcount := if r.culv then y.dcount else m17 (y.dcount + x.n), busy := false }) s
      .next (if r.dbe then ringDoorbell r.src 0o702 sec s else s)
  | _, _ => .next s

/-- The first line of a delivery that is still bound. -/
def firstBound (s : State) (q : Nat) : Option BLine :=
  s.slc.bound.find? fun b => match b.cargo with
    | .elem q' _ _ _ => q' == q
    | _ => false

/-- SLC_DELIVERY_STALLED: a line of the delivery has stayed bound for 65,536 hub cycles (R286); the command stands for
that moment. -/
def execSlcDeliveryStalled (q : QueueId) (s : State) : Host.Outcome State Fault Refusal :=
  let q := q.val
  match mget none s.slc.delivs q, firstBound s q with
  | some x, some b =>
    if x.stalled then .next s
    else
      .next (report (mkReport Unit.slc Cls.reported Code.slcDeliveryStalled 0 [(q, 20), (b.src, 8), (b.dst, 8)])
        (setDeliv q (fun x => { x with stalled := true })
          { s with slc := { s.slc with cycle := max s.slc.cycle (b.since + 65536) } }))
  | _, _ => .next s

/-- A delivery is dropped: its lines stay unsent and its elements queued (R285, R290). -/
def dropDelivery (q : Nat) (s : State) : State :=
  let mine := fun (b : BLine) => match b.cargo with
    | .elem q' _ _ _ => q' == q
    | _ => false
  setQ q (fun y => { y with busy := false })
    { s with slc := { s.slc with
      bound := s.slc.bound.filter fun b => !mine b
      delivs := mset none s.slc.delivs q none
      headers := s.slc.headers.erase q } }

/-- Every delivery to a tile that stops being available is abandoned and reported (R285). DEDUCED: log entry 35. -/
def abandonTile (t : Nat) (s : State) : State :=
  s.slc.delivs.foldl (fun s e =>
    match qrec s e.1, e.2 with
    | some r, some x =>
      if !r.culv && r.tile == t then
        report (mkReport Unit.slc Cls.reported Code.slcDeliveryAbandoned 0 [(e.1, 20), (t, 6), (x.launched, 7)])
          (dropDelivery e.1 s)
      else s
    | _, _ => s) s

/-- Every delivery is dropped without report, as at the boundary where VAULT begins (R290). -/
def dropAllDeliveries (s : State) : State := s.slc.delivs.foldl (fun s e => dropDelivery e.1 s) s

/-- SLC_QUEUE_UNDEFINED: queue, register offset, requester (R274). -/
def queueUndefined (q off : Nat) (rq : Req) (s : State) : State :=
  report (mkReport Unit.slc Cls.reported Code.slcQueueUndefined 0 [(q, 20), (off, 24), (rq.code.toNat, 9)]) s

/-- The window offsets of a queue's registers. -/
def postOffset (q : Nat) : Nat := 0o10000000 + 4 * q
def relOffset (q : Nat) : Nat := 0o30000000 + 4 * q
def qstatOffset (q : Nat) : Nat := 0o50000000 + 4 * q

/-- A post of `n` elements (R274), by a write or by a hub unit. -/
def postQueue (rq : Req) (q n : Nat) (s : State) : State :=
  match qrec s q with
  | none => queueUndefined q (postOffset q) rq s
  | some r =>
    let x := qst s q
    if x.count + n ≤ 2 ^ (r.rsz + 4) then setQ q (fun x => { x with tail := m17 (x.tail + n) }) s
    else report (mkReport Unit.slc Cls.reported Code.slcRingOverflow 0 [(q, 20), (x.head, 17), (x.tail, 17), (n, 8)]) s

/-- The ring of a queue has room for an element (R307, R323). -/
def ringRoom (s : State) (q : Nat) : Bool :=
  match qrec s q with
  | none => false
  | some r => decide ((qst s q).count < 2 ^ (r.rsz + 4))

/-- The ring lines at TAIL of a queue in DRAM. -/
def tailLines (s : State) (q : Nat) : List Nat :=
  match qrec s q with
  | none => []
  | some r => if r.rdram then (List.range r.elines).map (r.elemLine (qst s q).tail) else []

/-- An element waits for the channel of its ring, or for room in a write queue (R384, R397, R399). -/
def elementHeld (s : State) (q : Nat) : Bool := (tailLines s q).any fun l => !lineTakes s l

/-- An element that waits starts the exit of its ring's channels (R397). -/
def wakeElement (q : Nat) (s : State) : State := (tailLines s q).foldl (fun s l => wakeLine l s) s

/-- A hub unit writes one element at TAIL, its first line given and the rest zero, and posts it (R307, R323, R459). -/
def writeElement (rq : Req) (q bits : Nat) (s : State) : State :=
  match qrec s q with
  | none => s
  | some r =>
    let x := (qst s q).tail
    let s := (List.range r.elines).foldl (fun s k =>
      let l := r.elemLine x k
      let v := if k = 0 then bits else 0
      if r.rdram then dramPut rq l 0 576 v s else hubPut l 0 576 v s) s
    postQueue rq q 1 s

/-- A queue register's owner rule: the secure world writes all; an undefined queue has no world (Registers). -/
def queueWrite (q off : Nat) (rq : Req) (value : Nat) (act : State → State) (s : State) : State :=
  if queueSec s q then ownedWrite Unit.slc off true rq value act s else if reach rq s then act s else s

/-- A write of SLC_POSTq; N = 0 follows R5. DEDUCED: log entry 36. -/
def postWrite (rq : Req) (q value : Nat) (s : State) : State :=
  queueWrite q (postOffset q) rq value (fun s =>
    let n := value % 256
    if (qrec s q).isSome && n == 0 then report (regRefused Unit.slc (postOffset q) rq .value value) s
    else postQueue rq q n s) s

/-- SLC_POST (R274). -/
def execSlcPost (rq : Req) (q : QueueId) (n : BitVec 8) (s : State) : Host.Outcome State Fault Refusal :=
  .next (postWrite rq q.val n.toNat s)

/-- A write of RCOUNT (R275). DEDUCED: log entry 36. -/
def releaseWrite (rq : Req) (q value : Nat) (s : State) : State :=
  queueWrite q (relOffset q) rq value (fun s =>
    match qrec s q with
    | none => queueUndefined q (relOffset q) rq s
    | some r =>
      if r.culv then report (regRefused Unit.slc (relOffset q) rq .value value) s
      else
        let x := qst s q
        let n := m17 value
        if diff17 n x.rcount ≤ diff17 x.dcount x.rcount then setQ q (fun x => { x with rcount := n }) s
        else
          report (mkReport Unit.slc Cls.reported Code.slcReleaseBad 0
            [(q, 20), (x.dcount, 17), (x.rcount, 17), (n, 17)]) s) s

/-- SLC_RELEASE (R275). -/
def execSlcRelease (rq : Req) (q : QueueId) (rcount : BitVec 17) (s : State) : Host.Outcome State Fault Refusal :=
  .next (releaseWrite rq q.val rcount.toNat s)

/-- A write of SLC_QSTATq.STOP (R276). DEDUCED: log entry 36. -/
def stopWrite (rq : Req) (q value : Nat) (s : State) : State :=
  queueWrite q (qstatOffset q) rq value (fun s =>
    match qrec s q with
    | none => queueUndefined q (qstatOffset q) rq s
    | some _ => setQ q (fun x => { x with stop := bitOf value 35 }) s) s

/-- QUEUE_STOP (R276). -/
def execQueueStop (rq : Req) (q : QueueId) (stop : Bool) (s : State) : Host.Outcome State Fault Refusal :=
  .next (stopWrite rq q.val (b2n stop * 2 ^ 35) s)

end Sys2Proof.Machine
end

