-- ==== Sys2Proof/Machine/Direct.lean ====
section
/-! DEFINITION. Direct.lean: direct accesses of memory, and what the data lines of core misses and write-backs do when the
crossbar carries them (R12, R17, R88, R111, R150, R218, R270). -/

namespace Sys2Proof.Machine

/-- How a direct access ended: performed, refused (R16, R237, R317), of the wrong size (R7), to a tile that is asleep
(R95), or on uncorrectable data. -/
inductive AccessEnd
  | done | refused | size | asleep | uncorrectable
  deriving DecidableEq, Repr

/-- A direct read of stored bits of a memory line (R111, R193): uncorrectable hub words end it so. DESIGN CHOICE: log entry
13. -/
def memRead (rq : Req) (a lo w : Nat) (s : State) : State × Nat × AccessEnd :=
  match targetOf s a with
  | .dram =>
    let (s, v, bad) := dramGet rq (a / 64) s
    if bad then (s, 0, .uncorrectable) else (s, field v lo w, .done)
  | .hub =>
    if hubWordBad s (a / 64) lo w then (s, 0, .uncorrectable) else (s, field (lineBits s (a / 64)) lo w, .done)
  | .tile t =>
    if tileAsleep s t then (report (asleepReport s t rq a) s, 0, .asleep)
    else
      let (s, v, bad) := readTileBits t (a / 64) lo w rq.code.toNat s
      (s, v, if bad then .uncorrectable else .done)
  | _ => (s, 0, .refused)

/-- A read that the crossbar carries: of tile memory behind the writes that it carried before (R12). -/
def readCarried (rq : Req) (a lo w : Nat) (s : State) : State × Nat × AccessEnd := match targetOf s a with
  | .tile t =>
    if tileAsleep s t then memRead rq a lo w s
    else
      let (s, v, bad) := readAcross t (a / 64) lo w rq.code.toNat s
      (s, v, if bad then .uncorrectable else .done)
  | _ => memRead rq a lo w s

/-- A store would write part of an uncorrectable tile memory word (R225). DEDUCED: log entry 47. -/
def partialBad (s : State) (l lo w : Nat) : Bool :=
  (wordsOf lo w).any fun j =>
    mget 0 s.tmErr (16 * l + j) == 255 && (decide (36 * j < lo) || decide (lo + w < 36 * j + 36))

/-- A direct write of stored bits of a memory line. -/
def memWrite (rq : Req) (a lo w v : Nat) (s : State) : State × AccessEnd :=
  match targetOf s a with
  | .dram =>
    (dramPutAt rq a lo w v s,
      if tableLine s (a / 64) && rq.code.toNat != chartCode then .refused
      else if subDown s (subOf (a / 64)) || mergeMarked s (a / 64) w then .uncorrectable else .done)
  | .hub => (hubPut (a / 64) lo w v s, .done)
  | .tile t =>
    if tileAsleep s t then (report (asleepReport s t rq a) s, .asleep)
    else
      (breakReservations t none (a / 64) (writeTileBits t (a / 64) lo w v rq.code.toNat s),
        if partialBad s (a / 64) lo w then .uncorrectable else .done)
  | _ => (s, .refused)

/-- A load of uncorrectable hub memory words: the spec gives them no value. DESIGN CHOICE: log entry 13. -/
def openLoad (a w : Nat) (s : State) : State × Nat :=
  match targetOf s a with
  | .hub => ({ s with draws := s.draws + 1 }, Config.openValue 15 [s.draws] % 2 ^ w)
  | _ => (s, 0)

/-- The line of a fill has come: it serves every core of the tile that waits on the same fill (R17). -/
def gotFill (i : Nat) (m : Miss) (v : Nat) (bad : Bool) (s : State) : State :=
  (i :: siblings i).foldl (fun s j =>
    ((coreAt s j).misses.filter (sameFill m)).foldl (fun s x => unbind (.miss j x.id (m.addr / 64)) (gotMiss j x.id v bad s)) s) s

/-- A store to the memory of another tile crosses to it (R88); one to a tile that is asleep is refused (R95). -/
def storeAcross (i t : Nat) (m : Miss) (lo w v : Nat) (s : State) : State :=
  let rq : Req := ⟨BitVec.ofNat 9 i, m.sec⟩
  if tileAsleep s t then gotMiss i m.id 0 false (report (asleepReport s t rq m.addr) s)
  else
    let x : XItem := { tile := t, line := m.addr / 64, parts := [(lo, w, v)], rq := rq, store := some (i, m.id) }
    { s with slc := { s.slc with xing := s.slc.xing ++ [x] } }

/-- The data line of an uncached access to memory crosses: the access takes effect there and then (R12, R150). -/
def uncachedCarried (i : Nat) (m : Miss) (x : MissAcc) (s : State) : State :=
  let rq : Req := ⟨BitVec.ofNat 9 i, m.sec⟩
  match targetOf s m.addr, x.store with
  | .tile t, true => storeAcross i t m x.lo x.width x.val s
  | _, true => gotMiss i m.id 0 false (memWrite rq m.addr x.lo x.width x.val s).1
  | _, false =>
    let (s, v, e) := readCarried rq m.addr x.lo x.width s
    let (s, v) := if e = .uncorrectable then openLoad m.addr x.width s else (s, v)
    gotMiss i m.id v false s

/-- The data line of a miss has its connection (R268, R270): a fill reads its line, named by the core that started it
(R17). -/
def missCarried (i id : Nat) (s : State) : State :=
  match (coreAt s i).misses.find? fun m => m.id == id with
  | none => s
  | some m =>
    if m.kind = .uncached then m.accs.foldl (fun s x => uncachedCarried i m x s) s
    else
      let (s, v, bad) := dramGet ⟨BitVec.ofNat 9 i, m.sec⟩ (m.addr / 64) s
      gotFill i m v bad s

/-- The reads that the cores of a tile have asked for, for fills of a line, bring it as a write-back of the line that has just
crossed left it. -/
def freshReads (i line bits : Nat) (s : State) : State :=
  let fill := fun (who : Asker) => match who with
    | .bound b => (match b.cargo with
      | .miss j id l => l == line && j / 8 == i / 8 && (coreAt s j).misses.any fun m => m.id == id && m.kind != .uncached && m.kind != .fetch
      | _ => false)
    | _ => false
  let fresh := fun (r : DReq) => if r.line == line && r.asker.any fill then { r with kept := some (bits, []) } else r
  let s := setSub (subOf line) (fun x => { x with reads := x.reads.map fresh, issued := x.issued.map fresh }) s
  { s with drc := { s.drc with ready := s.drc.ready.map fun e => if e.2.1 == line && fill e.1 then (e.1, line, bits, false) else e } }

/-- The data line of a write-back has its connection (R218, R270): the line is written, and a fill of the same line that
had read it before has the new one. -/
def backCarried (i order line : Nat) (s : State) : State :=
  match (coreAt s i).evict.find? fun e => e.order == order with
  | none => s
  | some e =>
    let s := setCore i (fun k => { k with evict := k.evict.map fun x => if x.order = order then { x with crossed := true } else x })
      (dramPut ⟨BitVec.ofNat 9 i, e.sec⟩ line 0 576 e.bits s)
    let fresh := fun (m : Miss) =>
      if m.kind != .uncached && m.kind != .fetch && m.addr / 64 == line && m.got.isSome then { m with got := some (e.bits, false) } else m
    freshReads i line e.bits
      ((i :: siblings i).foldl (fun s j => setCore j (fun k => { k with misses := k.misses.map fresh }) s) s)

/-- The miss whose data line crosses is a store. -/
def missStores (s : State) (i id : Nat) : Bool :=
  ((coreAt s i).misses.find? fun m => m.id == id).any fun m => m.kind == .uncached && m.accs.any fun a => a.store

end Sys2Proof.Machine
end

