-- ==== Sys2Proof/Machine/Aes.lean ====
section
/-! DEFINITION. Aes.lean: AES-128 and AES-256, XTS (IEEE Std 1619) and GCM (NIST SP 800-38D), the external standards
that R304 and R305 name. Octet strings are lists. -/

namespace Sys2Proof.Machine.Aes

/-- Multiplication by x in the field of AES. -/
def xtime (a : Nat) : Nat := if a < 128 then 2 * a else (2 * a) ^^^ 0x11b

/-- Multiplication in the field of AES: `n` bits of `b`. -/
def gmul : Nat → Nat → Nat → Nat
  | 0, _, _ => 0
  | n + 1, a, b => (if b % 2 = 1 then a else 0) ^^^ gmul n (xtime a) (b / 2)

/-- The product of two octets. -/
def mul (a b : Nat) : Nat := gmul 8 a b

/-- The inverse of an octet: its 254th power. -/
def inv (a : Nat) : Nat :=
  let a2 := mul a a
  let a3 := mul a2 a
  let a6 := mul a3 a3
  let a12 := mul a6 a6
  let a15 := mul a12 a3
  let a30 := mul a15 a15
  let a60 := mul a30 a30
  let a120 := mul a60 a60
  let a126 := mul a120 a6
  let a127 := mul a126 a
  mul a127 a127

/-- Rotation of an octet to the left. -/
def rotl (a n : Nat) : Nat := (a <<< n ||| a >>> (8 - n)) % 256

/-- The substitution of an octet. -/
def subOctet (a : Nat) : Nat :=
  let b := inv a
  b ^^^ rotl b 1 ^^^ rotl b 2 ^^^ rotl b 3 ^^^ rotl b 4 ^^^ 0x63

/-- The substitution box. -/
def sbox : List Nat := (List.range 256).map subOctet

/-- The inverse substitution box. -/
def invSbox : List Nat :=
  (List.range 256).map fun v => (sbox.findIdx? fun x => x == v).getD 0

/-- Octet-wise exclusive or. -/
def xorList (a b : List Nat) : List Nat := List.zipWith (fun x y => x ^^^ y) a b

/-- The next word of the key schedule, word `i` of a key of `nk` words; `ws` holds the words so far, newest first. -/
def nextWord (nk i rcon : Nat) (ws : List (List Nat)) : List Nat :=
  let prev := ws.headD []
  let t :=
    if i % nk = 0 then
      match (prev.drop 1 ++ prev.take 1).map fun x => sbox.getD x 0 with
      | x :: r => (x ^^^ rcon) :: r
      | [] => []
    else if nk = 8 ∧ i % nk = 4 then prev.map fun x => sbox.getD x 0
    else prev
  xorList t (ws.getD (nk - 1) [])

/-- `n` further words of the key schedule. -/
def expandFrom (nk : Nat) : Nat → Nat → Nat → List (List Nat) → List (List Nat)
  | 0, _, _, ws => ws
  | n + 1, i, rcon, ws =>
    expandFrom nk n (i + 1) (if i % nk = 0 then xtime rcon else rcon) (nextWord nk i rcon ws :: ws)

/-- Splits a list into pieces of `k`. -/
def chunks (k : Nat) : Nat → List Nat → List (List Nat)
  | 0, _ => []
  | _ + 1, [] => []
  | n + 1, l => l.take k :: chunks k n (l.drop k)

/-- The round keys of a key of 16 or 32 octets, each of 16 octets. -/
def roundKeys (key : List Nat) : List (List Nat) :=
  let nk := key.length / 4
  let n := 4 * (nk + 7)
  let ws := (expandFrom nk (n - nk) nk 1 (chunks 4 nk key).reverse).reverse
  (List.range (nk + 7)).map fun r => ((ws.drop (4 * r)).take 4).flatten

/-- The shift of rows: octet `4 c + r` comes from column `c + r`. -/
def shiftRows (st : List Nat) : List Nat :=
  (List.range 16).map fun i => st.getD (4 * ((i / 4 + i % 4) % 4) + i % 4) 0

/-- The inverse shift of rows. -/
def invShiftRows (st : List Nat) : List Nat :=
  (List.range 16).map fun i => st.getD (4 * ((i / 4 + 4 - i % 4) % 4) + i % 4) 0

/-- Multiplies each column by a circulant matrix whose first row is `m`. -/
def mixWith (m st : List Nat) : List Nat :=
  (List.range 16).map fun i =>
    let col := (st.drop (4 * (i / 4))).take 4
    ((List.range 4).map fun j => mul (col.getD j 0) (m.getD ((j + 4 - i % 4) % 4) 0)).foldl (fun a b => a ^^^ b) 0

/-- Encrypts one block under expanded round keys. -/
def encrypt (rks : List (List Nat)) (blk : List Nat) : List Nat :=
  match rks with
  | [] => blk
  | k0 :: ks =>
    let round := fun st k =>
      xorList (mixWith [2, 3, 1, 1] (shiftRows (st.map fun x => sbox.getD x 0))) k
    let st := ks.dropLast.foldl round (xorList blk k0)
    xorList (shiftRows (st.map fun x => sbox.getD x 0)) (ks.getLastD [])

/-- Decrypts one block under expanded round keys. -/
def decrypt (rks : List (List Nat)) (blk : List Nat) : List Nat :=
  match rks.reverse with
  | [] => blk
  | k0 :: ks =>
    let undo := fun st => (invShiftRows st).map fun x => invSbox.getD x 0
    let round := fun st k => mixWith [14, 11, 13, 9] (xorList (undo st) k)
    let st := ks.dropLast.foldl round (xorList blk k0)
    xorList (undo st) (ks.getLastD [])

/-- A number's `n` octets, least significant first. -/
def leOctets (n v : Nat) : List Nat := splitUnits 8 n v

/-- A number from octets, least significant first. -/
def fromLe (l : List Nat) : Nat := joinUnits 8 l

/-- A block as a number, octet 0 most significant. -/
def beNum (l : List Nat) : Nat := l.foldl (fun a x => 256 * a + x) 0

/-- A number as `n` octets, most significant first. -/
def beOctets (n v : Nat) : List Nat := (leOctets n v).reverse

/-- The next tweak of a data unit: multiplication by the primitive element. -/
def nextTweak (t : Nat) : Nat :=
  if t < 2 ^ 127 then 2 * t else (2 * t % 2 ^ 128) ^^^ 0x87

/-- The blocks of a data unit under XTS, in order, from a tweak. -/
def xtsBlocks (blk : List Nat → List Nat) : List (List Nat) → Nat → List Nat
  | [], _ => []
  | b :: bs, t =>
    let tw := leOctets 16 t
    xorList (blk (xorList b tw)) tw ++ xtsBlocks blk bs (nextTweak t)

/-- XTS over whole data units of `unit` octets, the first numbered `dun` (R304). -/
def xts (enc : Bool) (k1 k2 : List Nat) (unit dun : Nat) (data : List Nat) : List Nat :=
  let r1 := roundKeys k1
  let r2 := roundKeys k2
  let f := if enc then encrypt r1 else decrypt r1
  let go := fun (i : Nat) (u : List Nat) =>
    xtsBlocks f (chunks 16 u.length u) (fromLe (encrypt r2 (leOctets 16 (dun + i))))
  ((chunks unit data.length data).mapIdx go).flatten

/-- Multiplication in the field of GHASH: `n` bits of `x` from the most significant. -/
def gfMul : Nat → Nat → Nat → Nat → Nat
  | 0, _, _, z => z
  | n + 1, x, v, z =>
    gfMul n x (if v % 2 = 1 then (v / 2) ^^^ (0xe1 * 2 ^ 120) else v / 2) (if x.testBit n then z ^^^ v else z)

/-- GHASH over blocks. -/
def ghash (h : Nat) (bs : List (List Nat)) : Nat := bs.foldl (fun y b => gfMul 128 (y ^^^ beNum b) h 0) 0

/-- Zero padding to whole blocks. -/
def padded (l : List Nat) : List (List Nat) :=
  chunks 16 l.length (l ++ List.replicate ((16 - l.length % 16) % 16) 0)

/-- The key stream of GCM from a counter, for `n` blocks. -/
def ctrStream (rks : List (List Nat)) (iv : List Nat) : Nat → Nat → List Nat
  | 0, _ => []
  | n + 1, c => encrypt rks (iv ++ beOctets 4 c) ++ ctrStream rks iv n (c + 1)

/-- GCM (R305): the output text and the tag of additional data `aad` and text. -/
def gcm (enc : Bool) (key iv aad text : List Nat) : List Nat × List Nat :=
  let rks := roundKeys key
  let h := beNum (encrypt rks (List.replicate 16 0))
  let out := xorList text (ctrStream rks iv ((text.length + 15) / 16) 2)
  let cipher := if enc then out else text
  let lens := beOctets 8 (8 * aad.length) ++ beOctets 8 (8 * cipher.length)
  let s := ghash h (padded aad ++ padded cipher ++ [lens])
  (out, xorList (beOctets 16 s) (encrypt rks (iv ++ [0, 0, 0, 1])))

end Sys2Proof.Machine.Aes
end

