-- ==== Sys2Proof/Machine/TilePower.lean ====
section
/-! DEFINITION. TilePower.lean: crossings into tiles, tile power states, and the start of cores (R88, R92–R97, R99,
R135–R138). -/

namespace Sys2Proof.Machine

/-- ISL_XING_LATE: a crossing from island `a` to island `b`, and the receiving cycles (R89). -/
def xingLate (a b cycles : Nat) (s : State) : State :=
  reportIf (decide (9 < cycles)) (mkReport Unit.isl Cls.reported Code.islXingLate a [(a, 7), (b, 7), (cycles, 18)]) s

/-- The crossings that a channel pulse takes: from a tile along its die's chain, both ways, and over the canal to the hub,
which forwards it to the tiles of the other dies; from the hub to every tile (R78, R449). DEDUCED: log entry 63. -/
def pulseItems (s : State) (origin : Nat) : List (Nat × Nat) :=
  let tiles := ((List.range 48).filter (available s)).map (islOf s)
  if origin < 48 then
    let p := islOf s origin
    (((List.range (p % 13)).map fun i => (p - i, p - i - 1)) ++ ((List.range (12 - p % 13)).map fun i => (p + i, p + i + 1))) ++
      (p, 52) :: (tiles.filter fun u => u / 13 != p / 13).map fun u => (52, u)
  else tiles.map fun u => (52, u)

/-- The lines that tiles have sent to the hub, in launch order, and that still stand bound (R88, R161). -/
def hubBound (s : State) : List BLine := s.slc.toHub.filter fun b => s.slc.bound.contains b

/-- The island that sends a bound line to the hub. -/
def senderOf (s : State) (b : BLine) : Nat := match b.cargo with
  | .miss i _ _ => islOf s (i / 8)
  | .back i _ _ => islOf s (i / 8)
  | _ => islOf s b.src

/-- The crossings of a bound line between the hub and a tile or a quad, but for what a tile sends (`hubBound`) and the lines
that a quad has received. DEDUCED: log entry 63. -/
def boundItems (s : State) (b : BLine) : List (Nat × Nat) :=
  let quad := fun (p : Nat) => if 0o200 ≤ p ∧ p < 0o230 then [53 + (p - 0o200)] else []
  match b.cargo with
  | .miss _ _ _ => []
  | .back _ _ _ => []
  | .source _ _ _ => []
  | .drain t _ _ => [(islOf s t, 52)]
  | _ => ((if b.src < 48 then [islOf s b.src] else quad b.src).map fun a => (a, 52)) ++ (quad b.dst).map fun a => (52, a)

/-- The answer to a core's access to the memory of another tile comes from that tile (R88). DEDUCED: log entry 63. -/
def answerItems (s : State) (x : XItem) : List (Nat × Nat) := match x.reply with
  | none => []
  | some (i, id) =>
    match (coreAt s i).misses.find? fun m => m.id == id with
    | none => []
    | some m =>
      match targetOf s m.addr with
      | .tile t => [(islOf s t, 52)]
      | _ => []

/-- The VI that a descriptor names (R297). -/
def Desc.vi (d : Desc) : Nat := field d.l0 0 12

/-- The first quad of a VI's group, as an island. -/
def viIsland (s : State) (v : Nat) : Nat := 53 + groupQuad s (viGroup s v)

/-- The host requests of a culvert and their completions, by the first quad of the VI's group (R359, R360). DEDUCED:
log entry 63. -/
def hostItems (s : State) (h : Held) : List (Nat × Nat) :=
  h.reqs.flatMap fun _ => [(52, viIsland s h.desc.vi), (viIsland s h.desc.vi, 52)]

/-- What the hub and the quads send each other for the host: requests of the host over a link that is up, answers, MSI-X
messages, host writes, and the completions of reads whose record is written (R88, R359). DEDUCED: log entry 63. -/
def hostTraffic (s : State) : List (Nat × Nat) :=
  (((List.range 8).filter fun g => (mget {} s.prt.groups g).width != 0).map fun g => (53 + groupQuad s g, 52)) ++
    s.vif.answers.map (fun a => (52, viIsland s a.1)) ++ (s.vif.msix.toList.map fun m => (52, viIsland s m.1)) ++
    (s.cul.wrote.toList.map fun w => (52, viIsland s w.1)) ++ s.cul.late.map fun r => (viIsland s r.vi, 52)

/-- The value of the master chronometer goes to every island over its crossing (R90). DEDUCED: log entry 63. -/
def syncItems (s : State) : List (Nat × Nat) :=
  (((List.range 48).filter (available s)).map fun t => (52, islOf s t)) ++ (List.range 24).map fun q => (52, 53 + q)

/-- The items in the other crossings, each as its sending and receiving island (R78, R88, R89): accesses of cores that no
slot serves, the answers of other tiles, doorbells of cores, channel pulses, culvert lines and drain lines of tiles, received
lines of a quad, lines for a quad to send, host traffic, and the value of the chronometer. Their own commands perform what they
carry. DEDUCED: log entry 63. -/
def otherItems (s : State) : List (Nat × Nat) :=
  s.cores.flatMap (fun e => (e.2.misses.filter fun m => m.got.isNone && !s.slc.bound.any fun b =>
      b.cargo == .miss e.1 m.id (m.addr / 64)).map fun _ => (islOf s (e.1 / 8), 52)) ++
    s.slc.xing.flatMap (answerItems s) ++
    (s.ivc.bells.filter fun b => decide (b.code < 384)).map (fun b => (islOf s (b.code / 8), 52)) ++
    s.dbu.pulses.flatMap (fun p => pulseItems s p.2) ++
    s.slc.bound.flatMap (boundItems s) ++
    ((List.range 32).flatMap fun c => (culAt s c).held.flatMap (hostItems s)) ++
    (s.prt.quads.flatMap fun e =>
      e.2.ingress.map (fun _ => (53 + e.1, 52)) ++ e.2.egress.map fun _ => (52, 53 + e.1)) ++
    hostTraffic s ++ syncItems s

/-- The parts of an item are written to tile memory; a line another requester writes breaks reservations on it (R132). -/
def writeItem (x : XItem) (s : State) : State :=
  let s := x.parts.foldl (fun s p => writeTileBits x.tile x.line p.1 p.2.1 p.2.2 x.rq.code.toNat s) s
  if x.parts = [] then s else breakReservations x.tile none x.line s

/-- The store of a core of another tile has been performed (R150). -/
def answerStore (x : XItem) (s : State) : State := match x.store with
  | some (i, id) => gotMiss i id 0 false s
  | none => s

/-- An item becomes available in its tile: a store of another tile's core to a tile that is asleep is refused (R95), and a
tile without power keeps nothing. -/
def arriveItem (x : XItem) (s : State) : State :=
  let asleep := x.store.isSome && tileAsleep s x.tile
  let s := if asleep then report (asleepReport s x.tile x.rq (64 * x.line)) s
    else if (tileIsl s x.tile).state = .darkLose then s
    else writeItem x s
  answerStore x s

/-- Deletes the element of a list at a place. -/
def dropAt {α : Type} : List α → Nat → List α
  | [], _ => []
  | _ :: t, 0 => t
  | x :: t, n + 1 => x :: dropAt t n

/-- An interrupt message that comes to a napping tile wakes it (R92, R95). -/
def wakeByMessage (t : Nat) (s : State) : State :=
  if (tileIsl s t).state = .nap then setTileIsl t (fun x => { x with exiting := true }) s else s

/-- An item that a tile sent to the hub arrives: the slots that serve it may carry it from now on (R161), unless an earlier
one of its tile is still on its way (R88). -/
def arriveInHub (b : BLine) (cycles : Nat) (s : State) : State :=
  let earlier := (hubBound s).takeWhile fun x => x != b
  if earlier.any fun x => senderOf s x == senderOf s b then s
  else xingLate (senderOf s b) 52 cycles { s with slc := { s.slc with toHub := (hubBound s).erase b } }

/-- CROSSING_ITEM_ARRIVAL (R88, R89, R161, R283): the `i`-th item becomes available, unless an earlier item of its crossing
is still on its way. The items from the hub to tiles come first, then the lines that tiles send to the hub, then those of the
other crossings. A late one is reported. DEDUCED: log entries 35 and 63. DESIGN CHOICE: log entry 57. -/
def execCrossingItemArrival (i : Nat) (cycles : BitVec 18) (s : State) : Host.Outcome State Fault Refusal :=
  match s.slc.xing[i]? with
  | none =>
    let j := i - s.slc.xing.length
    match (hubBound s)[j]?, (otherItems s)[j - (hubBound s).length]? with
    | some b, _ => .next (arriveInHub b cycles.toNat s)
    | none, some (a, b) => .next (xingLate a b cycles.toNat s)
    | none, none => .next s
  | some x =>
    if (s.slc.xing.take i).any fun y => y.tile == x.tile then .next s
    else
      let s := { s with slc := { s.slc with xing := dropAt s.slc.xing i } }
      if !available s x.tile then .next s
      else
        let s := xingLate 52 (islOf s x.tile) cycles.toNat s
        let s := arriveItem x s
        let s := if x.intr.isSome then wakeByMessage x.tile s else s
        match x.flag with
        | none => .next s
        | some (c, f) =>
          if (tileIsl s x.tile).state = .run ∨ (tileIsl s x.tile).state = .nap then .next (setArrival (8 * x.tile + c) f false s) else .next s

/-- A RUNTIME entry's image: offset, length, load address, entry address and reload copy (R135); `secure` picks the
second of the two. -/
structure RImage where
  off   : Nat
  len   : Nat
  load  : Nat
  entry : Nat
  copy  : Nat
  deriving DecidableEq, Repr

/-- The images of a tile's RUNTIME entry. -/
def runImage (s : State) (t : Nat) (secure : Bool) : RImage :=
  let b := 64 * t + (if secure then 32 else 0)
  ⟨sec s 12 b 4, sec s 12 (b + 4) 4, sec s 12 (b + 8) 8, sec s 12 (b + 16) 8, sec s 12 (b + 24) 8⟩

/-- Both images of a tile. -/
def runImages (s : State) (t : Nat) : List RImage := [runImage s t false, runImage s t true].filter fun r => r.len != 0

/-- A physical address lies in tile memory. -/
def inTileMem (a : Nat) : Bool := decide (2 ^ 42 ≤ a) && decide (a < 2 ^ 42 + 48 * 2 ^ 20)

/-- A tile holds an image in tile memory without a reload copy (R96, R135). -/
def cannotReload (s : State) (t : Nat) : Bool := (runImages s t).any fun r => inTileMem r.load && r.copy == 0

/-- A fresh line: stored bits without error marks. -/
def freshLine (l v : Nat) (s : State) : State :=
  putLine l v { setPoison l false s with
    tmErr := (List.range 16).foldl (fun m i => mset 0 m (16 * l + i) 0) s.tmErr }

/-- Line `i` of an image, as stored bits (R136). -/
def imageLine (s : State) (r : RImage) (i : Nat) : Nat :=
  match imgFind (image s) 12 with
  | none => 0
  | some (base, _) => imgLe (image s) (base + r.off + 72 * i) 72

/-- The configuration loader writes a line; one to a subchannel that is down is not performed (R397, R398). -/
def loaderPut (l v : Nat) (s : State) : State :=
  let s := if l < 2 ^ 34 then wakeChan (subOf l / 2) s else s
  if l < 2 ^ 34 ∧ subDown s (subOf l) then downAccess l hubCode s else freshLine l v s

/-- The configuration loader writes an image and its reload copy (R138). -/
def loadImage (r : RImage) (s : State) : State :=
  (List.range (r.len / 72)).foldl (fun s i =>
    let v := imageLine s r i
    let s := loaderPut (r.load / 64 + i) v s
    if r.copy = 0 then s else loaderPut (r.copy / 64 + i) v s) s

/-- The images of every available tile are loaded (R138). -/
def loadImages (s : State) : State :=
  (List.range 48).foldl (fun s t => if available s t then (runImages s t).foldl (fun s r => loadImage r s) s else s) s

/-- Tile memory reads as zeros. -/
def clearTileMem (t : Nat) (s : State) : State :=
  let l0 := tileLine0 t
  let mine := fun l => decide (l0 ≤ l) && decide (l < l0 + 2 ^ 14)
  { s with mem := s.mem.filter fun c => !mine (c.1 / 72), tmErr := s.tmErr.filter fun e => !mine (e.1 / 16) }

/-- The hub reloads a tile's images from their reload copies (R93, R138). DESIGN CHOICE: log entry 67. -/
def reloadTile (t : Nat) (s : State) : State :=
  (runImages s t).foldl (fun s r =>
    if r.copy = 0 ∨ !inTileMem r.load then s
    else
      (List.range (r.len / 72)).foldl (fun s i =>
        let (s, v, _) := dramGet (slcReq true) (r.copy / 64 + i) s
        freshLine (r.load / 64 + i) v s) s) (clearTileMem t s)

/-- WD_PERIOD (R263). -/
def wdPeriod (s : State) : Nat := secX s 9 4 4 0

/-- What a core keeps when it loses power or starts: the run-control registers of the DBG window, which lie in the
hub. DEDUCED: log entry 28. -/
def Core.debugSide (k : Core) : Core :=
  { maskI := k.maskI, brkH := k.brkH, hout := k.hout, rin := k.rin, hin := k.hin, comps := k.comps }

/-- A core starts (R99, R263): every register at its start value, in SK at the secure entry address where the tile has
a secure image, else in NK at the normal one. The trace of one that starts in SK is hidden as after WCALL (R421). DEDUCED: log
entry 28. DESIGN CHOICE: log entries 67 and 74. -/
def startCore (i : Nat) (s : State) : State :=
  let t := i / 8
  let n := runImage s t false
  let x := runImage s t true
  let p := wdPeriod s
  let now := tileChron s t
  setCore i (fun k =>
    { k.debugSide with
      on := true, sec := x.len != 0, pc := if x.len ≠ 0 then x.entry else n.entry
      wra := if x.len ≠ 0 ∧ n.len ≠ 0 then n.entry else 0
      wd := { en := p != 0, period := p, remain := p, from' := now, state := if p = 0 then 0 else 1 }
      trace := { owed := some 2, hidden := x.len != 0 && traceHides s i } }) s

/-- Every core of a tile starts. -/
def startCores (t : Nat) (s : State) : State := (List.range 8).foldl (fun s c => startCore (8 * t + c) s) s

/-- A tile begins to run: its clock at the step that R84 gives, its chronometer copy and its cores (R68, R84, R91,
R99). -/
def startTile (t : Nat) (s : State) : State :=
  let s := setTileIsl t (fun x => { x with
    state := .run, pstate := 0, pend := 0, exiting := false, closing := false, copyDiff := 0, copyAt := s.isl.chron, copyMin := 0 }) s
  enterStep t (startCores t s)

/-- The temperature holds for which island `o` counts end when its crossing closes (R86, R87). -/
def dropTempPeer (o u : Nat) (s : State) : State :=
  if !(tileIsl s u).tempBy.contains o then s
  else
    report (tempReport s (islOf s u) o false) (setTileIsl u (fun x =>
      if x.tempBy.erase o = [] then { x with tempBy := [], tempOn := false, tempHold := 15 }
      else { x with tempBy := x.tempBy.erase o }) s)

/-- A tile stops running: its crossings close, and every hold of R84 to R86 between it and another island ends, which is
reported (R87). -/
def releaseNeighbours (t : Nat) (st : TileState) (s : State) : State :=
  let x := tileIsl s t
  let nbs := runningNbrs s t
  let s := x.supplyBy.foldl (fun s c => report (supplyReport s t c false) s) s
  let s := x.tempBy.foldl (fun s o => report (tempReport s (islOf s t) o false) s) s
  let s := nbs.foldl (fun s u => dropTempPeer (islOf s t) u (holdDown s t u 15)) s
  let s := setTileIsl t (fun x => { x with
    state := st, pend := 0, exiting := false, supplyBy := [], tempOn := false, tempHold := 15, tempBy := [], holdLo := 15
    holdHi := 15, droop := 0, target := x.step, volt := x.step, changing := false }) s
  let s := { s with isl := { s.isl with high := mset false s.isl.high (128 * 52 + islOf s t) false } }
  nbs.foldl (fun s u => resteer u (restretch u s)) (restretch t s)

/-- Every hold of R84 to R86 of a tile ends as its island goes off with all the others, which is reported (R87). -/
def endHolds (t : Nat) (s : State) : State :=
  let x := tileIsl s t
  let s := x.supplyBy.foldl (fun s c => report (supplyReport s t c false) s) s
  let s := x.tempBy.foldl (fun s o => report (tempReport s (islOf s t) o false) s) s
  let s := x.stretch.foldl (fun s u =>
    report (nbrLimit (islOf s u) (islOf s t) 3 false (tileIsl s u).step x.step) s) s
  setTileIsl t (fun x => { x with
    supplyBy := [], tempOn := false, tempHold := 15, tempBy := [], holdLo := 15, holdHi := 15, droop := 0, stretch := [] }) s

/-- No core of a tile awaits a miss: every access that it issued has been performed. -/
def quiet (s : State) (t : Nat) : Bool := (List.range 8).all fun c => (coreAt s (8 * t + c)).misses.isEmpty

/-- NAP_ENTRY (R92, R94, R285): while services run, a pending nap request takes effect on a tile whose misses are complete.
DEDUCED: log entry 35. -/
def execNapEntry (t : TileId) (s : State) : Host.Outcome State Fault Refusal :=
  let i := t.val
  if serving s && tileRunning s i && (tileIsl s i).pend == 1 && entryBegun s i && quiet s i then
    .next (traceTile i 2 (releaseNeighbours i .nap s))
  else .next s

/-- A napping tile runs again (R84, R92); its PSTATE reads b000 from then on. DESIGN CHOICE: log entry 67. -/
def wakeTile (t : Nat) (s : State) : State :=
  enterStep t (traceTile t 6 (setTileIsl t (fun x => { x with state := .run, exiting := false, pend := 0, pstate := 0 }) s))

/-- NAP_EXIT (R92): an interrupt message, PSTATE b000 or a debug halt request wakes the tile, unless a dark request stands,
which only PSTATE b000 ends (R94). -/
def execNapExit (t : TileId) (s : State) : Host.Outcome State Fault Refusal :=
  let x := tileIsl s t.val
  if available s t.val && x.state == .nap && x.exiting && !(x.pend == 2 || x.pend == 3) then .next (wakeTile t.val s)
  else .next s

/-- Every store of a core becomes visible (R148). -/
def showStores (i : Nat) (s : State) : State :=
  let ps := (coreAt s i).stores
  let s := setCore i (fun k => { k with stores := [] }) s
  ps.foldl (fun s q => if q.cached then showCached i q s else showOwn i q s) s

/-- Every dirty line of a core's cache is on its way to DRAM; a dirty line with a parity error halts the core (R93,
R222). -/
def flushCore (i : Nat) (s : State) : State :=
  let s := showStores i s
  let s := (coreAt s i).dcache.foldl (fun s e =>
    match e.2 with
    | none => s
    | some f =>
      if !f.dirty || wayMode (coreAt s i).dway (e.1 % 8) == 2 then s
      else if f.bad ≠ 0 then parity i e.1 f false s
      else startWriteBack i f.line f.bits f.sec false false (setFrame i e.1 (some { f with dirty := false }) s)) s
  (coreAt s i).evict.foldl (fun s e =>
    if e.dirtyNow then unserve i e.line (startWriteBack i e.line e.now e.nowSec false false s) else s) s

/-- The dirty lines of a tile's cores set out for DRAM. -/
def flushTile (t : Nat) (s : State) : State := (List.range 8).foldl (fun s c => flushCore (8 * t + c) s) s

/-- Every write-back of a tile is visible, or has gone to DRAM from a napping one. -/
def tileClean (s : State) (t : Nat) : Bool := (List.range 8).all fun c =>
  !(coreAt s (8 * t + c)).evict.any fun e => e.dirty && !(e.crossed && (tileIsl s t).state == .nap)

/-- The write-backs of a napping tile that have not crossed go to DRAM, each once its channel takes it (R93, R94,
R384, R397). DEDUCED: log entry 35. -/
def sendBacks (t : Nat) (s : State) : State :=
  (List.range 8).foldl (fun s c =>
    let i := 8 * t + c
    (coreAt s i).evict.foldl (fun s e =>
      if !e.dirty || e.crossed then s
      else if lineTakes s e.line then
        setCore i (fun k => { k with evict := k.evict.map fun x => if x.order = e.order then { x with crossed := true } else x })
          (dramPut ⟨BitVec.ofNat 9 i, e.sec⟩ e.line 0 576 e.bits s)
      else wakeLine e.line s) s) s

/-- The lines of a tile's cores leave the crossbar unsent, and answers to them their crossing. -/
def unbindTile (t : Nat) (s : State) : State :=
  let mine := fun (b : BLine) => match b.cargo with
    | .miss i _ _ => i / 8 == t
    | .back i _ _ => i / 8 == t
    | _ => false
  let here := fun (x : XItem) => x.tile == t && x.reply.isSome
  { s with slc := { s.slc with bound := s.slc.bound.filter (fun b => !mine b), xing := s.slc.xing.filter fun x => !here x } }

/-- What a tile loses with its power (R93, R423): its cores, its wake unit but for TILE_WCTL and LOSSW, and without
retention its memory; what was offered to its cores waits in the router. -/
def loseTile (t : Nat) (keep : Bool) (s : State) : State :=
  let s := unbindTile t (withdraw t s)
  let s := (List.range 8).foldl (fun s c => { s with cores := mmod {} s.cores (8 * t + c) Core.debugSide }) s
  let s := setTile t (fun x =>
    { bmode := x.bmode, syncper := x.syncper, cen := x.cen, lossw := x.lossw, unrep := x.unrep, reason := x.reason
      repAt := x.repAt, wptr := x.wptr, rdptr := x.rdptr, darkW := x.used }) s
  if keep then s else clearTileMem t s

/-- A tile goes dark, with retention or without (R93, R422): its STATE packet, and its crossings close. Its power goes
with the next DARK_ENTRY, and until then the drain of its trace goes on (R423). DEDUCED: log entry 35. -/
def enterDark (t : Nat) (keep : Bool) (s : State) : State :=
  let s := wakeSettle t (traceTile t (if keep then 3 else 4) s)
  setTileIsl t (fun x => { x with closing := true }) (releaseNeighbours t (if keep then .darkKeep else .darkLose) s)

/-- Power is removed from a tile that has gone dark (R93, R423). DEDUCED: log entry 35. -/
def removePower (t : Nat) (s : State) : State :=
  if !(tileIsl s t).closing then s
  else loseTile t ((tileIsl s t).state == .darkKeep) (setTileIsl t (fun x => { x with closing := false }) s)

/-- The lines of stores of a tile's cores that wait for their DRAM channel. -/
def heldStores (s : State) (t : Nat) : List Nat := (List.range 8).flatMap fun c =>
  ((coreAt s (8 * t + c)).stores.filter (storeHeld s (8 * t + c))).map fun p => p.line

/-- A dark request takes effect (R93, R94): the dirty lines of the tile set out for DRAM, and it goes dark once they
are visible; those of a napping tile go at once, where their channels take them (R397). DEDUCED: log entry 35. -/
def darkStep (t : Nat) (keep : Bool) (s : State) : State :=
  match heldStores s t with
  | [] =>
    let s := flushTile t s
    let s := if (tileIsl s t).state = .nap then sendBacks t s else s
    if tileClean s t then enterDark t keep s else s
  | ls => ls.foldl (fun s l => wakeLine l s) s

/-- DARK_ENTRY (R93, R94): while services run, a pending dark request takes effect on a running tile whose cores doze and
whose misses are complete, or on a napping one; the power of a tile that has gone dark is removed. DEDUCED: log entry
35. -/
def execDarkEntry (t : TileId) (s : State) : Host.Outcome State Fault Refusal :=
  let i := t.val
  let x := tileIsl s i
  let asked := serving s && available s i && (x.pend == 2 || x.pend == 3)
  if serving s && x.closing then .next (removePower i s)
  else if asked && ((x.state == .run && entryBegun s i && quiet s i) || x.state == .nap) then .next (darkStep i (x.pend == 2) s)
  else .next s

/-- The LOSS packet of a dark exit, and the tile awake (R422, R423). -/
def traceDarkExit (t : Nat) (s : State) : State :=
  let n := (tileAt s t).darkW
  let s := setTile t (fun x => { x with darkW := 0 }) s
  let s := if n = 0 then s else traceLost t n 2 s
  traceTile t 6 (setTile t (fun x => { x with
    tileQ := x.tileQ ++ [[pktHead 0 7 (packFields [(satW 27 n, 27), (2, 2)])]] }) s)

/-- A tile comes out of a dark state (R93): its memory is reloaded where it was lost, and its cores start. -/
def leaveTileDark (t : Nat) (s : State) : State :=
  let s := if (tileIsl s t).state = .darkLose then reloadTile t s else s
  traceDarkExit t (startTile t s)

/-- A reload copy that the exit needs, in a channel that takes no request (R240, R397). -/
def reloadHeld (s : State) (t : Nat) : Option Nat :=
  if (tileIsl s t).state ≠ .darkLose then none
  else
    (runImages s t).findSome? fun r =>
      if r.copy = 0 ∨ !inTileMem r.load then none
      else ((List.range (r.len / 72)).map fun i => r.copy / 64 + i).find? (readHeld s)

/-- A tile leaves dark once DRAM can give its reload copies; until then its exit stays requested (R93, R240, R397). -/
def darkLeave (t : Nat) (s : State) : State := match reloadHeld s t with
  | some l => startExit (subOf l) (setTileIsl t (fun x => { x with exiting := true }) s)
  | none => leaveTileDark t s

/-- The tiles that run under a schedule: those of the mask, or the management tile in HELM-ONLY (R68, R70). -/
def scheduleTiles (s : State) : List Nat := (List.range 48).filter fun t => available s t && inMask s t

/-- Dark tiles of the schedule leave dark, and their cores start: all of them at the end of HELM-ONLY, and those that a
switch adds to the tiles `old` (R71, R96, R99). -/
def startTiles (old : List Nat) (s : State) : State :=
  ((scheduleTiles s).filter fun t => !old.contains t).foldl (fun s t =>
    if (tileIsl s t).state = .darkKeep ∨ (tileIsl s t).state = .darkLose then darkLeave t (removePower t s) else s) s

/-- The management tile of HELM-ONLY is another one than it was: that one comes out of dark and runs its runtime image
(R70). -/
def nextMgmtTile (old : Option Nat) (s : State) : State :=
  match mgmtTile s with
  | none => s
  | some t =>
    if old = some t ∨ !(s.cfg.phase == .helm || (s.cfg.phase == .ride && s.pwr.rideHelm)) then s
    else startTiles old.toList (setTileIsl t (fun x => { x with ceil := ceilingOf s t }) s)

/-- DARK_EXIT (R93): a write of PSTATE b000 brings a tile out of dark, once DRAM can give its reload copies. -/
def execDarkExit (t : TileId) (s : State) : Host.Outcome State Fault Refusal :=
  let x := tileIsl s t.val
  if available s t.val && (x.state == .darkKeep || x.state == .darkLose) && x.exiting && inMask s t.val && serving s then
    .next (darkLeave t.val (removePower t.val s))
  else .next s

/-- ISL_PSTATE_REFUSED: tile, written value (R96); INSTANCE 0 for a tile that has no island. DESIGN CHOICE: log entry 74. -/
def pstateRefused (t value : Nat) (s : State) : State :=
  report (mkReport Unit.isl Cls.reported Code.islPstateRefused (islOf s t) [(t, 6), (value, 36)]) s

/-- The effect of a PSTATE request by the state of the tile (R94, R97): a dark request to a napping tile takes effect at
once. -/
def requestPstate (t p : Nat) (s : State) : State :=
  let x := tileIsl s t
  match x.state with
  | .run => setTileIsl t (fun x => { x with pstate := p, pend := p }) s
  | .nap =>
    if p = 0 then setTileIsl t (fun x => { x with pstate := 0, pend := 0, exiting := true }) s
    else if p = 1 then s
    else darkStep t (p == 2) (setTileIsl t (fun x => { x with pstate := p, pend := p }) s)
  | _ => if p = 0 then setTileIsl t (fun x => { x with pstate := 0, exiting := true }) s else s

/-- A write of ISL_TILE_CTL (R80, R94, R96, R97). DEDUCED: log entry 34. -/
def tileCtlWrite (rq : Req) (t value : Nat) (s : State) : State :=
  ownedWrite Unit.isl (4 * t) (tileSec s t) rq value (fun s =>
    let p := field value 4 3
    if !inMask s t || (p == 3 && cannotReload s t) then pstateRefused t value s
    else
      let s := setTileIsl t (fun x => { x with req := field value 0 4 }) s
      let s := if 3 < p then pstateRefused t value s else requestPstate t p s
      resteer t s) s

/-- TILE_PSTATE_REQUEST. -/
def execTilePstateRequest (rq : Req) (t : TileId) (value : Word) (s : State) : Host.Outcome State Fault Refusal :=
  .next (tileCtlWrite rq t.val value.toNat s)

/-- TILE_STEP_REQUEST. -/
def execTileStepRequest (rq : Req) (t : TileId) (value : Word) (s : State) : Host.Outcome State Fault Refusal :=
  .next (tileCtlWrite rq t.val value.toNat s)

/-- A tile is switched off until the next start (R50, R73, R285): its deliveries are abandoned, and it has no physical tile
from then on. Stores of other cores on their way to it are answered. -/
def tileOff (t : Nat) (s : State) : State :=
  let s := (abandonTile t s).slc.xing.foldl (fun s x => if x.tile = t then answerStore x s else s) (abandonTile t s)
  let s := releaseNeighbours t .darkLose s
  let s := loseTile t false s
  { s with
    slc := { s.slc with xing := s.slc.xing.filter fun x => x.tile != t }
    cfg := { s.cfg with lmap := mset none s.cfg.lmap t none } }

end Sys2Proof.Machine
end

