-- ==== Sys2Proof/Machine/Vif.lean ====
section
/-! DEFINITION. Vif.lean: the virtual interfaces (chapter 14, R334–R354), and how hosts see the module (R74). -/

namespace Sys2Proof.Machine

/-- NVI and HELM (R335). -/
def nvi (s : State) : Nat := sec s 8 0 2
def helmVi (s : State) : Nat := sec s 8 2 2

/-- Fields of the record of VI `v` (R335). -/
def viPf (s : State) (v : Nat) : Nat := viField s v 1 1
def viVf (s : State) (v : Nat) : Nat := viField s v 2 2
def viShadowed (s : State) (v : Nat) : Bool := viField s v 4 1 == 1
def viSync (s : State) (v : Nat) : Bool := secX s 8 (1088 + 32 * v + 6) 1 0 == 1
def viNvec (s : State) (v : Nat) : Nat := secX s 8 (1088 + 32 * v + 7) 1 16
def viNq (s : State) (v : Nat) : Nat := viField s v 8 2
def viQfirst (s : State) (v : Nat) : Nat := viField s v 12 4
def viDbsrc (s : State) (v : Nat) : Nat := viField s v 16 4
def viRstsrc (s : State) (v : Nat) : Nat := viField s v 20 4
def viSwq (s : State) (v : Nat) : Nat := viField s v 24 4
def viSpage (s : State) (v : Nat) : Nat := viField s v 28 4

/-- The octets of BAR0 (R338). -/
def bar0Size (s : State) (v : Nat) : Nat := if viShadowed s v && viField s v 5 1 == 1 then 16384 else 4096

/-- The requester of the VI unit (R17); its rings and posts are of the normal world. -/
def vifReq : Req := ⟨0o703, false⟩

/-- The state of a VI. -/
def viAt (s : State) (v : Nat) : Vi := mget {} s.vif.vis v

/-- Changes a VI. -/
def setVi (v : Nat) (f : Vi → Vi) (s : State) : State :=
  { s with vif := { s.vif with vis := mmod {} s.vif.vis v f } }

/-- A host port group's link. -/
def groupAt (s : State) (g : Nat) : GroupLink := mget {} s.prt.groups g

/-- The host link of a group is up. -/
def groupUp (s : State) (g : Nat) : Bool := (groupAt s g).width != 0

/-- Services run, from the end of LOCK (R337, R40). -/
def afterLock (s : State) : Bool := serving s

/-- The module serves in HELM-ONLY: in that state, in RIDE entered from it, and until the tide boundary of a VAULT that
follows either (R337). -/
def helmServing (s : State) : Bool :=
  s.cfg.phase == .helm || ((s.cfg.phase == .ride || s.cfg.phase == .vault) && s.pwr.rideHelm)

/-- A function is reachable by its host (R337). -/
def viReachable (s : State) (v : Nat) : Bool :=
  afterLock s && decide (v < nvi s) && groupUp s (viGroup s v) &&
    (viVf s v == 0 ||
      let p : Sriov := mget {} s.vif.pfs (4 * viGroup s v + viPf s v)
      p.enable && decide (viVf s v ≤ p.numVfs))

/-- VIF_VSTATv.STATE: 0 disabled, 1 in service, 2 not in service, 3 resetting (R337). -/
def viState (s : State) (v : Nat) : Nat :=
  if (viAt s v).reset then 3
  else if !viReachable s v then 0
  else if helmServing s && v != helmVi s then 2
  else 1

/-- The VI unit writes an entry of a VI's error log (R340). -/
def errLog (v code detail : Nat) (s : State) : State :=
  let t := s.isl.chron % 2 ^ 64
  setVi v (fun x => { x with
    errs := mset {} x.errs (x.errcnt % 16) ⟨code, detail % 2 ^ 32, t⟩, errcnt := (x.errcnt + 1) % 2 ^ 32 }) s

/-- The answer to the newest host request. -/
def answerHost (v : Nat) (a : HostAnswer) (s : State) : State := { s with vif := { s.vif with answers := [(v, a)] } }

/-- One more answer of this command. -/
def answerAlso (v : Nat) (a : HostAnswer) (s : State) : State :=
  { s with vif := { s.vif with answers := s.vif.answers ++ [(v, a)] } }

/-- This command has answered nothing yet. -/
def noAnswers (s : State) : State := { s with vif := { s.vif with answers := [] } }

/-- HOST_EARLY_REQ: the first such request of a start (R74). -/
def earlyRequest (g typ : Nat) (s : State) : State :=
  if s.cfg.early then s
  else
    report (mkReport Unit.cfg Cls.reported Code.hostEarlyReq g [(g, 3), (typ, 1)])
      { s with cfg := { s.cfg with early := true } }

/-- A read of a window that no function claims: nothing reaches a group whose link is down; before the end of LOCK the
request is an early one (R74). -/
def unclaimedRead (v : Nat) (s : State) : State :=
  if !groupUp s (viGroup s v) then answerHost v .nothing s
  else answerHost v .unsupported (if afterLock s then s else earlyRequest (viGroup s v) 0 s)

/-- A write to a window that no function claims is discarded (R74). -/
def unclaimedWrite (v : Nat) (s : State) : State :=
  if groupUp s (viGroup s v) && !afterLock s then earlyRequest (viGroup s v) 1 s else s

/-- The state of a VI as requests to its windows meet it: in D3hot they are answered as while it resets (R363). PRESUMED: log
entry 56. -/
def windowState (s : State) (v : Nat) : Nat := if viState s v != 0 && (viAt s v).d3 then 3 else viState s v

/-- A VI report: INSTANCE is the VI. -/
def viReport (code v : Nat) (fields : List (Nat × Nat)) : Report := mkReport Unit.vif Cls.reported code v fields

/-- The octets of a write that are enabled, with their offsets. -/
def enabledOctets (off : Nat) (os : List (Option (BitVec 8))) : List (Nat × Nat) :=
  os.zipIdx.filterMap fun p => p.1.map fun (b : BitVec 8) => (off + p.2, b.toNat)

/-- A write of a doorbell (R341): the value, the pending bit and DBSRC; any other write is logged. -/
def mirroredWrite (v off : Nat) (os : List (Option (BitVec 8))) (s : State) : State :=
  let en := enabledOctets off os
  if off % 4 = 0 ∧ en.length = 4 ∧ os.length = 4 ∧ off / 4 < viNq s v then
    let i := off / 4
    let val := joinUnits 8 (en.map fun p => p.2)
    ringDoorbell (viDbsrc s v) 0o703 false
      (setVi v (fun x => { x with dbval := mset 0 x.dbval i val, dbpend := x.dbpend ||| 2 ^ i }) s)
  else errLog v 1 off s

/-- The shadow write record of one block (R344). -/
def shadowRecord (s : State) (v blk : Nat) (en : List (Nat × Nat)) : Nat :=
  let x := viAt s v
  let be := (en.map fun p => 2 ^ (p.1 % 8)).sum
  let data := (en.map fun p => p.2 * 2 ^ (8 * (p.1 % 8))).sum
  packFields [(v, 12), (8 * blk, 14), (be, 8), (0, 2), (x.flrgen, 16), (0, 20), (data, 72), (s.isl.chron, 72),
    (b2n x.lost, 1)]

/-- One block of a shadowed write: a record is posted, or lost (R344). -/
def shadowBlock (v : Nat) (en : List (Nat × Nat)) (blk : Nat) (s : State) : State :=
  let mine := en.filter fun p => p.1 / 8 == blk
  let q := viSwq s v
  if mine = [] then s
  else if ringRoom s q then
    let s := writeElement vifReq q (shadowRecord s v blk mine) (wakeElement q s)
    setVi v (fun x => { x with spost := (x.spost + 1) % 65536, lost := false }) s
  else
    let s := setVi v (fun x => { x with lost := true }) s
    report (viReport Code.vifShadowLost v [(v, 12), (8 * blk, 14), (q, 20)]) (errLog v 2 (8 * blk) s)

/-- Changes AER of a PF; a VF has none (R363). -/
def setAer (v : Nat) (f : Aer → Aer) (s : State) : State :=
  if viVf s v = 0 then { s with vif := { s.vif with aers := mmod {} s.vif.aers (4 * viGroup s v + viPf s v) f } } else s

/-- An error of a PF sets its bit of the Uncorrectable Error Status. PRESUMED: log entry 56. -/
def aerError (v bit : Nat) (s : State) : State := setAer v (fun a => { a with unc := a.unc ||| BitVec.twoPow 32 bit }) s

/-- A write to a window that takes none: of a function in D3hot it is an Unsupported Request, which a PF notes; while a VI
resets it is discarded (R349, R363). PRESUMED: log entry 56. -/
def untakenWrite (v : Nat) (s : State) : State := if (viAt s v).d3 && viReachable s v then aerError v 20 s else s

/-- A host write to BAR0 of a VI (R13, R70, R74, R338, R341, R344, R349). -/
def bar0Write (v off : Nat) (os : List (Option (BitVec 8))) (s : State) : State :=
  match windowState s v with
  | 0 => unclaimedWrite v s
  | 1 =>
    if bar0Size s v < off + os.length then s
    else if viShadowed s v then
      let en := enabledOctets off os
      (List.range (os.length / 8 + 2)).foldl (fun s i => shadowBlock v en (off / 8 + i) s) s
    else mirroredWrite v off os s
  | 2 => if bar0Size s v < off + os.length then s else errLog v 3 off s
  | _ => untakenWrite v s

/-- VI_DOORBELL_WRITE (R341). -/
def execViDoorbellWrite (v : ViId) (off : Fin 16384) (octets : List (Option (BitVec 8))) (s : State) :
    Host.Outcome State Fault Refusal := .next (bar0Write v.val off.val octets s)

/-- SHADOW_WRITE (R344). -/
def execShadowWrite (v : ViId) (off : Fin 16384) (octets : List (Option (BitVec 8))) (s : State) :
    Host.Outcome State Fault Refusal := .next (bar0Write v.val off.val octets s)

/-- VIF_DBPENDv_k (R342): the mask is returned and its bits clear, for the world that owns the VIF block. -/
def readDbpend (rq : Req) (v k : Nat) (s : State) : State × Nat :=
  if mayWrite rq (blockSec s Unit.vif) then
    let m := field (viAt s v).dbpend (32 * k) 32
    (setVi v (fun x => { x with dbpend := setField x.dbpend (32 * k) 32 0 }) s, m)
  else (report (ownerRefused Unit.vif (0o1000000 + 4 * (8 * v + k)) rq true 0) s, 0)

/-- DBPEND_READ. -/
def execDbpendRead (rq : Req) (v : ViId) (k : Fin 8) (s : State) : Host.Outcome State Fault Refusal :=
  if !reach rq s then .next s
  else
    let (s, m) := readDbpend rq v.val k.val s
    .next { s with answer := BitVec.ofNat 72 m }

/-- Octets of a mirrored window: doorbell values, else zero (R341). -/
def mirrorOctets (s : State) (v off len : Nat) : List Nat :=
  (List.range len).map fun i =>
    let o := off + i
    if o / 4 < viNq s v then field (mget 0 (viAt s v).dbval (o / 4)) (8 * (o % 4)) 8 else 0

/-- A waiting or new read of a shadowed window is served (R343): the lines of the page that it needs become bound for the
port of the group's first quad. DEDUCED: log entry 43. -/
def servePage (v : Nat) (w : WaitRead) (s : State) : State :=
  let n := (viAt s v).readNum
  let first := w.off / 64
  let line := fun i => hubLine0 + viSpage s v + first + i
  let lines := (List.range ((w.off + max w.len 1 - 1) / 64 + 1 - first)).map fun i =>
    (⟨portOfLine (line i), portQuad' (groupQuad s (viGroup s v)), s.slc.cycle, .page v n i (line i)⟩ : BLine)
  bindAll lines (setVi v (fun x => { x with reads := x.reads ++ [⟨n, w.off, w.len, []⟩], readNum := n + 1 }) s)

/-- The octets of a read whose lines have all come. -/
def PageRead.octets (r : PageRead) : List Nat :=
  (List.range r.len).map fun i =>
    let o := r.off + i
    field (((r.got.find? fun g => g.1 == o / 64 - r.off / 64).map fun g => g.2).getD 0) (8 * (o % 64)) 8

/-- The lines of a read; one of length zero reads the line of its offset. -/
def PageRead.count (r : PageRead) : Nat := (r.off + max r.len 1 - 1) / 64 + 1 - r.off / 64

/-- A line of a shadow page reaches the quad, as it stands in the hub cycle in which the VI unit reads it; the last one
completes the read (R343). DESIGN CHOICE: log entry 13. -/
def pageCarried (v num idx line : Nat) (s : State) : State :=
  match (viAt s v).reads.find? fun r => r.num == num with
  | none => s
  | some r =>
    let (s, bits) := if hubBad s line then openLoad (64 * line) 576 s else (s, lineBits s line)
    let r := { r with got := r.got ++ [(idx, bits)] }
    if r.got.length = r.count then
      answerAlso v (.normal r.octets) (setVi v (fun x => { x with reads := x.reads.filter fun y => y.num != num }) s)
    else setVi v (fun x => { x with reads := x.reads.map fun y => if y.num = num then r else y }) s

/-- Reads of a VI's windows that are not complete are answered with Unsupported Request, and their lines stay unsent
(R349). -/
def dropReads (v : Nat) (s : State) : State :=
  let x := viAt s v
  let s := (List.range (x.waits.length + x.reads.length)).foldl (fun s _ => answerAlso v .unsupported s) s
  let mine := fun (b : BLine) => match b.cargo with
    | .page u _ _ _ => u == v
    | _ => false
  setVi v (fun x => { x with waits := [], reads := [] }) { s with slc := { s.slc with bound := s.slc.bound.filter fun b => !mine b } }

/-- A host read of BAR0 (R13, R70, R74, R338, R341, R343, R345, R349): one that reaches past the window is not the VI's. -/
def bar0Read (v off len : Nat) (s : State) : State :=
  match windowState s v with
  | 0 => unclaimedRead v s
  | 3 => answerHost v .unsupported s
  | st =>
    if bar0Size s v < off + max len 1 then answerHost v .unsupported s
    else if st = 2 then answerHost v (.normal (List.replicate len 0)) s
    else if !viShadowed s v then answerHost v (.normal (mirrorOctets s v off len)) s
    else
      let x := viAt s v
      let w : WaitRead := ⟨off, len, x.spost, s.isl.chron⟩
      if viSync s v && x.sack != x.spost then noAnswers (setVi v (fun x => { x with waits := x.waits ++ [w] }) s)
      else servePage v w (noAnswers s)

/-- AER of a VI's PF. -/
def aerOf (s : State) (v : Nat) : Aer := mget {} s.vif.aers (4 * viGroup s v + viPf s v)

/-- A function that the newest command answers with Unsupported Request notes the error (R360, R363). PRESUMED: log entry
56. -/
def noteUnsupported (v : Nat) (s : State) : State :=
  if viReachable s v ∧ s.vif.answers.contains (v, .unsupported) then aerError v 20 s else s

/-- SHADOW_READ (R343, R345, R363). -/
def execShadowRead (v : ViId) (off : Fin 16384) (len : Fin 4097) (s : State) : Host.Outcome State Fault Refusal :=
  .next (noteUnsupported v.val (bar0Read v.val off.val len.val s))

/-- VIF_SYNC_TIMEOUT: the oldest waiting read has waited 1 ms and is served as the page stands (R345). -/
def execVifSyncTimeout (v : ViId) (s : State) : Host.Outcome State Fault Refusal :=
  let v := v.val
  let x := viAt s v
  match x.waits with
  | [] => .next s
  | w :: rest =>
    let s := servePage v w (reachTime (w.at' + 1000000) s)
    let s := errLog v 5 w.off (setVi v (fun x => { x with waits := rest }) s)
    .next (report (viReport Code.vifSyncTimeout v [(v, 12), (w.off, 14), (x.spost, 16), (x.sack, 16)]) s)

/-- A write of a VIF register by the world that owns the block (Registers). -/
def vifWrite (off : Nat) (rq : Req) (value : Nat) (act : State → State) (s : State) : State :=
  ownedWrite Unit.vif off (blockSec s Unit.vif) rq value act s

/-- R5 for a VIF register. -/
def vifBadValue (off : Nat) (rq : Req) (value : Nat) (s : State) : State :=
  report (regRefused Unit.vif off rq .value value) s

/-- VIF_CTL_BAD: register offset, written value (R347, R350). -/
def vifCtlBad (off value : Nat) (s : State) : State :=
  report (viReport Code.vifCtlBad (value % 4096) [(off, 24), (value, 36)]) s

/-- A write of VIF_SACK (R345): waiting reads whose SPOST it reaches are served. DEDUCED: log entry 43. -/
def sackWrite (rq : Req) (value : Nat) (s : State) : State :=
  vifWrite 0o10 rq value (fun s =>
    let v := field value 0 12
    if !(decide (v < nvi s) && viShadowed s v && viState s v != 0) then vifBadValue 0o10 rq value s
    else
      let n := field value 12 16
      let x := viAt s v
      let ready := x.waits.filter fun w => w.spost == n
      let s := setVi v (fun x => { x with sack := n, waits := x.waits.filter fun w => w.spost != n }) s
      ready.foldl (fun s w => servePage v w s) s) s

/-- VIF_SACK_WRITE. -/
def execVifSackWrite (rq : Req) (value : Word) (s : State) : Host.Outcome State Fault Refusal :=
  .next (sackWrite rq value.toNat s)

/-- A write of VIF_EPOST (R340): service entries have codes o100_000 to o177_777. DEDUCED: log entry 43. -/
def epostWrite (rq : Req) (value : Nat) (s : State) : State :=
  vifWrite 0o14 rq value (fun s =>
    let v := field value 0 12
    let c := field value 12 16
    if c < 0o100000 ∨ nvi s ≤ v then vifBadValue 0o14 rq value s else errLog v c 0 s) s

/-- VIF_EPOST_WRITE. -/
def execVifEpostWrite (rq : Req) (value : Word) (s : State) : Host.Outcome State Fault Refusal :=
  .next (epostWrite rq value.toNat s)

/-- A vector of a VI. -/
def vecAt (s : State) (v n : Nat) : Vec := mget {} (viAt s v).vecs n

/-- Changes a vector. -/
def setVec (v n : Nat) (f : Vec → Vec) (s : State) : State := setVi v (fun x => { x with vecs := mmod {} x.vecs n f }) s

/-- A vector's window fires where it meets its condition (R249, R347): the pending bit is set. -/
def vecFireIf (v n : Nat) (s : State) : State :=
  let x := vecAt s v n
  if x.timer && (decide (x.ccount ≤ x.cnt) || (x.ctime != 0 && decide (x.t0 + 64 * x.ctime ≤ s.isl.chron))) then
    setVec v n (fun x => { x with pend := true, cnt := 0, timer := false, t0 := 0 }) s
  else s

/-- A write of VIF_MSIX (R347). DEDUCED: log entry 43. -/
def msixWrite (rq : Req) (value : Nat) (s : State) : State :=
  vifWrite 0 rq value (fun s =>
    let v := field value 0 12
    let n := field value 12 6
    if nvi s ≤ v ∨ viNvec s v ≤ n ∨ viState s v = 0 ∨ viState s v = 3 then vifCtlBad 0 value s
    else
      let now := s.isl.chron
      vecFireIf v n (setVec v n (fun x => { x with
        cnt := min 255 (x.cnt + 1), timer := true, t0 := if x.cnt = 0 then now else x.t0 }) s)) s

/-- MSIX_SIGNAL. -/
def execMsixSignal (rq : Req) (value : Word) (s : State) : Host.Outcome State Fault Refusal :=
  .next (msixWrite rq value.toNat s)

/-- MSIX_WINDOW_TIME_FIRE (R347). -/
def execMsixWindowTimeFire (v : ViId) (n : Fin 64) (s : State) : Host.Outcome State Fault Refusal :=
  let x := vecAt s v.val n.val
  if x.timer ∧ x.ctime ≠ 0 then .next (vecFireIf v.val n.val (reachTime (x.t0 + 64 * x.ctime) s)) else .next s

/-- MSIX_SEND: the message goes out while pending, enabled and unmasked (R347). -/
def execMsixSend (v : ViId) (n : Fin 64) (s : State) : Host.Outcome State Fault Refusal :=
  let x := viAt s v.val
  let e := vecAt s v.val n.val
  let st := viState s v.val
  if e.pend && x.msixEn && !x.fmask && !e.mask && x.bme && (st == 1 || st == 2) then
    let s := setVec v.val n.val (fun e => { e with pend := false }) s
    .next { s with vif := { s.vif with msix := some (v.val, n.val, e.addr, e.data) } }
  else .next s

/-- A host write of 4 octets to the control window: only the MSI-X table takes writes (R74, R339). -/
def controlWrite (v off value : Nat) (s : State) : State :=
  match windowState s v with
  | 0 => unclaimedWrite v s
  | 1 =>
    let n := (off - 0o2000) / 16
    if off < 0o2000 ∨ 0o4000 ≤ off ∨ viNvec s v ≤ n then s
    else
      setVec v n (fun e =>
        match off % 16 / 4 with
        | 0 => { e with addr := setField e.addr 0 32 value }
        | 1 => { e with addr := setField e.addr 32 32 value }
        | 2 => { e with data := value }
        | _ => { e with mask := bitOf value 0 }) s
  | 2 => errLog v 3 (2 * 2 ^ 28 + off) s
  | _ => untakenWrite v s

/-- HOST_CONTROL_WINDOW_WRITE. -/
def execHostControlWindowWrite (v : ViId) (off : Fin 4096) (value : BitVec 32) (s : State) :
    Host.Outcome State Fault Refusal := .next (controlWrite v.val (off.val / 4 * 4) value.toNat s)

/-- A descriptor names a VI as its host endpoint (R297). -/
def Desc.hostVi (d : Desc) (v : Nat) : Bool :=
  (field d.l0 33 3 == 3 || field d.l0 30 3 == 3) && field d.l0 0 12 == v

/-- The culverts that hold a descriptor of a VI, from its grant on, as a mask (R295, R350). -/
def culvertsOf (s : State) (v : Nat) : Nat :=
  ((List.range 32).map fun c =>
    let k := culAt s c
    if (k.held.any fun h => h.desc.hostVi v) || (k.queued.any fun d => d.hostVi v) ||
        (coming s c).any fun e => ({ l0 := comingLine s c e, l1 := 0, elines := 1, queue := 0, sec := false : Desc }).hostVi v
    then 2 ^ c else 0).sum

/-- The host address that a transfer had reached: of its next host write, or of the first octet not yet received. -/
def hostReached (h : Held) : Nat :=
  if field h.desc.l0 33 3 = 3 then lw108 h 3 + (h.octets.map fun x => x.2.length).sum else lw108 h 5 + h.done
where
  /-- A double of line 0 of the descriptor, at word `w`. -/
  lw108 (h : Held) (w : Nat) : Nat := field h.desc.l0 (36 * w) 72

/-- A reset of a VI ends the transfers of its descriptors that have not reached their completion point, at the host address
that they had reached (R309, R349). -/
def resetCulverts (v : Nat) (s : State) : State :=
  (List.range 32).foldl (fun s c =>
    match (culAt s c).held with
    | [] => s
    | h :: _ => if h.desc.hostVi v && h.stage == .moving then endTransfer c 0o14 (hostReached h) s else s) s

/-- What a Function Level Reset leaves of a VI's configuration space, and what no reset touches. PRESUMED: log entry 55. -/
def afterReset (flr : Bool) (now : Nat) (x : Vi) : Vi :=
  let clear := fun (e : Nat × Vec) => (e.1, ({ ccount := e.2.ccount, ctime := e.2.ctime } : Vec))
  { reset := true, from' := now, flrgen := (x.flrgen + 1) % 65536
    mps := if flr then x.mps else 0, aspmL1 := flr && x.aspmL1
    vecs := (x.vecs.map clear).filter fun e => e.2 != {} }

/-- One VI begins a reset (R349, R350, R353); `flr` is a Function Level Reset. DEDUCED: log entry 43. PRESUMED: log entry
55. -/
def resetVi (flr : Bool) (v : Nat) (s : State) : State :=
  let s := dropReads v s
  let s := setVi v (afterReset flr s.isl.chron) s
  let s := if viVf s v = 0 then
      let pf := 4 * viGroup s v + viPf s v
      { s with vif := { s.vif with pfs := mset {} s.vif.pfs pf {}, aers := mset {} s.vif.aers pf {} } }
    else s
  resetCulverts v (ringDoorbell (viRstsrc s v) 0o703 false s)

/-- The VIs with a property. -/
def visWhere (s : State) (p : Nat → Bool) : List Nat := (List.range (nvi s)).filter p

/-- A reset of a VI; a PF's reset is also one of each of its VFs (R351). -/
def resetFunction (v : Nat) (s : State) : State :=
  if viVf s v = 0 then
    (visWhere s fun u => viGroup s u == viGroup s v && viPf s u == viPf s v).foldl (fun s u => resetVi true u s) s
  else resetVi true v s

/-- The host reads outstanding through a group end with its link: no completion of them will come. PRESUMED: log entry 56. -/
def dropRequests (g : Nat) (s : State) : State :=
  let drop := fun (h : Held) => if viGroup s h.desc.vi = g then { h with reqs := [] } else h
  { s with cul := { s.cul with
    late := s.cul.late.filter fun r => viGroup s r.vi != g
    culs := s.cul.culs.map fun e => (e.1, { e.2 with held := e.2.held.map drop }) } }

/-- A group reset resets every VI of the group (R351). -/
def groupReset (g : Nat) (s : State) : State :=
  if !afterLock s then s else dropRequests g ((visWhere s fun u => viGroup s u == g).foldl (fun s u => resetVi false u s) s)

/-- FLR_ACCEPT (R349). -/
def execFlrAccept (v : ViId) (s : State) : Host.Outcome State Fault Refusal :=
  .next (if viReachable s v.val then resetFunction v.val (noAnswers s) else s)

/-- The VI of a PF, when it is reachable. -/
def pfVi (s : State) (g f : Nat) : Option Nat :=
  (visWhere s fun u => viGroup s u == g && viPf s u == f && viVf s u == 0).head?

/-- A write of the SR-IOV control of a PF (R351): the VFs it removes are reset. -/
def sriovWrite (g f : Nat) (enable : Bool) (numVfs : Nat) (s : State) : State :=
  let old : Sriov := mget {} s.vif.pfs (4 * g + f)
  let on := fun (p : Sriov) (u : Nat) => p.enable && decide (viVf s u ≤ p.numVfs)
  let new : Sriov := { old with enable := enable, numVfs := numVfs }
  let gone := visWhere s fun u => viGroup s u == g && viPf s u == f && viVf s u != 0 && on old u && !on new u
  gone.foldl (fun s u => resetVi false u s) { s with vif := { s.vif with pfs := mset {} s.vif.pfs (4 * g + f) new } }

/-- VF_ENABLE_CLEAR (R349, R351): a PF that is being reset retries the request. -/
def execVfEnableClear (g : GroupId) (f : Fin 4) (enable : Bool) (numVfs : Fin 1025) (s : State) :
    Host.Outcome State Fault Refusal :=
  if !afterLock s || !groupUp s g.val then .next s
  else
    match pfVi s g.val f.val with
    | none => .next s
    | some v =>
      if (viAt s v).reset then .next (answerHost v .retry s)
      else .next (sriovWrite g.val f.val enable numVfs.val (noAnswers s))

/-- A write of VIF_RDONE (R350). DEDUCED: log entry 43. -/
def rdoneWrite (rq : Req) (value : Nat) (s : State) : State :=
  vifWrite 4 rq value (fun s =>
    let v := field value 0 12
    if decide (v < nvi s) && (viAt s v).reset then setVi v (fun x => { x with rdone := true }) s
    else vifCtlBad 4 value s) s

/-- VIF_RDONE_WRITE. -/
def execVifRdoneWrite (rq : Req) (value : Word) (s : State) : Host.Outcome State Fault Refusal :=
  .next (rdoneWrite rq value.toNat s)

/-- VI_RESET_COMPLETE (R350). -/
def execViResetComplete (v : ViId) (s : State) : Host.Outcome State Fault Refusal :=
  let x := viAt s v.val
  if x.reset && x.rdone && culvertsOf s v.val == 0 then
    .next (setVi v.val (fun x => { x with reset := false, rdone := false, late := false, from' := 0 }) s)
  else .next s

/-- VIF_FLR_LATE: 90 ms after acceptance (R350). -/
def execVifFlrLate (v : ViId) (s : State) : Host.Outcome State Fault Refusal :=
  let x := viAt s v.val
  if x.reset && !x.late then
    .next (report (viReport Code.vifFlrLate v.val [(v.val, 12), (x.flrgen, 16), (culvertsOf s v.val, 32)])
      (setVi v.val (fun x => { x with late := true }) (reachTime (x.from' + 90000000) s)))
  else .next s

/-- The STATUS word (R339). -/
def statusWord (s : State) (v : Nat) : Nat :=
  packFields [(viState s v, 2), (b2n (viShadowed s v), 1), (viNq s v, 9), (viNvec s v - 1, 6)]

/-- Four octets of the control window (R339, R340). -/
def controlWord (s : State) (v o : Nat) : Nat :=
  let x := viAt s v
  if o = 0 then statusWord s v
  else if viState s v = 2 then 0
  else if o = 4 then x.errcnt
  else if 0o100 ≤ o ∧ o < 0o500 then
    let e : ErrEnt := mget {} x.errs ((o - 0o100) / 16)
    match o % 16 / 4 with
    | 0 => e.code
    | 1 => e.detail
    | 2 => field e.time 0 32
    | _ => field e.time 32 32
  else if 0o2000 ≤ o ∧ o < 0o4000 ∧ (o - 0o2000) / 16 < viNvec s v then
    let e := vecAt s v ((o - 0o2000) / 16)
    match o % 16 / 4 with
    | 0 => field e.addr 0 32
    | 1 => field e.addr 32 32
    | 2 => e.data
    | _ => b2n e.mask
  else if o = 0o4000 ∨ o = 0o4004 then
    ((List.range 32).map fun i => if (vecAt s v (8 * (o - 0o4000) + i)).pend then 2 ^ i else 0).sum
  else 0

/-- A host read of the control window (R74, R338, R339, R349). -/
def controlRead (v off len : Nat) (s : State) : State :=
  match windowState s v with
  | 0 => unclaimedRead v s
  | 3 => answerHost v .unsupported s
  | _ =>
    if 4096 < off + len then answerHost v .unsupported s
    else
      answerHost v (.normal ((List.range len).map fun i =>
        let o := off + i
        field (controlWord s v (o / 4 * 4)) (8 * (o % 4)) 8)) s

/-- A field of the PF record of a VI's PF (R335). -/
def pfField (s : State) (v o n : Nat) : Nat := sec s 8 (64 + 32 * (4 * viGroup s v + viPf s v) + o) n

/-- The BAR of a window as it reads: 64-bit and non-prefetchable, its address a multiple of the size. PRESUMED: log entry
56. -/
def barWord (size addr : Nat) : Nat := addr % 2 ^ 64 / size * size + 4

/-- The octets of BAR0 that the VFs of a PF present (R336). -/
def vfBarSize (s : State) (v : Nat) : Nat :=
  ((visWhere s fun u => viGroup s u == viGroup s v && viPf s u == viPf s v && viVf s u != 0).head?.map (bar0Size s)).getD 4096

/-- The SR-IOV capability of a VI's PF. -/
def sriovOf (s : State) (v : Nat) : Sriov := mget {} s.vif.pfs (4 * viGroup s v + viPf s v)

/-- The capability IDs of a function (R363). PRESUMED: log entry 56. -/
def capabilityIds (pf : Bool) : List Nat := [0x10, 0x01, 0x11, 0x0E] ++ if pf then [0x0010, 0x0001, 0x0003] else []

/-- The next function in the list of functions of ARI: the next PF that exists, or 0 (R363). PRESUMED: log entry 56. -/
def ariNext (s : State) (v : Nat) : Nat :=
  if viVf s v = 0 then
    ((List.range 4).find? fun f => decide (viPf s v < f) && sec s 8 (64 + 32 * (4 * viGroup s v + f)) 1 == 1).getD 0
  else 0

/-- The VI whose Device Control holds for a VI: that of its PF, when it is reachable. -/
def controlVi (s : State) (v : Nat) : Nat := (pfVi s (viGroup s v) (viPf s v)).getD v

/-- Link Control and Link Status of a VI's group (R360): the slot clock bit is 1 with a common reference clock. PRESUMED: log
entry 56. -/
def linkWords (s : State) (v : Nat) : Nat :=
  let g := viGroup s v
  let x := groupAt s g
  packFields [(2 * b2n (viAt s v).aspmL1, 16), (x.rate, 4), (if x.width = 0 then 0 else 2 ^ (x.width - 1), 6), (0, 2),
    (1 - secX s 4 (35 + 8 * g) 1 0, 1)]

/-- What a read of an item of the configuration space returns (R335, R338, R339, R360, R363). PRESUMED: log entry 56. -/
def configItem (s : State) (v : Nat) (item : CfgItem) : List Nat :=
  let x := viAt s v
  let p := sriovOf s v
  let pf := viVf s v == 0
  let ifPf := fun (n w : Nat) => splitUnits 8 n (if pf then w else 0)
  match item with
  | .ids => splitUnits 8 4 (if pf then pfField s v 4 2 + 2 ^ 16 * pfField s v 6 2 else 2 ^ 32 - 1)
  | .vfDevice => ifPf 2 (pfField s v 8 2)
  | .subsystem => splitUnits 8 4 (pfField s v 10 2 + 2 ^ 16 * pfField s v 12 2)
  | .classCode => splitUnits 8 3 (pfField s v 14 3)
  | .command => splitUnits 8 2 (4 * b2n x.bme)
  | .bar false => ifPf 8 (barWord (bar0Size s v) x.bar0)
  | .bar true => ifPf 8 (barWord 4096 x.bar2)
  | .vfBar false => ifPf 8 (barWord (vfBarSize s v) p.vbar0)
  | .vfBar true => ifPf 8 (barWord 4096 p.vbar2)
  | .pageSizes => ifPf 4 1
  | .totalVfs => ifPf 2 (pfField s v 2 2)
  | .sriov => ifPf 4 (b2n p.enable + 2 ^ 16 * p.numVfs)
  | .power => splitUnits 8 2 (8 + if x.d3 then 3 else 0)
  | .device => splitUnits 8 2 (packFields [(0, 4), (b2n x.relax, 1), (x.mps, 3), (0, 3), (b2n x.snoopless, 1), (x.mrrs, 3)])
  | .msix => splitUnits 8 2 (packFields [(viNvec s v - 1, 11), (0, 3), (b2n x.fmask, 1), (b2n x.msixEn, 1)])
  | .msixPlaces => splitUnits 8 8 (0o2002 + 2 ^ 32 * 0o4002)
  | .capabilities => (capabilityIds pf).flatMap (splitUnits 8 2)
  | .device2 => splitUnits 8 8 (0x3001F + 2 ^ 32 * if pf then x.ctoVal.toNat + 16 * b2n x.ctoOff else 0)
  | .device3 => ifPf 4 (8 * b2n x.l0p + 16 * x.l0pWidth.toNat)
  | .link => splitUnits 8 4 (linkWords s v)
  | .aer =>
    let a := aerOf s v
    [a.unc, a.mask, a.sev, a.cor, a.corMask].flatMap fun r => ifPf 4 r.toNat
  | .serial => ifPf 8 (Config.deviceSerial (viGroup s v)).toNat
  | .ari => splitUnits 8 4 (256 * ariNext s v)

/-- What a configuration request does to a function (R338, R348, R351, R360, R363). PRESUMED: log entry
56. -/
def applyAccess (a : CfgAccess) (g v : Nat) (s : State) : State :=
  let pf := viVf s v == 0
  let setPf := fun (f : Sriov → Sriov) (s : State) =>
    { s with vif := { s.vif with pfs := mmod {} s.vif.pfs (4 * viGroup s v + viPf s v) f } }
  match a with
  | .other => s
  | .read _ => s
  | .command bme => setVi v (fun x => { x with bme := bme }) s
  | .bar second addr =>
    if !pf then s
    else setVi v (fun x => if second then { x with bar2 := addr.toNat } else { x with bar0 := addr.toNat }) s
  | .vfBar second addr =>
    if !pf then s
    else setPf (fun p => if second then { p with vbar2 := addr.toNat } else { p with vbar0 := addr.toNat }) s
  | .msix e m => setVi v (fun x => { x with msixEn := e, fmask := m }) s
  | .sriov e n => if pf then sriovWrite g (viPf s v) e n.val s else s
  | .power d3 => setVi v (fun x => { x with d3 := d3 }) s
  | .device mps mrrs relaxed noSnoop =>
    if pf && decide (mps.toNat ≤ 2) && decide (mrrs.toNat ≤ 5) then
      setVi v (fun x => { x with mps := mps.toNat, mrrs := mrrs.toNat, relax := relaxed, snoopless := noSnoop }) s
    else s
  | .timeout n off =>
    if pf && [0, 1, 2, 5, 6, 9, 10, 13, 14].contains n.toNat then setVi v (fun x => { x with ctoVal := n, ctoOff := off }) s else s
  | .aspm l1 => if pf then setVi v (fun x => { x with aspmL1 := l1 }) s else s
  | .l0p on w => if pf then setVi v (fun x => { x with l0p := on, l0pWidth := w }) s else s
  | .aerClear u c => setAer v (fun a => { a with unc := a.unc &&& ~~~u, cor := a.cor &&& ~~~c }) s
  | .aerMask m sv cm => setAer v (fun a => { a with mask := m, sev := sv, corMask := cm }) s

/-- The octets that a configuration request returns. -/
def configAnswer (a : CfgAccess) (v : Nat) (s : State) : List Nat := match a with
  | .read item => configItem s v item
  | _ => []

/-- The read requests of a culvert (R348): none longer than the Max Read Request Size that the VI's PF holds, none across a
4 KiB boundary; `f` bounds their number. PRESUMED: log entry 56. -/
def splitReads (v size : Nat) : Nat → Nat → Nat → List (Nat × Nat × Nat)
  | 0, _, _ => []
  | f + 1, a, n =>
    if n = 0 then []
    else
      let k := min n (min size (4096 - a % 4096))
      (v, a, k) :: splitReads v size f (a + k) (n - k)

/-- The Max Read Request Size in octets that holds for a VI. -/
def readSize (s : State) (v : Nat) : Nat :=
  128 * 2 ^ (((pfVi s (viGroup s v) (viPf s v)).map fun u => (viAt s u).mrrs).getD 2)

/-- The least time in nanoseconds after which a request of a VI may time out, in its range of A to D (R360); none when its
timeouts are disabled. PRESUMED: log entry 56. -/
def leastTimeout (s : State) (v : Nat) : Option Nat :=
  let x := viAt s (controlVi s v)
  if x.ctoOff then none
  else
    some (match x.ctoVal.toNat with
      | 2 => 1000000
      | 5 => 16000000
      | 6 => 65000000
      | 9 => 260000000
      | 10 => 1000000000
      | 13 => 4000000000
      | 14 => 17000000000
      | _ => 50000)

/-- The requests with which a culvert reads the host. -/
def hostReads (s : State) (v a n : Nat) : List (Nat × Nat × Nat) := splitReads v (readSize s v) (n / 64 + 2) a n

/-- HOST_CONFIG_REQUEST (R70, R74, R349): with its link down, nothing reaches the group; before the end of LOCK,
configuration requests are retried, other non-posted ones unsupported and posted ones discarded; from then on the answer
follows the state of the VI, and an AtomicOp is unsupported (R360). -/
def execHostConfigRequest (g : GroupId) (kind : HostReqKind) (v : ViId) (s : State) : Host.Outcome State Fault Refusal :=
  let g := g.val
  let v := v.val
  if !groupUp s g then .next s
  else if !afterLock s then
    match kind with
    | .config _ => .next (answerHost v .retry s)
    | .nonPosted _ _ _ => .next (answerHost v .unsupported (earlyRequest g 0 s))
    | .atomic => .next (answerHost v .unsupported (earlyRequest g 0 s))
    | .posted => .next (earlyRequest g 1 s)
  else
    match kind with
    | .config a =>
      if decide (nvi s ≤ v) || viGroup s v != g then .next (answerHost v .unsupported s)
      else if (viAt s v).reset then .next (answerHost v .retry s)
      else if !viReachable s v then .next (answerHost v .unsupported s)
      else
        let s' := applyAccess a g v (noAnswers s)
        .next (answerAlso v (.normal (configAnswer a v s)) s')
    | .nonPosted ctl off len =>
      if decide (nvi s ≤ v) || viGroup s v != g then .next (answerHost v .unsupported s)
      else .next (noteUnsupported v (if ctl then controlRead v off.val len.val s else bar0Read v off.val len.val s))
    | .atomic => .next (noteUnsupported v (answerHost v .unsupported s))
    | .posted => .next s

end Sys2Proof.Machine
end

