-- ==== Sys2Proof/Machine/Ports.lean ====
section
/-! DEFINITION. Ports.lean: lanes, host links and Ethernet ports (chapter 15, R355–R373). -/

namespace Sys2Proof.Machine

/-- Fields of the PORTS section (R356): a group's NQUAD and MAXGEN. -/
def nquad (s : State) (g : Nat) : Nat := sec s 4 (33 + 8 * g) 1
def maxGen (s : State) (g : Nat) : Nat := sec s 4 (34 + 8 * g) 1

/-- A group is present. -/
def groupPresent (s : State) (g : Nat) : Bool := groupQuad s g != 24

/-- The quads of a group. -/
def groupQuads (s : State) (g : Nat) : List Nat := (List.range (nquad s g)).map fun i => groupQuad s g + i

/-- A port's record: whether it is present, its first lane, lanes and rate. -/
def portPresent (s : State) (p : Nat) : Bool := sec s 4 (128 + 16 * p) 1 == 1
def nlane (s : State) (p : Nat) : Nat := sec s 4 (130 + 16 * p) 1
def portRate (s : State) (p : Nat) : Nat := sec s 4 (131 + 16 * p) 1
def pfcen (s : State) (p : Nat) : Nat := secX s 4 (133 + 16 * p) 1 0
def defpri (s : State) (p : Nat) : Nat := secX s 4 (134 + 16 * p) 1 0
def maxfrm (s : State) (p : Nat) : Nat := secX s 4 (140 + 16 * p) 2 9216

/-- A port's share of the ingress buffers (R356). -/
def portShare (s : State) (p : Nat) : Nat := if nlane s p = 8 then 8192 else 1024 * nlane s p

/-- XOFF and XON with their defaults (R356). -/
def xoffLine (s : State) (p : Nat) : Nat :=
  let h := match nlane s p with
    | 1 => 640
    | 2 => 1024
    | 4 => 1280
    | _ => 2048
  secX s 4 (136 + 16 * p) 2 (portShare s p - h)

def xonLine (s : State) (p : Nat) : Nat :=
  let x := xoffLine s p
  secX s 4 (138 + 16 * p) 2 (if nlane s p = 1 then x / 2 else x - 512)

/-- The quads of a port: two for an 8-lane port. -/
def portQuads (s : State) (p : Nat) : List Nat :=
  if !portPresent s p then []
  else if nlane s p = 8 then [portQuad s p, portQuad s p + 1] else [portQuad s p]

/-- A port's speed in Gb/s (R364). -/
def portSpeed (s : State) (p : Nat) : Nat := max 1 (nlane s p * portRate s p * 100)

/-- The record of a port. -/
def portAt (s : State) (p : Nat) : Port := mget {} s.prt.ports p

/-- Changes a port. -/
def setPort (p : Nat) (f : Port → Port) (s : State) : State :=
  { s with prt := { s.prt with ports := mmod {} s.prt.ports p f } }

/-- The buffers of a quad. -/
def quadAt (s : State) (q : Nat) : QuadBuf := mget {} s.prt.quads q

/-- Changes a quad's buffers. -/
def setQuad (q : Nat) (f : QuadBuf → QuadBuf) (s : State) : State :=
  { s with prt := { s.prt with quads := mmod {} s.prt.quads q f } }

/-- A report that is made at most once a second for an instance, with the events counted since the last (R373).
DEDUCED: log entry 42. -/
def limited (code inst : Nat) (fields : Nat → List (Nat × Nat)) (s : State) : State :=
  let key := 4096 * code + inst
  let (last, n) := mget ((none : Option Nat), 0) s.prt.limits key
  let now := s.isl.chron
  let due := match last with
    | none => true
    | some t => decide (t + 1000000000 ≤ now)
  let new : Option Nat × Nat := if due then (some now, 0) else (last, n + 1)
  let s := { s with prt := { s.prt with limits := mset (none, 0) s.prt.limits key new } }
  if due then report (mkReport Unit.prt Cls.reported code inst (fields (n + 1))) s else s

/-- Lanes may train or carry traffic (R66, R358): from LOCK step 5 on, until VAULT drives them idle. -/
def lanesOn (s : State) : Bool := !s.prt.idle && ((s.cfg.phase == .lock && s.wld.locked) || serving s)

/-- HPERST_N of a group is high. -/
def perstHigh (s : State) (g : Nat) : Bool := s.hperst.getLsbD g

/-- A quad has been switched off by a protection action. -/
def quadGone (s : State) (q : Nat) : Bool := mget false s.cfg.off (53 + q)

/-- The width code of a group's full width (PRT_GSTAT). -/
def fullWidth (s : State) (g : Nat) : Nat := match nquad s g with
  | 1 => 3
  | 2 => 4
  | _ => 5

/-- Sets a group's link. -/
def setGroup (g : Nat) (f : GroupLink → GroupLink) (s : State) : State :=
  { s with prt := { s.prt with groups := mmod {} s.prt.groups g f } }

/-- PRT_LINK_UP or PRT_LINK_DOWN: group or port, width, rate. -/
def linkReport (code : Nat) (l : LinkRef) (width rate : Nat) (s : State) : State :=
  match l with
  | .group g => limited code (96 + g.val) (fun _ => [(0, 1), (g.val, 3), (width, 4), (rate, 4)]) s
  | .port p => limited code (104 + p.val) (fun _ => [(1, 1), (p.val, 6), (nlane s p.val, 4), (portRate s p.val, 4)]) s

/-- The receivers of some lanes are locked and have signal, as a link that is up needs. -/
def lockLanes (first n : Nat) (s : State) : State :=
  (List.range n).foldl (fun s i =>
    let l := first + i
    let m := BitVec.ofNat 4 (2 ^ (l % 4))
    setQuad (l / 4) (fun b => { b with lock := b.lock ||| m, los := b.los &&& ~~~m }) s) s

/-- The side field of a stored line (R365). -/
def lineSide (bits : Nat) : Nat := field bits 512 64

/-- A port's occupancy in lines (R370). -/
def occupancy (s : State) (p : Nat) : Nat :=
  ((portQuads s p).map fun q => ((quadAt s q).ingress.filter fun l => lineSide l % 64 == p).length).sum

/-- A port sends a PFC frame for the classes of PFCEN (R370). -/
def sendPfc (p quanta : Nat) (s : State) : State :=
  setPort p (fun x => { x with pfcAt := s.isl.chron }) { s with prt := { s.prt with pfc := some (p, pfcen s p, quanta) } }

/-- XOFF and XON of a port after its occupancy changed (R370). -/
def flowControl (p : Nat) (s : State) : State :=
  let n := occupancy s p
  let x := portAt s p
  if pfcen s p = 0 ∨ !x.up then s
  else if !x.xoff && decide (xoffLine s p ≤ n) then sendPfc p 65535 (setPort p (fun x => { x with xoff := true }) s)
  else if x.xoff && decide (n ≤ xonLine s p) then sendPfc p 0 (setPort p (fun x => { x with xoff := false }) s)
  else s

/-- PRT_LINK_UP (R360–R362, R370, R373): a group below its full width or highest rate is also reported as degraded, and one
whose link is up may change its width or rate. DEDUCED: log entry 42. -/
def execPrtLinkUp (l : LinkRef) (width rate : BitVec 4) (s : State) : Host.Outcome State Fault Refusal :=
  if !lanesOn s then .next s
  else
    match l with
    | .group g =>
      let i := g.val
      let w := width.toNat
      let r := rate.toNat
      let full := fullWidth s i
      if !groupPresent s i || !perstHigh s i || (groupAt s i).noflit || (groupQuads s i).any (quadGone s) ||
          w == 0 || decide (full < w) || r == 0 || decide (maxGen s i < r) ||
          ((groupAt s i).width == w && (groupAt s i).rate == r) then .next s
      else
        let s := setGroup i (fun x => { x with width := w, rate := r }) s
        let s := lockLanes (4 * groupQuad s i) (2 ^ (w - 1)) s
        let s := linkReport Code.prtLinkUp l w r s
        .next (if w < full ∨ r < maxGen s i then
            limited Code.prtLinkDegraded (96 + i) (fun _ => [(i, 3), (w, 4), (r, 4)]) s
          else s)
    | .port p =>
      let i := p.val
      if !portPresent s i || (portAt s i).up || (portQuads s i).any (quadGone s) then .next s
      else
        let s := setPort i (fun x => { x with up := true, frames := 0 }) s
        .next (flowControl i (linkReport Code.prtLinkUp l 0 0 (lockLanes (sec s 4 (129 + 16 * i) 1) (nlane s i) s)))

/-- PRT_LINK_NOFLIT (R361): the group holds its link in Detect until HPERST_N next rises. -/
def execPrtLinkNoflit (g : GroupId) (s : State) : Host.Outcome State Fault Refusal :=
  let i := g.val
  if !lanesOn s || !groupPresent s i || !perstHigh s i || groupUp s i || (groupAt s i).noflit then .next s
  else
    .next (limited Code.prtLinkNoflit (96 + i) (fun _ => [(i, 3)]) (setGroup i (fun x => { x with noflit := true }) s))

/-- The frame that a port transmits when its link goes down is lost on the wire (R369). -/
def abortFrame (p : Nat) (s : State) : State :=
  match (portAt s p).tx with
  | some (len, stop) =>
    let s' := setPort p (fun x => { x with tx := none }) s
    if s.isl.chron < stop then limited Code.prtTxAbort (104 + p) (fun _ => [(p, 6), (len, 14)]) s' else s'
  | none => s

/-- A group's link goes down (R362). -/
def groupDown (g : GroupId) (s : State) : State :=
  let x := groupAt s g.val
  if x.width = 0 then s
  else linkReport Code.prtLinkDown (.group g) x.width x.rate (setGroup g.val (fun x => { x with width := 0, rate := 0 }) s)

/-- A port's link goes down; its pauses end with it. DEDUCED: log entry 42. -/
def portDown (p : PortId) (s : State) : State :=
  if !(portAt s p.val).up then s
  else
    let s := abortFrame p.val s
    let s := setPort p.val (fun x => { x with up := false, xoff := false, pause := [], paused := 0, long' := 0 }) s
    linkReport Code.prtLinkDown (.port p) 0 0 s

/-- PRT_LINK_DOWN (R351, R362): a host link down is a group reset. -/
def execPrtLinkDown (l : LinkRef) (s : State) : Host.Outcome State Fault Refusal :=
  match l with
  | .group g => if groupUp s g.val then .next (groupReset g.val (groupDown g s)) else .next s
  | .port p => .next (portDown p s)

/-- HPERST_FALL (R23, R351): the group's links stay in reset and its VIs are reset. -/
def execHperstFall (g : GroupId) (s : State) : Host.Outcome State Fault Refusal :=
  if !perstHigh s g.val then .next s
  else
    let s := { s with hperst := s.hperst &&& ~~~(BitVec.ofNat 8 (2 ^ g.val)) }
    if !groupPresent s g.val then .next s else .next (groupReset g.val (groupDown g s))

/-- HPERST_RISE (R23, R361): training may start. -/
def execHperstRise (g : GroupId) (s : State) : Host.Outcome State Fault Refusal :=
  if perstHigh s g.val then .next s
  else
    .next (setGroup g.val (fun x => { x with noflit := false })
      { s with hperst := s.hperst ||| BitVec.ofNat 8 (2 ^ g.val) })

/-- HOT_RESET: a Hot Reset on a group's link is a group reset (R351). DEDUCED: log entry 42. -/
def execHotReset (g : GroupId) (s : State) : Host.Outcome State Fault Refusal :=
  .next (if groupUp s g.val then groupReset g.val s else s)

/-- A lane belongs to a present group or port (R355, R357, R358); every other lane is in electrical idle. -/
def laneUsed (s : State) (l : Nat) : Bool :=
  ((List.range 8).any fun g => groupPresent s g && (groupQuads s g).contains (l / 4)) ||
    (List.range 64).any fun p =>
      let first := sec s 4 (129 + 16 * p) 1
      portPresent s p && decide (first ≤ l) && decide (l < first + nlane s p)

/-- PRT_LANE_FAULT (R358, R373). -/
def execPrtLaneFault (lane : Fin 96) (los : Bool) (s : State) : Host.Outcome State Fault Refusal :=
  let l := lane.val
  let m := BitVec.ofNat 4 (2 ^ (l % 4))
  let b := quadAt s (l / 4)
  let starts := if los then (b.los &&& m) == 0 else (b.lock &&& m) != 0
  if !lanesOn s || !laneUsed s l || !starts then .next s
  else
    let s := setQuad (l / 4) (fun b => if los then { b with los := b.los ||| m } else { b with lock := b.lock &&& ~~~m }) s
    .next (limited Code.prtLaneFault l (fun n => [(l, 7), (b2n (!los), 1), (satW 18 n, 18)]) s)

/-- Corrected codewords of one second exceed 1 in 10^4 (R373): a codeword of RS(544,514) carries 5,120 bits of the port's
speed. With correction bypass no codeword is corrected (R364). DEDUCED: log entry 42. -/
def fecHigh (s : State) (p corrected : Nat) : Bool :=
  secX s 4 (132 + 16 * p) 1 0 == 0 && decide (portSpeed s p * 10 ^ 9 < corrected * 5120 * 10 ^ 4)

/-- PRT_FEC_HIGH (R373). -/
def execPrtFecHigh (p : PortId) (corrected uncorrected : BitVec 18) (s : State) : Host.Outcome State Fault Refusal :=
  if !(portAt s p.val).up || !fecHigh s p.val corrected.toNat then .next s
  else
    .next (limited Code.prtFecHigh (104 + p.val)
      (fun _ => [(p.val, 6), (corrected.toNat, 18), (uncorrected.toNat, 18)]) s)

/-- Two octets, the first most significant. -/
def beAt (os : List Nat) (i : Nat) : Nat := 256 * os.getD i 0 + os.getD (i + 1) 0

/-- The class of a frame (R364). -/
def frameClass (s : State) (p : Nat) (os : List Nat) : Nat :=
  let t := beAt os 12
  if t = 0x8100 ∨ t = 0x88A8 then os.getD 14 0 / 32 else defpri s p

/-- A frame as ingress lines with their side fields (R365). -/
def frameLines (p : Nat) (os : List Nat) (err : Bool) (pri seq time : Nat) : List Nat :=
  let n := max 1 ((os.length + 63) / 64)
  (List.range n).map fun i =>
    let data := joinUnits 8 ((os.drop (64 * i)).take 64)
    let side := packFields [(p, 6), (b2n (decide (i = 0)), 1), (b2n (decide (i + 1 = n)), 1), (b2n err, 1), (pri, 3),
      (seq, 4), (os.length, 14), (time, 34)]
    data + side * 2 ^ 512

/-- A received PFC frame pauses the classes it names, for the given quanta of 512 bit times (R371). -/
def receivePfc (p classes quanta : Nat) (s : State) : State :=
  let now := s.isl.chron
  (List.range 8).foldl (fun s c =>
    if !bitOf classes c || !bitOf (pfcen s p) c then s
    else
      let q := field quanta (16 * c) 16
      let m := BitVec.ofNat 8 (2 ^ c)
      if q = 0 then
        setPort p (fun x => { x with
          pause := mset 0 (mset 0 x.pause c 0) (8 + c) 0, paused := x.paused &&& ~~~m, long' := x.long' &&& ~~~m }) s
      else
        setPort p (fun x =>
          let start := if x.paused &&& m = 0 then now else mget 0 x.pause (8 + c)
          { x with
            pause := mset 0 (mset 0 x.pause c (now + (512 * q + portSpeed s p - 1) / portSpeed s p)) (8 + c) start
            paused := x.paused ||| m }) s) s

/-- A PFC frame: EtherType 0x8808 with opcode 0x0101 (R366). PRESUMED: log entry 55. -/
def isPfc (os : List Nat) : Bool := beAt os 12 == 0x8808 && beAt os 14 == 0x0101

/-- A frame is discarded in HELM-ONLY and counted (R70, R366). -/
def helmDiscard (p : Nat) (s : State) : State := setPort p (fun x => { x with hdisc := satW 12 (x.hdisc + 1) }) s

/-- The master chronometer when the SFD of a frame arrived that has now been received whole, FCS included (R365). DEDUCED: log
entry 42. -/
def sfdTime (s : State) (p n : Nat) : Nat := s.isl.chron - (8 * (n + 4) + portSpeed s p - 1) / portSpeed s p

/-- A frame of `n` lines finds room in its port's share and in the buffer of the quad it goes to (R365, R372). -/
def frameFits (s : State) (p q n : Nat) : Bool :=
  decide (occupancy s p + n ≤ portShare s p) && decide ((quadAt s q).ingress.length + n ≤ 4096)

/-- FRAME_RECEIVE (R365, R366, R368, R372): a PFC frame without an error is consumed by its port. DEDUCED: log entry 42. -/
def execFrameReceive (p : PortId) (octets : List (BitVec 8)) (err : Bool) (s : State) :
    Host.Outcome State Fault Refusal :=
  let p := p.val
  let os := octets.map BitVec.toNat
  if !lanesOn s || !(portAt s p).up then .next s
  else if helmServing s then .next (helmDiscard p s)
  else if isPfc os && !err && decide (os.length + 4 ≤ maxfrm s p) && pfcen s p != 0 then
    let qs := joinUnits 16 ((List.range 8).map fun c => beAt os (18 + 2 * c))
    .next (receivePfc p (os.getD 17 0) qs s)
  else
    let n := os.length
    let long := decide (maxfrm s p < os.length + 4)
    let os := if long then os.take (maxfrm s p - 4) else os
    let err := err || long
    let pri := frameClass s p os
    let x := portAt s p
    let lines := frameLines p os err pri (x.frames % 16) (sfdTime s p n % 2 ^ 34)
    let qs := portQuads s p
    let q := qs.getD (x.frames % 2) (qs.headD 0)
    if !frameFits s p q lines.length then
      .next (limited Code.prtRxOverrun (104 + p) (fun n => [(p, 6), (pri, 3), (satW 18 n, 18)])
        (setPort p (fun x => { x with ovrun := satW 12 (x.ovrun + 1) }) s))
    else
      let s := setQuad q (fun b => { b with ingress := b.ingress ++ lines }) s
      let s := setPort p (fun x => { x with frames := x.frames + 1, fcs := if err then satW 12 (x.fcs + 1) else x.fcs }) s
      .next (flowControl p s)

/-- PFC_REFRESH (R370): half of the time of 65,535 quanta of 512 bits has elapsed since the newest frame. DESIGN CHOICE: log
entry 3. -/
def execPfcRefresh (p : PortId) (s : State) : Host.Outcome State Fault Refusal :=
  let x := portAt s p.val
  if x.xoff && x.up && decide (xonLine s p.val < occupancy s p.val) then
    .next (sendPfc p.val 65535 (reachTime (x.pfcAt + 65535 * 256 / portSpeed s p.val) s))
  else .next s

/-- PFC_FRAME_RECEIVE (R366, R371). -/
def execPfcFrameReceive (p : PortId) (classes : BitVec 8) (quanta : BitVec 128) (s : State) :
    Host.Outcome State Fault Refusal :=
  if lanesOn s && (portAt s p.val).up && pfcen s p.val != 0 then
    .next (if helmServing s then helmDiscard p.val s else receivePfc p.val classes.toNat quanta.toNat s)
  else .next s

/-- PAUSE_EXPIRY (R371). -/
def execPauseExpiry (p : PortId) (c : Fin 8) (s : State) : Host.Outcome State Fault Refusal :=
  let x := portAt s p.val
  let m := BitVec.ofNat 8 (2 ^ c.val)
  if x.paused &&& m = 0 then .next s
  else
    let s := reachTime (mget 0 x.pause c.val) s
    .next (setPort p.val (fun x => { x with
      pause := mset 0 (mset 0 x.pause c.val 0) (8 + c.val) 0
      paused := x.paused &&& ~~~m, long' := x.long' &&& ~~~m }) s)

/-- PRT_TX_PAUSED_LONG (R371): reported once for a class whose pause lasts for 1 s. -/
def execPrtTxPausedLong (p : PortId) (c : Fin 8) (s : State) : Host.Outcome State Fault Refusal :=
  let x := portAt s p.val
  let m := BitVec.ofNat 8 (2 ^ c.val)
  let at' := mget 0 x.pause (8 + c.val) + 1000000000
  if x.paused &&& m = 0 ∨ x.long' &&& m ≠ 0 ∨ mget 0 x.pause c.val < at' then .next s
  else
    let s := reachTime at' s
    .next (limited Code.prtTxPausedLong (104 + p.val) (fun _ => [(p.val, 6), (c.val, 3)])
      (setPort p.val (fun x => { x with long' := x.long' ||| m }) s))

/-- The frame check sequence of IEEE 802.3 over octets, as four octets in the order sent. PRESUMED: log entry 55. -/
def frameCheck (os : List Nat) : List Nat :=
  splitUnits 8 4 (crcOctets 0xEDB88320 os 0xFFFFFFFF ^^^ 0xFFFFFFFF)

/-- The octets of a frame as sent: padded to 60, with its FCS (R369). -/
def wireOctets (f : EFrame) : List Nat :=
  let data := (f.lines.flatMap fun l => splitUnits 8 64 l).take f.len
  let data := data ++ List.replicate (60 - f.len) 0
  data ++ frameCheck data

/-- One frame goes before another (R369): its first line arrived earlier, or in the same hub cycle at a lower quad. -/
def goesFirst (a b : Nat × EFrame) : Bool :=
  decide (a.2.order < b.2.order) || (a.2.order == b.2.order && decide (a.1 < b.1))

/-- The next frame that a port may send (R369, R371): in order of the arrival of first lines, none of a paused class. While
lines of it are still to come, the port waits. -/
def nextFrame (s : State) (p : Nat) : Option (Nat × EFrame) :=
  let x := portAt s p
  let cs := (portQuads s p).filterMap fun q =>
    ((quadAt s q).egress.find? fun f => f.port == p && !x.paused.getLsbD f.pri).map fun f => (q, f)
  let first := cs.foldl (fun b c => match b with
    | none => some c
    | some d => if goesFirst c d then some c else some d) none
  first.filter fun c => c.2.left == 0

/-- FRAME_TRANSMIT (R369): a frame follows the one in transmission when that has ended. DESIGN CHOICE: log entry 3. -/
def execFrameTransmit (p : PortId) (s : State) : Host.Outcome State Fault Refusal :=
  let p := p.val
  if !lanesOn s || !(portAt s p).up then .next s
  else
    match nextFrame s p with
    | none => .next s
    | some (q, f) =>
      let os := wireOctets f
      let s := match (portAt s p).tx with
        | some (_, e) => reachTime e s
        | none => s
      let dur := (8 * (os.length + 8) + portSpeed s p - 1) / portSpeed s p
      let s := setQuad q (fun b => { b with egress := b.egress.erase f }) s
      let s := setPort p (fun x => { x with tx := some (f.len, s.isl.chron + dur) }) s
      .next { s with prt := { s.prt with sent := some (p, os) } }

/-- Lines in a quad's egress buffer (R369). -/
def egressLines (s : State) (q : Nat) : Nat := ((quadAt s q).egress.map fun f => f.lines.length).sum

/-- A frame is not to be sent: its port is not one of the quad's, or its length is out of range (R369). -/
def badFrame (s : State) (q : Nat) (f : EFrame) : Bool :=
  !(portQuads s f.port).contains q || decide (f.len < 14) || decide (maxfrm s f.port < f.len + 4)

/-- A culvert line enters a quad's egress buffer in hub cycle `now` (R369): it begins a frame or continues the last one. -/
def egressPut (q bits now : Nat) (s : State) : State :=
  let b := quadAt s q
  let frames := match b.egress.getLast? with
    | some f =>
      if f.left = 0 then b.egress ++ [first]
      else b.egress.dropLast ++ [{ f with lines := f.lines ++ [bits], left := f.left - 1 }]
    | none => [first]
  match frames.getLast? with
  | none => s
  | some f =>
    if f.left = 0 ∧ badFrame s q f then
      limited Code.prtTxBad (200 + q) (fun _ => [(q, 5), (f.side, 64)])
        (setQuad q (fun b => { b with egress := frames.dropLast }) s)
    else setQuad q (fun b => { b with egress := frames }) s
where
  /-- The frame that this line begins. -/
  first : EFrame :=
    let d := lineSide bits
    let n := field d 16 14
    { port := field d 0 6, pri := field d 9 3, len := n, lines := [bits], left := (n + 63) / 64 - 1
      order := now, side := d }

/-- A culvert takes the line at the head of a quad's ingress buffer (R367, R370). -/
def ingressTake (q : Nat) (s : State) : State × Option Nat :=
  match (quadAt s q).ingress with
  | [] => (s, none)
  | l :: t => (flowControl (lineSide l % 64) (setQuad q (fun b => { b with ingress := t }) s), some l)

/-- A quad is switched off (R50): the links on it go down and its buffers are lost. -/
def quadOff (q : Nat) (s : State) : State :=
  let s := (List.finRange 8).foldl (fun s g =>
    if (groupQuads s g.val).contains q && groupUp s g.val then groupReset g.val (groupDown g s) else s) s
  let s := (List.finRange 64).foldl (fun s p => if (portQuads s p.val).contains q then portDown p s else s) s
  { s with prt := { s.prt with quads := mset {} s.prt.quads q {} } }

/-- VAULT drives every lane to electrical idle (R43, R358): every link goes down, and a host link down is a group reset
(R362). DEDUCED: log entry 42. -/
def lanesIdle (s : State) : State :=
  let s := (List.finRange 8).foldl (fun s g => if groupUp s g.val then groupReset g.val (groupDown g s) else s) s
  let s := (List.finRange 64).foldl (fun s p => portDown p s) s
  let dark := fun (b : QuadBuf) => { b with los := 0, lock := 0 }
  { s with prt := { s.prt with
    idle := true, groups := [], quads := (s.prt.quads.map fun e => (e.1, dark e.2)).filter fun e => e.2 != {} } }

end Sys2Proof.Machine
end

