-- ==== Sys2Proof/Machine/Culvert.lean ====
section
/-! DEFINITION. Culvert.lean: descriptors, transfers, conversion, CRC, cipher, completion records and aborts (chapter 12,
R295–R311). -/

namespace Sys2Proof.Machine

/-- Bits of a word of a line: word `w`, from bit `lo`, `n` bits. -/
def lw (l w lo n : Nat) : Nat := field l (36 * w + lo) n

/-- The fields of a descriptor (R297). -/
def Desc.sk (d : Desc) : Nat := lw d.l0 0 33 3
def Desc.dk (d : Desc) : Nat := lw d.l0 0 30 3
def Desc.conv (d : Desc) : Nat := lw d.l0 0 28 2
def Desc.crcOp (d : Desc) : Nat := lw d.l0 0 26 2
def Desc.csel (d : Desc) : Bool := bitOf d.l0 25
def Desc.ciph (d : Desc) : Nat := lw d.l0 0 22 3
def Desc.ext (d : Desc) : Bool := bitOf d.l0 21
def Desc.cqv (d : Desc) : Bool := bitOf d.l0 20
def Desc.afv (d : Desc) : Bool := bitOf d.l0 19
def Desc.aflag (d : Desc) : Nat := lw d.l0 0 15 4
def Desc.acore (d : Desc) : Nat := lw d.l0 0 12 3
def Desc.len (d : Desc) : Nat := if lw d.l0 1 0 25 = 0 then 2 ^ 24 else lw d.l0 1 0 25
def Desc.cht (d : Desc) : Bool := bitOf d.l0 61
def Desc.tag (d : Desc) : Nat := lw d.l0 2 0 36
def Desc.saddr (d : Desc) : Nat := lw d.l0 3 0 72
def Desc.daddr (d : Desc) : Nat := lw d.l0 5 0 72
def Desc.cq (d : Desc) : Nat := lw d.l0 7 0 20
def Desc.key (d : Desc) : Nat := lw d.l0 8 0 16
def Desc.dus (d : Desc) : Nat := lw d.l0 8 16 2
def Desc.aadlen (d : Desc) : Nat := lw d.l0 9 0 25
def Desc.crcx (d : Desc) : Nat := lw d.l0 10 0 64
def Desc.side (d : Desc) : Nat := lw d.l0 12 0 64
def Desc.dun (d : Desc) : Nat := lw d.l1 0 0 64

/-- Octets packed four to a word (descriptor line 1, record GTAG). -/
def packedOctets (l w n : Nat) : List Nat := (List.range n).map fun i => lw l (w + i / 4) (8 * (i % 4)) 8
def Desc.iv (d : Desc) : List Nat := packedOctets d.l1 0 12
def Desc.gtagX (d : Desc) : List Nat := packedOctets d.l1 4 16

/-- The octets of a data unit (R304). -/
def Desc.unit (d : Desc) : Nat := if d.dus = 0 then 512 else 4096

/-- The lines of a transfer's module side: 64 octets or quarters each. -/
def Desc.lines (d : Desc) : Nat := (d.len + 63) / 64

/-- Ciphers: XTS and GCM. -/
def Desc.isXts (d : Desc) : Bool := d.ciph == 1 || d.ciph == 2
def Desc.isGcm (d : Desc) : Bool := d.ciph == 3 || d.ciph == 4

/-- The zero bits of line 0 (R297): a number that keeps only bits outside every field. -/
def descZero (d : Desc) : Nat :=
  packFields [(lw d.l0 1 26 10, 10), (lw d.l0 7 20 16, 16), (lw d.l0 8 18 18, 18), (lw d.l0 9 25 11, 11),
    (lw d.l0 11 28 8, 8), (lw d.l0 13 28 8, 8), (lw d.l0 14 0 72, 72)]

/-- The zero bits of line 1 for the cipher in use (R297). -/
def zeroLine1 (d : Desc) : Nat :=
  if d.isXts then d.l1 / 2 ^ 64
  else if d.isGcm then
    let v := (List.range 3).foldl (fun v i => setField v (36 * i) 32 0) d.l1
    if d.ciph = 4 then (List.range 4).foldl (fun v i => setField v (36 * (4 + i)) 32 0) v else v
  else d.l1

/-- An endpoint kind is a memory (R297). -/
def memKind (k : Nat) : Bool := decide (k < 3)

/-- The zero bits of an address for its kind (R297). -/
def addrZero (k a : Nat) : Bool :=
  match k with
  | 3 => decide (a < 2 ^ 64)
  | 4 => decide (a < 32)
  | 5 => a == 0
  | _ => true

/-- R298: the cases that end a descriptor with status FORMAT, a quad number from 24 on among them. DESIGN CHOICE: log entry
74. -/
def badFormat (s : State) (d : Desc) : Bool :=
  decide (5 < d.sk) || decide (2 ^ 24 < d.len) || d.dk == 5 || decide (5 < d.dk) || d.conv == 3 || d.crcOp == 3 || decide (4 < d.ciph) ||
  decide (1 < d.dus) || descZero d != 0 || !addrZero d.sk d.saddr || !addrZero d.dk d.daddr ||
  (d.ciph != 0 && !d.ext) || (d.ext && (d.elines == 1 || zeroLine1 d != 0)) ||
  (d.sk == 3 && d.dk == 3) ||
  (memKind d.sk && d.sk == d.dk && decide (d.saddr / 64 < d.daddr / 64 + d.lines) &&
    decide (d.daddr / 64 < d.saddr / 64 + d.lines)) ||
  (memKind d.sk && d.saddr % 64 != 0) || (memKind d.dk && d.daddr % 64 != 0) ||
  (d.conv == 1 && (d.dk == 3 || d.dk == 4)) || (d.conv == 2 && (d.sk == 3 || d.sk == 4 || d.sk == 5)) ||
  (d.isXts && d.len % d.unit != 0) || (d.isGcm && decide (d.len < d.aadlen)) ||
  (d.cqv && ((qrec s d.cq).isNone || queueSec s d.cq != d.sec)) ||
  (d.sk == 4 && decide (23 < d.saddr)) || (d.dk == 4 && decide (23 < d.daddr))

/-- Changes the current descriptor of a culvert. -/
def setHead (c : Nat) (f : Held → Held) (s : State) : State :=
  setCul c (fun k => { k with held := match k.held with
    | [] => []
    | h :: t => f h :: t }) s

/-- CULVERT_DESCRIPTOR (R295, R298): a descriptor that an abort removed is held for its record (R310). -/
def execCulvertDescriptor (c : CulvertId) (s : State) : Host.Outcome State Fault Refusal :=
  let c := c.val
  let k := culAt s c
  match k.queued with
  | [] => .next s
  | d :: rest =>
    if 2 ≤ k.held.length then .next s
    else
      let h : Held :=
        if d.cut then { desc := d, stage := .pointed, status := 1 }
        else if badFormat s d then { desc := d, stage := .pointed, status := 0o10 }
        else { desc := d }
      .next (setCul c (fun k => { k with queued := rest, held := k.held ++ [h] }) s)

/-- The requester of a culvert for a descriptor's world (R17). -/
def culReq (c : Nat) (sec : Bool) : Req := ⟨BitVec.ofNat 9 (0o600 + c), sec⟩

/-- The lines of an endpoint, as physical line numbers. -/
def endLines (k a n : Nat) : List Nat := if memKind k then (List.range n).map fun i => a / 64 + i else []

/-- A line lies in the populated span of the region that a kind names (R299). -/
def lineInKind (s : State) (k l : Nat) : Bool :=
  match targetOf s (64 * l) with
  | .dram => k == 0
  | .hub => k == 1
  | .tile _ => k == 2
  | _ => false

/-- The first line of an endpoint that fails the region or world check, with its report; or the sleeping tile (R95). -/
def lineFault (s : State) (rq : Req) (k : Nat) (write : Bool) (ls : List Nat) : Option (Nat × Report) :=
  ls.findSome? fun l =>
    let a := 64 * l
    if !worldMay s rq.sec a then some (a, accessRefused a rq write)
    else if !lineInKind s k l then some (a, addrUnmapped a rq write)
    else
      match targetOf s a with
      | .tile t => if tileAsleep s t then some (a, asleepReport s t rq a) else none
      | _ => none

/-- The key type that a cipher needs is in the slot (R299, R306). -/
def keyFits (s : State) (d : Desc) : Bool :=
  let t := (mget {} s.keys d.key).typ
  if d.isXts then t == 1 || t == 2 else t == 3 || t == 4

/-- A host request of a culvert's oldest descriptor is refused (R348): logged and reported once for the descriptor. -/
def hostRefused (c v : Nat) (s : State) : State :=
  if (culAt s c).held.head?.any fun h => h.told then s
  else
    let s := setHead c (fun h => { h with told := true }) (if v < nvi s then errLog v 4 c s else s)
    report (viReport Code.vifHostRefused v [(v, 12), (c, 5), (viState s v, 2), (b2n (viAt s v).bme, 1)]) s

/-- A VI's host requests are performed (R348). -/
def hostOpen (s : State) (v : Nat) : Bool := viState s v == 1 && (viAt s v).bme

/-- The octets of a source line: quarters under CONV b10, octets otherwise (R301). -/
def lineOctets (conv bits : Nat) : List Nat :=
  if conv = 2 then (List.range 64).map fun k => field bits (9 * k) 8 else splitUnits 8 64 bits

/-- A source line in which a dropped bit of the first `n` quarters is 1 (R302). -/
def dropsBit (bits n : Nat) : Bool := (List.range n).any fun k => bitOf bits (9 * k + 8)

/-- The octets of a host read from position `n` on, as far as they have come without a gap; `f` bounds the pieces joined. -/
def hostRun (cs : List (Nat × List Nat)) : Nat → Nat → List Nat
  | 0, _ => []
  | f + 1, n =>
    match cs.find? fun x => decide (x.1 ≤ n) && decide (n < x.1 + x.2.length) with
    | none => []
    | some x =>
      let os := x.2.drop (n - x.1)
      os ++ hostRun cs f (n + os.length)

/-- Where a host read ends: at the first failing request, or with the stream (R300, R309). -/
def hostEnd (h : Held) : Nat := match h.fail with
  | some (n, _) => min n h.desc.len
  | none => h.desc.len

/-- The octets of a host read in stream order, up to its end or the first gap (R300). Under XTS a part ends with a whole
block. DEDUCED: log entry 33. -/
def hostStream (h : Held) : List Nat :=
  let os := (hostRun h.octets (h.octets.length + 1) 0).take (hostEnd h)
  if h.desc.isXts then os.take (os.length / 16 * 16) else os

/-- The octets of a frame that its last line holds (R365). -/
def lastOctets (n : Nat) : Nat := if n = 0 then 0 else (n + 63) % 64 + 1

/-- The stream that the received source lines supply (R301, R367): with a quad source, the line marked LAST ends it with
the frame's octets. -/
def sourceStream (d : Desc) (h : Held) (n : Nat) : List Nat :=
  let os :=
    if d.sk = 3 then hostStream h
    else if d.sk = 5 then List.replicate d.len 0
    else (List.range n).flatMap fun i =>
      let l := mget 0 h.got i
      let o := lineOctets d.conv l
      if d.sk = 4 ∧ bitOf (lineSide l) 7 then o.take (lastOctets (field (lineSide l) 16 14)) else o
  os.take d.len

/-- Key material as octets. -/
def keyOctets (k : KeySlot) (lo n : Nat) : List Nat := splitUnits 8 n (k.mat.toNat / 2 ^ (8 * lo))

/-- XTS or GCM over the stream (R304, R305): the result and the tag. A stream that a frame ended short has its last block
enciphered as it stands. DESIGN CHOICE: log entry 74. -/
def cipher (d : Desc) (k : KeySlot) (os : List Nat) : List Nat × List Nat :=
  if d.isXts then
    let n := if k.typ = 1 then 16 else 32
    (Aes.xts (d.ciph == 1) (keyOctets k 0 n) (keyOctets k n n) d.unit d.dun os, [])
  else if d.isGcm then
    let n := if k.typ = 3 then 16 else 32
    let aad := os.take d.aadlen
    let (out, tag) := Aes.gcm (d.ciph == 3) (keyOctets k 0 n) d.iv aad (os.drop d.aadlen)
    (aad ++ out, tag)
  else (os, [])

/-- The destination lines of a stream (R301, R302): `sides` are the source lines' side fields. -/
def outItems (d : Desc) (os : List Nat) (sides : Nat → Nat) : List OutItem :=
  (List.range ((os.length + 63) / 64)).map fun i =>
    let o := (os.drop (64 * i)).take 64
    let n := o.length
    let kind :=
      if d.dk = 3 then OutKind.host (d.daddr + 64 * i) o
      else if d.dk = 4 then OutKind.quad (d.daddr % 32) (joinUnits 8 o + sides i * 2 ^ 512)
      else if d.conv = 1 then OutKind.mem (d.daddr / 64 + i) [(0, 9 * n, joinUnits 9 o)]
      else if n = 64 then OutKind.mem (d.daddr / 64 + i) [(0, 576, joinUnits 8 o + sides i * 2 ^ 512)]
      else OutKind.mem (d.daddr / 64 + i) [(0, 8 * n, joinUnits 8 o), (512, 64, sides i)]
    ⟨kind, n⟩

/-- The side field of destination line `i` (R302). -/
def sideOf (d : Desc) (h : Held) (i : Nat) : Nat :=
  if d.conv = 0 ∧ (memKind d.sk ∨ d.sk = 4) then lineSide (mget 0 h.got i) else d.side

/-- The quad whose port a host line of a VI takes, by its place in the transfer (R359). -/
def hostPort (s : State) (v i : Nat) : Nat :=
  let g := viGroup s v
  portQuad' (groupQuad s g + i % max 1 (nquad s g))

/-- The crossbar port to which destination line `i` of a transfer leaves (R296, R359). -/
def outPort (s : State) (d : Desc) (i : Nat) (o : OutItem) : Nat :=
  match o.kind with
  | .mem l _ => portOfLine l
  | .quad q _ => portQuad' q
  | .host _ _ => hostPort s d.vi i

/-- Source lines of a culvert that are still bound, and host lines on their way to it, are withdrawn: after a frame's last
line (R367), and when a transfer has ended early (R309). -/
def unbindSource (c : Nat) (s : State) : State :=
  { s with slc := { s.slc with bound := s.slc.bound.filter fun b => match b.cargo with
    | .source c' _ _ => c' != c
    | .host c' _ _ => c' != c
    | _ => true } }

/-- The whole source has been received, or its readable part (R301–R305, R309): the stream is deciphered, checked and
enciphered, and its destination lines become bound. DEDUCED: log entry 33. -/
def finishSource (c : Nat) (s : State) : State :=
  match (culAt s c).held with
  | [] => s
  | h :: _ =>
    let d := h.desc
    let n := match h.fail with
      | some (i, _) => min i h.need
      | none => h.need
    let src := sourceStream d h n
    let k : KeySlot := mget {} s.keys d.key
    let dec := d.ciph == 2 || d.ciph == 4
    let (fin, tag) := cipher d k src
    let plain := if dec then fin else src
    let crc := if d.crcOp = 0 then 0 else if d.csel then crc64 plain else crc32c plain
    let outs := outItems d fin (sideOf d h)
    let trunc := ((List.range n).filter fun i => dropsBit (mget 0 h.got i) (min 64 (d.len - 64 * i))).length
    let bad := d.crcOp == 2 && crc != (if d.csel then d.crcx else d.crcx % 2 ^ 32)
    let auth := d.ciph == 4 && tag != d.gtagX
    let whole := h.fail.isNone
    let status := if whole then (if auth then 0o4 else if bad then 0o3 else 0) else h.failSt
    let s := setHead c (fun h => { h with
      outs := outs, ready := true, ntrunc := if d.conv = 2 then trunc else 0, status := status
      crc := if whole then crc else 0, gtag := if whole then joinUnits 8 tag else 0
      eaddr := (h.fail.map fun f => f.2).getD 0 }) (unbindSource c s)
    if outs = [] then setHead c (fun h => { h with stage := .pointed }) s
    else
      bindAll ((outs.zipIdx).map fun p => ⟨portCulvert c, outPort s d p.2 p.1, s.slc.cycle, .dest c⟩) s

/-- Host read requests of a group that are outstanding, of descriptors held and of those whose record is written (R360).
PRESUMED: log entry 56. -/
def outstanding (s : State) (g : Nat) : Nat :=
  (s.cul.culs.map fun e => match e.2.held with
    | [] => 0
    | h :: _ => if viGroup s h.desc.vi = g then h.reqs.length else 0).sum +
  (s.cul.late.filter fun r => viGroup s r.vi == g).length

/-- The source of a host read is complete once every octet before its end has come. -/
def hostWhole (c : Nat) (s : State) : State :=
  match (culAt s c).held with
  | [] => s
  | h :: _ =>
    if h.stage = .moving ∧ h.desc.sk = 3 ∧ !h.ready ∧ hostEnd h ≤ (hostRun h.octets (h.octets.length + 1) 0).length
    then finishSource c s else s

/-- A host read request of the current descriptor ends in an error (R309): the octets before it are written, and the record
names the first failing address. -/
def hostFailed (c addr : Nat) (s : State) : State :=
  match (culAt s c).held with
  | [] => s
  | h :: _ =>
    if h.stage = .moving ∧ h.desc.sk = 3 ∧ !h.ready then
      let n := addr - h.desc.saddr
      if hostEnd h ≤ n ∨ addr < h.desc.saddr then s
      else hostWhole c (setHead c (fun h => { h with fail := some (n, addr), failSt := 0o14, unasked := [] }) s)
    else s

/-- The requests not yet sent, as the Max Read Request Size that holds now splits them (R348). -/
def resplit (s : State) (v : Nat) (rs : List (Nat × Nat)) : List (Nat × Nat) :=
  rs.flatMap fun r => if r.2 ≤ readSize s v then [r] else (hostReads s v r.1 r.2).map fun x => x.2

/-- A culvert sends the host read requests for which its group has room: at most 768 are outstanding (R360). One of a VI that
may not send any is refused (R348). -/
def askOne (c : Nat) (s : State) : State :=
  match (culAt s c).held with
  | [] => s
  | h :: _ =>
    let v := h.desc.vi
    let left := resplit s v h.unasked
    match left.take (768 - outstanding s (viGroup s v)) with
    | [] => s
    | r :: rest =>
      if !hostOpen s v then hostFailed c r.1 (hostRefused c v s)
      else
        let now := r :: rest
        setHead c (fun h => { h with
            unasked := left.drop now.length, reqs := h.reqs ++ now.map fun r => (r.1, r.2, s.isl.chron) })
          { s with cul := { s.cul with asked := s.cul.asked ++ now.map fun r => (v, r.1, r.2) } }

/-- The culverts send the host read requests that may go out. DESIGN CHOICE: log entry 70. -/
def askHost (s : State) : State :=
  (List.range 32).foldl (fun s c => askOne c s) { s with cul := { s.cul with asked := [] } }

/-- DESCRIPTOR_START (R299, R300, R348): the checks in order, then the source's lines become bound, or the host is asked for
them. DEDUCED: log entry 33. The lines of the source come before those of the destination. DESIGN CHOICE: log entry 73. -/
def execDescriptorStart (c : CulvertId) (s : State) : Host.Outcome State Fault Refusal :=
  let c := c.val
  match (culAt s c).held with
  | [] => .next s
  | h :: _ =>
    let d := h.desc
    let rq := culReq c d.sec
    if h.stage ≠ .waiting then .next s
    else
      match lineFault s rq d.sk false (endLines d.sk d.saddr d.lines), lineFault s rq d.dk true (endLines d.dk d.daddr d.lines) with
      | some (a, r), _ => .next (endTransfer c 0o11 a (report r s))
      | none, some (a, r) => .next (endTransfer c 0o11 a (report r s))
      | none, none =>
        if d.ciph ≠ 0 ∧ !d.sec ∧ d.key < s.wld.kwm then
          .next (endTransfer c 0o11 0 (report (mkReport Unit.cul Cls.reported Code.wldKeyRefused c
            [(0, 1), (c, 5), (d.key, 16), (d.queue, 20)]) s))
        else if d.ciph ≠ 0 ∧ !keyFits s d then .next (endTransfer c 0o12 0 s)
        else if (d.sk = 3 ∨ d.dk = 3) ∧ !hostOpen s d.vi then
          .next (endTransfer c 0o14 (if d.sk = 3 then d.saddr else d.daddr) (hostRefused c d.vi s))
        else
          let n := d.lines
          let s := setHead c (fun h => { h with stage := .moving, need := if d.sk = 3 ∨ d.sk = 5 then 0 else n }) s
          if d.sk = 5 then .next (finishSource c s)
          else if d.sk = 3 then
            .next (askHost (setHead c (fun h => { h with unasked := (hostReads s d.vi d.saddr d.len).map fun r => r.2 }) s))
          else
            .next (bindAll ((List.range n).map fun i =>
              if d.sk = 4 then (⟨portQuad' (d.saddr % 32), portCulvert c, s.slc.cycle, .source c i none⟩ : BLine)
              else ⟨portOfLine (d.saddr / 64 + i), portCulvert c, s.slc.cycle, .source c i (some (d.saddr / 64 + i))⟩) s)

/-- A core that halted on a dirty parity fault, which was found in this line, holds it, and it is lost (R222, R309). -/
def lostToParity (s : State) (l : Nat) : Bool :=
  s.cores.any fun e => e.2.fatal && (dFrame s e.1 l).any fun f => f.2.dirty && bitOf f.2.bad 18

/-- A source line reaches a culvert (R301, R309, R367). -/
def receiveSource (c idx : Nat) (line : Option Nat) (s : State) : State :=
  match (culAt s c).held with
  | [] => s
  | h :: _ =>
    let d := h.desc
    let rq := culReq c d.sec
    match line with
    | none =>
      let (s, v) := ingressTake (d.saddr % 32) s
      let bits := v.getD 0
      let last := bitOf (lineSide bits) 7
      let s := setHead c (fun h => { h with got := mset 0 h.got idx bits, need := if last then idx + 1 else h.need }) s
      if last ∨ idx + 1 = h.need then finishSource c s else s
    | some l =>
      match targetOf s (64 * l) with
      | .tile t => if tileRunning s t then take rq l s else gone l (report (asleepReport s t rq (64 * l)) s)
      | .unmapped => gone l (report (addrUnmapped (64 * l) rq false) s)
      | _ => take rq l s
where
  /-- The tile left the run state (R309): this line and all later ones are not read. -/
  gone (l : Nat) (s : State) : State :=
    reached (setHead c (failing 0o11 l) { s with slc := { s.slc with bound := s.slc.bound.filter fun b => match b.cargo with
      | .source c' i _ => c' != c || decide (i ≤ idx)
      | _ => true } })
  /-- The line fails with a status, which the record gives unless an earlier line fails (R309). -/
  failing (st l : Nat) (h : Held) : Held :=
    if (match h.fail with
      | none => true
      | some (i, _) => decide (idx < i)) then { h with fail := some (idx, 64 * l), failSt := st } else h
  /-- The source is complete once none of its other lines is bound. -/
  reached (s : State) : State :=
    let left := s.slc.bound.any fun b => match b.cargo with
      | .source c' i _ => c' == c && i != idx
      | _ => false
    if left then s else finishSource c s
  /-- The line is read and kept, or marks where the readable part ends. -/
  take (rq : Req) (l : Nat) (s : State) : State :=
    let (s, v, bad) := readMemLine rq l s
    reached (setHead c (fun h => if bad || lostToParity s l then failing 0o13 l h else { h with got := mset 0 h.got idx v }) s)

/-- Octets of the host reach the culvert through the crossbar (R296, R300). -/
def hostCarried (c off : Nat) (os : List Nat) (s : State) : State :=
  hostWhole c (setHead c (fun h => { h with octets := h.octets ++ [(off, os)] }) s)

/-- Octets that the host has sent, as lines bound for the culvert (R296, R359). DEDUCED: log entry 33. -/
def hostLines (s : State) (c v off : Nat) (os : List Nat) : List BLine :=
  (List.range ((os.length + 63) / 64)).map fun i =>
    ⟨hostPort s v (off / 64 + i), portCulvert c, s.slc.cycle, .host c (off + 64 * i) ((os.drop (64 * i)).take 64)⟩

/-- The host read request of a culvert that holds an address. -/
def requestAt (s : State) (c a : Nat) : Option (Nat × Nat × Nat) :=
  match (culAt s c).held with
  | [] => none
  | h :: _ => h.reqs.find? fun r => decide (r.1 ≤ a) && decide (a < r.1 + r.2.1)

/-- The host read requests that an answer completes are no longer outstanding: those whose last octet stands in `n` octets
from an address, since the octets of one request come in order. PRESUMED: log entry 56. -/
def answered (c a n : Nat) (s : State) : State :=
  setHead c (fun h => { h with reqs := h.reqs.filter fun r => !(decide (a < r.1 + r.2.1) && decide (r.1 + r.2.1 ≤ a + n)) }) s

/-- The host read request that holds an address ended in an error: it is no longer outstanding. -/
def withdrawn (c a : Nat) (s : State) : State :=
  setHead c (fun h => { h with reqs := h.reqs.filter fun r => !(decide (r.1 ≤ a) && decide (a < r.1 + r.2.1)) }) s

/-- Requests of a culvert whose record is written are received and discarded (R349, R360). PRESUMED: log entry 56. -/
def lateAnswered (c : Nat) (done : LateReq → Bool) (s : State) : State :=
  { s with cul := { s.cul with late := s.cul.late.filter fun r => !(r.cul == c && done r) } }

/-- An answer that no request of the current descriptor awaits completes one of a descriptor before it. PRESUMED: log
entry 56. -/
def lateCompletion (c off n : Nat) (error : Option Nat) (s : State) : State := match error with
  | some a => lateAnswered c (fun r => decide (r.addr ≤ a) && decide (a < r.addr + r.len)) s
  | none => lateAnswered c (fun r => decide (r.base + off < r.addr + r.len) && decide (r.addr + r.len ≤ r.base + off + n)) s

/-- The current descriptor of a culvert awaits the host. -/
def awaitsHost (s : State) (c : Nat) : Option Held := (culAt s c).held.head?.filter fun h => h.desc.sk == 3 && !h.reqs.isEmpty

/-- HOST_COMPLETION (R300, R309, R349, R360): octets of the stream from a position on, or an error for a request at an
address; what the current descriptor does not await completes a request of one before it. -/
def execHostCompletion (c : CulvertId) (x : HostOctets) (error : Option (BitVec 64)) (s : State) :
    Host.Outcome State Fault Refusal :=
  match awaitsHost s c.val with
  | none => .next (askHost (lateCompletion c.val x.off.toNat x.octets.length (error.map BitVec.toNat) s))
  | some h =>
    match error with
    | some a =>
      .next (askHost (if (requestAt s c.val a.toNat).isNone then lateCompletion c.val 0 0 (some a.toNat) s
        else hostFailed c.val a.toNat (withdrawn c.val a.toNat s)))
    | none =>
      let os := (x.octets.map BitVec.toNat).take (h.desc.len - x.off.toNat)
      let s := askHost (answered c.val (h.desc.saddr + x.off.toNat) os.length s)
      .next (if h.stage = .moving ∧ !h.ready then bindAll (hostLines s c.val h.desc.vi x.off.toNat os) s else s)

/-- COMPLETION_TIMEOUT (R309, R360): an outstanding request of a VI whose timeouts are not disabled. DESIGN CHOICE: log entry
3. -/
def execCompletionTimeout (c : CulvertId) (addr : BitVec 64) (s : State) : Host.Outcome State Fault Refusal :=
  let a := addr.toNat
  let timeOut := fun (v sent : Nat) (act : State → State) => match leastTimeout s v with
    | none => s
    | some t => askHost (act (aerError v 14 (reachTime (sent + t) s)))
  match (culAt s c.val).held, requestAt s c.val a with
  | h :: _, some r => .next (timeOut h.desc.vi r.2.2 fun s => hostFailed c.val a (withdrawn c.val a s))
  | _, _ =>
    match s.cul.late.find? fun r => r.cul == c.val && decide (r.addr ≤ a) && decide (a < r.addr + r.len) with
    | some r => .next (timeOut r.vi r.sent (lateCompletion c.val 0 0 (some a)))
    | none => .next s

/-- The base of the CHART section's record of a world (R312). -/
def chartRec (sec : Bool) : Nat := if sec then 8 else 72

/-- KEYW, KWORD and KMASK word `i` of a world (R312). -/
def chartKeyw (s : State) (w : Bool) : Nat := sec s 7 (chartRec w + 1) 1
def chartKword (s : State) (w : Bool) : Nat := secX s 7 (chartRec w + 2) 1 0
def chartKmask (s : State) (w : Bool) (i : Nat) : Nat := sec s 7 (chartRec w + 24 + 5 * i) 5 % 2 ^ 36

/-- The key words of a line, masked (R320). -/
def lineKey (s : State) (w : Bool) (bits : Nat) : Nat :=
  ((List.range (chartKeyw s w)).map fun i =>
    (lw bits (chartKword s w + i) 0 36 &&& chartKmask s w i) * 2 ^ (36 * i)).sum

/-- The stored bits of a destination line as launched, for a lookup key. What lies beyond LEN is taken as zeros. DESIGN
CHOICE: log entry 73. -/
def outBits (o : OutItem) : Nat :=
  match o.kind with
  | .mem _ parts => parts.foldl (fun v p => setField v p.1 p.2.1 p.2.2) 0
  | .host _ os => joinUnits 8 os
  | .quad _ b => b

/-- The first destination line of a descriptor with CHT = 1 is also a lookup key (R320). -/
def offerKey (c : Nat) (h : Held) (o : OutItem) (s : State) : State :=
  if h.desc.cht ∧ h.done = 0 then
    let k := lineKey s h.desc.sec (outBits o)
    let n := s.cul.looks
    setHead c (fun h => { h with key := some k, lookup := n })
      { s with cul := { s.cul with lane := s.cul.lane ++ [⟨c, h.desc.sec, k, n⟩], looks := n + 1 } }
  else s

/-- The statuses with which a transfer sets its arrival flag and writes a lookup element (R308, R323). -/
def endsWell (st : Nat) : Bool := st == 0 || st == 3 || st == 4

/-- The bits that the parts of a destination line write, as far as one of them is the whole line (R383). -/
def partsWidth (parts : List (Nat × Nat × Nat)) : Nat := (parts.head?.map fun p => p.2.1).getD 576

/-- The next destination line of a culvert is launched (R301, R307–R309, R317, R320): a line that the DRAM controller refuses
has been launched, and offers its key. DEDUCED: log entry 33. -/
def launchDest (c : Nat) (s : State) : State :=
  match (culAt s c).held with
  | [] => s
  | h :: _ =>
    match h.outs with
    | [] => s
    | o :: rest =>
      let d := h.desc
      let rq := culReq c d.sec
      let went := fun (s : State) =>
        setHead c (fun h => { h with
          outs := rest, done := h.done + o.octets, last := false, stage := if rest = [] then .pointed else h.stage })
          (offerKey c h o s)
      match o.kind with
      | .mem l parts =>
        let s := touch l s
        match targetOf s (64 * l) with
        | .dram =>
          if tableLine s l then endTransfer c 0o11 (64 * l) (dramPut rq l 0 576 (outBits o) (offerKey c h o s))
          else withOutcome (.culvert c) l (fun s =>
            if parts.any fun p => mergeMarked s l p.2.1 then endTransfer c 0o13 (64 * l) (dramPut rq l 0 9 0 (offerKey c h o s))
            else went (parts.foldl (fun s p => dramPut rq l p.1 p.2.1 p.2.2 s) s)) s
        | .hub => went (parts.foldl (fun s p => hubPut l p.1 p.2.1 p.2.2 s) s)
        | .tile t =>
          if !tileRunning s t then endTransfer c 0o11 (64 * l) (report (asleepReport s t rq (64 * l)) s)
          else
            let flag := if rest = [] ∧ d.afv ∧ endsWell h.status then some (d.acore, d.aflag) else none
            went { s with slc := { s.slc with xing := s.slc.xing ++ [{ tile := t, line := l, parts := parts, rq := rq, flag := flag }] } }
        | _ => endTransfer c 0o11 (64 * l) (report (addrUnmapped (64 * l) rq true) s)
      | .quad q b => went (egressPut q b (if h.last then h.lastAt else s.slc.cycle) s)
      | .host a os =>
        if hostOpen s d.vi then went { s with cul := { s.cul with wrote := some (d.vi, a, os) } }
        else endTransfer c 0o14 a (hostRefused c d.vi s)

/-- A connection for the culvert's next destination line comes (R268): the last line's launch is the completion point,
CULVERT_COMPLETION_POINT. -/
def destConnected (c : Nat) (s : State) : State :=
  match (culAt s c).held with
  | [] => s
  | h :: _ => if h.outs.length = 1 then setHead c (fun h => { h with last := true, lastAt := s.slc.cycle }) s else launchDest c s

/-- A destination line of culvert `c` can be taken where it goes: by its DRAM channel, or by a quad's egress buffer of 1,024
lines (R369, R383, R384), and no other request has reached it in this hub cycle (R12). -/
def outTakes (s : State) (c : Nat) (o : OutItem) : Bool :=
  match o.kind with
  | .mem l parts => writeTakes s (.culvert c) l (partsWidth parts) && !s.slc.touched.contains l
  | .quad q _ => decide (egressLines s q < 1024)
  | .host _ _ => true

/-- A destination line that is not taken starts the exit of its channel, or asks for its merge read (R383, R397). -/
def outWakes (c : Nat) (o : OutItem) (s : State) : State :=
  match o.kind with
  | .mem l parts => askWrite (.culvert c) (culReq c ((culAt s c).held.head?.any fun h => h.desc.sec)) l (partsWidth parts) s
  | _ => s

/-- CULVERT_COMPLETION_POINT (R240, R307, R369, R384, R397): a last line that is not taken waits. DEDUCED: log entry 33. -/
def execCulvertCompletionPoint (c : CulvertId) (s : State) : Host.Outcome State Fault Refusal :=
  match (culAt s c.val).held with
  | [] => .next s
  | h :: _ =>
    .next (if h.stage = .moving ∧ h.last then
      (match h.outs with
        | o :: _ =>
          if outTakes s c.val o then launchDest c.val s
          else setHead c.val (fun h => { h with lastAt := s.slc.cycle }) (outWakes c.val o s)
        | [] => s)
    else s)

/-- The completion record (R308); NTRUNC of 262,144 lines reads 0 in its 18 bits. DESIGN CHOICE: log entry 74. -/
def recordBits (c : Nat) (h : Held) : Nat :=
  let st := h.status
  let show' := st == 0 || st == 2 || st == 3 || st == 4
  packFields [(h.done, 25), (c, 5), (st, 6), (h.desc.tag, 36), (if show' then h.crc else 0, 72), (h.ntrunc, 18), (0, 18),
    (h.eaddr, 72), (0, 36)] + (if show' then gtagWords h.gtag else 0) * 2 ^ (36 * 8)
where
  /-- Four octets to a word, each in 8 bits. -/
  gtagWords (g : Nat) : Nat :=
    ((List.range 16).map fun i => field g (8 * i) 8 * 2 ^ (36 * (i / 4) + 8 * (i % 4))).sum

/-- The module writes of a culvert are visible to all requesters (R307): none is in a crossing. -/
def writesVisible (s : State) (c : Nat) : Bool := !s.slc.xing.any fun x => x.rq.code.toNat == 0o600 + c

/-- A lookup element is still to be written before the record (R323). -/
def elementDue (h : Held) : Bool := h.key.isSome && !h.elem && (endsWell h.status || h.status == 2)

/-- The oldest descriptor of a culvert is no longer held; its host reads that are not answered stay outstanding (R349,
R360). PRESUMED: log entry 56. -/
def dropHead (c : Nat) (s : State) : State :=
  let late := match (culAt s c).held with
    | [] => []
    | h :: _ => h.reqs.map fun r => ({ cul := c, vi := h.desc.vi, base := h.desc.saddr, addr := r.1, len := r.2.1, sent := r.2.2 } : LateReq)
  setCul c (fun k => { k with held := k.held.drop 1 }) { s with cul := { s.cul with late := s.cul.late ++ late } }

/-- The record of the oldest descriptor is formed (CUL_STATc.LSTAT). -/
def formRecord (c : Nat) (h : Held) (s : State) : State := setCul c (fun k => { k with lstat := h.status }) s

/-- CUL_NO_RECORD with the record's words 0 and 1 (R308). -/
def noRecord (c : Nat) (h : Held) : Report := mkReport Unit.cul Cls.reported Code.culNoRecord c [(recordBits c h % 2 ^ 72, 72)]

/-- COMPLETION_RECORD_WRITE (R307, R308): the record waits for ring room; without a record, or with a CQ in which none can
be written (R298), a status other than OK is reported. DEDUCED: log entry 33. -/
def execCompletionRecordWrite (c : CulvertId) (s : State) : Host.Outcome State Fault Refusal :=
  let c := c.val
  match (culAt s c).held with
  | [] => .next s
  | h :: _ =>
    let d := h.desc
    if h.stage ≠ .pointed ∨ !writesVisible s c ∨ elementDue h then .next s
    else
      let s := formRecord c h s
      if !d.cqv ∨ (qrec s d.cq).isNone ∨ queueSec s d.cq ≠ d.sec then
        .next (dropHead c (reportIf (h.status != 0) (noRecord c h) s))
      else if !ringRoom s d.cq then
        .next (reportIf (!h.full) (mkReport Unit.cul Cls.reported Code.culCqFull c [(c, 5), (d.cq, 20), (d.tag, 36)])
          (setHead c (fun h => { h with full := true }) s))
      else if elementHeld s d.cq then .next (wakeElement d.cq s)
      else .next (dropHead c (writeElement (culReq c d.sec) d.cq (recordBits c h) s))

/-- Sets the abort outcome that a world reads (R310). -/
def abortAnswer (rq : Req) (c n : Nat) (s : State) : State :=
  setCul c (fun k => if rq.sec then { k with astatS := n } else { k with astatN := n }) s

/-- An abort reaches the oldest held descriptor (R310). -/
def abortCurrent (c : Nat) (h : Held) (s : State) : State × Nat :=
  match h.stage with
  | .waiting => (setHead c (fun h => { h with stage := .pointed, status := 1 }) s, 1)
  | .moving => (endTransfer c 1 0 s, 1)
  | .pointed =>
    let noFlag := fun (x : XItem) => if x.rq.code.toNat = 0o600 + c then { x with flag := none } else x
    if h.status = 0 then
      (setHead c (fun h => { h with status := 2 }) { s with slc := { s.slc with xing := s.slc.xing.map noFlag } }, 3)
    else (s, 3)

/-- An abort reaches a descriptor that waits behind the oldest (R310): it never starts. -/
def abortWaiting (c i : Nat) (h : Held) (s : State) : State :=
  setCul c (fun k => { k with held := k.held.set i { h with stage := .pointed, status := 1 } }) s

/-- An abort reaches an element that is whole and not yet checked, or one whose lines still cross (R295, R310): it keeps its
place among the descriptors. -/
def abortComing (rq : Req) (c tag : Nat) (s : State) : State × Nat :=
  let k := culAt s c
  let mine := fun (d : Desc) => d.tag == tag && (rq.sec || !d.sec)
  match k.queued.findIdx? mine with
  | some i =>
    (setCul c (fun k => { k with queued := k.queued.modify i fun d => { d with cut := true } }) s, 1)
  | none =>
    match (coming s c).find? fun e => lw (comingLine s c e) 2 0 36 == tag && (rq.sec || !queueSec s (e / 16)) with
    | some e => (setCul c (fun k => { k with cut := e :: k.cut }) s, 1)
    | none => (s, 2)

/-- A write of CUL_ABORTc (R310): the first descriptor held whose TAG matches and whose queue's world the writer may use. -/
def abortWrite (rq : Req) (c tag : Nat) (s : State) : State :=
  if !reach rq s then s
  else
    let r := match (culAt s c).held.findIdx? fun h => h.desc.tag == tag && (rq.sec || !h.desc.sec) with
      | none => abortComing rq c tag s
      | some i =>
        match (culAt s c).held[i]? with
        | none => (s, 2)
        | some h => if i = 0 then abortCurrent c h s else (abortWaiting c i h s, 1)
    abortAnswer rq c r.2 r.1

/-- CULVERT_ABORT (R310). -/
def execCulvertAbort (rq : Req) (c : CulvertId) (tag : Word) (s : State) : Host.Outcome State Fault Refusal :=
  .next (abortWrite rq c.val tag.toNat s)

/-- The key buffer of a world. -/
def keyBuf (s : State) (sec : Bool) : BitVec 512 := if sec then s.cul.kbufS else s.cul.kbufN

/-- Sets the key buffer of a world. -/
def setKeyBuf (sec : Bool) (v : BitVec 512) (s : State) : State :=
  { s with cul := if sec then { s.cul with kbufS := v } else { s.cul with kbufN := v } }

/-- The octets of material that a key type has (R306). -/
def keyLength (t : Nat) : Nat := match t with
  | 1 => 32
  | 2 => 64
  | 3 => 16
  | _ => 32

/-- CUL_KCMD_REFUSED: the written value (R306). -/
def kcmdRefused (value : Nat) (s : State) : State :=
  report (mkReport Unit.cul Cls.reported Code.culKcmdRefused 0 [(value, 36)]) s

/-- A write of CUL_KCMD (R238, R306). DEDUCED: log entry 37. -/
def kcmdWrite (rq : Req) (value : Nat) (s : State) : State :=
  if !reach rq s then s
  else
    let op := field value 34 2
    let typ := field value 31 3
    let slot := field value 0 16
    if op = 0 ∨ op = 3 then s
    else
      let zero := setKeyBuf rq.sec 0
      if decide (slot < s.wld.kwm) != rq.sec then
        report (mkReport Unit.cul Cls.reported Code.wldKeyRefused 0
          [(1, 1), (rq.code.toNat, 9), (slot, 16)]) s
      else if op = 2 then zero { s with keys := mset {} s.keys slot {} }
      else if typ = 0 ∨ 4 < typ then kcmdRefused value s
      else
        let m : BitVec 512 := BitVec.ofNat 512 ((keyBuf s rq.sec).toNat % 2 ^ (8 * keyLength typ))
        zero { s with keys := mset {} s.keys slot ⟨typ, m⟩ }

/-- KEY_LOAD (R306). DEDUCED: log entry 37. -/
def execKeyLoad (rq : Req) (typ : BitVec 3) (slot : BitVec 16) (s : State) : Host.Outcome State Fault Refusal :=
  .next (kcmdWrite rq (packFields [(slot.toNat, 16), (0, 15), (typ.toNat, 3), (1, 2)]) s)

/-- KEY_EMPTY (R306). -/
def execKeyEmpty (rq : Req) (slot : BitVec 16) (s : State) : Host.Outcome State Fault Refusal :=
  .next (kcmdWrite rq (packFields [(slot.toNat, 16), (0, 15), (0, 3), (2, 2)]) s)

/-- At the tide boundary at which VAULT begins, every held descriptor and record is abandoned (R311), and
every drain line in flight is dropped (R426). -/
def abandonCulverts (s : State) : State :=
  let mine := fun (b : BLine) => match b.cargo with
    | .source _ _ _ => true
    | .dest _ => true
    | .host _ _ _ => true
    | .drain _ _ _ => true
    | _ => false
  { s with
    cul := { s.cul with
      culs := (s.cul.culs.map fun e => (e.1, { e.2 with held := [], queued := [], lines := [], cut := [] })).filter fun e => e.2 != {}
      lane := [], late := [] }
    slc := { s.slc with bound := s.slc.bound.filter fun b => !mine b } }

end Sys2Proof.Machine
end

