-- ==== Sys2Proof/Machine/Chart.lean ====
section
/-! DEFINITION. Chart.lean: the chart lookup engine (chapter 13, R312–R333). -/

namespace Sys2Proof.Machine

/-- NB, BASE, MISSQ, HSEED of a world (R312). -/
def chartNb (s : State) (w : Bool) : Nat :=
  let n := sec s 7 (chartRec w) 1
  if n = 0 ∨ 23 < n then 0 else 2 ^ n
def chartBase (s : State) (w : Bool) : Nat := sec s 7 (chartRec w + 8) 8
def chartMissq (s : State) (w : Bool) : Nat := sec s 7 (chartRec w + 4) 4
def chartSeed (s : State) (w : Bool) : Nat := sec s 7 (chartRec w + 16) 8

/-- EPOCH_LEN and SCHAN (R312). -/
def epochLen (s : State) : Nat := secX s 7 0 2 22888
def schan (s : State) : Nat := sec s 7 3 1

/-- The stash entries of a world (R312). -/
def stashShare (s : State) (w : Bool) : Nat :=
  let n := min 1024 (64 * sec s 7 2 1)
  if w then n else 1024 - n

/-- All positions of a world (R314). -/
def chartEnd (s : State) (w : Bool) : Nat := 4 * chartNb s w + stashShare s w

/-- The index of a world's position or stash entry in a table of both worlds. -/
def chtKey (w : Bool) (p : Nat) : Nat := (if w then 0 else 2 ^ 27) + p

/-- A chart report with its channel, `32 + culvert`, or 0. -/
def chtReport (cls code inst : Nat) (fields : List (Nat × Nat)) : Report := mkReport Unit.cht cls code inst fields

/-- The world of a table line (R313). -/
def tableSec (s : State) (l : Nat) : Bool := decide (chartBase s true ≤ l) && decide (l < chartBase s true + 2 * chartNb s true)

/-- CHT_TABLE_ERROR for a line, or for a stash position (R325, R333). -/
def tableError (w : Bool) (line : Nat) (s : State) : State :=
  report (chtReport Cls.reported Code.chtTableError 0 [(b2n w, 1), (0, 1), (64 * line, 45)]) s
def stashError (w : Bool) (i : Nat) (s : State) : State :=
  report (chtReport Cls.reported Code.chtTableError 0 [(b2n w, 1), (1, 1), (i, 10)]) s

/-- The ways of the cache that serve a world's table (R333). PRESUMED: log entry 40. -/
def chartWays (s : State) (w : Bool) : List Nat :=
  if chartNb s true ≠ 0 ∧ chartNb s false ≠ 0 then (List.range 8).map fun i => (if w then 0 else 8) + i
  else List.range 16

/-- The set of a line in the cache of 4,096 sets of 16 ways. PRESUMED: log entry 40. -/
def chartSet (l : Nat) : Nat := l % 4096

/-- The key of a cached line's frame, when the cache holds it. -/
def cachedAt (s : State) (l : Nat) : Option (Nat × ChtLine) :=
  (List.range 16).findSome? fun way =>
    match mget none s.cht.cache (16 * chartSet l + way) with
    | some c => if c.line = l then some (16 * chartSet l + way, c) else none
    | none => none

/-- Changes the chart engine. -/
def setCht (f : Chart → Chart) (s : State) : State := { s with cht := f s.cht }

/-- A fill replaces an empty way, else the least recently used line (R333). -/
def chartFill (w : Bool) (l bits : Nat) (s : State) : State :=
  let frame := fun way => mget none s.cht.cache (16 * chartSet l + way)
  let use := fun way => ((frame way).map fun (c : ChtLine) => c.used + 1).getD 0
  let way := (chartWays s w).foldl (fun (b : Option Nat) x => match b with
    | none => some x
    | some v => if use x < use v then some x else some v) none
  match way with
  | none => s
  | some v =>
    setCht (fun c => { c with
      cache := mset none c.cache (16 * chartSet l + v) (some ⟨l, bits, c.clock + 1, 0⟩), clock := c.clock + 1 }) s

/-- The newest bits of a bucket line that is not yet in DRAM (R327). -/
def pendingLine (s : State) (l : Nat) : Option Nat :=
  (s.cht.writes.reverse.find? fun p => p.1 == l).map fun p => p.2

/-- A bucket line reaches the chart engine through its crossbar port (R321, R325): it enters the cache, or is in error until
the next start. -/
def tableCarried (l : Nat) (s : State) : State :=
  let w := tableSec s l
  let (s, b, bad) := dramGet ⟨0o701, w⟩ l s
  if bad then tableError w l (setCht (fun c => { c with lineErr := mset false c.lineErr l true }) s)
  else chartFill w l b s

/-- Missing bucket lines become bound for the chart engine (R321). -/
def wantLines (ls : List Nat) (s : State) : State :=
  ls.foldl (fun s l =>
    if s.slc.bound.any fun b => b.cargo == .tableRead l then s
    else bindAll [⟨portOfLine l, portChart, s.slc.cycle, .tableRead l⟩] s) s

/-- CHT_CACHE_CORRECTED for a cache way and set (R333). -/
def cacheCorrected (key : Nat) (s : State) : State :=
  report (chtReport Cls.corrected Code.chtCacheCorrected 0 [(0, 1), (key % 16, 4), (key / 16, 12)]) s

/-- What the engine finds when it looks for a line or an entry: its bits, an error, or a line that must be fetched. -/
inductive Found
  | bits (v : Nat)
  | error
  | missing (line : Nat)
  deriving DecidableEq, Repr

/-- A line that is not in the cache: a newer one that still waits for its write-through, or one to fetch (R321, R327). -/
def lineElsewhere (w : Bool) (l : Nat) (s : State) : State × Found :=
  match pendingLine s l with
  | some b => (chartFill w l b s, .bits b)
  | none => (s, .missing l)

/-- Reads a bucket line through the cache (R321, R325, R333). -/
def chartLine (w : Bool) (l : Nat) (s : State) : State × Found :=
  if mget false s.cht.lineErr l then (s, .error)
  else
    match cachedAt s l with
    | none => lineElsewhere w l s
    | some (key, c) =>
      if c.err = 2 then
        lineElsewhere w l (cacheCorrected key (setCht (fun t => { t with cache := mset none t.cache key none }) s))
      else
        let s := if c.err = 1 then cacheCorrected key s else s
        (setCht (fun t => { t with
          cache := mset none t.cache key (some { c with used := t.clock + 1, err := 0 }), clock := t.clock + 1 }) s,
          .bits c.bits)

/-- An entry is valid (R314). -/
def entryValid (e : Nat) : Bool := bitOf e 287

/-- The key words of an entry. -/
def entryKey (e : Nat) : Nat := e % 2 ^ 144

/-- CHT_CACHE_CORRECTED for a stash position (R333). -/
def stashCorrected (i : Nat) (s : State) : State :=
  report (chtReport Cls.corrected Code.chtCacheCorrected 0 [(1, 1), (i, 10)]) s

/-- A stash entry (R333). -/
def stashEntry (w : Bool) (i : Nat) (s : State) : State × Found :=
  let k := chtKey w i
  match mget 0 s.cht.stashErr k with
  | 0 => (s, .bits (mget 0 s.cht.stash k))
  | 1 =>
    (stashCorrected i (setCht (fun c => { c with stashErr := mset 0 c.stashErr k 0 }) s), .bits (mget 0 s.cht.stash k))
  | 2 => (stashError w i (setCht (fun c => { c with stashErr := mset 0 c.stashErr k 3 }) s), .error)
  | _ => (s, .error)

/-- The entry at a position of a world (R314). -/
def chartEntry (w : Bool) (p : Nat) (s : State) : State × Found :=
  if p < 4 * chartNb s w then
    match chartLine w (chartBase s w + p / 2) s with
    | (s, .bits v) => (s, .bits (field v (288 * (p % 2)) 288))
    | r => r
  else stashEntry w (p - 4 * chartNb s w) s

/-- The octets of a key (R318). -/
def keyStream (n key : Nat) : List Nat := splitUnits 8 ((36 * n + 7) / 8) key

/-- The candidate buckets of a key (R318, R319). -/
def buckets (s : State) (w : Bool) (key : Nat) : Nat × Nat :=
  let h := crcOctets polyCrc64 (keyStream (chartKeyw s w) key) (chartSeed s w)
  let k := sec s 7 (chartRec w) 1
  let b1 := field h 0 k
  let b2 := field h 32 k
  (b1, if b2 = b1 then b1 ^^^ 1 else b2)

/-- The positions that a key may occupy (R319): those of b1, of b2, and of the stash share. -/
def keyPositions (s : State) (w : Bool) (key : Nat) : List Nat :=
  let n := chartNb s w
  let (b1, b2) := buckets s w key
  (if n = 0 then [] else ((List.range 4).map fun e => 4 * b1 + e) ++ (List.range 4).map fun e => 4 * b2 + e) ++
    (List.range (stashShare s w)).map fun i => 4 * n + i

/-- Examines the positions of a key: each with what stands there. -/
def examine (w : Bool) (ps : List Nat) (s : State) : State × List (Nat × Found) :=
  ps.foldl (fun (acc : State × List (Nat × Found)) p =>
    let (s, e) := chartEntry w p acc.1
    (s, acc.2 ++ [(p, e)])) (s, [])

/-- The lines that must be fetched before a decision. -/
def missingLines (es : List (Nat × Found)) : List Nat :=
  (es.filterMap fun x => match x.2 with
    | .missing l => some l
    | _ => none).eraseDups

/-- Some position examined is in error (R325). -/
def anyError (es : List (Nat × Found)) : Bool := es.any fun x => x.2 == .error

/-- The position at which a key is present. -/
def presentAt (key : Nat) (es : List (Nat × Found)) : Option (Nat × Nat) :=
  es.findSome? fun x => match x.2 with
    | .bits e => if entryValid e && entryKey e == key then some (x.1, e) else none
    | _ => none

/-- The errors of the words of a hit plane. -/
def planeErrs (s : State) (plane : Bool) : SMap Nat := if plane then s.cht.bad1 else s.cht.bad0

/-- Sets the error of a word of a hit plane. -/
def setPlaneErr (plane : Bool) (j v : Nat) (s : State) : State :=
  setCht (fun c => if plane then { c with bad1 := mset 0 c.bad1 j v } else { c with bad0 := mset 0 c.bad0 j v }) s

/-- The report of an error in the hit-plane word of a position: its bucket line, or its stash position. DESIGN CHOICE: log
entry 41. -/
def planeError (w : Bool) (p : Nat) (s : State) : State :=
  if p < 4 * chartNb s w then tableError w (chartBase s w + p / 2) s else stashError w (p - 4 * chartNb s w) s
def planeCorrected (w : Bool) (p : Nat) (s : State) : State :=
  if p < 4 * chartNb s w then cacheCorrected (16 * chartSet (chartBase s w + p / 2)) s
  else stashCorrected (p - 4 * chartNb s w) s

/-- The hit-plane word of a position is accessed: a single-bit error is corrected, and an uncorrectable one reported once
(R333). DESIGN CHOICE: log entry 41. -/
def planeAccess (plane w : Bool) (p : Nat) (s : State) : State :=
  let j := chtKey w p / 36
  match mget 0 (planeErrs s plane) j with
  | 1 => planeCorrected w p (setPlaneErr plane j 0 s)
  | 2 => planeError w p (setPlaneErr plane j 3 s)
  | _ => s

/-- The bit of a position in a plane; a plane word in error reads as ones (R333). DESIGN CHOICE: log entry 41. -/
def planeBit (s : State) (plane w : Bool) (p : Nat) : Bool :=
  let k := chtKey w p
  mget false (if plane then s.cht.hits1 else s.cht.hits0) k || decide (2 ≤ mget 0 (planeErrs s plane) (k / 36))

/-- Sets or clears the bit of a position in a plane, whose word is accessed. DESIGN CHOICE: log entry 41. -/
def setPlaneBit (plane w : Bool) (p : Nat) (v : Bool) (s : State) : State :=
  let k := chtKey w p
  setCht (fun c =>
    if plane then { c with hits1 := mset false c.hits1 k v } else { c with hits0 := mset false c.hits0 k v })
    (planeAccess plane w p s)

/-- A hit marks a position in the current plane (R322). -/
def markHit (w : Bool) (p : Nat) (s : State) : State := setPlaneBit s.cht.plane w p true s

/-- Both planes' words of a position are accessed. -/
def planesAccess (w : Bool) (p : Nat) (s : State) : State := planeAccess true w p (planeAccess false w p s)

/-- An entry is idle when its bits in both planes are 0 (R331). DESIGN CHOICE: log entry 41. -/
def entryIdle (s : State) (w : Bool) (p : Nat) : Bool := !planeBit s false w p && !planeBit s true w p

/-- At an epoch boundary the current plane changes and the new one is cleared (R331). -/
def epochChange (s : State) : State :=
  setCht (fun c =>
    if c.plane then { c with plane := false, hits0 := [], bad0 := [], epoch := (c.epoch + 1) % 65536 }
    else { c with plane := true, hits1 := [], bad1 := [], epoch := (c.epoch + 1) % 65536 }) s

/-- The result of a lookup reaches the descriptor that made it (R321). -/
def giveLook (x : Lookup) (l : Look) (s : State) : State :=
  setHead x.cul (fun h => if h.key.isSome ∧ h.lookup = x.num ∧ h.look.isNone then { h with look := some l } else h) s

/-- CHART_KEY_ACCEPT (R321): the waiting key of the lowest-numbered culvert; its missing bucket lines are fetched. -/
def execChartKeyAccept (s : State) : Host.Outcome State Fault Refusal :=
  let first := s.cul.lane.foldl (fun (b : Option Lookup) x => match b with
    | none => some x
    | some y => if x.cul < y.cul then some x else some y) none
  match first with
  | none => .next s
  | some x =>
    let s := { s with cul := { s.cul with lane := s.cul.lane.erase x }, cht := { s.cht with waits := s.cht.waits ++ [x] } }
    let (s, es) := examine x.sec (keyPositions s x.sec x.key) s
    .next (wantLines (missingLines es) s)

/-- LOOKUP_DECISION (R321, R322, R325): a hit marks the entry, and the result reaches the culvert. A lookup with a missing
line waits for it, and so do the later lookups of its culvert. -/
def execLookupDecision (c : CulvertId) (s : State) : Host.Outcome State Fault Refusal :=
  match s.cht.waits.find? fun x => x.cul == c.val with
  | none => .next s
  | some x =>
    let w := x.sec
    let (s, es) := examine w (keyPositions s w x.key) s
    if missingLines es ≠ [] then .next (wantLines (missingLines es) s)
    else
      let s := setCht (fun t => { t with waits := t.waits.erase x }) s
      match presentAt x.key es with
      | some (p, e) => .next (giveLook x ⟨true, decide (4 * chartNb s w ≤ p), false, p, e / 2 ^ 144⟩ (markHit w p s))
      | none => .next (giveLook x ⟨false, false, anyError es, 0, 0⟩ s)

/-- The result element (R323). -/
def resultBits (c : Nat) (h : Held) (l : Look) (badq : Bool) : Nat :=
  packFields [(lw h.desc.l0 1 0 25, 25), (c, 5), (h.status, 6), (h.desc.tag, 36), (h.desc.daddr, 72), (l.pos, 26),
    (b2n l.hit, 1), (b2n l.stash, 1), (b2n badq, 1), (b2n l.err, 1), (0, 6), (h.key.getD 0, 144), (l.action, 144)]

/-- A queue that may take a result element: defined, tile-bound and of the world (R323). -/
def elementQueue (s : State) (w : Bool) (q : Nat) : Bool :=
  match qrec s q with
  | none => false
  | some r => !r.culv && queueSec s q == w

/-- RESULT_ELEMENT_WRITE (R323, R324). -/
def execResultElementWrite (c : CulvertId) (s : State) : Host.Outcome State Fault Refusal :=
  let c := c.val
  match (culAt s c).held with
  | [] => .next s
  | h :: _ =>
    match h.look with
    | none => .next s
    | some l =>
      if h.stage ≠ .pointed ∨ !writesVisible s c ∨ !elementDue h then .next s
      else
        let w := h.desc.sec
        let aq := l.action % 2 ^ 20
        let badq := l.hit && !elementQueue s w aq
        let q := if l.hit && !badq then aq else chartMissq s w
        let s := setHead c (fun h => { h with elBadq := h.elBadq || badq }) (reportIf (badq && !h.elBadq)
          (chtReport Cls.reported Code.chtActionBadq (32 + c) [(b2n w, 1), (c, 5), (l.pos, 26), (aq, 20)]) s)
        let done := fun s => setHead c (fun h => { h with elem := true }) s
        if (qrec s q).isNone then .next (done s)
        else if ringRoom s q then
          .next (if elementHeld s q then wakeElement q s
            else done (writeElement (culReq c w) q (resultBits c h l badq) s))
        else
          .next (reportIf (!h.elHeld) (chtReport Cls.reported Code.chtResultHeld (32 + c)
            [(c, 5), (q, 20), (h.desc.tag, 36)]) (setHead c (fun h => { h with elHeld := true }) s))

/-- A command channel. -/
def chanAt (s : State) (ch : Nat) : Chan := mget {} s.cht.chans ch

/-- Changes a command channel. -/
def setChan (ch : Nat) (f : Chan → Chan) (s : State) : State := setCht (fun c => { c with chans := mmod {} c.chans ch f }) s

/-- The world of a channel (R326). DEDUCED: log entry 39. -/
def chanSec (s : State) (ch : Nat) : Bool := decide (ch < schan s)

/-- CHT_CHANNEL_BUSY: channel, register offset, written value (R326). -/
def channelBusy (ch off value : Nat) (s : State) : State :=
  report (chtReport Cls.reported Code.chtChannelBusy ch [(ch, 5), (off, 24), (value, 36)]) s

/-- The window offsets of a channel's registers. -/
def bufOffset (ch i : Nat) : Nat := 0o10000 + 64 * ch + 4 * i
def cmdOffset (ch : Nat) : Nat := 0o10040 + 64 * ch

/-- A write of a buffer word (R326). -/
def bufWrite (rq : Req) (ch i value : Nat) (s : State) : State :=
  ownedWrite Unit.cht (bufOffset ch i) (chanSec s ch) rq value (fun s =>
    if (chanAt s ch).busy then channelBusy ch (bufOffset ch i) value s
    else setChan ch (fun c => { c with buf := mset 0 c.buf i value }) s) s

/-- A write of CMD accepts a command (R326); OP b000 has no effect (R328). -/
def cmdWrite (rq : Req) (ch value : Nat) (s : State) : State :=
  ownedWrite Unit.cht (cmdOffset ch) (chanSec s ch) rq value (fun s =>
    if (chanAt s ch).busy then channelBusy ch (cmdOffset ch) value s
    else if field value 33 3 = 0 then s
    else
      setCht (fun c => { c with queue := c.queue ++ [ch] })
        (setChan ch (fun c => { c with busy := true, cmd := value }) s)) s

/-- CHART_LOOKUP. -/
def execChartLookup (rq : Req) (ch : Fin 32) (nohit : Bool) (s : State) : Host.Outcome State Fault Refusal :=
  .next (cmdWrite rq ch.val (1 * 2 ^ 33 + b2n nohit * 2 ^ 30) s)

/-- CHART_INSERT. -/
def execChartInsert (rq : Req) (ch : Fin 32) (ipol : Bool) (s : State) : Host.Outcome State Fault Refusal :=
  .next (cmdWrite rq ch.val (2 * 2 ^ 33 + b2n ipol * 2 ^ 32) s)

/-- CHART_UPDATE. -/
def execChartUpdate (rq : Req) (ch : Fin 32) (s : State) : Host.Outcome State Fault Refusal :=
  .next (cmdWrite rq ch.val (3 * 2 ^ 33) s)

/-- CHART_DELETE. -/
def execChartDelete (rq : Req) (ch : Fin 32) (idle : Bool) (s : State) : Host.Outcome State Fault Refusal :=
  .next (cmdWrite rq ch.val (4 * 2 ^ 33 + b2n idle * 2 ^ 31) s)

/-- CHART_AGE. -/
def execChartAge (rq : Req) (ch : Fin 32) (pos : BitVec 26) (s : State) : Host.Outcome State Fault Refusal :=
  .next (cmdWrite rq ch.val (5 * 2 ^ 33 + pos.toNat) s)

/-- CHART_READ. -/
def execChartRead (rq : Req) (ch : Fin 32) (pos : BitVec 26) (s : State) : Host.Outcome State Fault Refusal :=
  .next (cmdWrite rq ch.val (6 * 2 ^ 33 + pos.toNat) s)

/-- The buffer words of a channel from word `i`, as one number of `n` words. -/
def bufWords (c : Chan) (i n : Nat) : Nat := ((List.range n).map fun j => mget 0 c.buf (i + j) % 2 ^ 36 * 2 ^ (36 * j)).sum

/-- Writes `n` buffer words from word `i`. -/
def putBuf (i n v : Nat) (c : Chan) : Chan := { c with buf := msetMany 0 c.buf i (splitUnits 36 n v) }

/-- A command ends with a code, at a position of its world when it has one (R328). DESIGN CHOICE: log
entry 68. -/
def endCommand (ch : Nat) (w : Bool) (code : Nat) (pos : Option Nat) (out : Chan → Chan) (s : State) : State :=
  let s := match pos with
    | some p => planesAccess w p s
    | none => s
  let cur := s.cht.plane
  let hc := match pos with
    | some p => planeBit s cur w p
    | none => false
  let hp := match pos with
    | some p => planeBit s (!cur) w p
    | none => false
  setChan ch (fun c => { out c with busy := false, code := code, hc := hc, hp := hp, pos := pos.getD 0 }) s

/-- Valid table entries of a world change by a signed amount. -/
def countUsed (w : Bool) (up : Bool) (s : State) : State :=
  let f := fun n => if up then n + 1 else n - 1
  setCht (fun c => if w then { c with usedS := f c.usedS } else { c with usedN := f c.usedN }) s

/-- An entry is written at a position: in the cached line and, from then on, toward DRAM, or in the stash (R327). A line that
is still to be written takes its newest bits. -/
def putEntry (w : Bool) (p e : Nat) (s : State) : State :=
  let n := chartNb s w
  if p < 4 * n then
    let l := chartBase s w + p / 2
    let (s, b) := chartLine w l s
    match b with
    | .error => s
    | .missing _ => s
    | .bits b =>
      let was := entryValid (field b (288 * (p % 2)) 288)
      let b := setField b (288 * (p % 2)) 288 e
      let s := match cachedAt s l with
        | some (key, c) => setCht (fun t => { t with cache := mset none t.cache key (some { c with bits := b }) }) s
        | none => s
      let s := if was == entryValid e then s else countUsed w (entryValid e) s
      setCht (fun c => { c with writes := if c.writes.any fun p => p.1 == l then c.writes.map fun p => if p.1 = l then (l, b) else p
        else c.writes ++ [(l, b)] }) s
  else setCht (fun c => { c with stash := mset 0 c.stash (chtKey w (p - 4 * n)) e }) s

/-- Stash entries in use of a world. -/
def stashUsed (s : State) (w : Bool) : Nat :=
  ((List.range (stashShare s w)).filter fun i => entryValid (mget 0 s.cht.stash (chtKey w i))).length

/-- The entry that a key and an action make (R314, R315). -/
def makeEntry (key action : Nat) : Nat := key % 2 ^ 144 + action % 2 ^ 135 * 2 ^ 144 + 2 ^ 287

/-- A key of a command is bad (R330). -/
def badKey (s : State) (w : Bool) (key : Nat) : Bool :=
  (List.range 4).any fun i =>
    let k := field key (36 * i) 36
    if i < chartKeyw s w then (k &&& chartKmask s w i) != k else k != 0

/-- A free position: an entry that is known and not valid. -/
def isFree (x : Nat × Found) : Bool := match x.2 with
  | .bits e => !entryValid e
  | _ => false

/-- Where INSERT places a key (R329). -/
def placeFor (nb : Nat) (es : List (Nat × Found)) : Option Nat :=
  let tbl := es.filter fun x => decide (x.1 < 4 * nb)
  let f1 := (tbl.take 4).filter isFree
  let f2 := (tbl.drop 4).filter isFree
  let b := if f1.length < f2.length then f2 else f1
  match b.head? with
  | some x => some x.1
  | none => ((es.filter fun x => decide (4 * nb ≤ x.1)).find? isFree).map fun x => x.1

/-- INSERT of a key that is not present (R329); CHT_STASH_HIGH has INSTANCE 0. DESIGN CHOICE: log entry 74. -/
def insertNew (ch : Nat) (w : Bool) (key action : Nat) (es : List (Nat × Found)) (s : State) : State :=
  match placeFor (chartNb s w) es with
  | none =>
    let (b1, b2) := buckets s w key
    endCommand ch w 7 none id
      (report (chtReport Cls.reported Code.chtInsertFull ch [(b2n w, 1), (ch, 5), (b1, 23), (b2, 23)]) s)
  | some p =>
    let before := stashUsed s w
    let s := markHit w p (putEntry w p (makeEntry key action) s)
    let after := stashUsed s w
    let share := stashShare s w
    let s := reportIf (decide (4 * before < 3 * share) && decide (3 * share ≤ 4 * after))
      (chtReport Cls.reported Code.chtStashHigh 0 [(b2n w, 1), (after, 11)]) s
    endCommand ch w 1 (some p) id s

/-- A command on a key, once every position that the key may occupy is known (R328–R330, R332). -/
def keyOutcome (ch : Nat) (w : Bool) (cmd key action : Nat) (es : List (Nat × Found)) (s : State) : State :=
  match field cmd 33 3, presentAt key es with
  | 1, some (p, e) =>
    let s := if bitOf cmd 30 then s else markHit w p s
    endCommand ch w 2 (some p) (putBuf 4 4 (e / 2 ^ 144)) s
  | 1, none => endCommand ch w 3 none (putBuf 4 4 0) s
  | 2, some (p, _) =>
    if bitOf cmd 32 then endCommand ch w 5 (some p) id (markHit w p (putEntry w p (makeEntry key action) s))
    else endCommand ch w 4 (some p) id s
  | 2, none => insertNew ch w key action es s
  | 3, some (p, _) => endCommand ch w 1 (some p) id (markHit w p (putEntry w p (makeEntry key action) s))
  | 4, some (p, _) =>
    let s := if bitOf cmd 31 then planesAccess w p s else s
    if bitOf cmd 31 && !entryIdle s w p then endCommand ch w 8 (some p) id s
    else
      endCommand ch w 1 (some p) id (setPlaneBit false w p false (setPlaneBit true w p false (putEntry w p 0 s)))
  | _, _ => endCommand ch w 6 none id s

/-- A command on a key (R328): none while a line must be fetched, which is then bound (R327). -/
def keyCommand (ch : Nat) (w : Bool) (cmd : Nat) (s : State) : State × Bool :=
  let c := chanAt s ch
  let key := bufWords c 0 4
  if badKey s w key then (endCommand ch w 0o14 none id s, true)
  else
    let (s, es) := examine w (keyPositions s w key) s
    if missingLines es ≠ [] then (wantLines (missingLines es) s, false)
    else if anyError es then (endCommand ch w 0o15 none id s, true)
    else (keyOutcome ch w cmd key (bufWords c 4 4) es s, true)

/-- How AGE's scan ends: with a CODE at a position and an entry, or at a line that must be fetched. -/
inductive ScanEnd
  | code (n p e : Nat)
  | fetch (line : Nat)
  deriving DecidableEq, Repr

/-- AGE's scan of at most `n` positions from `p` (R331). -/
def ageScan (w : Bool) : Nat → Nat → State → State × ScanEnd
  | 0, p, s => (s, .code 0o12 p 0)
  | n + 1, p, s =>
    if chartEnd s w ≤ p then (s, .code 0o13 p 0)
    else
      match chartEntry w p s with
      | (s, .error) => (s, .code 0o15 p 0)
      | (s, .missing l) => (s, .fetch l)
      | (s, .bits e) =>
        if !entryValid e then ageScan w n (p + 1) s
        else
          let s := planesAccess w p s
          if entryIdle s w p then (s, .code 0o11 p e) else ageScan w n (p + 1) s

/-- AGE (R331). DEDUCED: log entry 38. END leaves the position at which the scan stopped. DESIGN CHOICE: log entry 73. -/
def ageCommand (ch : Nat) (w : Bool) (pos : Nat) (s : State) : State × Bool :=
  match ageScan w 16384 pos s with
  | (s, .fetch l) => (wantLines [l] s, false)
  | (s, .code n p e) =>
    let n := if n = 0o12 ∧ chartEnd s w ≤ p then 0o13 else n
    (endCommand ch w n (some p) (if n = 0o11 then putBuf 0 8 e else id) s, true)

/-- READ (R326, R328). DEDUCED: log entry 38. -/
def readCommand (ch : Nat) (w : Bool) (pos : Nat) (s : State) : State × Bool :=
  if chartEnd s w ≤ pos then (endCommand ch w 0o16 none id s, true)
  else
    match chartEntry w pos s with
    | (s, .missing l) => (wantLines [l] s, false)
    | (s, .error) => (endCommand ch w 0o15 (some pos) id s, true)
    | (s, .bits e) => (endCommand ch w 0o17 (some pos) (putBuf 0 8 e) s, true)

/-- What a command does, and whether it commits now. -/
def chartCommand (ch : Nat) (s : State) : State × Bool :=
  let w := chanSec s ch
  let cmd := (chanAt s ch).cmd
  match field cmd 33 3 with
  | 5 => ageCommand ch w (cmd % 2 ^ 26) s
  | 6 => readCommand ch w (cmd % 2 ^ 26) s
  | 7 => (endCommand ch w 0o16 none id s, true)
  | _ => keyCommand ch w cmd s

/-- CHART_COMMAND_COMMIT (R327): the oldest accepted command takes effect, once every line it needs is there. -/
def execChartCommandCommit (s : State) : Host.Outcome State Fault Refusal :=
  match s.cht.queue with
  | [] => .next s
  | ch :: rest =>
    let (s, done) := chartCommand ch s
    .next (if done then setCht (fun c => { c with queue := rest }) s else s)

/-- The oldest changed line whose subchannel the newest hub cycle connects from the chart engine (R327). DESIGN
CHOICE: log entry 64. -/
def dueWrite (s : State) : Option (Nat × Nat) :=
  s.cht.writes.find? fun p => connected s portChart (portOfLine p.1) && !s.slc.spent.contains (portOfLine p.1)

/-- CHART_WRITE_THROUGH (R227, R327): in a hub cycle that connects the chart engine to its subchannel, a changed line
is written to DRAM, with the world of its table, if the subchannel takes it. DESIGN CHOICE: log entry 64. -/
def execChartWriteThrough (s : State) : Host.Outcome State Fault Refusal :=
  match dueWrite s with
  | none => .next s
  | some (l, b) =>
    let s := offered (spend (portOfLine l) s)
    .next (if s.slc.touched.contains l then s
      else if lineTakes s l then
        carried (dramPut ⟨0o701, tableSec s l⟩ l 0 576 b (setCht (fun c => { c with writes := c.writes.erase (l, b) }) (touch l s)))
      else wakeLine l s)

/-- LOCK step 6 writes zeros over both tables (R316, R397); a write to a subchannel that is down is not performed (R398). -/
def zeroTables (s : State) : State :=
  let rs := [true, false].map fun w => (chartBase s w, 2 * chartNb s w)
  let s := downRanges rs (wakeRanges rs s)
  let mine := fun l => !subDown s (subOf l) && rs.any fun r => decide (r.1 ≤ l) && decide (l < r.1 + r.2)
  let lost := rs.foldl (fun ls r => cutLost r.1 (r.1 + r.2) ls) s.drc.lost
  { s with mem := s.mem.filter fun c => !mine (c.1 / 72), poison := s.poison.filter fun e => !mine e.1
           drc := { s.drc with lost := lost } }

end Sys2Proof.Machine
end

