-- ==== Sys2Proof/Machine/Dram.lean ====
section
/-! DEFINITION. Dram.lean: the DRAM controller's queues, policies, refresh, self-refresh and frequency steps (chapter 16,
R384–R400). -/

namespace Sys2Proof.Machine

/-- A subchannel holds no queued or issued request. -/
def subEmpty (x : SubCh) : Bool := x.reads.isEmpty && x.writes.isEmpty && x.issued.isEmpty && x.waits.isEmpty

/-- A channel holds no queued or issued request (R396). -/
def chanEmpty (s : State) (c : Nat) : Bool := (subsOf c).all fun u => subEmpty (subAt s u)

/-- SECP: a secure transaction of the channel is accepted and not complete (R240). -/
def secPending (s : State) (c : Nat) : Bool :=
  (subsOf c).any fun u => let x := subAt s u
    (x.reads ++ x.writes ++ x.issued ++ x.waits).any fun r => r.sec

/-- The crossbar port of a requester under R17 (R267): none for the hub units without one. -/
def requesterPort (code : Nat) : Option Nat :=
  if code < 0o600 then some (portCanal (code / 8))
  else if code < 0o640 then some (portCulvert (code - 0o600))
  else if code = chartCode then some portChart
  else none

/-- A line that a requester read has reached it. -/
def readArrived (code l v : Nat) (bad : Bool) (s : State) : State := { s with drc := { s.drc with out := some (code, l, v, bad) } }

/-- Read data leaves as a line bound for its requester from the subchannel's port (R384). DEDUCED: log entry 65. -/
def sendData (code l v : Nat) (bad : Bool) (s : State) : State :=
  match requesterPort code with
  | none => readArrived code l v bad s
  | some d => bindAll [⟨portOfLine l, d, s.slc.cycle, .data code l v bad⟩] s

/-- DRAM_READ_ACCEPT (R384, R385, R397–R399): delivered with the mark on a subchannel that is down; served from a queued write
of its line where the read can enter the queue, else queued, or it waits outside. -/
def execDramReadAccept (rq : Req) (line : BitVec 34) (s : State) : Host.Outcome State Fault Refusal :=
  let l := line.toNat
  let x := subAt s (subOf l)
  let out := sendData rq.code.toNat l
  if !live s then .next s
  else if subDown s (subOf l) then .next (out (lineBits s l) true (downAccess l rq.code.toNat s))
  else if writeQueued s l ∧ !dramHeld s l ∧ x.reads.length < 64 ∧ x.waits.isEmpty then .next (out (lineBits s l) false s)
  else .next (queueRead none false rq l s)

/-- The unit of a line at which a write begins: a quarter when it covers whole quarters, else an octet; the side field goes by
the line's own address (R3, R17, R193). DEDUCED: log entry 65. -/
def firstUnit (lo w : Nat) : Nat := if lo % 9 = 0 ∧ w % 9 = 0 then lo / 9 else if lo < 512 then lo / 8 else 0

/-- DRAM_WRITE_ACCEPT (R317, R383–R385, R398): no line is taken while the queue is full or the channel is held, nor a part of
one before its merge read is issued. DEDUCED: log entry 65. -/
def execDramWriteAccept (rq : Req) (line : BitVec 34) (lo : Fin 576) (width : Fin 577) (value : Line) (s : State) :
    Host.Outcome State Fault Refusal :=
  let l := line.toNat
  let w := min width.val (576 - lo.val)
  let who := Asker.port rq.code.toNat
  if !live s ∨ w = 0 then .next s
  else if !writeTakes s who l w then .next (askWrite who rq l w s)
  else .next (withOutcome who l (dramPutAt rq (64 * l + firstUnit lo.val w) lo.val w (value.toNat % 2 ^ w)) s)

/-- The oldest request of a list. -/
def oldest (rs : List DReq) : Option DReq :=
  rs.foldl (fun b r => match b with
    | none => some r
    | some p => if r.order < p.order then some r else some p) none

/-- A write waits behind an earlier read of its line (R385). -/
def behindRead (x : SubCh) (r : DReq) : Bool := r.write && x.reads.any fun q => q.line == r.line && decide (q.order < r.order)

/-- The request that the controller issues next under its policy (R386, R387, R399). -/
def nextRequest (s : State) (u ready : Nat) : Option DReq :=
  let x := subAt s u
  let free := fun (r : DReq) => bitOf ready (bankOfLine r.line) && !behindRead x r
  if drcPolicy s = 0 then
    if (chanSt s (u / 2)).step then
      if x.reads.isEmpty then oldest (x.writes.filter free) else oldest (x.reads.filter free)
    else if x.wphase then oldest (x.writes.filter free)
    else if x.reads.isEmpty then oldest (x.writes.filter free)
    else oldest (x.reads.filter free)
  else
    let all := x.reads ++ x.writes
    match oldest (all.filter fun r => decide (drcStarve s ≤ r.passed) && !behindRead x r) with
    | some r => if free r then some r else none
    | none =>
      match oldest (all.filter fun r => free r && rowHit x r) with
      | some r => some r
      | none => oldest (all.filter free)

/-- The refreshes that a subchannel postponed are issued, and every row closes (R388, R394). -/
def issueRefresh (u : Nat) (s : State) : State := setSub u (fun x => { x with rows := [], postp := 0 }) s

/-- The requests issued ahead of older ones count against those (R387). -/
def countPassed (r : DReq) (rs : List DReq) : List DReq :=
  (rs.filter fun q => q.order != r.order).map fun q => if q.order < r.order then { q with passed := q.passed + 1 } else q

/-- The data of a read leaves for its requester, or waits for the one who asked. -/
def answerRead (r : DReq) (v : Nat) (bad : Bool) (s : State) : State := match r.asker with
  | none => sendData r.code r.line v bad s
  | some who => bring who r.line v bad s

/-- The oldest waiting read is accepted: served from a queued write of its line, else it enters the read queue (R384,
R385). -/
def admitRead (u : Nat) (r : DReq) (s : State) : State :=
  let s := setSub u (fun x => { x with waits := x.waits.drop 1 }) s
  if writeQueued s r.line then answerRead r (lineBits s r.line) false s
  else
    let n := s.drc.order
    setSub u (fun x => { x with reads := x.reads ++ [{ r with order := n }] }) { s with drc := { s.drc with order := n + 1 } }

/-- Waiting reads are accepted in arrival order while the read queue has room (R384). DEDUCED: log entry 65. -/
def admitWaits (u : Nat) (s : State) : State :=
  (subAt s u).waits.foldl (fun s r => if (subAt s u).reads.length < 64 then admitRead u r s else s) s

/-- DRAM_COMMAND_ISSUE (R386–R388, R394): a read is on its way, a write is done; waiting reads enter the queue. -/
def execDramCommandIssue (sub : SubId) (ready : BitVec 32) (s : State) : Host.Outcome State Fault Refusal :=
  let u := sub.val
  if (chanSt s (u / 2)).sr then .next s
  else
    match nextRequest s u ready.toNat with
    | none => .next s
    | some r =>
      let b := bankOfLine r.line
      let hold := (chanSt s (u / 2)).step
      let s := setSub u (fun x =>
        let x := { x with
          reads := countPassed r x.reads, writes := countPassed r x.writes
          issued := if r.write then x.issued else x.issued ++ [r]
          rows := mset 0 x.rows b (if drcPgidle s = 0 then 0 else rowOf r.line + 1)
          used := mset 0 x.used b s.isl.chron }
        { x with wphase := x.wphase && !(r.write && decide (x.writes.length ≤ drcWlo s)) }) s
      let s := if hold then s else admitWaits u s
      let x := subAt s u
      let s := if 0 < x.postp ∧ x.reads.isEmpty ∧ x.writes.isEmpty then issueRefresh u s else s
      .next (if chanEmpty s (u / 2) then markIdle u s else s)

/-- The error symbols of a line once a read has found new ones: they replace those at their positions. -/
def newErrors (errs : List (Fin 40 × BitVec 16)) (old : List (Nat × Nat)) : List (Nat × Nat) :=
  (errs.foldl (fun m e => insertBy (fun (a b : Nat × Nat) => decide (a.1 ≤ b.1)) (e.1.val, e.2.toNat)
    (m.filter fun x => x.1 != e.1.val)) old).filter fun e => e.2 != 0

/-- DRAM_READ_DATA (R378–R383, R385): the oldest issued read is decoded and leaves as a line, as it was before any write that
was accepted after it. A merge read is decoded when its write is accepted. DEDUCED: log entry 65. -/
def execDramReadData (sub : SubId) (errs : List (Fin 40 × BitVec 16)) (s : State) : Host.Outcome State Fault Refusal :=
  let u := sub.val
  match (subAt s u).issued with
  | [] => .next s
  | r :: rest =>
    let s := setSub u (fun x => { x with issued := rest }) s
    let found := fun (s : State) =>
      { s with drc := { s.drc with marks := mset [] s.drc.marks r.line (newErrors errs (mget [] s.drc.marks r.line)) } }
    let (s, v, bad) :=
      match r.kept with
      | some (bits, es) => if r.merge then (s, 0, false) else decodeBurst false r.code r.line bits (newErrors errs es) s
      | none => if r.merge then (found s, 0, false) else decodeLine r.code r.line (found s)
    let s := answerRead r v bad s
    .next (if chanEmpty s (u / 2) then markIdle u s else s)

/-- ROW_IDLE_CLOSE (R388): no queued request hits the row, and PGIDLE has elapsed since the bank's last access. -/
def execRowIdleClose (sub : SubId) (bank : Fin 32) (s : State) : Host.Outcome State Fault Refusal :=
  let u := sub.val
  let x := subAt s u
  let hit := (x.reads ++ x.writes).any fun r => bankOfLine r.line == bank.val && rowHit x r
  if (openRow x bank.val).isNone ∨ hit then .next s
  else
    .next (setSub u (fun x => { x with rows := mset 0 x.rows bank.val 0 })
      (reachTime (mget 0 x.used bank.val + drcPgidle s) s))

/-- The controller places the refreshes of a subchannel (R390, R395): while the schedule does not, as under the vault
schedule, and after that until the subchannel's first almanac REFRESH. -/
def ctlRefresh (s : State) (u : Nat) : Bool :=
  drcPlace s == 1 || s.slc.mode != 1 || pastTb s || !(subAt s u).almanac

/-- The refresh interval in nanoseconds, by MR4 (R394). -/
def refreshInterval (s : State) (u : Nat) : Nat := if (subAt s u).hot then 1950 else 3900

/-- Requests are queued for which a due refresh is postponed: reads under read-first, any under row-hit-first (R394,
R400). DEDUCED: log entry 65. -/
def postpones (s : State) (x : SubCh) : Bool := !x.reads.isEmpty || (drcPolicy s != 0 && !x.writes.isEmpty)

/-- REFRESH_TIMER (R390, R394, R395, R400): a refresh is due an interval after the last one was, or after the instant from
which the timer runs; it is postponed while requests are queued, up to 4 times; else issued. DESIGN CHOICE: log entry 3. -/
def execRefreshTimer (sub : SubId) (s : State) : Host.Outcome State Fault Refusal :=
  let u := sub.val
  let c := chanSt s (u / 2)
  let x := subAt s u
  if !(live s || pastTb s) ∨ !ctlRefresh s u ∨ c.sr ∨ c.step ∨ subDown s u then .next s
  else
    let due := x.refAt + refreshInterval s u
    let s := setSub u (fun x => { x with refAt := due }) (reachTime due s)
    if postpones s x && decide (x.postp < 4) then
      .next (setSub u (fun x => { x with postp := x.postp + 1 }) s)
    else .next (issueRefresh u s)

/-- MR4_POLL (R376, R394): under the vault schedule as before it. -/
def execMr4Poll (hot : BitVec 32) (s : State) : Host.Outcome State Fault Refusal :=
  if !(live s || pastTb s) then .next s
  else .next ((List.range 32).foldl (fun s u => setSub u (fun x => { x with hot := hot.getLsbD u }) s) s)

/-- A channel enters self-refresh (R396): every bank is precharged and the request bit clears. -/
def enterSelfRefresh (c : Nat) (s : State) : State :=
  setChanSt c (fun x => { x with sr := true, srReq := false, exit' := false })
    ((subsOf c).foldl (fun s u => setSub u (fun x => { x with rows := [], used := [] }) s) s)

/-- A channel may enter self-refresh now: it holds no request, and it is neither in a step nor down (R396, R398). -/
def mayRest (s : State) (c : Nat) : Bool :=
  let x := chanSt s c
  chanEmpty s c && !x.sr && !x.step && !secPending s c && !(subsOf c).all fun u => subDown s u

/-- SELF_REFRESH_IDLE_ENTRY (R240, R396): SRIDLE has passed without a request, or the owner asked for it. -/
def execSelfRefreshIdleEntry (ch : ChanId) (s : State) : Host.Outcome State Fault Refusal :=
  let c := ch.val
  let x := chanSt s c
  if !(live s || pastTb s) ∨ !mayRest s c then .next s
  else if x.srReq then .next (enterSelfRefresh c s)
  else if drcSridle s = 0 then .next s
  else .next (enterSelfRefresh c (reachTime (x.idle + 1000 * drcSridle s) s))

/-- The DRC window offsets of the run-time controls. -/
def drcFreqOff : Nat := 0o100
def drcDevfailOff : Nat := 0o104
def drcSrctlOff : Nat := 0o110

/-- A write of a register of the DRC block; in VAULT none reaches the controller (R400). -/
def drcWrite (off : Nat) (rq : Req) (value : Nat) (act : State → State) (s : State) : State :=
  if s.cfg.phase = .vault then s else ownedWrite Unit.drc off (blockSec s Unit.drc) rq value act s

/-- A write of DRC_SRCTL (R396): each channel named enters as soon as it holds no request. -/
def srctlWrite (rq : Req) (value : Nat) (s : State) : State :=
  drcWrite drcSrctlOff rq value (fun s =>
    (List.range 16).foldl (fun s c =>
      if !bitOf value c ∨ (chanSt s c).sr then s
      else
        let s := setChanSt c (fun x => { x with srReq := true }) s
        if mayRest s c then enterSelfRefresh c s else s) s) s

/-- DRC_SRCTL_WRITE (R396). -/
def execDrcSrctlWrite (rq : Req) (value : Word) (s : State) : Host.Outcome State Fault Refusal :=
  .next (srctlWrite rq value.toNat s)

/-- SELF_REFRESH_EXIT (R389, R397): the exit that a request has started ends with REFab on both subchannels. -/
def execSelfRefreshExit (ch : ChanId) (s : State) : Host.Outcome State Fault Refusal :=
  let c := ch.val
  if (chanSt s c).sr ∧ (chanSt s c).exit' then
    let s := setChanSt c (fun x => { x with sr := false, exit' := false, idle := s.isl.chron }) s
    .next ((subsOf c).foldl (fun s u => restSub u s) s)
  else .next s

/-- DRC_FREQ_REFUSED with the written value (R399). -/
def freqRefused (value : Nat) (s : State) : State :=
  report (drcReport Cls.reported Code.drcFreqRefused 0 [(value, 36)]) s

/-- A write of DRC_FREQ (R399). -/
def freqWrite (rq : Req) (value : Nat) (s : State) : State :=
  drcWrite drcFreqOff rq value (fun s =>
    let set' := field value 0 2
    if !bitOf value 2 then s
    else if set' = s.drc.cur then s
    else if !runOrHelm s ∨ s.drc.busy ∨ drcNshadow s < set' ∨ bitOf s.drc.unus.toNat set' then freqRefused value s
    else
      let s := { s with drc := { s.drc with busy := true, target := set', longest := 0 } }
      (List.range 16).foldl (fun s c =>
        if (subsOf c).all fun u => subDown s u then s else setChanSt c (fun x => { x with step := true }) s) s) s

/-- DRC_FREQ_WRITE (R399). -/
def execDrcFreqWrite (rq : Req) (value : Word) (s : State) : Host.Outcome State Fault Refusal :=
  .next (freqWrite rq value.toNat s)

/-- FREQUENCY_STEP_COMPLETE (R240, R389, R399): a drained channel runs at the new set; the last one ends the step. -/
def execFrequencyStepComplete (ch : ChanId) (ns : Word) (s : State) : Host.Outcome State Fault Refusal :=
  let c := ch.val
  let drained := (subsOf c).all fun u => let x := subAt s u
    x.reads.isEmpty && x.writes.isEmpty && x.issued.isEmpty
  if !(chanSt s c).step ∨ !drained then .next s
  else
    let was := s.drc.cur
    let s := setChanSt c (fun x => { x with step := false, set' := s.drc.target, idle := s.isl.chron }) s
    let s := (subsOf c).foldl (fun s u => admitWaits u (restSub u s)) s
    let s := { s with drc := { s.drc with longest := max s.drc.longest ns.toNat } }
    if (List.range 16).any fun k => (chanSt s k).step then .next s
    else
      let t := s.drc.target
      .next (report (drcReport Cls.reported Code.drcFreqDone 0 [(was, 2), (t, 2), (s.drc.longest, 36)])
        { s with drc := { s.drc with cur := t, busy := false } })

/-- A write of DRC_DEVFAIL (R381); without GO it has no effect, and a DEV above 9 is refused (R5). -/
def devfailWrite (rq : Req) (value : Nat) (s : State) : State :=
  drcWrite drcDevfailOff rq value (fun s =>
    let u := field value 0 5
    let d := field value 5 4
    if !bitOf value 9 then reportIf (decide (9 < d)) (regRefused Unit.drc drcDevfailOff rq .value value) s
    else
      match storedDev s u with
      | none =>
        if d ≤ 9 then designate u d false s
        else report (drcReport Cls.reported Code.drcDevfailRefused u [(value, 36), (0, 1), (0, 4)]) s
      | some f => report (drcReport Cls.reported Code.drcDevfailRefused u [(value, 36), (1, 1), (f, 4)]) s) s

/-- DRC_DEVFAIL_COMMAND (R381). -/
def execDrcDevfailCommand (rq : Req) (value : Word) (s : State) : Host.Outcome State Fault Refusal :=
  .next (devfailWrite rq value.toNat s)

/-- A REFRESH slot's refresh (R391, R393): REFab closes every row of the subchannel, REFsb those of bank kk; one for a
subchannel in self-refresh, in a step or down is skipped and counted. The refresh timer would start from it (R395). -/
def almanacRefresh (ref : Nat) (s : State) : State :=
  let u := ref % 32
  let c := chanSt s (u / 2)
  if c.sr ∨ c.step ∨ subDown s u then setChanSt (u / 2) (fun x => { x with rskip := satW 8 (x.rskip + 1) }) s
  else
    setSub u (fun x => { x with
      almanac := true, refAt := s.isl.chron
      rows := if field ref 5 4 = 0 then [] else x.rows.filter fun e => e.1 / 8 != field ref 5 2 }) s

/-- DRC_CHSTATc (Registers). DEDUCED: log entry 65. -/
def chstatWord (s : State) (c : Nat) : Nat :=
  let x := chanSt s c
  let d := ((subsOf c).filter (subDown s)).length
  let st := if x.step then 2 else if d = 2 then 4 else if d = 1 then 3 else if x.sr then 1 else 0
  packFields [(x.rskip, 8), (0, 19), (b2n ((subsOf c).any fun u => ctlRefresh s u && (subAt s u).hot), 1),
    (b2n (subAt s (2 * c)).wphase, 1), (b2n (subAt s (2 * c + 1)).wphase, 1), (b2n (secPending s c), 1), (x.set', 2), (st, 3)]

/-- At t_b of a vault the queues empty into DRAM (R43), and the subchannels are in the READ phase (R386); a channel that held
requests then has none (R396). -/
def flushQueues (s : State) : State :=
  let s := (List.range 16).foldl (fun s c => if chanEmpty s c then s else markIdle (2 * c) s) s
  let s := { s with drc := { s.drc with ready := [] } }
  (List.range 32).foldl (fun s u => setSub u (fun x => { x with reads := [], writes := [], waits := [], issued := [], wphase := false }) s) s

end Sys2Proof.Machine
end

