-- ==== Sys2Proof/Machine/Slots.lean ====
section
/-! DEFINITION. Slots.lean: a hub cycle of the almanac or of the management schedule (R268, R277, R280, R281, R287, R291). -/

namespace Sys2Proof.Machine

/-- Slot entry `k` of an alternate (R277, R278). DEDUCED: log entry 31. -/
def slotEntry (s : State) (a k : Nat) : Nat := almBits s (altSlots s a) (36 * k) 36

/-- KIND, PAT, DRING and DITCH or REF of an entry (R277). -/
def entKind (e : Nat) : Nat := field e 34 2
def entPat (e : Nat) : Nat := field e 22 12
def entRing (e : Nat) : Nat := field e 14 8
def entDitch (e : Nat) : Nat := field e 0 14

/-- The members of donation ring `r`, whose record stands in an image line of 72 octets (R136, R278). -/
def ringMembers (s : State) (a r : Nat) : List Nat :=
  let o := altRings s a + 72 * r
  (List.range (min 16 (almLe s o 1))).map fun m => almLe s (o + 32 + 2 * m) 2

/-- Some line is bound for the culvert before this one, so that this is not its oldest destination line (R308: lines are
written in address order). -/
def oldestDest (s : State) (b : BLine) : Bool :=
  (s.slc.bound.find? fun x => x.cargo == b.cargo) == some b

/-- The memory line that a bound line reads or writes, when it has one. -/
def cargoLine (s : State) (b : BLine) : Option Nat := match b.cargo with
  | .elem _ _ _ l => some l
  | .source _ _ l => l
  | .miss _ _ l => some l
  | .back _ _ l => some l
  | .tableRead l => some l
  | .drain _ l _ => some l
  | .page _ _ _ l => some l
  | .dest c =>
    match (culAt s c).held with
    | [] => none
    | h :: _ =>
      match h.outs with
      | [] => none
      | o :: _ =>
        match o.kind with
        | .mem l _ => some l
        | _ => none
  | _ => none

/-- The culvert's oldest destination line has room where it goes (R369). -/
def destRoom (s : State) (c : Nat) : Bool :=
  match (culAt s c).held with
  | [] => false
  | h :: _ =>
    !h.last && match h.outs with
      | [] => false
      | o :: _ =>
        match o.kind with
        | .quad q _ => decide (egressLines s q < 1024)
        | _ => true

/-- A bound line writes memory. -/
def writes (s : State) (b : BLine) : Bool := match b.cargo with
  | .dest _ => true
  | .back _ _ _ => true
  | .drain _ _ _ => true
  | .miss i id _ => missStores s i id
  | _ => false

/-- Every earlier request of core `i` to a memory line has crossed, so that those of one requester take effect in issue
order: its misses and its write-backs (R12, R115). -/
def inTurn (s : State) (i order line : Nat) : Bool :=
  ((coreAt s i).misses.all fun m => m.addr / 64 != line || decide (order ≤ m.order) || m.got.isSome) &&
  (coreAt s i).evict.all fun e => e.line != line || decide (order ≤ e.order) || !e.dirty || e.crossed

/-- The memory lines that a request reaches when its line leaves: its own, and the landing line of an element for a tile. The
destination line of a culvert reaches memory when it is launched (`launchDest`). -/
def reached (s : State) (b : BLine) : List Nat := match b.cargo with
  | .elem q pos k l => l :: ((qrec s q).filter fun r => !r.culv).toList.map fun r => r.landLine (m17 ((qst s q).dcount + pos)) k
  | _ => (cargoLine s b).toList

/-- The bits that a bound line writes of its memory line, when it writes one: the last line of a culvert's transfer reaches
memory at the completion point (R307). -/
def writeWidth (s : State) (b : BLine) : Nat := match b.cargo with
  | .dest c =>
    match (culAt s c).held.head?.map fun h => h.outs with
    | some (o :: _ :: _) => (match o.kind with
      | .mem _ parts => partsWidth parts
      | _ => 576)
    | _ => 576
  | .miss i id _ => (((coreAt s i).misses.find? fun m => m.id == id).bind fun m => m.accs.head?.map fun a => a.width).getD 576
  | _ => 576

/-- Who asks for the reads of a bound line (R384). -/
def askerOf (b : BLine) : Asker := match b.cargo with
  | .dest c => .culvert c
  | _ => .bound b

/-- The DRAM controller takes what a bound line asks of its memory line (R384). -/
def dramTakes (s : State) (b : BLine) : Bool :=
  (cargoLine s b).all fun l => if writes s b then writeTakes s (askerOf b) l (writeWidth s b) else lineReady s (askerOf b) l

/-- A bound line can leave in this cycle but for DRAM: its destination has room, the requests before it have gone, and no request
has reached the same memory line in this cycle (R12, R268, R295, R369). -/
def mayLeave (s : State) (b : BLine) : Bool :=
  (reached s b).all (fun l => !s.slc.touched.contains l) &&
  match b.cargo with
  | .elem q pos _ _ => (match qrec s q with
      | some r => !r.culv || culRoom s r.cul q pos
      | none => false)
  | .dest c => oldestDest s b && destRoom s c
  | .miss i id l => ((coreAt s i).misses.find? fun m => m.id == id).all fun m => inTurn s i m.order l
  | .back i order l => inTurn s i order l
  | _ => true

/-- A bound line can leave in this cycle (R12, R268, R384). -/
def canLeave (s : State) (b : BLine) : Bool := mayLeave s b && dramTakes s b

/-- The source holds the line (R268): what a tile sends has arrived in the hub (R161); an ingress buffer holds its next line once it has come, and a culvert its lines one
after the other. A culvert writes the drain lines of a tile in order, and gives way to its descriptors (R425). -/
def holds (s : State) (b : BLine) : Bool := !s.slc.toHub.contains b && match b.cargo with
  | .source c _ none =>
    match (culAt s c).held with
    | [] => false
    | h :: _ => !(quadAt s (h.desc.saddr % 32)).ingress.isEmpty
  | .dest _ => oldestDest s b
  | .drain t _ _ => (drains s t).head? == some b && !culvertWork s b.src b.dst
  | _ => true

/-- A drain line is written to its ring in the world that owns the tile, and WPTR advances (R425). -/
def drainWritten (t l bits : Nat) (s : State) : State :=
  setTile t (fun x => { x with wptr := (x.wptr + 1) % 2 ^ 36 })
    (dramPut (culReq (traceCul s t) (tileSec s t)) l 0 576 bits s)

/-- The requester on whose behalf a line is bound (R17, R384). -/
def requesterOf (s : State) (b : BLine) : Req := match b.cargo with
  | .elem q _ _ _ => slcReq (queueSec s q)
  | .source c _ _ => culReq c ((culAt s c).held.head?.any fun h => h.desc.sec)
  | .dest c => culReq c ((culAt s c).held.head?.any fun h => h.desc.sec)
  | .miss i id _ => ⟨BitVec.ofNat 9 i, ((coreAt s i).misses.find? fun m => m.id == id).any fun m => m.sec⟩
  | .tableRead l => ⟨0o701, tableSec s l⟩
  | _ => ⟨0, false⟩

/-- A line that DRAM does not take starts the exit of a channel in self-refresh (R397), and where nothing else holds it back it
asks for its read (R384). DEDUCED: log entry 65. -/
def wakeDram (b : BLine) (s : State) : State := match cargoLine s b with
  | none => s
  | some l =>
    if 2 ^ 34 ≤ l ∨ !mayLeave s b then wakeLine l s
    else if writes s b then askWrite (askerOf b) (requesterOf s b) l (writeWidth s b) s
    else askRead (askerOf b) false (requesterOf s b) l s

/-- A bound line leaves its source and reaches its destination (R268, R270, R282). -/
def carriedLine (b : BLine) (s : State) : State :=
  let s := if isDestLine b then s else (reached s b).foldl (fun s l => touch l s) s
  let s := carried { s with slc := { s.slc with bound := s.slc.bound.erase b } }
  match b.cargo with
  | .elem q pos k l =>
    match qrec s q with
    | none => s
    | some r => if r.culv then launchToCulvert q pos k l r s else launchToTile q pos k l r s
  | .source c idx l => receiveSource c idx l s
  | .dest c => destConnected c s
  | .miss i id _ => missCarried i id s
  | .back i order l => backCarried i order l s
  | .tableRead l => tableCarried l s
  | .page v num idx l => pageCarried v num idx l s
  | .host c off os => hostCarried c off os s
  | .drain t l bits => drainWritten t l bits s
  | .data code l bits bad => readArrived code l bits bad s

/-- A bound line that reads memory, or an uncached store of part of a line: it may have asked for a read (R384). -/
def mayAsk (b : BLine) : Bool := match b.cargo with
  | .elem _ _ _ _ => true
  | .source _ _ _ => true
  | .miss _ _ _ => true
  | .tableRead _ => true
  | _ => false

/-- A bound line leaves: one that reads memory, or writes part of a line, takes the read that it asked for (R384). -/
def carry (b : BLine) (s : State) : State := match (cargoLine s b).filter fun _ => mayAsk b with
  | none => carriedLine b s
  | some l => withOutcome (.bound b) l (carriedLine b) s

/-- The oldest landing header that waits for a canal takes the connection (R282), unless a request has reached its line in
this cycle (R12). DEDUCED: log entry 32. -/
def takeHeader (d : Nat) (s : State) : Option State :=
  let mine := fun q => (qrec s q).any fun r => r.tile == d
  match s.slc.headers.find? mine with
  | none => none
  | some q =>
    let l := tileLine0 d + ((qrec s q).map fun r => r.lbase).getD 0
    if s.slc.touched.contains l then none
    else some (touch l (setDeliv q (fun x => { x with hdr := 2 })
      { s with slc := { s.slc with headers := s.slc.headers.erase q } }))

/-- The oldest line that a source holds for a destination, among those that stood bound when the hub cycle began (R268). -/
def oldestHeld (s : State) (lines : List BLine) (src d : Nat) : Option BLine :=
  lines.find? fun b => b.src == src && b.dst == d && s.slc.bound.contains b && holds s b

/-- One connection of a pattern (R268): the oldest line that the source holds for the destination leaves, if it can.
DEDUCED: log entry 32. -/
def connect (lines : List BLine) (src d : Nat) (s : State) : State :=
  match oldestHeld s lines src d, takeHeader d s with
  | none, none => s
  | none, some s => spend d s
  | some _, some s => offered (spend d s)
  | some b, none =>
    let s := offered (spend d s)
    if canLeave s b then carry b s else wakeDram b s

/-- The destinations that a bound line or a header wants. -/
def wanted (s : State) : List Nat :=
  ((s.slc.bound.map fun b => b.dst) ++ s.slc.headers.filterMap fun q => (qrec s q).map fun r => r.tile).eraseDups

/-- The connections of a pattern, destination by destination: those that a bound line or a header could use. -/
def applyPattern (a p : Nat) (s : State) : State :=
  let lines := s.slc.bound
  (wanted s).foldl (fun s d =>
    let src := patSource s a p d
    if src = unconnected then s else connect lines src d s) (newCycle (some (a, p)) s)

/-- The slot that runs, when the running schedule is an alternate and its entry has the kind given. A command for a slot
before the next one changes nothing; slots between pass without a line or a grant. -/
def alternateSlot (slot kind : Nat) (act : Nat → State → State) (s : State) : State :=
  let a := s.cfg.cur
  let e := slotEntry s a slot
  if s.slc.mode ≠ 1 ∨ slot < s.slc.next ∨ entKind e ≠ kind ∨ !serving s then s
  else
    let s := { s with slc := { s.slc with slot := slot, cycle := s.slc.cycle + (slot - s.slc.next) } }
    let s := act e (applyPattern a (entPat e) s)
    { s with slc := { s.slc with next := slot + 1, cycle := s.slc.cycle + 1 } }

/-- The slot goes to no ditch. -/
def idleSlot (s : State) : State := { s with slc := { s.slc with cIdle := s.slc.cIdle + 1 } }

/-- A slot that its ditch cannot use is offered to its donation ring (R287). -/
def donate (r : Nat) (s : State) : State :=
  let a := s.cfg.cur
  if r = 0o377 ∨ altNring s a ≤ r then idleSlot s
  else
    let ms := ringMembers s a r
    let n := ms.length
    let p := mget 0 s.slc.rptr r
    match ((List.range n).map fun i => (p + i) % n).find? fun i => ditchEligible s (ms.getD i 0) with
    | none => idleSlot s
    | some i =>
      let s := { s with slc := { s.slc with cDon := s.slc.cDon + 1, rptr := mset 0 s.slc.rptr r ((i + 1) % n) } }
      grant (ms.getD i 0) true s

/-- SLOT_GRANT (R280, R281, R287). DEDUCED: log entry 31. -/
def execSlotGrant (slot : Fin 65536) (s : State) : Host.Outcome State Fault Refusal :=
  .next (alternateSlot slot.val 0 (fun e s =>
    if ditchEligible s (entDitch e) then grant (entDitch e) false s else donate (entRing e) s) s)

/-- SLOT_TRANSFER (R280). DEDUCED: log entry 31. -/
def execSlotTransfer (slot : Fin 65536) (s : State) : Host.Outcome State Fault Refusal :=
  .next (alternateSlot slot.val 1 (fun _ s => s) s)

/-- SLOT_REFRESH (R280, R390, R393). DEDUCED: log entry 31. -/
def execSlotRefresh (slot : Fin 65536) (s : State) : Host.Outcome State Fault Refusal :=
  .next (alternateSlot slot.val 2 (fun e s => if drcPlace s = 0 then almanacRefresh (entDitch e) s else s) s)

/-- The queues of the helm VI: its doorbell queues and its SWQ (R291). -/
def helmQueue (s : State) (q : Nat) : Bool :=
  let v := helmVi s
  (decide (viQfirst s v ≤ q) && decide (q < viQfirst s v + viNq s v)) || (viShadowed s v && viSwq s v == q)

/-- A management ditch (R291). -/
def mgmtDitch (s : State) (d : Nat) : Bool :=
  let t := ditchAt s d
  (List.range t.nq).any fun i =>
    let q := t.qfirst + i
    match qrec s q with
    | none => false
    | some r => r.culv || mgmtTile s == some r.tile || helmQueue s q

/-- The management ditches in ascending order. -/
def mgmtDitches (s : State) : List Nat := (s.slc.ditches.map fun e => e.1).filter (mgmtDitch s)

/-- The first port, in the order of the rotation, and the rest of a list from a ditch on. -/
def rotateFrom (p : Nat) (ds : List Nat) : List Nat := ds.filter (fun d => decide (p ≤ d)) ++ ds.filter fun d => decide (d < p)

/-- A connection is formed. -/
def join (src d : Nat) (s : State) : State := { s with slc := { s.slc with joined := (src, d) :: s.slc.joined } }

/-- A destination is not yet connected in this hub cycle. -/
def unjoined (s : State) (d : Nat) : Bool := !s.slc.joined.any fun j => j.2 == d

/-- The lines that stand ready in a tile's buffer since this hub cycle or before, in streaming mode (R291, R425). -/
def ageDrain (s : State) (t : Nat) : State :=
  if !streaming s t then s
  else
    let p := drainPtr s t
    let n := (tileAt s t).used / 16
    setTile t (fun x =>
      let old := (x.fulls.drop ((p + 2 ^ 36 - x.fullsAt) % 2 ^ 36)).take n
      { x with fullsAt := p, fulls := old ++ List.replicate (n - old.length) s.slc.cycle }) s

/-- A canal holds a drain line that it may send in this cycle, and since when (R291, R425). DEDUCED: log entry 66. -/
def drainWaits (s : State) (t : Nat) : Option Nat :=
  let d := portCulvert (traceCul s t)
  if t < 48 ∧ drainReady s t ∧ unjoined s d ∧ !culvertWork s (portCanal t) d then some ((tileAt s t).fulls.headD s.slc.cycle)
  else none

/-- A source sends its oldest line whose destination is not yet connected (R291): one that stands bound, or the drain line of
a canal, for which TRACE_DRAIN_LINE then finds the connection. -/
def mgmtSource (lines : List BLine) (src : Nat) (s : State) : State :=
  let drain := join src (portCulvert (traceCul s src)) s
  match lines.find? (fun b => b.src == src && unjoined s b.dst && s.slc.bound.contains b && holds s b), drainWaits s src with
  | none, none => s
  | none, some _ => drain
  | some b, none => connect lines src b.dst (join src b.dst s)
  | some b, some a => if a < b.since then drain else connect lines src b.dst (join src b.dst s)

/-- The chart engine, the last source, is connected for its oldest changed line whose subchannel is free (R291, R327). -/
def mgmtChart (s : State) : State :=
  match s.cht.writes.find? fun p => unjoined s (portOfLine p.1) with
  | none => s
  | some p => join portChart (portOfLine p.1) s

/-- The sources in ascending order form the pattern of a hub cycle of the management schedule (R291); a landing header takes
the connection that a source makes to its canal (R282, `connect`). -/
def mgmtPattern (s : State) : State :=
  let lines := s.slc.bound
  let s := (List.range 48).foldl ageDrain (newCycle none s)
  mgmtChart ((List.range 256).foldl (fun s src => mgmtSource lines src s) s)

/-- MGMT_SLOT (R291): the pattern, then a grant to the next eligible management ditch. DEDUCED: log entry 31. -/
def execMgmtSlot (slot : Fin 65536) (s : State) : Host.Outcome State Fault Refusal :=
  if s.slc.mode ≠ 2 ∨ slot.val < s.slc.next ∨ !serving s then .next s
  else
    let s := { s with slc := { s.slc with slot := slot.val, cycle := s.slc.cycle + (slot.val - s.slc.next) } }
    let s := mgmtPattern s
    let ds := mgmtDitches s
    let s := match (rotateFrom s.slc.mgmtPtr ds).find? (ditchEligible s) with
      | none => idleSlot s
      | some d =>
        let nxt := (ds.find? fun x => decide (d < x)).getD (ds.headD 0)
        grant d false { s with slc := { s.slc with mgmtPtr := nxt } }
    .next { s with slc := { s.slc with next := slot.val + 1, cycle := s.slc.cycle + 1 } }

end Sys2Proof.Machine
end

