-- ==== Sys2Proof/Machine/Power.lean ====
section
/-! DEFINITION. Power.lean: mains power, the reservoir, the vault and the protection actions (chapter 02). -/

namespace Sys2Proof.Machine

/-- ENERGY_POLICY of the POWER section: true for UNVAULTED (R37). -/
def unvaulted (s : State) : Bool := sec s 2 0 1 == 1
/-- RIDE_TIME in nanoseconds (R37). -/
def rideTime (s : State) : Nat := secX s 2 4 2 12 * 1000000
/-- REPROBE_PERIOD in nanoseconds (R37). -/
def reprobePeriod (s : State) : Nat := secX s 2 8 2 60 * 1000000000
/-- VAULT_RESTORE (R37). -/
def vaultRestoreOn (s : State) : Bool := secX s 2 1 1 1 == 1
/-- NREG, the number of vault regions. -/
def nreg (s : State) : Nat := min (sec s 2 2 1) 16
/-- The vault regions, each a first line number and a line count, in vault order (R37). -/
def vaultRegions (s : State) : List (Nat × Nat) :=
  (List.range (nreg s)).map fun i => (sec s 2 (16 + 16 * i) 8, sec s 2 (24 + 16 * i) 8)

/-- The line class of an input: 1 AC low line, 2 AC high line, 3 DC (R28, PWR_STAT.LINE). -/
def lineClass (inp : MainsInput) : Nat := if inp.dc then 3 else if 180 ≤ inp.vin.toNat then 2 else 1

/-- k_C in per cent and k_R in hundredths for a reservoir temperature in °C plus 40 (R34). -/
def derating (temp : Nat) : Nat × Nat :=
  if temp < 50 then (98, 110) else if temp < 65 then (95, 135) else if temp < 80 then (92, 160)
  else if temp < 95 then (90, 185) else (88, 210)

/-- The results of a reservoir measurement (R33–R35): PSTAT, CAP, ESR and USABLE. -/
structure Measured where
  pstat  : Nat
  cap    : Nat
  esr    : Nat
  usable : Nat
  deriving DecidableEq, Repr

/-- R33 to R35 from the four voltages in microvolts, with exact arithmetic. With d = V(10 ms) - V(110 ms) and e = 400
(V(-50 µs) - V(200 µs)) - d, C_m is 10^6 / d farads and ESR_m is e / 4000 microohms. A slope of zero gives C_m no value: it
is free, and so is USABLE where the measurement is in range. A negative C_m or ESR_m shows as 0. DESIGN CHOICE: log entries
9 and 60. -/
def measure (v : ProbeSamples) (temp : Nat) : Measured :=
  let d : Int := (v.v10m : Int) - v.v110m
  let e : Int := 400 * ((v.vPre : Int) - v.v200u) - d
  let a : List Int := [v.vPre, v.v200u, v.v10m, v.v110m]
  let cm := if d = 0 then Config.openValue 3 a else (1000000000 / d).toNat
  let cap := satW 14 cm
  let esr := satW 10 (e / 400000).toNat
  if d < 0 ∨ 2000000 < d ∨ (d = 0 ∧ cm < 500) ∨ 102300 * 4000 ≤ e then ⟨3, cap, esr, 0⟩
  else if d = 0 then ⟨1, cap, esr, satW 16 (Config.openValue 5 a)⟩
  else
    let (kc, kr) := derating temp
    let one : Int := 40000000000
    let vm : Int := 20 * one + kr * e
    let num : Int := 4700 * kc * (2304 * one * one - vm * vm)
    ⟨1, cap, esr, satW 16 (num / (d * one * one)).toNat⟩

/-- P_ride in watts of a line class (R28). -/
def pRide (line : Nat) : Nat := if line = 1 then 930 else 1300

/-- REQUIRED in joules, rounded up (R36): margin × (p_ride × t_ride + 180 × (0.040 + n / 375e6)). -/
def requiredEnergy (s : State) (line : Nat) : Nat :=
  let n := ((vaultRegions s).map fun r => r.2).sum
  let num := secX s 2 6 2 150 * (pRide line * secX s 2 4 2 12 * 25000 + 180000000 + 12 * n)
  satW 16 ((num + 2499999999) / 2500000000)

/-- Recomputes REQUIRED for the line class in force, and READY with it (R36). -/
def recomputeRequired (s : State) : State :=
  let q := requiredEnergy s s.pwr.line
  { s with pwr := { s.pwr with required := q, ready := decide (q ≤ s.pwr.usable) } }

/-- RSV_SHORT with USABLE and REQUIRED (R38). -/
def rsvShort (s : State) : State :=
  report (mkReport Unit.pwr Cls.reported Code.rsvShort 79 [(s.pwr.usable, 16), (s.pwr.required, 16)]) s

/-- RSV_WORN when the usable energy is below 900 J (R53). -/
def rsvWornCheck (s : State) : State :=
  reportIf (decide (s.pwr.usable < 900))
    (mkReport Unit.pwr Cls.wear Code.rsvWorn 79 [(s.pwr.usable, 16)]) s

/-- The fewest spare blocks over the vault slots and boot flash (PWR_WEAR.SPARE). DESIGN CHOICE: log entry 46. -/
def spareBlocks (s : State) : Nat := satW 12 (min (min s.nv.spare0 s.nv.spare1) s.nv.spareBoot)

/-- FLASH_WORN holds (R53). -/
def flashWorn (s : State) : Bool := decide (spareBlocks s < 64) || decide (2700 ≤ s.nv.erases)

/-- FLASH_WORN when a wear threshold of flash is reached and its cause is not yet stored, or in LOAD (R53). DESIGN
CHOICE: log entry 46. -/
def flashWornCheck (always : Bool) (s : State) : State :=
  reportIf (flashWorn s && (always || !s.nv.causes.getLsbD 1))
    (mkReport Unit.pwr Cls.wear Code.flashWorn 80 [(spareBlocks s, 12), (satW 12 s.nv.erases, 12)]) s

/-- The slot a vault writes: the one that does not hold the newest image, slot 0 when neither does (R46). -/
def vaultTarget (s : State) : Bool := s.nv.newest == some false

/-- Writing or erasing a vault slot wears its flash: the erase count does not fall and the slot's spare blocks do not
rise, by amounts that the spec does not give (R53). DESIGN CHOICE: log entry 46. -/
def wearSlot (slot1 : Bool) (s : State) : State :=
  let n := Config.openValue 21 [s.draws]
  let nv := { s.nv with erases := s.nv.erases + Config.openValue 20 [s.draws] }
  { s with draws := s.draws + 1
           nv := if slot1 then { nv with spare1 := nv.spare1 - n } else { nv with spare0 := nv.spare0 - n } }

/-- Erasing or writing a copy may use up spare blocks of boot flash (R53). DESIGN CHOICE: log entry 46. -/
def wearBoot (s : State) : State :=
  { s with draws := s.draws + 1, nv := { s.nv with spareBoot := s.nv.spareBoot - Config.openValue 22 [s.draws] } }

/-- A running reprobe is abandoned (R39). -/
def abandonReprobe (s : State) : State :=
  if s.pwr.reprobing then { s with pwr := { s.pwr with reprobing := false, pstat := 2 } } else s

/-- The mask of the configured regions. -/
def regionMask (s : State) : Nat := 2 ^ nreg s - 1

/-- Entry to VAULT (R43): VAULT_BEGIN is logged and the sequence starts; until its closing record is written the vault
counts as abandoned (R45). The debug port stops being active (R428). A running reprobe is abandoned, and the slot that
the vault will write keeps its older image until the closing record. DESIGN CHOICE: log entry 60. -/
def enterVault (s : State) : State :=
  let s := abandonReprobe s
  let s := report (mkReport Unit.pwr Cls.reported Code.vaultBegin 0 [(regionMask s, 16), (0, 15)]) s
  { s with cfg := { s.cfg with phase := .vault }, nv := { s.nv with lastVault := 3 }, dbu := restPort s.dbu
           pwr := { s.pwr with vault := .entered, vaultFrom := s.isl.chron, vaultStop := none, reqHeld := replaceReq s
                               rideHelm := s.cfg.phase == .helm || (s.cfg.phase == .ride && s.pwr.rideHelm) } }

/-- Mains loss by a criterion (R40, R42): from RUN and HELM-ONLY to RIDE, earlier to DARK, and nothing more in RIDE and
VAULT. -/
def declareLoss (crit : Nat) (s : State) : State :=
  let s := abandonReprobe { s with pwr := { s.pwr with loss := true, crit := crit } }
  match s.cfg.phase with
  | .dark => s
  | .run | .helm =>
    let s := report (mkReport Unit.pwr Cls.reported Code.pwrMainsLoss 78 [(crit, 3), (s.isl.chron, 62)]) s
    { s with pwr := { s.pwr with rideFrom := s.isl.chron, rideHelm := s.cfg.phase == .helm, reqHeld := replaceReq s }
             cfg := { s.cfg with phase := .ride } }
  | .ride | .vault => s
  | _ => darkOnLoss s

/-- A loss criterion applies to the input as the power stage classifies it: 0 to 2 to AC, 3 to DC, and 4 while a
protection action has disconnected it (R31). -/
def criterionApplies (crit : Nat) (s : State) : Bool :=
  if crit = 4 then s.pwr.discon else if crit = 3 then s.pwr.dcIn else !s.pwr.dcIn

/-- MAINS_LOSS (R31, R40, R42). In DARK there is no mains to lose. -/
def execMainsLoss (crit : Fin 5) (s : State) : Host.Outcome State Fault Refusal :=
  if s.cfg.phase = .dark ∨ !criterionApplies crit.val s then .next s else .next (declareLoss crit.val s)

/-- Whether an input lies in the rated range of R28. -/
def inRange (inp : MainsInput) : Bool :=
  let v := inp.vin.toNat
  let f := inp.freq.toNat
  if inp.dc then decide (190 ≤ v) && decide (v ≤ 400)
  else decide (85 ≤ v) && decide (v ≤ 305) && decide (188 ≤ f) && decide (f ≤ 252)

/-- An input that meets a condition of R32. -/
def mainsValid (inp : MainsInput) : Bool :=
  let v := inp.vin.toNat
  let f := inp.freq.toNat
  if inp.dc then decide (180 ≤ v) else decide (80 ≤ v) && decide (180 ≤ f) && decide (f ≤ 260)

/-- Mains is valid again: after a disconnection, only within the rated range (R32). -/
def validAgain (inp : MainsInput) (s : State) : Bool := mainsValid inp && (!s.pwr.discon || inRange inp)

/-- The maximum input power in watts of a line class (R28). DESIGN CHOICE: log entry 60. -/
def maxInput (line : Nat) : Nat := if line = 1 then 1000 else 1400

/-- Records an input sample in PWR_STAT and the classification last made; an input in the rated range ends an excursion
(R31). The module draws no more than the line class in force permits (R28, R30). -/
def takeInput (inp : MainsInput) (s : State) : State :=
  { s with pwr := { s.pwr with vin := inp.vin.toNat, freq := if inp.dc then 0 else inp.freq.toNat, dcIn := inp.dc
                               pin := min inp.pin.toNat (maxInput s.pwr.line)
                               excur := s.pwr.excur && !inRange inp } }

/-- MAINS_VALID_AGAIN (R32, R41, R47): out of DARK to CHARGE; back from RIDE unless RIDE_TIME has expired. An input that
R32 does not call valid changes nothing. DEDUCED: log entry 58. -/
def execMainsValidAgain (inp : MainsInput) (s : State) : Host.Outcome State Fault Refusal :=
  if !validAgain inp s then .next s else
  match s.cfg.phase with
  | .dark => .next (leaveDark inp.dc s)
  | .ride =>
    let s := takeInput inp { s with pwr := { s.pwr with loss := false, discon := false } }
    if s.pwr.rideFrom + rideTime s ≤ s.isl.chron then .next (enterVault s)
    else
      let s := { s with cfg := { s.cfg with phase := if s.pwr.rideHelm then .helm else .run } }
      .next (report (mkReport Unit.pwr Cls.reported Code.pwrMainsReturn 78
        [(satW 36 (s.isl.chron - s.pwr.rideFrom), 36)]) s)
  | _ => .next (takeInput inp { s with pwr := { s.pwr with loss := false, discon := false } })

/-- The line class a held condition changes to, when it changes (R30). Between AC high line and DC the class stays high line
and its code in PWR_STAT.LINE stays as it is. DESIGN CHOICE: log entry 60. -/
def newLine (line : Nat) (inp : MainsInput) : Option Nat :=
  if line = 1 then
    if inp.dc then some 3 else if 184 ≤ inp.vin.toNat then some 2 else none
  else if !inp.dc && decide (inp.vin.toNat < 176) then some 1
  else none

/-- PWR_LINE_CHANGE (R30): the class changes in RUN and HELM-ONLY, REQUIRED and READY are recomputed, and the ceiling
set follows at the next tide boundary. -/
def execPwrLineChange (inp : MainsInput) (s : State) : Host.Outcome State Fault Refusal :=
  if !runOrHelm s then .next s
  else
    match newLine s.pwr.line inp with
    | none => .next (takeInput inp s)
    | some c =>
      let s := takeInput inp { s with pwr := { s.pwr with line := c } }
      let was := s.pwr.ready
      let s := recomputeRequired s
      let s := report (mkReport Unit.pwr Cls.reported Code.pwrLineChange 78 [(c, 2), (inp.vin.toNat, 10)]) s
      .next (if was && !s.pwr.ready then rsvShort s else s)

/-- An input outside the rated range that meets no loss criterion, as the list of R31 has them: one above 330 V RMS or 400 V DC
is not on it. DESIGN CHOICE: log entry 74. -/
def excursion (inp : MainsInput) : Bool :=
  let v := inp.vin.toNat
  let f := inp.freq.toNat
  !inRange inp &&
    if inp.dc then decide (170 ≤ v) && decide (v < 190)
    else decide (75 ≤ v) && decide (v ≤ 330) && decide (180 ≤ f) && decide (f ≤ 260)

/-- PWR_INPUT_RANGE (R31): an excursion is reported once; an input in the rated range ends it. -/
def execPwrInputRange (inp : MainsInput) (s : State) : Host.Outcome State Fault Refusal :=
  if s.cfg.phase == .dark || s.pwr.loss then .next s
  else if excursion inp then
    let was := s.pwr.excur
    let s := takeInput inp s
    .next (reportIf (!was) (mkReport Unit.pwr Cls.reported Code.pwrInputRange 78 [(s.pwr.vin, 10), (s.pwr.freq, 9)])
      { s with pwr := { s.pwr with excur := true } })
  else if inRange inp then .next (takeInput inp s)
  else .next s

/-- CHARGE_COMPLETE (R54); while charging is stopped the reservoir does not reach 48.0 V (R50). -/
def execChargeComplete (s : State) : Host.Outcome State Fault Refusal :=
  if s.cfg.phase = .charge ∧ !s.pwr.chargeOff then .next { s with cfg := { s.cfg with phase := .probe } } else .next s

/-- CHARGE_TIMEOUT (R55): PROBE is entered with the voltage kept for the report in LOAD. DESIGN CHOICE: log entry 3.
-/
def execChargeTimeout (cv : BitVec 16) (s : State) : Host.Outcome State Fault Refusal :=
  if s.cfg.phase = .charge then
    let s := reachTime 20000000000 s
    .next { s with cfg := { s.cfg with phase := .probe }, pwr := { s.pwr with tmoVolt := some cv.toNat } }
  else .next s

/-- PROBE_MEASUREMENT (R22, R29, R33–R35). -/
def execProbeMeasurement (straps : BitVec 3) (inp : MainsInput) (samples : ProbeSamples) (temp : BitVec 8)
    (s : State) : Host.Outcome State Fault Refusal :=
  if s.cfg.phase = .probe then
    let m := measure samples temp.toNat
    let m := if s.pwr.tmoVolt.isSome then { m with pstat := 3, usable := 0 } else m
    let s := takeInput inp { s with pwr := { s.pwr with line := lineClass inp } }
    .next { s with
      lgb := { s.lgb with addr := 0o130 + straps.toNat }
      pwr := { s.pwr with pstat := m.pstat, cap := m.cap, esr := m.esr, usable := m.usable
                          temp := temp.toNat, worn := decide (m.usable < 900) }
      cfg := { s.cfg with phase := .load, loadIn := false } }
  else .next s

/-- The health unit checks the newest record; one whose CHECK fails is recovered and reported (R408). -/
def recoverNewest (s : State) : State :=
  if s.nv.total = 0 then s
  else
    let n := s.nv.total - 1
    let r := recAt s n
    if r.check = recCheck r then s
    else
      let s := putRec n { r with state := 11 } s
      report (mkReport Unit.lgb Cls.reported Code.lgbRecovered 0 [(n, 56), (r.rep, 16)]) s

/-- A newest alert record above the one last answered asserts SMB_ALERT_N in LOAD (R413). -/
def alertAtLoad (s : State) : State :=
  match s.nv.alertSeq with
  | none => s
  | some n =>
    let due := match s.nv.alertAns with
      | none => true
      | some a => decide (a < n)
    if due then { s with lgb := { s.lgb with alert := true } } else s

/-- The replacement causes that the wear and repair state holds (R464, R465): those stored as such, the devices designated
failed (R381), and the retirements that leave a die fewer than 12 tiles (R64). -/
def storedCauses (s : State) : BitVec 8 :=
  let out := (List.range 4).any fun d => decide (1 < ((List.range 13).filter fun p => s.nv.retired.getLsbD (13 * d + p)).length)
  s.nv.causes ||| (if s.nv.failDev.isEmpty then 0#8 else 8#8) ||| (if out then 4#8 else 0#8)

/-- LOAD_ENTRY (R56, R408, R24, R53, R55): the power-cycle count, the logbook check, the stored causes and the wear
conditions, which REPLACE_REQ shows at once, and what PWR_VLT shows of the newest image. The reports come in the order of
their units (R455). -/
def execLoadEntry (s : State) : Host.Outcome State Fault Refusal :=
  if s.cfg.phase ≠ .load ∨ s.cfg.loadIn then .next s
  else
    let s := { s with nv := { s.nv with pcc := satW 36 (s.nv.pcc + 1) }, cfg := { s.cfg with loadIn := true } }
    let s := flashWornCheck true (rsvWornCheck s)
    let s := match s.pwr.tmoVolt with
      | none => s
      | some v => report (mkReport Unit.cfg Cls.reported Code.cfgChargeTimeout 0 [(v, 16)]) s
    let s := alertAtLoad (recoverNewest s)
    let s := if storedCauses s = 0 then s
      else { s with hlt := { s.hlt with repl := s.hlt.repl ||| storedCauses s ||| 128#8 } }
    let s := if s.pwr.usable < 900 then assertReplace 0 s else s
    let s := if flashWorn s then assertReplace 1 s else s
    let img : Option VaultImage := match s.nv.newest with
      | none => none
      | some false => s.nv.slot0
      | some true => s.nv.slot1
    .next { s with pwr := { s.pwr with vLast := s.nv.lastVault, vSlot := s.nv.newest == some true
                                       vDone := (img.map fun (i : VaultImage) => i.done).getD 0
                                       vPoison := (img.map fun (i : VaultImage) => satW 15 i.poison).getD 0 } }

/-- RIDE_TIME_EXPIRY (R43). DESIGN CHOICE: log entry 3. -/
def execRideTimeExpiry (s : State) : Host.Outcome State Fault Refusal :=
  if s.cfg.phase = .ride then .next (enterVault (reachTime (s.pwr.rideFrom + rideTime s) s)) else .next s

/-- All tile and quad islands are off from t_b + 1 ms, and the holds between tiles end (R43, R87). DESIGN CHOICE: log entry 2. -/
def vaultIslands (s : State) : State :=
  if s.cfg.phase ≠ .vault ∨ s.pwr.vault = .entered ∨ s.pwr.vaultOff ∨ s.isl.chron < s.pwr.vaultTb + 1000000 then s
  else
    let s := (List.range 48).foldl (fun s t =>
      if available s t then
        loseTile t false (setTileIsl t (fun x => { x with
          state := .darkLose, pend := 0, exiting := false, closing := false }) (endHolds t s))
      else s) s
    { s with
      slc := { s.slc with xing := [] }, isl := { s.isl with hubDiff := [] }, prt := { s.prt with quads := [] }
      pwr := { s.pwr with vaultOff := true } }

/-- The nanoseconds in which the vault engine writes `n` lines, at 375 × 10^6 lines/s (R43). -/
def vaultNs (n : Nat) : Nat := (8 * n + 2) / 3

/-- When the vault engine has written the secure state and the first `k` regions (R43). -/
def vaultAt (s : State) (k : Nat) : Nat :=
  s.pwr.vaultTb + 2000000 + vaultNs (65537 + 64 * s.wld.hwm + (((vaultRegions s).take k).map fun r => r.2).sum)

/-- VAULT_REGION_STOP (R45): region `i` and all later regions will be marked incomplete. DESIGN CHOICE: log entry 3. -/
def execVaultRegionStop (i : Fin 16) (s : State) : Host.Outcome State Fault Refusal :=
  if s.cfg.phase = .vault ∧ s.pwr.vault = .stopped ∧ s.pwr.vaultStop = none then
    let s := vaultIslands (reachTime (vaultAt s i.val) s)
    .next { s with pwr := { s.pwr with vaultStop := some i.val, stopAt := s.isl.chron } }
  else .next s

/-- Whether line `l` is part of a vault image with these complete regions and hub watermark (R44). -/
def inImage (regions : List (Nat × Nat)) (hwm l : Nat) : Bool :=
  regions.any (fun r => decide (r.1 ≤ l) && decide (l < r.1 + r.2)) ||
    (decide (hubLine0 ≤ l) && decide (l < hubLine0 + 64 * hwm))

/-- The ranges of a region that the restore left poisoned, on subchannels that are not down. DEDUCED: log entry 59. -/
def leftPoisoned (s : State) (r : Nat × Nat) : List (Nat × Nat × BitVec 32) :=
  (s.drc.lost.flatMap (clipLost r.1 (r.1 + r.2))).map fun e => (e.1, e.2.1, e.2.2 &&& ~~~s.drc.down)

/-- The ranges of a region in which whole subchannels read as uncorrectable: those that are down, and those that the
restore left poisoned. DEDUCED: log entry 59. -/
def lostRanges (s : State) (r : Nat × Nat) : List (Nat × Nat × BitVec 32) :=
  (r.1, r.2, s.drc.down) :: leftPoisoned s r

/-- The lines of a range on the subchannels that it names. -/
def lostCount (e : Nat × Nat × BitVec 32) : Nat :=
  ((List.range 32).map fun u =>
    if e.2.2.getLsbD u then linesOn u (e.1, e.2.1) else 0).sum

/-- The first lines of a region in the ranges that the restore left poisoned: as many as can be reported (R455).
DEDUCED: log entry 59. -/
def lostFirst (s : State) (r : Nat × Nat) : List Nat :=
  (leftPoisoned s r).flatMap fun e =>
    (((List.range (min e.2.1 288)).map fun i => e.1 + i).filter fun l => e.2.2.getLsbD (subOf l)).take 8

/-- The stored lines with errors in the regions written, in vault order; of the ranges that the restore left poisoned, the
first lines. DEDUCED: log entry 59. -/
def oddLines (s : State) (whole : List (Nat × Nat)) : List Nat :=
  let keys := (s.poison.map fun e => e.1) ++ (s.drc.marks.map fun e => e.1) ++ whole.flatMap (lostFirst s)
  let odd := keys.foldl (fun l x => if l.contains x then l else insertBy (fun a b => decide (a ≤ b)) x l) []
  whole.flatMap fun r => odd.filter fun l => decide (r.1 ≤ l) && decide (l < r.1 + r.2) && !subDown s (subOf l)

/-- The vault engine's reads of the regions that it writes (R44, R380, R398, R400): the counts and reports of the DRAM
controller, and what the lines with errors delivered, none with the uncorrectable mark. DEDUCED: log entry 59. -/
def vaultReads (whole : List (Nat × Nat)) (s : State) : State × List (Nat × Option Nat) :=
  let odd := oddLines s whole
  let left := ((whole.flatMap (leftPoisoned s)).map lostCount).sum - (odd.filter (lostLine s)).length
  let (s, got) := odd.foldl (fun (p : State × List (Nat × Option Nat)) l =>
      let (s, v, bad) := decodeBurst false hubCode l (lineBits p.1 l) (lineErrors p.1 l) p.1
      (s, p.2 ++ [(l, if bad then none else some v)]))
    (downRanges whole (wakeRanges whole s), [])
  (discardReports left s, got)

/-- The regions that the vault engine has written when it writes the closing record (R45). -/
def writtenRegions (s : State) : List (Nat × Nat) :=
  let rs := vaultRegions s
  rs.take (s.pwr.vaultStop.getD rs.length)

/-- The CRC-64 of a region's stored octets (R45). DEDUCED: log entry 59. -/
def regionCrc (s : State) (r : Nat × Nat) : Nat :=
  crc64 ((List.range r.2).flatMap fun i => splitUnits 8 72 (lineBits s (r.1 + i)))

/-- The first `n` lines of some regions. -/
def cutRegions : Nat → List (Nat × Nat) → List (Nat × Nat)
  | _, [] => []
  | n, r :: rs => if n = 0 then [] else (r.1, min n r.2) :: cutRegions (n - r.2) rs

/-- The lines of its regions that the vault engine has read by now, at 375 × 10^6 lines/s: of the region at which it stopped
those that it read before (R43, R45). DEDUCED: log entry 59. -/
def readByNow (s : State) : List (Nat × Nat) :=
  let lines := fun t => 3 * (t - (s.pwr.vaultTb + 2000000)) / 8 - (65537 + 64 * s.wld.hwm)
  match s.pwr.vaultStop with
  | none => cutRegions (lines s.isl.chron) (vaultRegions s)
  | some i => cutRegions (lines (min s.isl.chron s.pwr.stopAt)) ((vaultRegions s).take (i + 1))

/-- A vault that ends before its closing record has read what it did of its regions, and has worn its slot (R45, R46, R53).
DESIGN CHOICE: log entry 46. DEDUCED: log entry 59. -/
def abandonVault (s : State) : State :=
  if s.cfg.phase = .vault ∧ s.pwr.vault = .stopped then wearSlot (vaultTarget s) (vaultReads (readByNow s) s).1 else s

/-- Entry to DARK on a protection action or at the end of a vault: where mains is valid throughout, the module leaves
DARK for CHARGE at once (R47, R54). -/
def darkThenStart (s : State) : State :=
  let s := abandonVault s
  if s.pwr.loss then darkOnLoss s else leaveDark s.pwr.dcIn (goDark s)

/-- A key slot as a line of the image (R43, R44). DESIGN CHOICE: log entry 70. -/
def slotOctets (k : KeySlot) : List Nat := splitUnits 8 72 (packFields [(k.mat.toNat, 512), (k.typ, 8)])

/-- A line of the image as a key slot. DESIGN CHOICE: log entry 70. -/
def slotOf (os : List Nat) : KeySlot :=
  let v := joinUnits 8 os
  { typ := field v 512 8, mat := BitVec.ofNat 512 v }

/-- The world assignments as a data unit of the image (R43, R44). DESIGN CHOICE: log entry 70. -/
def worldOctets (w : Worlds) : List Nat :=
  splitUnits 8 144 (packFields ([(w.dwm, 20), (w.hwm, 13), (w.kwm, 17), (w.iwm, 19), (w.blocks.toNat, 16), (w.quads.toNat, 24),
    (w.tiles.toNat, 48)] ++ (List.range 48).map fun t => (mget 0 w.twm t, 9)))

/-- Data unit `n` of the image under the module's key: AES-256-XTS over two lines (R44). DESIGN CHOICE: log entry 70. -/
def flashUnit (enc : Bool) (n : Nat) (os : List Nat) : List Nat :=
  Aes.xts enc (Aes.leOctets 32 Config.vaultKey) (Aes.leOctets 32 (Config.vaultKey / 2 ^ 256)) 144 n os

/-- What data unit `n` holds: key slots 2n and 2n + 1, the world assignments, or two lines of memory. -/
def plainUnit (keys : SMap KeySlot) (w : Worlds) (mem : List Host.Cell) (n : Nat) : List Nat :=
  if n < 32768 then slotOctets (mget {} keys (2 * n)) ++ slotOctets (mget {} keys (2 * n + 1))
  else if n = 32768 then worldOctets w
  else (List.range 144).map fun j => (mget (0 : BitVec 8) mem (144 * (n - 32769) + j)).toNat

/-- The vault engine encrypts the image: the units that hold anything (R44). -/
def sealImage (keys : SMap KeySlot) (w : Worlds) (mem : List Host.Cell) : SMap (List Nat) :=
  let ks := (keys.map fun e => e.1 / 2).eraseDups
  let ms := (mem.map fun c => 32769 + c.1 / 144).eraseDups
  (ks ++ 32768 :: ms).map fun n => (n, flashUnit true n (plainUnit keys w mem n))

/-- The memory, the key slots and the hub watermark of an image, deciphered (R44, R48). -/
def imageMem (img : VaultImage) : List Host.Cell :=
  (img.units.filter fun e => decide (32769 ≤ e.1)).flatMap fun e =>
    ((List.range 144).zip (flashUnit false e.1 e.2)).filterMap fun o =>
      if o.2 = 0 then none else some (144 * (e.1 - 32769) + o.1, BitVec.ofNat 8 o.2)
def imageKeys (img : VaultImage) : SMap KeySlot :=
  (img.units.filter fun e => decide (e.1 < 32768)).flatMap fun e =>
    let os := flashUnit false e.1 e.2
    [(2 * e.1, slotOf (os.take 72)), (2 * e.1 + 1, slotOf (os.drop 72))]
def imageHwm (img : VaultImage) : Nat :=
  field (joinUnits 8 (flashUnit false 32768 (mget [] img.units 32768))) 20 13

/-- The image that the vault engine has written when it writes the closing record (R44, R45): a line holds what its read
delivered, and the secure state stands with it, encrypted. DESIGN CHOICE: log entry 16. DEDUCED: log entry 59. -/
def makeImage (s : State) : VaultImage :=
  let rs := vaultRegions s
  let whole := writtenRegions s
  let lost := whole.flatMap (lostRanges s)
  let read := (vaultReads whole s).2
  let got := read.foldl (fun s e => match e.2 with
    | some v => putLine e.1 v s
    | none => s) s
  let bad := read.foldl (fun m e => mset false m e.1 (e.2.isNone != inLost lost e.1)) ([] : SMap Bool)
  let more := (bad.filter fun e => !inLost lost e.1).length
  let less := (bad.filter fun e => inLost lost e.1).length
  { regions := rs, done := 2 ^ whole.length - 1, poison := (lost.map lostCount).sum + more - less
    units := sealImage s.keys s.wld (got.mem.filter fun c => inImage whole s.wld.hwm (c.1 / 72))
    bad := bad, lost := lost, crcs := whole.map (regionCrc got) }

/-- VAULT_CLOSING_RECORD (R45, R46): the image takes its slot and becomes the newest, and VAULT_END is logged. DESIGN
CHOICE: log entry 3. -/
def execVaultClosingRecord (s : State) : Host.Outcome State Fault Refusal :=
  if s.cfg.phase = .vault ∧ s.pwr.vault = .stopped then
    let s := vaultIslands (reachTime (vaultAt s (s.pwr.vaultStop.getD 16)) s)
    let img := makeImage s
    let tgt := vaultTarget s
    let s := (vaultReads (readByNow s) s).1
    let full := decide (img.done = regionMask s)
    let nv := if tgt then { s.nv with slot1 := some img } else { s.nv with slot0 := some img }
    let s := { s with nv := { nv with newest := some tgt, lastVault := if full then 1 else 2 }
                      pwr := { s.pwr with vault := .closed, vaultEnd := s.isl.chron } }
    let s := report (mkReport Unit.pwr Cls.reported Code.vaultEnd 0
      [(img.done, 16), (satW 15 img.poison, 15)]) s
    .next (flashWornCheck false (wearSlot tgt s))
  else .next s

/-- VAULT_DARK_TIMER (R43, R47). DESIGN CHOICE: log entry 3. -/
def execVaultDarkTimer (s : State) : Host.Outcome State Fault Refusal :=
  if s.cfg.phase = .vault ∧ s.pwr.vault = .closed then
    .next (darkThenStart (reachTime (s.pwr.vaultEnd + 5000000) s))
  else .next s

/-- PWR_CTL_REFUSED with the written value (R49). -/
def pwrCtlRefused (value : Word) (s : State) : State :=
  report (mkReport Unit.pwr Cls.reported Code.pwrCtlRefused 0 [(value.toNat, 36)]) s

/-- The list hash of a slot's image for VAULT_DISCARD: zero for a slot without an image. -/
def slotHash (i : Option VaultImage) : Nat := (i.map fun x => Config.regionHash x.regions).getD 0

/-- Both vault slots are erased, which wears them, and VAULT_DISCARD is reported (R49, R53). DEDUCED: log entry 58. DESIGN
CHOICE: log entries 46 and 60. -/
def discardVaults (s : State) : State :=
  let r := mkReport Unit.pwr Cls.reported Code.vaultDiscard 0
    [(slotHash s.nv.slot0, 36), (slotHash s.nv.slot1, 36)]
  let s := report r { s with nv := { s.nv with slot0 := none, slot1 := none, newest := none }
                             pwr := { s.pwr with vDone := 0, vPoison := 0, vSlot := false } }
  flashWornCheck false (wearSlot true (wearSlot false s))

/-- A reprobe starts; while one is running the write is ignored (R39). -/
def startReprobe (s : State) : State :=
  if s.pwr.reprobing then s else { s with pwr := { s.pwr with reprobing := true } }

/-- A write of PWR_CTL (R39, R49). -/
def pwrCtlWrite (rq : Req) (value : Word) (s : State) : State :=
  ownedWrite Unit.pwr 0o30 (blockSec s Unit.pwr) rq value.toNat
    (fun s =>
      if !runOrHelm s then pwrCtlRefused value s
      else if value.getLsbD 1 && field value.toNat 18 18 != 0o123321 then pwrCtlRefused value s
      else
        let s := if value.getLsbD 1 then discardVaults s else s
        if value.getLsbD 0 then startReprobe s else s) s

/-- REPROBE (R39): a write of PWR_CTL. -/
def execReprobe (rq : Req) (value : Word) (s : State) : Host.Outcome State Fault Refusal :=
  .next (pwrCtlWrite rq value s)

/-- REPROBE_COMPLETE (R39): PWR_RSV, PWR_ENERGY, READY and WORN take the results; while charging is stopped the recharge
that completes it does not end (R50). -/
def execReprobeComplete (samples : ProbeSamples) (temp : BitVec 8) (s : State) : Host.Outcome State Fault Refusal :=
  if s.pwr.reprobing && runOrHelm s && !s.pwr.chargeOff then
    let m := measure samples temp.toNat
    let s := { s with pwr := { s.pwr with reprobing := false, pstat := m.pstat, cap := m.cap, esr := m.esr
                                          usable := m.usable, temp := temp.toNat, worn := decide (m.usable < 900) } }
    let s := recomputeRequired s
    let s := { s with pwr := { s.pwr with foundReady := s.pwr.ready } }
    let s := if s.pwr.ready then s else rsvShort s
    .next (rsvWornCheck s)
  else .next s

/-- REPROBE_PERIOD_EXPIRY (R38): under WAIT in HELM-ONLY a reprobe starts every REPROBE_PERIOD. -/
def execReprobePeriodExpiry (s : State) : Host.Outcome State Fault Refusal :=
  if s.cfg.phase = .helm ∧ s.cfg.hwait then
    let s := reachTime (s.pwr.waitFrom + reprobePeriod s) s
    .next (startReprobe { s with pwr := { s.pwr with waitFrom := s.isl.chron } })
  else .next s

/-- VAULT_DISCARD (R49): a write of PWR_CTL. -/
def execVaultDiscard (rq : Req) (value : Word) (s : State) : Host.Outcome State Fault Refusal :=
  .next (pwrCtlWrite rq value s)

/-- A protection action that disconnects the input: reported in class PROTECT, then a mains loss (R50). DEDUCED: log
entry 58. -/
def disconnectInput (code : Nat) (measured : BitVec 16) (s : State) : State :=
  if s.cfg.phase = .dark then s
  else
    let s := report (mkReport Unit.pwr Cls.protect code 78 [(78, 7), (measured.toNat, 16)]) s
    declareLoss 4 { s with pwr := { s.pwr with discon := true } }

/-- PWR_SURGE (R50): over 480 V for 1 ms, or over 600 V; the voltage is in units of 0.1 V. DESIGN CHOICE: log entry
60. -/
def execPwrSurge (measured : BitVec 16) (s : State) : Host.Outcome State Fault Refusal :=
  .next (if measured.toNat ≤ 4800 then s else disconnectInput Code.pwrSurge measured s)

/-- INPUT_OVERCURRENT (R50). -/
def execInputOvercurrent (measured : BitVec 16) (s : State) : Host.Outcome State Fault Refusal :=
  .next (disconnectInput Code.pwrOvercurrent measured s)

/-- PWR_STAGE_HOT (R50): the heatsink at 105 °C; the temperature is in units of 0.1 °C. DESIGN CHOICE: log entry 60.
-/
def execPwrStageHot (measured : BitVec 16) (s : State) : Host.Outcome State Fault Refusal :=
  .next (if measured.toNat < 1050 then s else disconnectInput Code.pwrStageHot measured s)

/-- TEST has completed in this start. -/
def afterTest (s : State) : Bool := match s.cfg.phase with
  | .lock => true
  | .run => true
  | .helm => true
  | .ride => true
  | .vault => true
  | _ => false

/-- A tile or quad island is switched off until the next start (R50); once TEST has mapped the tiles, CFG_TILESd shows the
physical tile as unavailable (R65). In HELM-ONLY another management tile takes the place of one that is off (R70). -/
def islandOff (i : Nat) (s : State) : State :=
  let s := { s with cfg := { s.cfg with
    off := mset false s.cfg.off i true
    tileSt := if i < 52 ∧ afterTest s then mset 0 s.cfg.tileSt i 3 else s.cfg.tileSt } }
  if i < 52 then
    match logicalOf s i with
    | none => s
    | some t => nextMgmtTile (mgmtTile s) (tileOff t s)
  else quadOff (i - 53) s

/-- RAIL_OVERCURRENT (R50): a tile or quad rail takes its island off, the hub rail (52) or DRAM rail (77) takes the
module to DARK. -/
def execRailOvercurrent (rail : Fin 78) (measured : BitVec 16) (s : State) : Host.Outcome State Fault Refusal :=
  if s.cfg.phase = .dark then .next s
  else
    let s := report (mkReport Unit.pwr Cls.protect Code.pwrOvercurrent rail.val [(rail.val, 7), (measured.toNat, 16)]) s
    if rail.val = 52 ∨ rail.val = 77 then .next (darkThenStart s)
    else .next (islandOff rail.val s)

/-- The thermal throttle takes hold of a physical tile or lets it go (R50). -/
def setThrottle (p : Nat) (on : Bool) (s : State) : State :=
  let s := { s with isl := { s.isl with hot := mset false s.isl.hot p on } }
  match logicalOf s p with
  | none => s
  | some t => resteer t s

/-- PWR_THERM_THROTTLE (R50): at 105 °C the tile is held at step 0, 1.5 GHz. -/
def execPwrThermThrottle (p : PTileId) (tj : BitVec 8) (s : State) : Host.Outcome State Fault Refusal :=
  if s.cfg.phase = .dark ∨ tj.toNat < 145 then .next s
  else
    let was := mget false s.isl.hot p.val
    let s := { s with isl := { s.isl with tj := mset 0 s.isl.tj p.val tj.toNat } }
    let s := reportIf (!was) (mkReport Unit.pwr Cls.protect Code.pwrThermThrottle p.val [(p.val, 7), (tj.toNat, 8)]) s
    .next (setThrottle p.val true s)

/-- THROTTLE_RELEASE (R50): the tile's last junction sample lies below 95 °C. -/
def execThrottleRelease (p : PTileId) (s : State) : Host.Outcome State Fault Refusal :=
  .next (if 135 ≤ tjOf s p.val then s else setThrottle p.val false s)

/-- PWR_THERM_TRIP (R50): at 115 °C a tile or quad is switched off; a hub trip starts VAULT at once in RUN, HELM-ONLY
and RIDE, takes the module to DARK before RUN, and below 125 °C does nothing more in VAULT. -/
def execPwrThermTrip (isl : IslandId) (tj : BitVec 8) (s : State) : Host.Outcome State Fault Refusal :=
  if s.cfg.phase = .dark ∨ (isl.val = 52 ∧ s.cfg.phase = .vault) ∨ tj.toNat < 155 then .next s
  else
    let s := report (mkReport Unit.pwr Cls.protect Code.pwrThermTrip isl.val [(isl.val, 7), (tj.toNat, 8)]) s
    if isl.val = 52 then
      match s.cfg.phase with
      | .run | .helm | .ride => .next (enterVault s)
      | _ => .next (darkThenStart s)
    else .next (islandOff isl.val s)

/-- VAULT_HUB_OVERHEAT (R50): 125 °C in VAULT takes the module to DARK and abandons the image. -/
def execVaultHubOverheat (tj : BitVec 8) (s : State) : Host.Outcome State Fault Refusal :=
  if s.cfg.phase = .vault ∧ 165 ≤ tj.toNat then
    .next (darkThenStart (report (mkReport Unit.pwr Cls.protect Code.pwrThermTrip 52 [(52, 7), (tj.toNat, 8)]) s))
  else .next s

/-- PWR_THERM_HIGH (R50): reported at 105 °C, no action. -/
def execPwrThermHigh (quad : Option QuadId) (tj : BitVec 8) (s : State) : Host.Outcome State Fault Refusal :=
  let i := match quad with
    | none => 52
    | some q => 53 + q.val
  if s.cfg.phase = .dark ∨ tj.toNat < 145 then .next s
  else .next (report (mkReport Unit.pwr Cls.reported Code.pwrThermHigh i [(i, 7), (tj.toNat, 8)]) s)

/-- RSV_HOT (R50): at 75 °C charging stops. -/
def execRsvHot (temp : BitVec 8) (s : State) : Host.Outcome State Fault Refusal :=
  if s.cfg.phase = .dark ∨ temp.toNat < 115 then .next s
  else .next (report (mkReport Unit.pwr Cls.protect Code.rsvHot 79 [(temp.toNat, 8)])
    { s with pwr := { s.pwr with chargeOff := true } })

/-- RESERVOIR_COOLED (R50): below 70 °C charging resumes. -/
def execReservoirCooled (temp : BitVec 8) (s : State) : Host.Outcome State Fault Refusal :=
  if temp.toNat < 110 then .next { s with pwr := { s.pwr with chargeOff := false } } else .next s

/-- PWR_COOLANT (R52): the measurement, and a report once per excursion, of the flow, of the inlet or of both. DESIGN CHOICE:
log entry 74. -/
def execPwrCoolant (inlet flow : BitVec 8) (lowFlowHeld : Bool) (s : State) : Host.Outcome State Fault Refusal :=
  if s.cfg.phase = .dark then .next s
  else
    let out := decide (inlet.toNat < 45) || decide (85 < inlet.toNat) || (decide (flow.toNat < 20) && lowFlowHeld)
    let was := s.pwr.coolOut
    let s := { s with pwr := { s.pwr with coolOut := out, inlet := inlet.toNat, flow := flow.toNat } }
    .next (reportIf (out && !was)
      (mkReport Unit.pwr Cls.reported Code.pwrCoolant 81 [(inlet.toNat, 8), (flow.toNat, 8)]) s)

end Sys2Proof.Machine
end

