-- ==== Sys2Proof/Machine/Sign.lean ====
section
/-! DEFINITION. Sign.lean: SHA-384 and ECDSA over P-384, the standards that checks 3 and 4 of R58 name. PRESUMED: log
entry 55. -/

namespace Sys2Proof.Machine.Sign

/-- The integer `k`-th root of `n`, from bit `b - 1` of the root down, above `r`. -/
def root (k n : Nat) : Nat → Nat → Nat
  | 0, r => r
  | b + 1, r => root k n b (if (r + 2 ^ b) ^ k ≤ n then r + 2 ^ b else r)

/-- The first 80 primes. -/
def primes : List Nat := (List.range 410).filter fun n => decide (2 ≤ n) && (List.range n).all fun d => d < 2 || n % d != 0

/-- The round constants: the fractional parts of the cube roots of the first 80 primes, 64 bits each. -/
def rounds : List Nat := primes.map fun p => root 3 (p * 2 ^ 192) 72 0 % 2 ^ 64

/-- The initial state of SHA-384: the fractional parts of the square roots of the 9th to 16th primes. -/
def start : List Nat := ((primes.drop 8).take 8).map fun p => root 2 (p * 2 ^ 128) 72 0 % 2 ^ 64

/-- Rotation of a 64-bit word to the right. -/
def rotr (n x : Nat) : Nat := x / 2 ^ n + x % 2 ^ n * 2 ^ (64 - n)

/-- Words 16 to 79 of the schedule of a block, `n` of them, from the words so far, newest first. -/
def schedule : Nat → List Nat → List Nat
  | 0, w => w.reverse
  | n + 1, w =>
    let a := w.getD 14 0
    let b := w.getD 1 0
    let s0 := rotr 1 a ^^^ rotr 8 a ^^^ a / 2 ^ 7
    let s1 := rotr 19 b ^^^ rotr 61 b ^^^ b / 2 ^ 6
    schedule n ((s1 + w.getD 6 0 + s0 + w.getD 15 0) % 2 ^ 64 :: w)

/-- One round: the constant and the schedule word. -/
def round (h : List Nat) (kw : Nat × Nat) : List Nat :=
  match h with
  | [a, b, c, d, e, f, g, i] =>
    let s1 := rotr 14 e ^^^ rotr 18 e ^^^ rotr 41 e
    let ch := (e &&& f) ^^^ ((2 ^ 64 - 1 - e) &&& g)
    let t1 := i + s1 + ch + kw.1 + kw.2
    let s0 := rotr 28 a ^^^ rotr 34 a ^^^ rotr 39 a
    let mj := (a &&& b) ^^^ (a &&& c) ^^^ (b &&& c)
    [(t1 + s0 + mj) % 2 ^ 64, a, b, c, (d + t1) % 2 ^ 64, e, f, g]
  | _ => h

/-- The number that octets spell, most significant first. -/
def be (os : List Nat) : Nat := os.foldl (fun n o => 256 * n + o % 256) 0

/-- The state after one block of 128 octets. -/
def block (h os : List Nat) : List Nat :=
  let w := (List.range 16).map fun i => be ((os.drop (8 * i)).take 8)
  let r := (rounds.zip (schedule 64 w.reverse)).foldl round h
  (h.zip r).map fun p => (p.1 + p.2) % 2 ^ 64

/-- `n` blocks. -/
def blocks : Nat → List Nat → List Nat → List Nat
  | 0, h, _ => h
  | n + 1, h, os => blocks n (block h os) (os.drop 128)

/-- The SHA-384 hash of octets, as a number. -/
def sha384 (os : List Nat) : Nat :=
  let l := os.length
  let n := (l + 17 + 127) / 128
  let len := (List.range 16).map fun i => (8 * l) / 256 ^ (15 - i) % 256
  let m := os ++ 128 :: List.replicate (128 * n - l - 17) 0 ++ len
  ((blocks n start m).take 6).foldl (fun x w => 2 ^ 64 * x + w) 0

/-- The field prime, the coefficient b, the group order and the base point of P-384; a is -3. -/
def prime : Nat := 2 ^ 384 - 2 ^ 128 - 2 ^ 96 + 2 ^ 32 - 1
def coefB : Nat := 0xb3312fa7e23ee7e4988e056be3f82d19181d9c6efe8141120314088f5013875ac656398d8a2ed19d2a85c8edd3ec2aef
def order : Nat := 0xffffffffffffffffffffffffffffffffffffffffffffffffc7634d81f4372ddf581a0db248b0a77aecec196accc52973
def baseX : Nat := 0xaa87ca22be8b05378eb1c71ef320ad746e1d3b628ba79b9859f741e082542a385502f25dbf55296c3a545e3872760ab7
def baseY : Nat := 0x3617de4a96262c6f5d9e98bf9292dc29f8f41dbd289a147ce9da3113b5f0b8c00a60b1ce1d7e819d7a431d7c90ea0e5f

/-- `x` to the power `e` modulo `m`, over `n` bits of `e`, times `r`. -/
def power (m : Nat) : Nat → Nat → Nat → Nat → Nat
  | 0, _, _, r => r
  | n + 1, x, e, r => power m n (x * x % m) (e / 2) (if e % 2 = 1 then r * x % m else r)

/-- The inverse modulo a prime. -/
def invMod (m x : Nat) : Nat := power m 384 (x % m) (m - 2) 1

/-- The difference modulo the field prime. -/
def subP (a b : Nat) : Nat := (a + prime - b % prime) % prime

/-- A point of the curve, none at infinity. -/
abbrev Point := Option (Nat × Nat)

/-- The third point of the line with slope `l` through points with abscissas `x` and `u`, and ordinate `y` at `x`,
reflected. -/
def chord (l x y u : Nat) : Point :=
  let v := subP (subP (l * l % prime) x) u
  some (v, subP (l * subP x v % prime) y)

/-- The sum of two points. -/
def add (a b : Point) : Point :=
  match a, b with
  | none, b => b
  | a, none => a
  | some (x, y), some (u, v) =>
    if x ≠ u then chord (subP v y * invMod prime (subP u x) % prime) x y u
    else if y = v ∧ y ≠ 0 then chord (subP (3 * x * x) 3 * invMod prime (2 * y) % prime) x y u
    else none

/-- `k` times a point, over `n` bits of `k`, plus `r`. -/
def times : Nat → Nat → Point → Point → Point
  | 0, _, _, r => r
  | n + 1, k, p, r => times n (k / 2) (add p p) (if k % 2 = 1 then add r p else r)

/-- A point that lies on the curve. -/
def onCurve (x y : Nat) : Bool :=
  decide (x < prime) && decide (y < prime) && y * y % prime == (x * x * x + coefB + (prime - 3) * x) % prime

/-- An ECDSA signature, r then s, over a hash, by an uncompressed public key. -/
def verifies (hash : Nat) (pubkey sig : List Nat) : Bool :=
  let x := be ((pubkey.drop 1).take 48)
  let y := be ((pubkey.drop 49).take 48)
  let r := be (sig.take 48)
  let s := be ((sig.drop 48).take 48)
  let w := invMod order s
  let sum := add (times 384 (hash * w % order) (some (baseX, baseY)) none) (times 384 (r * w % order) (some (x, y)) none)
  pubkey.headD 0 == 4 && onCurve x y && decide (0 < r) && decide (r < order) && decide (0 < s) && decide (s < order) &&
    match sum with
    | none => false
    | some p => p.1 % order == r

end Sys2Proof.Machine.Sign
end

