-- ==== Sys2Proof/Machine/ImageCheck.lean ====
section
/-! DEFINITION. ImageCheck.lean: the checks of a Bearing image copy (R57–R59, R62), and those of every section, in the
order in which the model names the first that fails. -/

namespace Sys2Proof.Machine

/-- A check of a copy: the octet of the field within its section (or of the header), and whether it holds. -/
abbrev Chk := Nat × Bool

/-- A field of a section, which the copy holds. -/
def fld (c : FlashCopy) (id o n : Nat) : Nat := secLe c id o n

/-- An expert field with its default (R59). -/
def fldX (c : FlashCopy) (id o n dflt : Nat) : Nat := secExpert c id o n dflt

/-- A basic field lies in its range; one whose octets are all ones does not (R59). -/
def basic (c : FlashCopy) (id o n lo hi : Nat) : Chk :=
  let v := fld c id o n
  (o, decide (lo ≤ v) && decide (v ≤ hi) && v != 256 ^ n - 1)

/-- An expert field lies in its range or is all ones (R59). -/
def expert (c : FlashCopy) (id o n lo hi : Nat) : Chk :=
  let v := fld c id o n
  (o, (decide (lo ≤ v) && decide (v ≤ hi)) || v == 256 ^ n - 1)

/-- Octets that are zero. -/
def zeros (c : FlashCopy) (id o n : Nat) : Chk := (o, (List.range n).all fun i => fld c id (o + i) 1 == 0)

/-- The length of a section. -/
def secLen (c : FlashCopy) (id : Nat) : Nat := ((imgFind c id).map fun x => x.2).getD 0

/-- Two ranges, each a start and a count, share no place. -/
def apart (a b : Nat × Nat) : Bool :=
  a.2 == 0 || b.2 == 0 || decide (a.1 + a.2 ≤ b.1) || decide (b.1 + b.2 ≤ a.1)

/-- A relation that is symmetric holds between any two elements of a list. -/
def pairwise {α : Type} (p : α → α → Bool) : List α → Bool
  | [] => true
  | x :: t => t.all (p x) && pairwise p t

/-- The lines of populated DRAM and of hub memory (R14). -/
def dramLines : Nat := 2 ^ 34
def hubLines : Nat := 393216

/-- The number of records of a table, held to its limit. -/
def recCount (c : FlashCopy) (id limit : Nat) : Nat := min (fld c id 0 4) limit

/-! ### WORLDS and POWER -/

/-- A line of memory lies in secure memory under the WORLDS section (R228, R229). -/
def imgSecure (c : FlashCopy) (l : Nat) : Bool :=
  if l < 2 ^ 34 then decide (l < 32768 * fld c 1 0 4)
  else if hubLine0 ≤ l then decide (l < hubLine0 + 64 * fld c 1 4 4)
  else decide ((l - 2 ^ 36) % 2 ^ 14 < 64 * fld c 1 (32 + 2 * ((l - 2 ^ 36) / 2 ^ 14)) 2)

/-- The secure world owns a logical tile under the WORLDS section. -/
def imgTileSec (c : FlashCopy) (t : Nat) : Bool := bitOf (fld c 1 24 8) t

/-- IRQ_WM of the WORLDS section. -/
def imgIrqWm (c : FlashCopy) : Nat := fldX c 1 20 4 4096

/-- R229. -/
def chkWorlds (c : FlashCopy) : List Chk :=
  [basic c 1 0 4 0 524288, basic c 1 4 4 0 6144, basic c 1 8 4 0 65536, (8, fld c 1 8 4 % 256 == 0),
    basic c 1 12 4 0 65535, (12, bitOf (fld c 1 12 4) 4), basic c 1 16 4 0 (2 ^ 24 - 1), expert c 1 20 4 0 262144,
    (20, imgIrqWm c % 1024 == 0), basic c 1 24 8 0 (2 ^ 48 - 1)] ++
  ((List.range 48).flatMap fun t =>
    [basic c 1 (32 + 2 * t) 2 0 256, (32 + 2 * t, !imgTileSec c t || fld c 1 (32 + 2 * t) 2 == 256)]) ++
  [zeros c 1 128 128]

/-- The vault regions of a copy. -/
def imgRegions (c : FlashCopy) : List (Nat × Nat) :=
  (List.range (min (fld c 2 2 1) 16)).map fun i => (fld c 2 (16 + 16 * i) 8, fld c 2 (24 + 16 * i) 8)

/-- R37. -/
def chkPower (c : FlashCopy) : List Chk :=
  let rs := imgRegions c
  [basic c 2 0 1 0 1, expert c 2 1 1 0 1, basic c 2 2 1 0 16, zeros c 2 3 1, expert c 2 4 2 12 100, expert c 2 6 2 100 300,
    expert c 2 8 2 10 3600, zeros c 2 10 6] ++
  ((List.range 16).map fun i =>
    let r := (fld c 2 (16 + 16 * i) 8, fld c 2 (24 + 16 * i) 8)
    (16 + 16 * i, if i < rs.length then decide (1 ≤ r.2) && decide (r.1 + r.2 ≤ dramLines) else r == (0, 0))) ++
  [(16, pairwise apart rs), (16, decide ((rs.map fun r => r.2).sum ≤ 2 ^ 30))]

/-- No line of a range lies in a vault region (R59). -/
def outsideVault (c : FlashCopy) (r : Nat × Nat) : Bool := (imgRegions c).all (apart r)

/-! ### START, ISLANDS and PORTS -/

/-- The START section (R62). -/
def chkStart (c : FlashCopy) : List Chk :=
  [(0, (List.range 16).all fun i => decide (32 ≤ fld c 0 i 1) && decide (fld c 0 i 1 ≤ 126)), expert c 0 16 1 0 47,
    expert c 0 17 1 0 1, zeros c 0 18 46]

/-- NALT of the ALMANACS section, and the masks of its alternates. -/
def imgNalt (c : FlashCopy) : Nat := fld c 5 0 1
def imgMask (c : FlashCopy) (a : Nat) : Nat := fld c 5 (64 + 32 * a) 8

/-- A tile lies in some alternate's mask. -/
def inSomeMask (c : FlashCopy) (t : Nat) : Bool := (List.range (min (imgNalt c) 8)).any fun a => bitOf (imgMask c a) t

/-- R83. -/
def chkIslands (c : FlashCopy) : List Chk :=
  [expert c 3 0 1 0 5, expert c 3 1 1 0 10, zeros c 3 2 6] ++
  ((List.range 8).flatMap fun a => (List.range 48).flatMap fun t =>
    let hi := 8 + 48 * a + t
    let lo := 392 + 48 * a + t
    let used := decide (a < imgNalt c) && bitOf (imgMask c a) t
    [basic c 3 hi 1 0 15, (hi, used || fld c 3 hi 1 == 0), basic c 3 lo 1 0 15, (lo, used || fld c 3 lo 1 == 0),
      (lo, decide (fld c 3 lo 1 ≤ fld c 3 hi 1))]) ++
  [zeros c 3 776 56]

/-- The roles a quad may take (R355). -/
def roleOk (q r : Nat) : Bool := r == 0 || (r == 1 && decide (q < 16)) || (r == 2 && decide (8 ≤ q))

/-- FIRSTQ and NQUAD of a host port group; an absent group has no quads. -/
def imgGroup (c : FlashCopy) (g : Nat) : Nat × Nat := (fld c 4 (32 + 8 * g) 1, fld c 4 (33 + 8 * g) 1)

/-- FIRSTLANE and NLANE of a network port; an absent port has no lanes. -/
def imgPort (c : FlashCopy) (p : Nat) : Nat × Nat :=
  (fld c 4 (129 + 16 * p) 1, if fld c 4 (128 + 16 * p) 1 = 1 then fld c 4 (130 + 16 * p) 1 else 0)

/-- A port's share in lines (R356). -/
def imgShare (n : Nat) : Nat := 1024 * n

/-- The default XOFF of a port with `n` lanes, and the default XON for its XOFF (R356). -/
def dfltXoff (n : Nat) : Nat := if n = 1 then 384 else if n = 2 then 1024 else if n = 4 then 2816 else 6144
def dfltXon (n xoff : Nat) : Nat := if n = 1 then xoff / 2 else xoff - 512

/-- The checks of a group record (R357): every field is in range, and a present group has its quads. -/
def chkGroup (c : FlashCopy) (g : Nat) : List Chk :=
  let o := 32 + 8 * g
  let (q, n) := imgGroup c g
  [basic c 4 o 1 0 15, (o + 1, [0, 1, 2, 4].contains n), basic c 4 (o + 2) 1 6 7, expert c 4 (o + 3) 1 0 1,
    zeros c 4 (o + 4) 4, (o, n == 0 || q % n == 0), (o, (List.range n).all fun i => fld c 4 (q + i) 1 == 1)]

/-- The checks of a port record (R357): every field is in range, and a present port has its lanes. -/
def chkPort (c : FlashCopy) (p : Nat) : List Chk :=
  let o := 128 + 16 * p
  let (l, on) := imgPort c p
  let n := fld c 4 (o + 2) 1
  let xoff := fldX c 4 (o + 8) 2 (dfltXoff n)
  let xon := fldX c 4 (o + 10) 2 (dfltXon n xoff)
  [basic c 4 o 1 0 1, basic c 4 (o + 1) 1 32 95, (o + 2, [1, 2, 4, 8].contains n), basic c 4 (o + 3) 1 1 2,
    expert c 4 (o + 4) 1 0 1, expert c 4 (o + 6) 1 0 7, zeros c 4 (o + 7) 1,
    (o + 8, decide (1 ≤ xoff) && decide (xoff ≤ imgShare n)), (o + 10, decide (xon < xoff)),
    (o + 10, n == 1 || decide (512 ≤ xoff) || fld c 4 (o + 10) 2 != 65535), expert c 4 (o + 12) 2 64 9216,
    zeros c 4 (o + 14) 2, (o + 1, on == 0 || l % on == 0),
    (o + 1, (List.range on).all fun i => fld c 4 ((l + i) / 4) 1 == 2)]

/-- Two present ports of one quad have the same RATE (R357). -/
def sameRate (c : FlashCopy) (a b : Nat) : Bool :=
  let (l, n) := imgPort c a
  let (k, m) := imgPort c b
  n == 0 || m == 0 || apart (l / 4, (l + n - 1) / 4 + 1 - l / 4) (k / 4, (k + m - 1) / 4 + 1 - k / 4) ||
    fld c 4 (131 + 16 * a) 1 == fld c 4 (131 + 16 * b) 1

/-- R357. -/
def chkPorts (c : FlashCopy) : List Chk :=
  let gs := (List.range 8).map (imgGroup c)
  ((List.range 24).map fun q => (q, roleOk q (fld c 4 q 1))) ++ [zeros c 4 24 8] ++
  ((List.range 8).flatMap (chkGroup c)) ++
  [(32, pairwise apart gs),
    (0, (List.range 16).all fun q => fld c 4 q 1 != 1 || gs.any fun g => decide (g.1 ≤ q) && decide (q < g.1 + g.2)),
    zeros c 4 96 32] ++
  ((List.range 64).flatMap (chkPort c)) ++
  [(128, pairwise apart ((List.range 64).map (imgPort c))), (128, pairwise (sameRate c) (List.range 64))]

/-! ### QUEUES -/

/-- Where queue record `i` lies, and a field of it (R271). -/
def qOff (i : Nat) : Nat := 131088 + 32 * i
def qFld (c : FlashCopy) (i o n : Nat) : Nat := fld c 6 (qOff i + o) n

/-- NQREC. -/
def nQrec (c : FlashCopy) : Nat := recCount c 6 1048576

/-- The record of a queue, when it is defined. -/
def findQ (c : FlashCopy) (q : Nat) : Option Nat := (List.range (nQrec c)).find? fun i => qFld c i 0 4 == q

/-- The physical ring lines of a queue record: the first, and how many. -/
def imgRing (c : FlashCopy) (i : Nat) : Nat × Nat :=
  ((if qFld c i 4 1 = 1 then 0 else hubLine0) + qFld c i 8 8, 2 ^ (qFld c i 6 1 + 4) * qFld c i 5 1)

/-- The world of a queue record: true for secure (R271). -/
def imgQSec (c : FlashCopy) (i : Nat) : Bool := imgSecure c (imgRing c i).1

/-- A queue record is tile-bound. -/
def tileBound (c : FlashCopy) (i : Nat) : Bool := qFld c i 7 1 == 0

/-- A defined tile-bound queue of a world. -/
def boundQueue (c : FlashCopy) (q : Nat) (sec : Bool) : Bool := match findQ c q with
  | none => false
  | some i => tileBound c i && imgQSec c i == sec

/-- The landing lines of a tile-bound record, header included, as physical lines (R273). The header line counts as part of
the ring. DESIGN CHOICE: log entry 73. -/
def imgLanding (c : FlashCopy) (i : Nat) : Nat × Nat :=
  (tileLine0 (qFld c i 16 1) + qFld c i 20 2, 1 + 2 ^ qFld c i 19 1 * qFld c i 5 1)

/-- QFIRST and NQ of a ditch. -/
def imgDitch (c : FlashCopy) (d : Nat) : Nat × Nat := (fld c 6 (16 + 8 * d) 4, fld c 6 (20 + 8 * d) 2)

/-- The checks of a queue record (R271, R272). -/
def chkQueue (c : FlashCopy) (i : Nat) : List Chk :=
  let o := qOff i
  let tb := tileBound c i
  let zero := fun k n (on : Bool) => (o + k, !on || qFld c i k n == 0)
  let (l, n) := imgRing c i
  let (h, m) := imgLanding c i
  let top := if qFld c i 4 1 = 1 then dramLines else hubLine0 + hubLines
  [basic c 6 o 4 0 1048575, (o, i == 0 || decide (qFld c (i - 1) 0 4 < qFld c i 0 4)), basic c 6 (o + 4) 1 0 1,
    basic c 6 (o + 5) 1 1 4, basic c 6 (o + 6) 1 0 12, basic c 6 (o + 7) 1 0 1, (o + 8, decide (l + n ≤ top)),
    (o + 8, imgSecure c l == imgSecure c (l + n - 1)), (o + 8, qFld c i 4 1 != 1 || outsideVault c (l, n)),
    basic c 6 (o + 16) 1 0 47, basic c 6 (o + 17) 1 0 7, basic c 6 (o + 18) 1 0 15, basic c 6 (o + 19) 1 0 10,
    basic c 6 (o + 20) 2 0 16383, basic c 6 (o + 22) 1 0 31, basic c 6 (o + 23) 1 0 1, basic c 6 (o + 24) 4 0 262143,
    zero 16 1 (!tb), zero 17 1 (!tb), zero 18 1 (!tb), zero 19 1 (!tb), zero 20 2 (!tb), zero 22 1 tb,
    zero 24 4 (qFld c i 23 1 == 0), zeros c 6 (o + 28) 4,
    (o + 20, !tb || decide (qFld c i 20 2 + m ≤ 16384)), (o + 20, !tb || imgQSec c i || !imgSecure c h),
    (o + 24, qFld c i 23 1 == 0 || imgQSec c i || decide (imgIrqWm c ≤ qFld c i 24 4)),
    (o, ((List.range 16384).filter fun d =>
      decide ((imgDitch c d).1 ≤ qFld c i 0 4) && decide (qFld c i 0 4 < (imgDitch c d).1 + (imgDitch c d).2)).length == 1)]

/-- The checks of a ditch (R272): every field is in range, and the queues of a defined ditch agree. -/
def chkDitch (c : FlashCopy) (d : Nat) : List Chk :=
  let o := 16 + 8 * d
  let (f, n) := imgDitch c d
  let same := fun (a b : Option Nat) => match a, b with
    | some i, some j => tileBound c i == tileBound c j && imgQSec c i == imgQSec c j
    | _, _ => false
  [basic c 6 o 4 0 1048575, basic c 6 (o + 4) 2 0 4096, basic c 6 (o + 6) 1 1 16, zeros c 6 (o + 7) 1,
    (o + 4, (List.range n).all fun i => same (findQ c f) (findQ c (f + i)))]

/-- R272. -/
def chkQueues (c : FlashCopy) : List Chk :=
  let tb := (List.range (nQrec c)).filter (tileBound c)
  [basic c 6 0 4 0 1048576, zeros c 6 4 12] ++ ((List.range 16384).flatMap (chkDitch c)) ++
  [(16, pairwise apart ((List.range 16384).map (imgDitch c)))] ++ ((List.range (nQrec c)).flatMap (chkQueue c)) ++
  [(131088, pairwise apart (tb.map (imgLanding c)))]

/-! ### ALMANACS -/

/-- `w` bits at bit `b` of the table at octet `o` of the ALMANACS section (R278). -/
def almFld (c : FlashCopy) (o b w : Nat) : Nat := field (fld c 5 (o + b / 8) ((w + 14) / 8)) (b % 8) w

/-- REF has the format of R277 and R391. -/
def refOk (r : Nat) : Bool := field r 9 5 == 0 && (field r 5 4 == 0 || field r 7 2 == 2)

/-- The members of a donation ring record at octet `o`. -/
def imgRingMembers (c : FlashCopy) (o : Nat) : List Nat :=
  (List.range (min 16 (fld c 5 o 1))).map fun m => fld c 5 (o + 32 + 2 * m) 2

/-- A ditch is defined, and each of its tile-bound queues targets a tile of the mask (R279). -/
def ditchOk (c : FlashCopy) (mask d : Nat) : Bool :=
  let (f, n) := imgDitch c d
  decide (d < 16384) && n != 0 && (List.range n).all fun i =>
    match findQ c (f + i) with
    | none => false
    | some r => !tileBound c r || bitOf mask (qFld c r 16 1)

/-- The checks of a slot entry (R277, R279). -/
def entryOk (c : FlashCopy) (mask npat nring slot e : Nat) : Bool :=
  let k := field e 34 2
  let low := field e 0 14
  let ring := field e 14 8
  decide (field e 22 12 < npat) &&
    if k = 0 then (ring == 255 || decide (ring < nring)) && decide (slot < 65472) && ditchOk c mask low
    else if k = 1 then ring == 0 && low == 0
    else k == 2 && ring == 0 && refOk low

/-- A crossbar port that a pattern may name (R267, R279), with the canal of a tile in the mask. -/
def patPort (mask p : Nat) : Bool := decide (p ≤ 0o230) && (decide (48 ≤ p) || bitOf mask p)

/-- The checks of one pattern (R279). -/
def patternOk (mask : Nat) (srcs : List Nat) : Bool :=
  let used := srcs.filter fun x => x != 0o777
  pairwise (fun a b => a != b) used &&
    (List.range srcs.length).all fun d =>
      let x := srcs.getD d 0o777
      x == 0o777 || (patPort mask d && patPort mask x && x != d)

/-- The count and spacing of almanac refreshes of one subchannel (R392): the slots of its REFRESH entries with REF[8:5]. -/
def refreshOk (rs : List (Nat × Nat)) : Bool :=
  let ab := rs.all fun r => r.2 == 0
  let sb := rs.all fun r => r.2 != 0
  let near := fun (ss : List Nat) =>
    decide (ss.headD 65536 ≤ 1462) && decide (64074 ≤ ss.getLastD 0) &&
      (ss.zip (ss.drop 1)).all fun p => decide (p.2 - p.1 ≤ 2925)
  let slots := rs.map fun r => r.1
  let gap := if ab then 615 else 285
  (ab || sb) && (slots.zip (slots.drop 1)).all (fun p => decide (gap ≤ p.2 - p.1)) &&
    if ab then near slots
    else (List.range 4).all fun k => near ((rs.filter fun r => r.2 == 8 + k).map fun r => r.1)

/-- The checks of an alternate's directory entry, entries, patterns and rings (R278, R279, R392). -/
def chkAlternate (c : FlashCopy) (a : Nat) : List Chk :=
  let o := 64 + 32 * a
  let mask := imgMask c a
  let slots := fld c 5 (o + 8) 4
  let pats := fld c 5 (o + 12) 4
  let npat := fld c 5 (o + 16) 2
  let nring := fldX c 5 (o + 18) 2 0
  let rings := fldX c 5 (o + 20) 4 0
  let entry := fun k => almFld c slots (36 * k) 36
  let within := fun x n => x % 64 == 0 && decide (320 ≤ x) && decide (x + n ≤ secLen c 5)
  let refs := fun u => (List.range 65536).filterMap fun k =>
    let e := entry k
    if field e 34 2 = 2 ∧ field e 0 5 = u then some (k, field e 5 4) else none
  if imgNalt c ≤ a then [zeros c 5 o 32]
  else
    [basic c 5 o 8 0 (2 ^ 48 - 1), (o + 8, within slots 294912), basic c 5 (o + 16) 2 1 4096,
      (o + 12, within pats (288 * npat)), expert c 5 (o + 18) 2 0 255,
      (o + 20, if nring = 0 then rings == 0 else within rings (72 * nring)), zeros c 5 (o + 24) 8] ++
    ((List.range nring).flatMap fun r =>
      let b := rings + 72 * r
      [(b, decide (1 ≤ fld c 5 b 1) && decide (fld c 5 b 1 ≤ 16)), zeros c 5 (b + 1) 31,
        (b + 32, (imgRingMembers c b).all (ditchOk c mask)),
        zeros c 5 (b + 32 + 2 * min 16 (fld c 5 b 1)) (32 - 2 * min 16 (fld c 5 b 1))]) ++
    ((List.range npat).map fun p =>
      (pats + 288 * p, patternOk mask ((List.range 256).map fun d => almFld c pats (2304 * p + 9 * d) 9))) ++
    ((List.range 65536).map fun k => (slots + 36 * k / 8, entryOk c mask npat nring k (entry k))) ++
    [(o + 8, fldX c 10 6 1 1 == 1 || (List.range 32).all fun u => refreshOk (refs u))]

/-- R279. -/
def chkAlmanacs (c : FlashCopy) : List Chk :=
  [basic c 5 0 1 1 8, zeros c 5 1 63] ++ (List.range 8).flatMap (chkAlternate c)

/-! ### CHART, VIS and INTERRUPTS -/

/-- The table of the world record at `o`: its first line and its lines (R313). -/
def imgTable (c : FlashCopy) (o : Nat) : Nat × Nat :=
  let n := fld c 7 o 1
  (fld c 7 (o + 8) 8, if n = 0 then 0 else 2 * 2 ^ min n 23)

/-- The checks of a world record (R312, R313); each of its four masks takes its default by itself (R59). DESIGN CHOICE: log
entry 74. -/
def chkWorldRec (c : FlashCopy) (o : Nat) (sec : Bool) : List Chk :=
  let kw := fld c 7 (o + 1) 1
  let t := imgTable c o
  let last := t.1 + t.2 - 1
  [basic c 7 o 1 0 23, basic c 7 (o + 1) 1 1 4, expert c 7 (o + 2) 1 0 (16 - kw), zeros c 7 (o + 3) 1,
    basic c 7 (o + 4) 4 0 1048575, (o + 4, boundQueue c (fld c 7 (o + 4) 4) sec), (o + 8, t.1 % 2 == 0),
    (o + 8, t.2 == 0 || (decide (last < dramLines) && imgSecure c t.1 == sec && imgSecure c last == sec)),
    (o + 8, outsideVault c t)] ++
  ((List.range 4).map fun k => expert c 7 (o + 24 + 5 * k) 5 0 (2 ^ 36 - 1)) ++ [zeros c 7 (o + 44) 20]

/-- R313. -/
def chkChart (c : FlashCopy) : List Chk :=
  [expert c 7 0 2 1 65535, basic c 7 2 1 0 16, basic c 7 3 1 0 32, zeros c 7 4 4] ++ chkWorldRec c 8 true ++
  chkWorldRec c 72 false ++
  [(8, decide ((imgTable c 8).2 + (imgTable c 72).2 ≤ 2 * 2 ^ 23)), (16, apart (imgTable c 8) (imgTable c 72)),
    zeros c 7 136 56]

/-- NVI, and where the record of a VI or a PF lies (R335). -/
def imgNvi (c : FlashCopy) : Nat := min (fld c 8 0 2) 4096
def viOff (v : Nat) : Nat := 1088 + 32 * v
def pfOff (g f : Nat) : Nat := 64 + 32 * (4 * g + f)

/-- A source has a route record (R247, R336). -/
def imgRouted (c : FlashCopy) (src : Nat) : Bool :=
  (List.range (recCount c 9 262144)).any fun i => fld c 9 (16 + 16 * i) 4 == src

/-- A source at or above IRQ_WM with a route record. -/
def normalSource (c : FlashCopy) (src : Nat) : Bool := decide (imgIrqWm c ≤ src) && imgRouted c src

/-- GROUP, PF and VF of a VI record. -/
def imgVf (c : FlashCopy) (v : Nat) : Nat × Nat × Nat :=
  (fld c 8 (viOff v) 1, fld c 8 (viOff v + 1) 1, fld c 8 (viOff v + 2) 2)

/-- The shadow page of a VI record, as physical lines. -/
def imgPage (c : FlashCopy) (v : Nat) : Nat × Nat :=
  (hubLine0 + fld c 8 (viOff v + 28) 4,
    if fld c 8 (viOff v + 4) 1 = 1 then (if fld c 8 (viOff v + 5) 1 = 1 then 256 else 64) else 0)

/-- A VI presents a 16 KiB BAR0. -/
def bigBar (c : FlashCopy) (v : Nat) : Bool := fld c 8 (viOff v + 4) 1 == 1 && fld c 8 (viOff v + 5) 1 == 1

/-- The checks of a PF record (R335, R336): every field is in range, and a present PF has its VIs. -/
def chkPf (c : FlashCopy) (g f : Nat) : List Chk :=
  let o := pfOff g f
  let has := fun n => (List.range (imgNvi c)).any fun v => imgVf c v == (g, f, n)
  let vfs := (List.range (imgNvi c)).filter fun v =>
    (imgVf c v).1 == g && (imgVf c v).2.1 == f && (imgVf c v).2.2 != 0
  [basic c 8 o 1 0 1, zeros c 8 (o + 1) 1, basic c 8 (o + 2) 2 0 1024] ++
  ([4, 6, 8, 10, 12].map fun k => basic c 8 (o + k) 2 0 65535) ++
  [basic c 8 (o + 14) 3 0 (2 ^ 24 - 1), zeros c 8 (o + 17) 15] ++
  if fld c 8 o 1 = 0 then []
  else
    [(o, (imgGroup c g).2 != 0),
      (o + 2, (List.range (min 1024 (fld c 8 (o + 2) 2) + 1)).all has),
      (o + 2, pairwise (fun a b => bigBar c a == bigBar c b) vfs)]

/-- The checks of a VI record (R335, R336). -/
def chkVi (c : FlashCopy) (v : Nat) : List Chk :=
  let o := viOff v
  let f := fun k n => fld c 8 (o + k) n
  let sh := f 4 1 == 1
  let zero := fun k n (on : Bool) => (o + k, !on || f k n == 0)
  let page := imgPage c v
  let pf := pfOff (f 0 1) (f 1 1)
  let swDbe := match findQ c (f 24 4) with
    | none => false
    | some i => qFld c i 23 1 == 0 || normalSource c (qFld c i 24 4)
  [basic c 8 o 1 0 7, (o, (imgGroup c (f 0 1)).2 != 0), basic c 8 (o + 1) 1 0 3, (o + 1, fld c 8 pf 1 == 1),
    (o + 2, decide (f 2 2 ≤ fld c 8 (pf + 2) 2)), basic c 8 (o + 4) 1 0 1, basic c 8 (o + 5) 1 0 1, zero 5 1 (!sh),
    expert c 8 (o + 6) 1 0 1, (o + 6, sh || fldX c 8 (o + 6) 1 0 == 0), expert c 8 (o + 7) 1 1 64, basic c 8 (o + 8) 2 0 256,
    zeros c 8 (o + 10) 2, basic c 8 (o + 12) 4 0 1048575, zero 12 4 (f 8 2 == 0),
    (o + 12, (List.range (f 8 2)).all fun i => match findQ c (f 12 4 + i) with
      | none => false
      | some r => !imgQSec c r),
    zero 16 4 sh, (o + 16, sh || normalSource c (f 16 4)), basic c 8 (o + 20) 4 0 262143,
    (o + 20, normalSource c (f 20 4)), zero 24 4 (!sh), (o + 24, !sh || (boundQueue c (f 24 4) false && swDbe)),
    zero 28 4 (!sh),
    (o + 28, !sh || (decide (page.1 + page.2 ≤ hubLine0 + hubLines) && !imgSecure c page.1 &&
      (List.range (nQrec c)).all fun i => apart page (imgRing c i)))]

/-- R336. -/
def chkVis (c : FlashCopy) : List Chk :=
  let vs := List.range (imgNvi c)
  let shadowed := vs.filter fun v => fld c 8 (viOff v + 4) 1 == 1
  [basic c 8 0 2 1 4096, (2, decide (fld c 8 2 2 < imgNvi c)), zeros c 8 4 60] ++
  ((List.range 8).flatMap fun g => (List.range 4).flatMap fun f => chkPf c g f) ++ (vs.flatMap (chkVi c)) ++
  [(1088, pairwise (fun a b => imgVf c a != imgVf c b) vs),
    (1088, pairwise (fun a b => fld c 8 (viOff a + 24) 4 != fld c 8 (viOff b + 24) 4) shadowed),
    (1088, pairwise apart (shadowed.map (imgPage c)))]

/-- The checks of a route record (R247). -/
def chkRoute (c : FlashCopy) (i : Nat) : List Chk :=
  let o := 16 + 16 * i
  [basic c 9 o 4 0 262143, (o, i == 0 || decide (fld c 9 (o - 16) 4 < fld c 9 o 4)), basic c 9 (o + 4) 1 0 47,
    basic c 9 (o + 5) 1 0 7, basic c 9 (o + 6) 1 0 15, basic c 9 (o + 7) 1 0 1, basic c 9 (o + 8) 2 1 511,
    expert c 9 (o + 10) 2 1 255, expert c 9 (o + 12) 4 0 65535,
    (o + 4, decide (imgIrqWm c ≤ fld c 9 o 4) || imgTileSec c (fld c 9 (o + 4) 1))]

/-- R247. -/
def chkInterrupts (c : FlashCopy) : List Chk :=
  [basic c 9 0 4 0 262144, expert c 9 4 4 0 1048575, expert c 9 8 4 0 261760, zeros c 9 12 4] ++
  (List.range (recCount c 9 262144)).flatMap (chkRoute c)

/-! ### DRAM, HEALTH, RUNTIME, TRACE and DEBUG -/

/-- R401. -/
def chkDram (c : FlashCopy) : List Chk :=
  let n := fldX c 10 1 1 0
  let shadow := fldX c 10 2 3 0
  let code := fun i => if i = 0 then fld c 10 0 1 else shadow / 256 ^ (i - 1) % 256
  [basic c 10 0 1 0 5, expert c 10 1 1 0 3] ++
  ((List.range 3).map fun i =>
    (2 + i, if i < n then decide (code (i + 1) < code i) else code (i + 1) == 0)) ++
  [expert c 10 5 1 0 1, expert c 10 6 1 0 1, expert c 10 7 1 2 64, (8, decide (fldX c 10 8 1 16 < fldX c 10 7 1 48)),
    expert c 10 9 1 1 255, expert c 10 10 2 0 1000, expert c 10 12 2 0 65535, expert c 10 14 1 0 1, zeros c 10 15 1,
    expert c 10 16 2 1 4095, zeros c 10 18 46]

/-- R457. -/
def chkHealth (c : FlashCopy) : List Chk :=
  let helm := viOff (fld c 8 2 2)
  let hq := fld c 11 0 4
  let first := fld c 8 (helm + 12) 4
  let isHelm := (decide (first ≤ hq) && decide (hq < first + fld c 8 (helm + 8) 2)) &&
    match findQ c hq with
    | none => false
    | some i => tileBound c i
  [(0, hq == noQueue || isHelm), zeros c 11 4 12] ++
  (List.range 17).flatMap fun u =>
    let o := 16 + 16 * u
    let queue := fun k sec => (o + k, fld c 11 (o + k) 4 == noQueue || boundQueue c (fld c 11 (o + k) 4) sec)
    [queue 0 true, queue 4 false, basic c 11 (o + 8) 1 0 31, basic c 11 (o + 9) 1 0 31, expert c 11 (o + 10) 2 0 65535,
      zeros c 11 (o + 12) 4]

/-- An image of a RUNTIME entry: its octet in the section, offset, length, load, entry and copy addresses, its tile and
its world (R135). -/
structure ImgRun where
  o    : Nat
  off  : Nat
  len  : Nat
  load : Nat
  ent  : Nat
  copy : Nat
  tile : Nat
  sec  : Bool
  deriving DecidableEq, Repr

/-- The two images of a tile's entry. -/
def imgRun (c : FlashCopy) (t : Nat) (sc : Bool) : ImgRun :=
  let b := 64 * t + (if sc then 32 else 0)
  ⟨b, fld c 12 b 4, fld c 12 (b + 4) 4, fld c 12 (b + 8) 8, fld c 12 (b + 16) 8, fld c 12 (b + 24) 8, t, sc⟩

/-- Every image of the section. -/
def imgRuns (c : FlashCopy) : List ImgRun :=
  ((List.range 48).flatMap fun t => [imgRun c t false, imgRun c t true]).filter fun r => r.len != 0

/-- The physical lines that an image loads, and those of its reload copy (none without one). -/
def ImgRun.lines (r : ImgRun) : Nat × Nat := (r.load / 64, r.len / 72)
def ImgRun.copies (r : ImgRun) : Nat × Nat := (r.copy / 64, if r.copy = 0 then 0 else r.len / 72)

/-- Every line of a range lies in memory of a world (R230). -/
def rangeWorld (c : FlashCopy) (r : Nat × Nat) (sc : Bool) : Bool :=
  r.2 == 0 || (imgSecure c r.1 == sc && imgSecure c (r.1 + r.2 - 1) == sc)

/-- The checks of one image (R135, R137, R230, R59). -/
def chkImage (c : FlashCopy) (r : ImgRun) : List Chk :=
  let ls := r.lines
  let own := decide (tileLine0 r.tile ≤ ls.1) && decide (ls.1 + ls.2 ≤ tileLine0 (r.tile + 1))
  let dram := fun (x : Nat × Nat) => decide (x.1 + x.2 ≤ dramLines)
  if r.len = 0 then
    [(r.o, r.off == 0), (r.o + 8, r.load % 64 == 0), (r.o + 16, r.ent % 16 == 0),
      (r.o + 24, r.copy % 64 == 0 && (r.copy == 0 || (decide (tileLine0 0 ≤ ls.1) && decide (ls.1 < tileLine0 48))))]
  else
    [(r.o, decide (3072 ≤ r.off) && decide (r.off + r.len ≤ secLen c 12)), (r.o + 4, r.len % 72 == 0),
      (r.o + 8, r.load % 64 == 0 && (own || dram ls)), (r.o + 8, rangeWorld c ls r.sec),
      (r.o + 8, own || outsideVault c ls),
      (r.o + 16, r.ent % 16 == 0 && decide (r.load ≤ r.ent) && decide (r.ent < r.load + 64 * ls.2)),
      (r.o + 24, r.copy == 0 || own), (r.o + 24, r.copy % 64 == 0 && dram r.copies),
      (r.o + 24, rangeWorld c r.copies r.sec && outsideVault c r.copies)]

/-- R137. DESIGN CHOICE: log entry 69. -/
def chkRuntime (c : FlashCopy) : List Chk :=
  let rs := imgRuns c
  let agree := fun (a b : ImgRun) => apart a.lines b.lines ||
    (a.lines == b.lines && a.off == b.off && a.len == b.len && decide (a.load < 2 ^ 40))
  ((List.range 48).flatMap fun t =>
    [(64 * t + 4, !inSomeMask c t || (imgRun c t false).len != 0 || (imgRun c t true).len != 0),
      (64 * t + 4, !imgTileSec c t || (imgRun c t false).len == 0)] ++
    chkImage c (imgRun c t false) ++ chkImage c (imgRun c t true)) ++
  [(8, pairwise agree rs), (24, pairwise apart (rs.map ImgRun.copies)),
    (24, rs.all fun a => rs.all fun b => apart a.copies b.lines)]

/-- The ring of a TRACE record with SEN = 1, as lines (none without one). -/
def imgTrace (c : FlashCopy) (t : Nat) : Nat × Nat :=
  let o := 64 + 32 * t
  (fldX c 13 (o + 8) 8 0, if hasTrace c t && fldX c 13 o 1 0 == 1 then 2 ^ fldX c 13 (o + 3) 1 6 else 0)

/-- R424. -/
def chkTrace (c : FlashCopy) : List Chk :=
  [zeros c 13 0 64] ++
  (((List.range 48).filter (hasTrace c)).flatMap fun t =>
    let o := 64 + 32 * t
    let r := imgTrace c t
    let clear := (imgRuns c).all (fun x => apart r x.lines && apart r x.copies) && apart r (imgTable c 8) &&
      apart r (imgTable c 72)
    [expert c 13 o 1 0 1, expert c 13 (o + 1) 1 0 1, expert c 13 (o + 2) 1 0 31, expert c 13 (o + 3) 1 6 24,
      zeros c 13 (o + 4) 4, (o + 8, r.1 % 2 ^ fldX c 13 (o + 3) 1 6 == 0), (o + 8, decide (r.1 + r.2 ≤ dramLines)),
      (o + 8, rangeWorld c r (imgTileSec c t)), (o + 8, clear), zeros c 13 (o + 16) 16]) ++
  [(64, pairwise apart ((List.range 48).map (imgTrace c)))]

/-- R450. -/
def chkDebug (c : FlashCopy) : List Chk :=
  [expert c 14 0 1 0 1, expert c 14 1 1 0 1, (1, fldX c 14 0 1 0 == 1 || fldX c 14 1 1 0 == 0), expert c 14 2 1 0 1,
    zeros c 14 3 61]

/-! ### The copy -/

/-- The fixed length of a section, when the spec gives one. -/
def fixedLen (id : Nat) : Option Nat :=
  if id = 0 then some 64 else if id = 1 then some 256 else if id = 2 then some 272 else if id = 3 then some 832
  else if id = 4 then some 1152 else if id = 7 then some 192 else if id = 10 then some 64 else if id = 11 then some 288
  else if id = 14 then some 64 else none

/-- The least length of a section of variable length. -/
def leastLen (c : FlashCopy) (id : Nat) : Nat :=
  if id = 5 then 320 else if id = 6 then 131088 + 32 * nQrec c else if id = 8 then 1088 + 32 * imgNvi c
  else if id = 9 then 16 + 16 * recCount c 9 262144 else if id = 12 then 3072 else if id = 13 then 64 else 0

/-- The checks of a section by its ID. DEDUCED: log entry 49. -/
def chkSection (c : FlashCopy) (id : Nat) : List Chk :=
  if id = 0 then chkStart c else if id = 1 then chkWorlds c else if id = 2 then chkPower c else if id = 3 then chkIslands c
  else if id = 4 then chkPorts c else if id = 5 then chkAlmanacs c else if id = 6 then chkQueues c
  else if id = 7 then chkChart c else if id = 8 then chkVis c else if id = 9 then chkInterrupts c
  else if id = 10 then chkDram c else if id = 11 then chkHealth c else if id = 12 then chkRuntime c
  else if id = 13 then chkTrace c else chkDebug c

/-- The checks of the header and the section table (R57, R59), by the octet of the copy. DEDUCED: log entry 49. -/
def chkHeader (c : FlashCopy) : List Chk :=
  let n := min (imgNsect c) 16
  let len := imgLength c
  let at' := fun i => 192 + 16 * i
  let range := fun i => ((imgSect c i).2.1, (imgSect c i).2.2)
  [(12, decide (1 ≤ imgSeq c) && decide (imgSeq c ≤ 16777215)), (24, decide (1 ≤ imgNsect c) && decide (imgNsect c ≤ 16)),
    (28, imgZero c 28 4), (129, imgZero c 129 63), (len - 32, imgZero c (len - 32) 24)] ++
  ((List.range 16).map fun i => (at' i, if i < n then imgZero c (at' i + 4) 4 else imgZero c (at' i) 16)) ++
  ((List.range n).flatMap fun i =>
    let (id, o, l) := imgSect c i
    [(at' i, decide (id < 15)), (at' i, (List.range i).all fun j => (imgSect c j).1 != id),
      (at' i, decide (448 ≤ o) && o % 64 == 0 && decide (o + l ≤ len - 128)),
      (at' i, (List.range i).all fun j => apart (range j) (range i)),
      (at' i, match fixedLen id with
        | some k => l == k
        | none => decide (leastLen c id ≤ l))]) ++
  (List.range 13).map fun id => (0, (imgFind c id).isSome)

/-- The first check that fails in a list. DEDUCED: log entry 49. -/
def firstBad (cs : List Chk) : Option Nat := (cs.find? fun k => !k.2).map fun k => k.1

/-- Check 5 of R58: the section ID and field offset of the first fault. DEDUCED: log entry 49. DESIGN CHOICE: log entry
69. -/
def malformedAt (c : FlashCopy) : Option (Nat × Nat) :=
  match firstBad (chkHeader c) with
  | some o => some (255, o)
  | none =>
    ((List.range 15).filterMap fun id =>
      match imgFind c id with
      | none => none
      | some (base, _) => (firstBad (chkSection c id)).map fun o => (id, base + o)).head?

/-- MAGIC. -/
def magic : List Nat := [0x53, 0x48, 0x4A, 0x39, 0x36, 0x42, 0x52, 0x47]

/-- R58: the first check that a copy fails, with its section ID and field offset; none when the copy is valid. DESIGN
CHOICE: log entry 15. -/
def copyFault (c : FlashCopy) : Option (Nat × Nat × Nat) :=
  let len := imgLength c
  if imgOcts c 0 8 ≠ magic ∨ imgLe c 8 4 ≠ 1 ∨ len % 64 ≠ 0 ∨ len < 1024 ∨ 67108864 < len then some (1, 255, 0)
  else if crc64 (imgOcts c 0 (len - 8)) ≠ imgLe c (len - 8) 8 then some (2, 255, 0)
  else if Sign.sha384 (imgOcts c 32 97) ≠ Config.fusedKeyHash then some (3, 255, 0)
  else if !Sign.verifies (Sign.sha384 (imgOcts c 0 (len - 128))) (imgOcts c 32 97) (imgOcts c (len - 128) 96) then
    some (4, 255, 0)
  else (malformedAt c).map fun x => (5, x.1, x.2)

end Sys2Proof.Machine
end

