-- ==== Sys2Proof/Machine/Health.lean ====
section
/-! DEFINITION. Health.lean: the health unit and the logbook at work (chapters 17 and 19, R402–R410, R455–R465). -/

namespace Sys2Proof.Machine

/-- The health unit and the logbook work in every state but DARK. -/
def healthOn (s : State) : Bool := s.cfg.phase != .dark

/-- REPORT_ACCEPT (R405–R407, R455, R456, R464). DESIGN CHOICE: log entry 17. -/
def execReportAccept (s : State) : Host.Outcome State Fault Refusal :=
  match s.hlt.waiting with
  | [] => .next s
  | r :: t => .next (acceptReport r { s with hlt := { s.hlt with waiting := t } })

/-- LOG_COMMIT (R405–R407, R413): the room that the committed entry leaves admits an LGB_LOST report that is due. -/
def execLogCommit (s : State) : Host.Outcome State Fault Refusal := .next (flushLost (commitOne s))

/-- The signals lost to a queue since its last element (HLT_SIGLOSTw). -/
def sigLost (s : State) (w : Nat) : Nat := mget 0 s.hlt.siglost w

/-- Sets HLT_SIGLOSTw. -/
def setSigLost (w n : Nat) (s : State) : State := { s with hlt := { s.hlt with siglost := mset 0 s.hlt.siglost w n } }

/-- A signal element (R459). -/
def signalBits (g : Signal) (lost : Nat) : Nat :=
  packFields [(reportWord g.rep, 36), (if g.hide then 0 else g.rep.data.toNat, 72),
    ((match g.recNo with
      | some n => n
      | none => 2 ^ 72 - 1), 72), (g.time, 72), (lost, 18)]

/-- HEALTH_SIGNAL_POST (R459, R460): an element without room is counted, and the first one lost is logged as
HLT_SIGNAL_LOST; one whose ring's channel takes no request waits (R397). -/
def execHealthSignalPost (s : State) : Host.Outcome State Fault Refusal :=
  match s.hlt.signals with
  | [] => .next s
  | g :: t =>
    if !serving s then .next s
    else
      let took : State := { s with hlt := { s.hlt with signals := t } }
      if ringRoom s g.queue then
        .next (if elementHeld s g.queue then wakeElement g.queue s
          else writeElement (slcReq (queueSec s g.queue)) g.queue (signalBits g (sigLost s g.w)) (setSigLost g.w 0 took))
      else
        let n := sigLost s g.w
        .next (reportIf (n == 0) (mkReport Unit.hlt Cls.reported Code.hltSignalLost 0 [(g.w, 2), (g.queue, 20)])
          (setSigLost g.w (satW 18 (n + 1)) took))

/-- OPSEC_TICK (R409). -/
def execOpsecTick (s : State) : Host.Outcome State Fault Refusal :=
  if !healthOn s then .next s
  else
    let t := s.lgb.secFrom + 1000000000
    let s := reachTime t s
    .next { s with nv := { s.nv with opsec := (s.nv.opsec + 1) % 2 ^ 36 }, lgb := { s.lgb with secFrom := t } }

/-- A write of LGB_RIDX (R410). -/
def ridxWrite (rq : Req) (n : Nat) (s : State) : State :=
  ownedWrite Unit.lgb 0o20 (blockSec s Unit.lgb) rq n (fun s => { s with lgb := { s.lgb with own := latchRec s n } }) s

/-- LGB_RIDX_WRITE (R410). -/
def execLgbRidxWrite (rq : Req) (n : Double) (s : State) : Host.Outcome State Fault Refusal :=
  .next (ridxWrite rq n.toNat s)

end Sys2Proof.Machine
end

