-- ==== Sys2Proof/Machine/Wake.lean ====
section
/-! DEFINITION. Wake.lean: the controls of the wake trace and its drain to DRAM (chapter 17, R414, R420, R424–R427). -/

namespace Sys2Proof.Machine

/-- The 16 oldest words of the buffer as a line. -/
def drainLine (x : Tile) : Nat :=
  joinUnits 36 ((List.range 16).map fun i => (mget 0 x.buf ((x.widx + 8192 - x.used + i) % 8192)).toNat)

/-- The canal of a tile and its culvert are connected in the newest hub cycle, and no line has used the connection or is
bound for it (R425). DESIGN CHOICE: log entry 64. -/
def drainFree (s : State) (t : Nat) : Bool :=
  let d := portCulvert (traceCul s t)
  connected s (portCanal t) d && !s.slc.spent.contains d && !culvertWork s (portCanal t) d

/-- TRACE_DRAIN_LINE (R425, R426): a line leaves the buffer for the culvert, which sends it on to the next line of the
ring. -/
def execTraceDrainLine (t : TileId) (s : State) : Host.Outcome State Fault Refusal :=
  let t := t.val
  if !serving s ∨ !drainReady (wakeSettle t s) t ∨ !drainFree s t then .next s
  else
    let s := wakeSettle t s
    let x := tileAt s t
    let c := traceCul s t
    let l := traceBase s t + drainPtr s t % traceSize s t
    .next (roomReturned t (setTile t (fun x => { x with used := x.used - 16 })
      (bindAll [⟨portCulvert c, portOfLine l, s.slc.cycle, .drain t l (drainLine x)⟩] (carried (offered (spend (portCulvert c) s))))))

/-- WKT_LOSS (R427): at most once per second per tile. -/
def execWktLoss (t : TileId) (s : State) : Host.Outcome State Fault Refusal :=
  let t := t.val
  let x := tileAt s t
  if x.unrep = 0 ∨ !available s t ∨ s.cfg.phase = .dark then .next s
  else
    let s := match x.repAt with
      | none => s
      | some r => reachTime (r + 1000000000) s
    .next (report (mkReport Unit.wkt Cls.reported Code.wktLoss t [(t, 6), (satW 18 x.unrep, 18), (x.reason, 2)])
      (setTile t (fun x => { x with unrep := 0, repAt := some s.isl.chron }) s))

/-- Tracing of core `i` is enabled or disabled (R414, R422): the next bundle of an enabled core starts with SYNC and TIME;
a disabled one emits STATE trace off. -/
def switchTrace (i : Nat) (on : Bool) (s : State) : State :=
  let hide := (coreAt s i).sec && traceHides s i
  if on then
    setCore i (fun k => { k with trace := { k.trace with
      acc := [], base := none, owed := some 0, named := none, ret := none, since := 0, hidden := hide } }) s
  else if (coreAt s i).trace.hidden then s
  else traceEmit i (fun ch x => emitState (i % 8) 7 ch x) s

/-- A write of TILE_WCTL; SYNCPER 9–15 follows R5. -/
def wctlWrite (rq : Req) (t value : Nat) (s : State) : State :=
  tileWrite t 0o703000 rq value (fun s =>
    let per := field value 8 4
    let s := reportIf (decide (8 < per)) (regRefused (16 + t) 0o703000 rq .value (value % 2 ^ 36)) s
    let old := (tileAt s t).cen
    let cen := BitVec.ofNat 8 value
    let s := setTile t (fun x => { x with
      cen := cen, bmode := bitOf value 12, syncper := if 8 < per then x.syncper else per }) s
    wakeSettle t <| (List.range 8).foldl (fun s c =>
      if old.getLsbD c == cen.getLsbD c || !(coreAt s (8 * t + c)).on then s else switchTrace (8 * t + c) (cen.getLsbD c) s) s) s

/-- TILE_WCTL_WRITE (R414, R422). -/
def execTileWctlWrite (rq : Req) (t : TileId) (value : Word) (s : State) : Host.Outcome State Fault Refusal :=
  .next (wctlWrite rq t.val value.toNat s)

/-- A full stop-mode buffer is emptied, with the packets on their way to it (R420). DEDUCED: log entry 66. -/
def emptyBuffer (t : Nat) (s : State) : State :=
  let s := setTile t (fun x => { x with full := false, widx := 0, used := 0, tileQ := [] }) s
  (List.range 8).foldl (fun s c =>
    setCore (8 * t + c) (fun k => { k with
      trace := { hidden := k.trace.hidden, owed := if (tileAt s t).cen.getLsbD c then some 0 else none } }) s) s

/-- A write of TILE_WSTAT: FULL written 0, WRAPPED and PERR by W1C, and LOSSW (R420). -/
def wstatWrite (rq : Req) (t value : Nat) (s : State) : State :=
  tileWrite t 0o703004 rq value (fun s =>
    let s := wakeSettle t s
    let s := if (tileAt s t).full && !bitOf value 35 then emptyBuffer t s else s
    setTile t (fun x => { x with
      wrapped := x.wrapped && !bitOf value 34, perr := x.perr && !bitOf value 33, lossw := field value 0 18 }) s) s

/-- TRACE_BUFFER_EMPTY (R420). -/
def execTraceBufferEmpty (rq : Req) (t : TileId) (value : Word) (s : State) : Host.Outcome State Fault Refusal :=
  .next (wstatWrite rq t.val value.toNat s)

/-- A write of WKT_RDPTRt (R426): above WPTR, or below WPTR - 2^RSZ, follows R5. -/
def rdptrWrite (rq : Req) (t value : Nat) (s : State) : State :=
  let off := 0o400 + 4 * t
  ownedWrite Unit.wkt off (tileSec s t) rq value (fun s =>
    let v := value % 2 ^ 36
    if ((tileAt s t).wptr + 2 ^ 36 - v) % 2 ^ 36 ≤ traceSize s t then setTile t (fun x => { x with rdptr := v }) s
    else report (regRefused Unit.wkt off rq .value v) s) s

/-- WKT_RDPTR_WRITE (R426). -/
def execWktRdptrWrite (rq : Req) (t : TileId) (value : Word) (s : State) : Host.Outcome State Fault Refusal :=
  .next (rdptrWrite rq t.val value.toNat s)

/-- A read of TILE_WDATA (R420): a word that fails its parity check reads as zero, sets PERR and is reported. DEDUCED:
log entry 50. -/
def readWdata (t : Nat) (s : State) : State × Nat :=
  let x := tileAt s t
  if mget false x.bufBad x.ridx then
    (report (mkReport Unit.wkt Cls.reported Code.wktParity t [(t, 6), (x.ridx, 13)])
      (setTile t (fun x => { x with perr := true }) s), 0)
  else (s, (mget 0 x.buf x.ridx).toNat)

/-- TILE_WDATA_READ (R237, R420): the packets emitted before it have reached the buffer. -/
def execTileWdataRead (rq : Req) (t : TileId) (s : State) : Host.Outcome State Fault Refusal :=
  let t := t.val
  if !reach rq s then .next s
  else if !available s t then
    .next { report (addrUnmapped (2 ^ 44 + (16 + t) * 2 ^ 24 + 0o703014) rq false) s with answer := 0 }
  else if !mayWrite rq (tileSec s t) then
    .next { report (ownerRefused (16 + t) 0o703014 rq true 0) s with answer := 0 }
  else
    let (s, v) := readWdata t (wakeSettle t s)
    .next { s with answer := BitVec.ofNat 72 v }

end Sys2Proof.Machine
end

