-- ==== Sys2Proof/Machine/RunControl.lean ====
section
/-! DEFINITION. RunControl.lean: halting and releasing cores, and the cross-trigger channels (chapter 18, R442–R452). -/

namespace Sys2Proof.Machine

/-- CAUSE of DBG_HSTAT (R442, R447). -/
def haltCause (k : Core) : Nat := if k.fatal then 5 else (k.halt.map fun h => h.cause).getD 0

/-- A core reads as halted (R442, R447). -/
def Core.halted (k : Core) : Bool := k.fatal || k.halt.isSome

/-- PEND of DBG_HSTAT: a halt waits for WRET (R450). -/
def haltPends (s : State) (i : Nat) : Bool := (coreAt s i).haltReq.isSome && haltWaits s i

/-- The landing list (R440): results in flight, then held ones, in order of landing. -/
def landingList (k : Core) : List (Landing × Bool × Nat) :=
  let fly := k.flight.map fun l => (l, false, l.due - k.cyc)
  let held := k.held.map fun l => (l, true, l.due)
  (fly ++ held).foldl (fun m e => insertBy (fun a b => decide (a.2.2 < b.2.2)) e m) []

/-- DBG_HSTAT of a core. -/
def hstatWord (s : State) (i : Nat) : Nat :=
  let k := coreAt s i
  let h := k.halt.getD ⟨0, 0, false, false, false⟩
  packFields [(b2n k.halted, 1), (haltCause k, 4), (h.cmp, 4), (b2n (haltPends s i), 1), (b2n h.lkbrk, 1),
    (b2n (decide (k.mdef ≠ 0)), 1), (if k.halted then (landingList k).length else 0, 5)]

/-- DBG_RUN_REFUSED (R447, R97): the value written and the core's CAUSE. -/
def runRefused (i value : Nat) (s : State) : State :=
  report (mkReport Unit.dbg Cls.reported Code.dbgRunRefused i [(value, 36), (haltCause (coreAt s i), 4)]) s

/-- A permitted halt request is available at a core (R442, R97): its tile leaves nap, unless policy holds the halt back
(R450). -/
def haltAsked (i : Nat) (s : State) : State :=
  let s := if (tileIsl s (i / 8)).state = .nap ∧ !haltWaits s i then
      setTileIsl (i / 8) (fun x => { x with exiting := true }) s else s
  setCore i (fun k => { k with haltReq := some (k.haltReq.getD 1) }) s

/-- A halt request reaches a core (R442, R97): a dark tile refuses. -/
def requestHalt (i value : Nat) (s : State) : State :=
  let x := tileIsl s (i / 8)
  if (coreAt s i).halted then s
  else if !available s (i / 8) || x.state == .darkKeep || x.state == .darkLose then runRefused i value s
  else haltAsked i s

/-- A dozing core that was halted returns to doze, which its trace shows, unless a delivery wakes it (R97, R254, R422). -/
def redoze (i : Nat) (dozed : Bool) (s : State) : State :=
  if !dozed ∨ offeredAbove (coreAt s i) then s
  else setCore i (fun k => { k with dozing := true }) (traceCore i (fun ch t => emitState (i % 8) 0 ch t) s)

/-- A halted core is released (R444, R451); one halted by a fault refuses (R447). -/
def releaseCore (i value : Nat) (step : Bool) (s : State) : State :=
  let k := coreAt s i
  if k.fatal then runRefused i value s
  else
    match k.halt with
    | none => s
    | some h =>
      let now := tileChron s (i / 8)
      let s := setCore i (fun k => { k with
        halt := none, haltReq := none, step := step
        wd := if k.wd.en then { k.wd with remain := max k.wd.remain 1024, from' := now } else k.wd }) s
      redoze i h.dozed (traceResume i s)

/-- A write of DBG_RUN: MASKI and BRKH, then HALT, STEP and RELEASE in turn (R442, R444). DEDUCED: log entry 47. -/
def runWrite (rq : Req) (i value : Nat) (s : State) : State :=
  ownedWrite Unit.dbg (0o100000 + i * 0o400) (tileSec s (i / 8)) rq value (fun s =>
    let s := setCore i (fun k => { k with maskI := bitOf value 4, brkH := bitOf value 3 }) s
    let s := if bitOf value 0 then requestHalt i value s else s
    let s := if bitOf value 2 then releaseCore i value true s else s
    if bitOf value 1 && !((coreAt s i).fatal && bitOf value 2) then releaseCore i value false s else s) s

/-- DEBUG_HALT_REQUEST (R442, R97). -/
def execDebugHaltRequest (rq : Req) (c : CoreId) (value : Word) (s : State) : Host.Outcome State Fault Refusal :=
  .next (runWrite rq (coreIx c) value.toNat s)

/-- DEBUG_STEP (R444, R451). -/
def execDebugStep (rq : Req) (c : CoreId) (value : Word) (s : State) : Host.Outcome State Fault Refusal :=
  .next (runWrite rq (coreIx c) value.toNat s)

/-- DEBUG_RELEASE (R444, R451). -/
def execDebugRelease (rq : Req) (c : CoreId) (value : Word) (s : State) : Host.Outcome State Fault Refusal :=
  .next (runWrite rq (coreIx c) value.toNat s)

/-- DBG_HALT with CAUSE and HPC. -/
def haltReport (i cause pc : Nat) : Report :=
  mkReport Unit.dbg Cls.reported Code.dbgHalt i [(cause, 4), bundleField pc]

/-- The core stops at this boundary, every due result landed (R440, R442, R445, R451). -/
def takeHalt (i cause : Nat) (s : State) : State :=
  let s := drought i (seqTimeout i (landNow i s))
  let k := coreAt s i
  let left := wdRemain s i
  let now := tileChron s (i / 8)
  let s := traceCore i (fun ch x => emitState (i % 8) 1 ch x) s
  let s := setCore i (fun k => { k with
    halt := some ⟨cause, if cause = 2 then k.haltCmp else 0, k.seq.isSome, false, k.dozing⟩
    haltReq := none, haltNow := false, dozing := false, stepped := cause == 4
    seq := k.seq.map fun q => { q with broken := true, lines := [] }
    wd := { k.wd with remain := left, from' := now } }) s
  report (haltReport i cause k.pc) (pulseFrom (i / 8) k.hout s)

/-- A trap, a stack fault or an interrupt is taken at the boundary that ends a step, before the halt (R444). -/
def entersFirst (s : State) (i : Nat) : Bool :=
  let s := settle i s
  boundaryFree s i && ((coreAt s i).trapDue || stackFaultDue s i || interruptDue s i)

/-- DBG_HALT (R442, R444, R450, R452). -/
def execDbgHalt (c : CoreId) (s : State) : Host.Outcome State Fault Refusal :=
  let i := coreIx c
  let k := coreAt s i
  match k.haltReq with
  | none => .next s
  | some r =>
    if !atBoundary s i || k.halted || !tileRunning s c.tile.val || !serving s || haltWaits s i ||
        (r == 4 && entersFirst s i) then
      .next s
    else .next (takeHalt i r s)

/-- A pulse reaches a core that listens (R442, R444, R447, R449, R450): a core of a secure-owned tile does not halt on
it under the closed policy, and one halted by a fault refuses to be released. -/
def pulseCore (mask : Nat) (s : State) (i : Nat) : State :=
  let k := coreAt s i
  let s := if k.hin &&& mask ≠ 0 ∧ (spolOpen s ∨ !tileSec s (i / 8)) then (if k.halted then s else haltAsked i s) else s
  if k.rin &&& mask ≠ 0 then releaseCore i 0 false s else s

/-- A pulse at the hub on a channel of OUTCH drives XTRIG_OUT high for 40 ns while the port is active (R428, R449). -/
def pulsePin (mask : Nat) (s : State) : State :=
  if s.dbu.outch &&& mask = 0 ∨ !portActive s then s
  else { s with dbu := { s.dbu with xout := true, xoutTo := s.isl.chron + 40 } }

/-- The cores that a pulse reaches: those of every tile that runs or naps (R97, R449). -/
def pulsedCores (s : State) : List Nat :=
  (List.range 384).filter fun i => (tileRunning s (i / 8) || (tileIsl s (i / 8)).state == .nap) && (coreAt s i).on

/-- CHANNEL_PULSE (R449): the pulse reaches the cores that have power and a clock or nap, and the pin. -/
def execChannelPulse (s : State) : Host.Outcome State Fault Refusal :=
  match s.dbu.pulses with
  | [] => .next s
  | (mask, _) :: rest =>
    let s := { s with dbu := { s.dbu with pulses := rest } }
    .next (pulsePin mask ((pulsedCores s).foldl (pulseCore mask) s))

/-- XTRIG_IN_EDGE (R428, R449). -/
def execXtrigInEdge (s : State) : Host.Outcome State Fault Refusal :=
  .next (if portActive s then pulseFrom 48 s.dbu.inch s else s)

/-- A write of DBG_XPULSE (R449). -/
def xpulseWrite (rq : Req) (value : Nat) (s : State) : State :=
  ownedWrite Unit.dbg 4 (blockSec s Unit.dbg) rq value (pulseFrom 48 (field value 0 8)) s

/-- DBG_XPULSE_WRITE. -/
def execDbgXpulseWrite (rq : Req) (value : Word) (s : State) : Host.Outcome State Fault Refusal :=
  .next (xpulseWrite rq value.toNat s)

/-- XTRIG_OUT_END: the pin falls 40 ns after the last pulse on an output channel (R449). -/
def execXtrigOutEnd (s : State) : Host.Outcome State Fault Refusal :=
  if s.dbu.xout then
    let s := reachTime s.dbu.xoutTo s
    .next { s with dbu := { s.dbu with xout := false } }
  else .next s

end Sys2Proof.Machine
end

