-- ==== Sys2Proof/Machine/Start.lean ====
section
/-! DEFINITION. Start.lean: selecting an image, TEST, LOCK, the choice of an alternate, and the image update
(chapter 03). -/

namespace Sys2Proof.Machine

/-- One copy of the image: A, or B. -/
def flashCopy (s : State) (b : Bool) : FlashCopy := if b then s.nv.copyB else s.nv.copyA

/-- CFG_COPY_BAD: copy, failed check, section ID, field offset (R58). -/
def copyBad (b : Bool) (f : Nat × Nat × Nat) : Report :=
  let n := if b then 2 else 1
  mkReport Unit.cfg Cls.reported Code.cfgCopyBad n [(n, 2), (f.1, 3), (f.2.1, 8), (f.2.2, 26)]

/-- The loader verifies a copy under R58, and reports the check that fails. -/
def verifyCopy (b : Bool) (s : State) : State × Option (Nat × Nat × Nat) :=
  match copyFault (flashCopy s b) with
  | none => (s, none)
  | some f => (report (copyBad b f) s, some f)

/-- A valid copy is used: a hold in LOAD ends, LOAD ends with REQUIRED computed, and TEST begins (R36, R60, R61). -/
def useCopy (b : Bool) (s : State) : State :=
  let s := if s.cfg.held then { s with dbu := restPort s.dbu } else s
  let s := { s with cfg := { s.cfg with copy := if b then 2 else 1, seq := imgSeq (flashCopy s b), held := false } }
  let s := recomputeRequired s
  { s with cfg := { s.cfg with phase := .test } }

/-- SEQ of a copy lies in range (R57). -/
def seqOk (n : Nat) : Bool := decide (1 ≤ n) && decide (n ≤ 16777215)

/-- The candidate of R60: true for copy B. -/
def candidate (s : State) : Bool :=
  let a := imgSeq s.nv.copyA
  let b := imgSeq s.nv.copyB
  seqOk a && seqOk b && decide (a < b)

/-- CFG_NO_IMAGE: SEQ of each copy (R61). -/
def noImage (s : State) : Report :=
  mkReport Unit.cfg Cls.fatal Code.cfgNoImage 0 [(imgSeq s.nv.copyA, 24), (imgSeq s.nv.copyB, 24)]

/-- IMAGE_SELECT_VERIFY (R58–R61). -/
def execImageSelectVerify (s : State) : Host.Outcome State Fault Refusal :=
  if s.cfg.phase ≠ .load ∨ !s.cfg.loadIn ∨ s.cfg.held then .next s
  else
    let b := candidate s
    let (s, f) := verifyCopy b s
    if f.isNone then .next (useCopy b s)
    else
      let (s, g) := verifyCopy (!b) s
      if g.isNone then .next (useCopy (!b) s)
      else .next (report (noImage s) { s with cfg := { s.cfg with held := true } })

/-- CFG_TILESd.ST of a physical tile (CFG registers). -/
def tileStOf (s : State) (p : Nat) : Nat := mget 0 s.cfg.tileSt p

/-- A physical tile takes part in the self-test: it is not retired and its island is on (R63, R64). -/
def tested (s : State) (p : Nat) : Bool := !s.nv.retired.getLsbD p && !mget false s.cfg.off p

/-- A tile that fails is retired (R64). -/
def retireTile (p : Nat) (s : State) : State := { s with nv := { s.nv with retired := s.nv.retired ||| BitVec.ofNat 52 (2 ^ p) } }

/-- The healthy physical tiles of a die in ascending order (R9). -/
def healthy (s : State) (d : Nat) : List Nat := ((List.range 13).map fun p => 13 * d + p).filter (tested s)

/-- NLOG of a die. -/
def nlog (s : State) (d : Nat) : Nat := min 12 (healthy s d).length

/-- The logical tiles of a die take its healthy physical tiles in ascending order (R9). -/
def mapDie (s : State) (d : Nat) : State :=
  (List.range (nlog s d)).foldl (fun s' k =>
    let p := (healthy s d).getD k 0
    let phys : Option PTileId := if h : p < 52 then some ⟨p, h⟩ else none
    { s' with cfg := { s'.cfg with lmap := mset none s'.cfg.lmap (12 * d + k) phys } }) s

/-- The spare of a die carries a logical number. -/
def spareUsed (s : State) (d : Nat) : Bool := ((healthy s d).take 12).contains (13 * d + 12)

/-- The reports of TEST by physical tile: TILE_TEST_FAIL of a failing one (R64), and TILE_SPARED and TILE_SPARES_OUT at a
die's spare (R65). -/
def testReports (failed : List (Nat × Nat)) (s : State) : State :=
  (List.range 52).foldl (fun s p =>
    let d := p / 13
    let s := match failed.lookup p with
      | none => s
      | some block => report (mkReport Unit.cfg Cls.fatal Code.tileTestFail p [(p, 6), (block, 3)]) s
    if p % 13 ≠ 12 then s
    else
      let s := reportIf (spareUsed s d) (mkReport Unit.cfg Cls.reported Code.tileSpared p [(d, 2), (p, 6)]) s
      reportIf (decide ((healthy s d).length < 12)) (mkReport Unit.cfg Cls.wear Code.tileSparesOut p [(d, 2), (nlog s d, 4)]) s) s

/-- ST of every physical tile at the end of TEST: in use, healthy spare, retired at this start, or unavailable. -/
def tileStates (failed : List Nat) (s : State) : State :=
  let st := fun p => if failed.contains p then 2 else if !tested s p then 3 else if (logicalOf s p).isSome then 0 else 1
  { s with cfg := { s.cfg with tileSt := (List.range 52).foldl (fun m p => mset 0 m p (st p)) [] } }

/-- TEST_COMPLETE (R63–R65, R9): its reports come in ascending INSTANCE order (R455). DESIGN CHOICE: log entry 17. -/
def execTestComplete (failed : List (PTileId × Fin 6)) (s : State) : Host.Outcome State Fault Refusal :=
  if s.cfg.phase ≠ .test then .next s
  else
    let bad := (failed.filter fun f => tested s f.1.val).map fun f => (f.1.val, f.2.val)
    let s := bad.foldl (fun s f => retireTile f.1 s) s
    let s := (List.range 4).foldl mapDie s
    let s := tileStates (bad.map fun f => f.1) (testReports bad s)
    .next { s with cfg := { s.cfg with phase := .lock } }

/-- LOCK step 1 (R229, R231). -/
def lockWorlds (s : State) : State :=
  let c := image s
  { s with wld := { s.wld with
    locked := true, dwm := fld c 1 0 4, hwm := fld c 1 4 4, kwm := fld c 1 8 4, iwm := imgIrqWm c
    blocks := BitVec.ofNat 16 (fld c 1 12 4), quads := BitVec.ofNat 24 (fld c 1 16 4)
    tiles := BitVec.ofNat 48 (fld c 1 24 8)
    twm := (List.range 48).foldl (fun m t => mset 0 m t (fld c 1 (32 + 2 * t) 2)) [] } }

/-- LOCK step 3 (R389, R398): the idle times and the refresh timers of the channels begin (R394, R396). -/
def trainDram (badTrain : List SubId) (badSets : List (SubId × Fin 4)) (s : State) : State :=
  let sets := badSets.filter fun e => decide (1 ≤ e.2.val) && decide (e.2.val ≤ drcNshadow s)
  let down := badTrain.foldl (fun m u => m ||| BitVec.ofNat 32 (2 ^ u.val)) 0#32
  let unus := sets.foldl (fun m e => m ||| BitVec.ofNat 4 (2 ^ e.2.val)) 0#4
  let s := { s with drc := { ({} : Drc) with down := down, unus := unus } }
  let s := (List.range 32).foldl (fun s u => markIdle u (setSub u (fun x => { x with refAt := s.isl.chron }) s)) s
  let s := (List.finRange 32).foldl (fun s u => reportIf (badTrain.contains u)
    (drcReport Cls.fatal Code.drcTrainFail u.val [(u.val, 5)]) s) s
  sets.eraseDups.foldl (fun s e =>
    report (drcReport Cls.reported Code.drcShadowFail e.1.val [(e.1.val, 5), (e.2.val, 2)]) s) s

/-- The newest image with a closing record (R46). -/
def newestImage (s : State) : Option VaultImage := match s.nv.newest with
  | none => none
  | some b => if b then s.nv.slot1 else s.nv.slot0

/-- VAULT_MISMATCH: the two hashes (R48). -/
def vaultMismatch (a b : List (Nat × Nat)) : Report :=
  mkReport Unit.pwr Cls.reported Code.vaultMismatch 0 [(Config.regionHash a, 36), (Config.regionHash b, 36)]

/-- The vault engine restores an image whose region list matches (R48): complete regions, zeros in the incomplete ones,
and the secure state of what the secure world owns. Writes to a subchannel that is down are not performed (R398). -/
def restoreImage (img : VaultImage) (s : State) : State :=
  let ix := (List.range img.regions.length).zip img.regions
  let s := downRanges img.regions s
  let within := fun (rs : List (Nat × (Nat × Nat))) l =>
    !subDown s (subOf l) && rs.any fun r => decide (r.2.1 ≤ l) && decide (l < r.2.1 + r.2.2)
  let whole := ix.filter fun r => bitOf img.done r.1
  let hub := fun l => decide (hubLine0 ≤ l) && decide (l < hubLine0 + 64 * min s.wld.hwm (imageHwm img))
  let mine := fun l => within whole l || hub l
  let kept := s.mem.filter fun c => !(within ix (c.1 / 72) || hub (c.1 / 72))
  let bad := s.poison.filter fun e => !within ix e.1
  { s with
    mem := ((imageMem img).filter fun c => mine (c.1 / 72)).foldl (fun m c => mset (0 : BitVec 8) m c.1 c.2) kept
    poison := (img.bad.filter fun e => within whole e.1).foldl (fun m e => mset false m e.1 e.2) bad
    drc := { s.drc with lost := img.lost }
    keys := ((imageKeys img).filter fun e => decide (e.1 < s.wld.kwm)).foldl (fun m e => mset {} m e.1 e.2) s.keys }

/-- LOCK step 4 (R48, PWR_VLT.RESTORE): none, restored whole, restored in part, or a mismatch. -/
def restoreVault (s : State) : State :=
  match newestImage s with
  | none => s
  | some img =>
    if !vaultRestoreOn s then s
    else
      let cur := vaultRegions s
      if Config.regionHash img.regions ≠ Config.regionHash cur then
        report (vaultMismatch img.regions cur) { s with pwr := { s.pwr with vRestore := 2 } }
      else
        let full := decide (img.done = 2 ^ img.regions.length - 1)
        restoreImage img { s with pwr := { s.pwr with vRestore := if full then 1 else 3 } }

/-- LOCK step 6: the queue records and the ditches (R271, R289). -/
def loadQueues (s : State) : State :=
  let c := image s
  let recs := (List.range (nQrec c)).foldl (fun m i =>
    mset none m (qFld c i 0 4) (some
      { rdram := qFld c i 4 1 == 1, elines := qFld c i 5 1, rsz := qFld c i 6 1, culv := qFld c i 7 1 == 1
        rbase := qFld c i 8 8, tile := qFld c i 16 1, core := qFld c i 17 1, flag := qFld c i 18 1
        lsz := qFld c i 19 1, lbase := qFld c i 20 2, cul := qFld c i 22 1, dbe := qFld c i 23 1 == 1
        src := qFld c i 24 4 })) ([] : SMap (Option QRec))
  let ditches := (List.range 16384).foldl (fun m d =>
    let (f, n) := imgDitch c d
    if n = 0 then m
    else mset {} m d { qfirst := f, nq := n, burst := fld c 6 (22 + 8 * d) 1, last := n - 1 }) ([] : SMap Ditch)
  { s with slc := { ({} : Slc) with qrecs := recs, ditches := ditches } }

/-- LOCK step 6: the route records (R248). -/
def loadRoutes (s : State) : State :=
  let c := image s
  let routes := (List.range (recCount c 9 262144)).foldl (fun m i =>
    let o := 16 + 16 * i
    mset {} m (fld c 9 o 4)
      { tile := fld c 9 (o + 4) 1, core := fld c 9 (o + 5) 1, level := fld c 9 (o + 6) 1, en := fld c 9 (o + 7) 1 == 1
        vec := fld c 9 (o + 8) 2, ccount := fldX c 9 (o + 10) 2 1, ctime := fldX c 9 (o + 12) 4 0, routed := true })
    ([] : SMap Route)
  { s with ivc := { ({} : Router) with routes := routes } }

/-- NALT of the image in use. -/
def nalt (s : State) : Nat := min (imgNalt (image s)) 8

/-- Every tile of an alternate's mask is available (R68). -/
def altMatches (s : State) (a : Nat) : Bool := altMask s a &&& availMask s == altMask s a

/-- The number of tiles in a mask. -/
def maskCount (m : Nat) : Nat := ((List.range 48).filter fun t => bitOf m t).length

/-- LOCK step 7 (R68): the matching alternate with the most tiles, the lower index on a tie. -/
def selectAlternate (s : State) : Option Nat :=
  ((List.range (nalt s)).filter (altMatches s)).foldl (fun b a =>
    match b with
    | none => some a
    | some x => if maskCount (altMask s x) < maskCount (altMask s a) then some a else some x) none

/-- CFG_NO_ALTERNATE: the available tiles (R69). -/
def noAlternate (s : State) : Report := mkReport Unit.cfg Cls.fatal Code.cfgNoAlternate 0 [(availMask s, 48)]

/-- Tiles outside the schedule are held dark (R68, R70): with retention where a tile-memory image could not be reloaded
(R93, R96). -/
def holdDark (s : State) : State :=
  (List.range 48).foldl (fun s t =>
    if available s t && cannotReload s t then setTileIsl t (fun x => { x with state := .darkKeep }) s else s) s

/-- LOCK step 8 (R38, R69): ENERGY_POLICY is applied, and RUN or HELM-ONLY begins with its ceilings, its schedule, and
the signals of the health unit. -/
def enterService (s : State) : State :=
  let s := if s.pwr.ready then s else rsvShort s
  let wait := !s.pwr.ready && !unvaulted s
  let helm := s.cfg.noAlt || wait
  let s := { s with
    cfg := { s.cfg with phase := if helm then .helm else .run, hwait := wait, hnoalt := s.cfg.noAlt }
    pwr := { s.pwr with waitFrom := s.isl.chron, foundReady := false }
    slc := { s.slc with mode := if helm then 2 else 1 }
    hlt := { s.hlt with signalOn := true } }
  (scheduleTiles s).foldl (fun s t => startTile t s) (loadCeilings (holdDark s))

/-- The shadow pages hold zeros at the end of LOCK step 6: the VIS section gives no contents. DESIGN CHOICE: log entry
61. -/
def zeroPages (s : State) : State :=
  let ps := ((List.range (nvi s)).filter (viShadowed s)).map (imgPage (image s))
  let mine := fun l => ps.any fun p => decide (p.1 ≤ l) && decide (l < p.1 + p.2)
  { s with mem := s.mem.filter fun c => !mine (c.1 / 72) }

/-- LOCK steps 1 to 5 (R66): the world lock, the ceiling set of the line class, DRAM training, the vault restore, and the
lanes, which may train from then on. -/
def lockOpen (badTrain : List SubId) (badSets : List (SubId × Fin 4)) (s : State) : State :=
  let s := lockWorlds s
  restoreVault (trainDram badTrain badSets { s with pwr := { s.pwr with ceilLow := s.pwr.line == 1 } })

/-- LOCK step 6 (R66): what the image loads; the chart is empty (R316). -/
def loadAll (s : State) : State := loadImages (zeroPages (zeroTables { loadRoutes (loadQueues s) with cht := {} }))

/-- LOCK step 7 (R66, R68, R69). -/
def chooseAlternate (s : State) : State :=
  let s := { s with cfg := { s.cfg with nalt := nalt s } }
  match selectAlternate s with
  | some a => { s with cfg := { s.cfg with cur := a } }
  | none => report (noAlternate s) { s with cfg := { s.cfg with noAlt := true } }

/-- LOCK_SEQUENCE (R66): the eight steps in order; `part` stops after step 5, and a later LOCK_SEQUENCE goes on from
there. DESIGN CHOICE: log entry 61. -/
def execLockSequence (badTrain : List SubId) (run : LockRun) (s : State) : Host.Outcome State Fault Refusal :=
  if s.cfg.phase ≠ .lock then .next s
  else
    let s := if s.wld.locked then s else lockOpen badTrain run.badSets s
    .next (if run.part then s else enterService (chooseAlternate (loadAll s)))

/-- CFG_ALT_REFUSED with the written value (R72). -/
def altRefused (value : Nat) (s : State) : State :=
  report (mkReport Unit.cfg Cls.reported Code.cfgAltRefused 0 [(value, 36)]) s

/-- A write of CFG_ALT (R72). DEDUCED: log entry 48. -/
def altWrite (rq : Req) (value : Nat) (s : State) : State :=
  ownedWrite Unit.cfg 0o40 (blockSec s Unit.cfg) rq value (fun s =>
    let r := value % 8
    let ok := decide (r < s.cfg.nalt) && altMatches s r
    if !bitOf value 3 then s
    else if runOrHelm s ∧ r = s.cfg.cur then { s with cfg := { s.cfg with pend := false } }
    else if s.cfg.phase = .run ∧ ok then { s with cfg := { s.cfg with pend := true, palt := r } }
    else if s.cfg.phase = .helm ∧ !s.cfg.noAlt ∧ ok then { s with cfg := { s.cfg with cur := r } }
    else altRefused value s) s

/-- CFG_ALT_WRITE (R72). -/
def execCfgAltWrite (rq : Req) (value : Word) (s : State) : Host.Outcome State Fault Refusal :=
  .next (altWrite rq value.toNat s)

/-- The image update registers accept writes (R76). DEDUCED: log entry 48. -/
def updOpen (s : State) : Bool := runOrHelm s || (s.cfg.phase == .load && s.cfg.held)

/-- A write of an image update register, by the world that owns the CFG block or over SMBus (R76); in a state in which
the registers accept none it is ignored, and one by the other world is refused in any state that serves it (R237). -/
def updWrite (off : Nat) (rq : Req) (value : Nat) (act : State → State) (s : State) : State :=
  if mayWrite rq (blockSec s Unit.cfg) then (if updOpen s then act s else s)
  else if updOpen s || reach rq s then report (ownerRefused Unit.cfg off rq false value) s
  else s

/-- CFG_UPD_RESULT or CFG_UPD_REFUSED: the CFG_UPD_CTL value and RESULT (R77). -/
def updReport (code value result : Nat) : Report :=
  mkReport Unit.cfg Cls.reported code 0 [(value, 36), (result, 4)]

/-- A write of CFG_UPD_CTL (R76, R77). -/
def updCtlWrite (rq : Req) (value : Nat) (s : State) : State :=
  updWrite 0o44 rq value (fun s =>
    let b := bitOf value 33
    let inUse := !s.cfg.held && s.cfg.copy == (if b then 2 else 1)
    if inUse || s.cfg.updBusy then
      report (updReport Code.cfgUpdRefused value 7) { s with cfg := { s.cfg with updRes := 7 } }
    else if field value 34 2 = 0 then s
    else
      let op := field value 34 2
      let start := fun (k : Cfg) =>
        { k with updBusy := true, updOp := op, updB := b, updLine := field value 0 20, updVal := value }
      { s with cfg := start s.cfg }) s

/-- A write of CFG_UPD_BUFi (R76). -/
def updBufWrite (rq : Req) (i value : Nat) (s : State) : State :=
  updWrite (0o100 + 4 * i) rq value (fun s =>
    let os := (List.range 4).map fun k => field value (9 * k) 8
    { s with cfg := { s.cfg with updBuf := msetMany 0 s.cfg.updBuf (4 * i) os } }) s

/-- The value of CFG_UPD_CTL with an operation, a copy and a line. -/
def updValue (op : Nat) (b : Bool) (line : Nat) : Nat := packFields [(line, 20), (0, 13), (b2n b, 1), (op, 2)]

/-- CFG_UPD_ERASE (R76). -/
def execCfgUpdErase (rq : Req) (copy : Bool) (s : State) : Host.Outcome State Fault Refusal :=
  .next (updCtlWrite rq (updValue 1 copy 0) s)

/-- CFG_UPD_WRITE_LINE (R76). -/
def execCfgUpdWriteLine (rq : Req) (copy : Bool) (line : BitVec 20) (s : State) : Host.Outcome State Fault Refusal :=
  .next (updCtlWrite rq (updValue 2 copy line.toNat) s)

/-- CFG_UPD_VERIFY (R76). -/
def execCfgUpdVerify (rq : Req) (copy : Bool) (s : State) : Host.Outcome State Fault Refusal :=
  .next (updCtlWrite rq (updValue 3 copy 0) s)

/-- A copy of boot flash changes. -/
def putCopy (b : Bool) (c : FlashCopy) (s : State) : State :=
  { s with nv := if b then { s.nv with copyB := c } else { s.nv with copyA := c } }

/-- RESULT of a verification (CFG_UPD_STAT): a copy that fails check 1 or 5 is malformed. DEDUCED: log entry 48. -/
def verifyResult (f : Option (Nat × Nat × Nat)) : Nat := match f with
  | none => 2
  | some (k, _) => if k = 2 then 3 else if k = 3 then 4 else if k = 4 then 5 else 6

/-- An operation ends (R77). -/
def updDone (result : Nat) (s : State) : State :=
  report (updReport Code.cfgUpdResult s.cfg.updVal result)
    { s with cfg := { s.cfg with updBusy := false, updRes := result } }

/-- CFG_UPD_COMPLETE (R61, R76, R77). OP b10 takes CFG_UPD_BUF as it stands when the operation completes. DESIGN CHOICE:
log entry 61. -/
def execCfgUpdComplete (s : State) : Host.Outcome State Fault Refusal :=
  let b := s.cfg.updB
  if !s.cfg.updBusy then .next s
  else if s.cfg.updOp = 1 then .next (flashWornCheck false (wearBoot (updDone 1 (putCopy b [] s))))
  else if s.cfg.updOp = 2 then
    let octets := (List.range 64).map fun i => mget 0 s.cfg.updBuf i
    .next (flashWornCheck false (wearBoot
      (updDone 1 (putCopy b (msetMany 255 (flashCopy s b) (64 * s.cfg.updLine) octets) s))))
  else
    let (s, f) := verifyCopy b s
    let s := updDone (verifyResult f) s
    .next (if f.isNone && s.cfg.held then useCopy b s else s)

end Sys2Proof.Machine
end

