-- ==== Sys2Proof/Machine/Tide.lean ====
section
/-! DEFINITION. Tide.lean: the tide boundary (R290, R30, R38, R40, R43, R71, R72, R81, R96, R331). -/

namespace Sys2Proof.Machine

/-- VAULT begins at the boundary (R43, R290, R311): every delivery and descriptor is dropped without report, lanes go idle,
and the writes accepted so far are in DRAM. From then on no core issues. -/
def vaultBoundary (s : State) : State :=
  let s := lanesIdle (abandonCulverts (dropAllDeliveries s))
  let s := newCycle none (flushQueues s)
  { s with slc := { s.slc with mode := 3, rptr := [] }, pwr := { s.pwr with vault := .stopped, vaultTb := s.isl.chron } }

/-- CFG_ALT_SWITCH with the old and the new alternate (R72). -/
def altSwitch (old new : Nat) : Report :=
  mkReport Unit.cfg Cls.reported Code.cfgAltSwitch 0 [(old, 3), (new, 3)]

/-- The module leaves HELM-ONLY here (R38, R71): its one cause was WAIT, and a reprobe found the reservoir ready. -/
def leavesHelm (s : State) : Bool := s.cfg.phase == .helm && s.cfg.hwait && s.pwr.foundReady && !s.cfg.noAlt

/-- Items 2 and 3 of R290; in RIDE no schedule change takes effect (R40). Where a different schedule begins, the donation
pointers return to 0 (R289). Under NONE no reprobe ends HWAIT. DESIGN CHOICE: log entry 61. -/
def switchSchedule (s : State) : State × Bool :=
  let fresh := fun (x : Slc) => { x with rptr := [], mode := 1, pat := none, joined := [], spent := [], touched := [] }
  if leavesHelm s then
    ({ s with cfg := { s.cfg with phase := .run, hwait := false }, slc := fresh s.slc }, true)
  else if s.cfg.phase = .run ∧ s.cfg.pend then
    let s' := { s with cfg := { s.cfg with cur := s.cfg.palt, pend := false }, slc := fresh s.slc }
    (report (altSwitch s.cfg.cur s.cfg.palt) s', true)
  else (s, false)

/-- The ceiling set of the line class in force takes effect (R30, R81). -/
def boundaryCeilings (s : State) : State :=
  if runOrHelm s then loadCeilings { s with pwr := { s.pwr with ceilLow := s.pwr.line == 1 } } else s

/-- The counters take the totals of the tide that ended, and an epoch may end (R290, R331). -/
def countTide (s : State) : State :=
  let n := (s.slc.tide + 1) % 2 ^ 36
  let s := { s with slc := { s.slc with
    tide := n, idle := s.slc.cIdle, don := s.slc.cDon, xconn := s.slc.cConn, xlines := s.slc.cLines
    cIdle := 0, cDon := 0, cConn := 0, cLines := 0, cycle := s.slc.cycle + (65536 - s.slc.next), next := 0, slot := 0 } }
  if n % epochLen s = 0 then epochChange s else s

/-- TIDE_BOUNDARY (R290): dark tiles of a new schedule's mask start (R71, R96). -/
def execTideBoundary (s : State) : Host.Outcome State Fault Refusal :=
  if (s.slc.mode ≠ 1 ∧ s.slc.mode ≠ 2) ∨ !serving s then .next s
  else if s.cfg.phase = .vault then .next (vaultBoundary s)
  else
    let old := if s.cfg.phase = .helm then [] else scheduleTiles s
    let (s, new) := switchSchedule s
    let s := boundaryCeilings s
    .next (countTide (if new then startTiles old s else s))

end Sys2Proof.Machine
end

