-- ==== Sys2Proof/Machine/Regs.lean ====
section
/-! DEFINITION. Regs.lean: every register of control space (chapters 01 to 19, Registers): its place, width, world rule,
the value a read returns and the effect of a write (R4, R5, R7, R11, R16, R237). -/

namespace Sys2Proof.Machine

/-- A register as an access finds it: whether it has 72 bits, the world that alone may read it or write it (none: both
may), the value a read returns, what a read does (told whether it only peeks), and what a write does. -/
structure RegView where
  wide    : Bool := false
  readBy  : Option Bool := none
  writeBy : Option Bool := none
  value   : Nat := 0
  onRead  : Bool → State → State := fun _ s => s
  put     : Req → Nat → State → State := fun _ _ s => s

/-- The index of an offset in a row of `n` registers from `base`, `stride` apart. -/
def rowIndex (base stride n off : Nat) : Option Nat :=
  if base ≤ off ∧ (off - base) % stride = 0 ∧ (off - base) / stride < n then some ((off - base) / stride) else none

/-- A register that both worlds read and no write changes. -/
def roReg (fields : List (Nat × Nat)) : RegView := { value := packFields fields }

/-- A register that one world reads and no write changes. -/
def roOwned (own : Bool) (fields : List (Nat × Nat)) : RegView := { readBy := some own, value := packFields fields }

/-- A register that reads zero and that one world writes. -/
def woOwned (own : Bool) (put : Req → Nat → State → State) : RegView := { writeBy := some own, put := put }

/-- A register that one world alone reads and writes, its plain writes by `act`. -/
def rwOwned (win off : Nat) (own : Bool) (fields : List (Nat × Nat)) (act : Nat → State → State) : RegView :=
  { readBy := some own, writeBy := some own, value := packFields fields
    put := fun rq v s => ownedWrite win off own rq v (act v) s }

/-- The first register found at an offset among rows of registers: base, stride, count and the register of an index. -/
def firstRow (off : Nat) : List (Nat × Nat × Nat × (Nat → RegView)) → Option RegView
  | [] => none
  | (b, st, n, f) :: rest =>
    match rowIndex b st n off with
    | some i => some (f i)
    | none => firstRow off rest

/-- One register at one offset. -/
def atOff (off : Nat) (r : RegView) : Nat × Nat × Nat × (Nat → RegView) := (off, 4, 1, fun _ => r)

/-- The HUB window: HUB_IDENT, HUB_XCONN, HUB_XLINES. -/
def hubRegs (s : State) : List (Nat × Nat × Nat × (Nat → RegView)) :=
  [atOff 0 (roReg [(0o112226030200, 36)]),
   atOff 0o100 (roReg [(s.slc.xconn, 24)]),
   atOff 0o104 (roReg [(s.slc.xlines, 24)])]

/-- The PWR window (chapter 02). -/
def pwrRegs (s : State) : List (Nat × Nat × Nat × (Nat → RegView)) :=
  let p := s.pwr
  [atOff 0 (roReg [(p.line, 2), (b2n p.ceilLow, 1), (b2n p.loss, 1), (0, 2), (p.freq, 9), (p.vin, 10), (p.pin, 11)]),
   atOff 4 (roReg [(p.cap, 14), (p.esr, 10), (p.temp, 8), (p.pstat, 4)]),
   atOff 0o10 (roReg [(p.usable, 16), (p.required, 16), (b2n p.ready, 1), (b2n p.worn, 1), (b2n (unvaulted s), 1)]),
   atOff 0o14 (roReg [(p.vLast, 2), (p.vRestore, 2), (b2n p.vSlot, 1), (p.vDone, 16), (p.vPoison, 15)]),
   atOff 0o20 (roReg (match s.cfg.phase with
     | .dark | .charge | .probe => []
     | _ => [(spareBlocks s, 12), (satW 12 s.nv.erases, 12), (b2n (flashWorn s), 1)])),
   atOff 0o24 (roReg [(p.inlet, 8), (p.flow, 8), (b2n p.coolOut, 1)]),
   atOff 0o30 (woOwned (blockSec s Unit.pwr) fun rq v s => pwrCtlWrite rq (BitVec.ofNat 36 v) s)]

/-- The code of a state in CFG_STATE; DARK, in which nothing is read, has none. -/
def phaseCode (p : Phase) : Nat := match p with
  | .dark => 0
  | .charge => 1
  | .probe => 2
  | .load => 3
  | .test => 4
  | .lock => 5
  | .run => 6
  | .helm => 7
  | .ride => 8
  | .vault => 9

/-- CFG_STATE. -/
def cfgStateWord (s : State) : Nat :=
  packFields [(s.cfg.seq, 24), (0, 1), (b2n s.cfg.held, 1), (s.cfg.copy, 2), (b2n s.cfg.hwait, 1),
    (b2n s.cfg.hnoalt, 1), (0, 2), (phaseCode s.cfg.phase, 4)]

/-- The count of CFG_PCC, valid from LOAD (R56). -/
def cfgPccWord (s : State) : Nat := match s.cfg.phase with
  | .dark | .charge | .probe => 0
  | _ => s.nv.pcc % 2 ^ 36

/-- CFG_TILESd. DEDUCED: log entry 30. -/
def cfgTilesWord (s : State) (d : Nat) : Nat :=
  let st := (List.range 13).map fun p => (mget 0 s.cfg.tileSt (13 * d + p), 2)
  let on := ((List.range 13).filter fun p => (logicalOf s (13 * d + p)).isSome).length
  packFields (st ++ [(on, 4)])

/-- The CFG window (chapter 03). DEDUCED: log entry 48. -/
def cfgRegs (s : State) : List (Nat × Nat × Nat × (Nat → RegView)) :=
  let own := blockSec s Unit.cfg
  let c := s.cfg
  [atOff 0 (roReg [(cfgStateWord s, 36)]),
   atOff 4 (roReg [(cfgPccWord s, 36)]),
   (0o10, 4, 4, fun d => roReg [(cfgTilesWord s d, 36)]),
   atOff 0o30 (roReg [(availMask s, 36)]),
   atOff 0o34 (roReg [(availMask s / 2 ^ 36, 12)]),
   atOff 0o40 { writeBy := some own
                value := packFields [(0, 4), (c.nalt, 4), (c.cur, 3), (b2n c.noAlt, 1), (if c.pend then c.palt else 0, 3), (b2n c.pend, 1)]
                put := altWrite },
   atOff 0o44 (woOwned own updCtlWrite),
   atOff 0o50 (roOwned own [(c.updRes, 4), (0, 31), (b2n c.updBusy, 1)]),
   (0o100, 4, 16, fun i => { readBy := some own, writeBy := some own
                             value := packFields ((List.range 4).map fun k => (mget 0 c.updBuf (4 * i + k), 9))
                             put := fun rq v s => updBufWrite rq i v s })]

/-- ISL_TILE_STATt. -/
def tileStatWord (s : State) (t : Nat) : Nat :=
  let x := tileIsl s t
  let tj := ((physOf s t).map (tjOf s)).getD 0
  let doze := ((List.range 8).map fun c => if (coreAt s (8 * t + c)).dozing then 2 ^ c else 0).sum
  let ps := match x.state with
    | .run => 0
    | .nap => 1
    | .darkKeep => 2
    | .darkLose => 3
  packFields [(limBits s t, 6), (0, 2), (x.step, 4), (x.ceil, 4), (b2n (x.pend != 0), 1), (ps, 3), (doze, 8), (tj, 8)]

/-- The ISL window (chapter 04). -/
def islRegs (s : State) : List (Nat × Nat × Nat × (Nat → RegView)) :=
  [(0, 4, 48, fun t => { writeBy := some (tileSec s t)
                         value := packFields [((tileIsl s t).req, 4), ((tileIsl s t).pstate, 3)]
                         put := fun rq v s => tileCtlWrite rq t v s }),
   (0o400, 4, 48, fun t => roReg [(tileStatWord s t, 36)]),
   atOff 0o1000 { wide := true, value := s.isl.chron % 2 ^ 72 }]

/-- The WLD window (chapter 09). -/
def wldRegs (s : State) : List (Nat × Nat × Nat × (Nat → RegView)) :=
  let w := s.wld
  [atOff 0 (roReg [(b2n w.locked, 1)]),
   atOff 4 (roReg [(w.dwm, 20)]),
   atOff 0o10 (roReg [(w.hwm, 13)]),
   atOff 0o14 (roReg [(w.kwm, 17)]),
   atOff 0o20 (roReg [(w.iwm, 19)]),
   atOff 0o24 (roReg [(w.blocks.toNat, 16)]),
   atOff 0o30 (roReg [(w.quads.toNat, 24)]),
   atOff 0o34 (roReg [(w.tiles.toNat, 36)]),
   atOff 0o40 (roReg [(w.tiles.toNat / 2 ^ 36, 12)]),
   atOff 0o44 { writeBy := some true, value := packFields [(w.own, 18), (w.acc, 18)]
                put := fun rq v s => ownedWrite Unit.wld 0o44 true rq v
                  (fun s => { s with wld := { s.wld with own := field v 0 18, acc := field v 18 18 } }) s },
   (0o100, 4, 48, fun t => roReg [(mget 0 w.twm t, 9)])]

/-- The world that alone reaches the registers of a source: the secure one, below IRQ_WM. -/
def srcRule (s : State) (i : Nat) : Option Bool := if srcSecure s i then some true else none

/-- The window offset of IVC_SSTATs. -/
def sstatOffset (i : Nat) : Nat := 0o20000000 + 4 * i

/-- A write of IVC_SSTATs: UNR and OVF by W1C. -/
def sstatWrite (rq : Req) (i v : Nat) (s : State) : State :=
  let act := setSrc i (fun q => { q with unr := q.unr && !bitOf v 19, ovf := q.ovf && !bitOf v 18 })
  if srcSecure s i then ownedWrite Unit.ivc (sstatOffset i) true rq v act s else act s

/-- The IVC window (chapter 10). -/
def ivcRegs (s : State) : List (Nat × Nat × Nat × (Nat → RegView)) :=
  [atOff 0 { put := ringWrite },
   (0o10000000, 8, 262144, fun i =>
     let r := routeAt s i
     { wide := true, readBy := srcRule s i, writeBy := srcRule s i
       value := packFields [(r.tile, 6), (r.core, 3), (r.level, 4), (r.vec, 9), (b2n r.routed, 1), (b2n r.en, 1),
         (r.ccount, 8), (r.ctime, 16)]
       put := fun rq v s => routeWrite rq i v s }),
   (0o20000000, 4, 262144, fun i =>
     let q := srcAt s i
     { readBy := srcRule s i, writeBy := srcRule s i
       value := packFields [(q.cnt, 8), (q.nfired, 8), (b2n q.fired, 1), (b2n q.timer, 1), (b2n q.ovf, 1), (b2n q.unr, 1)]
       put := fun rq v s => sstatWrite rq i v s })]

/-- The world that alone reaches the registers of a queue: the secure one for a secure queue. DEDUCED: log entry 30.
-/
def queueRule (s : State) (q : Nat) : Option Bool := if queueSec s q then some true else none

/-- A ditch is secure when its queues are (R272). DEDUCED: log entry 30. -/
def ditchSec (s : State) (d : Nat) : Bool := (ditchAt s d).nq != 0 && queueSec s (ditchAt s d).qfirst

/-- The window offset of SLC_DSTATd. -/
def dstatOffset (d : Nat) : Nat := 0o70000000 + 4 * d

/-- A write of SLC_DSTATd sets its counts. -/
def dstatWrite (rq : Req) (d v : Nat) (s : State) : State :=
  let act := setDitch d (fun t => { t with don := field v 0 12, own := field v 12 12 })
  if ditchSec s d then ownedWrite Unit.slc (dstatOffset d) true rq v act s else act s

/-- The SLC window (chapter 11). -/
def slcRegs (s : State) : List (Nat × Nat × Nat × (Nat → RegView)) :=
  let c := s.slc
  [atOff 0 (roReg [(c.slot, 16), (0, 15), (if c.mode = 1 then s.cfg.cur else 0, 3), (c.mode, 2)]),
   atOff 4 (roReg [(c.tide, 36)]),
   atOff 0o10 (roReg [(c.idle, 17), (c.don, 17)]),
   (0o1000, 4, 255, fun r => roReg [(mget 0 c.rptr r, 4)]),
   (0o10000000, 4, 1048576, fun q => { writeBy := queueRule s q, readBy := queueRule s q
                                       put := fun rq v s => postWrite rq q v s }),
   (0o30000000, 4, 1048576, fun q => { writeBy := queueRule s q, readBy := queueRule s q
                                       value := packFields [((qst s q).rcount, 17), ((qst s q).dcount, 17)]
                                       put := fun rq v s => releaseWrite rq q v s }),
   (0o50000000, 4, 1048576, fun q =>
     { writeBy := queueRule s q, readBy := queueRule s q
       value := packFields [((qst s q).head, 17), ((qst s q).tail, 17), (b2n (qst s q).busy, 1), (b2n (qst s q).stop, 1)]
       put := fun rq v s => stopWrite rq q v s }),
   (0o70000000, 4, 16384, fun d =>
     let k := ditchAt s d
     let rule := if ditchSec s d then some true else none
     { writeBy := rule, readBy := rule, value := packFields [(k.don, 12), (k.own, 12), (k.last, 12)]
       put := fun rq v s => dstatWrite rq d v s })]

/-- A write of CUL_KBUFi: the writer's own copy (R306). -/
def kbufWrite (rq : Req) (i v : Nat) (s : State) : State :=
  let os := joinUnits 8 ((List.range 4).map fun k => field v (9 * k) 8)
  setKeyBuf rq.sec (BitVec.ofNat 512 (setField (keyBuf s rq.sec).toNat (32 * i) 32 os)) s

/-- CUL_STATc. -/
def culStatWord (s : State) (c : Nat) : Nat :=
  let k := culAt s c
  let waits := match k.held with
    | [] => false
    | h :: _ => h.full
  packFields [(0, 27), (k.lstat, 6), (b2n waits, 1), (nheld s c, 2)]

/-- The CUL window (chapter 12), as a world sees it. -/
def culRegs (s : State) (sec : Bool) : List (Nat × Nat × Nat × (Nat → RegView)) :=
  [(0, 4, 32, fun c => roReg [(culStatWord s c, 36)]),
   (0o200, 4, 32, fun c => { put := fun rq v s => abortWrite rq c v s }),
   (0o400, 4, 32, fun c => roReg [(if sec then (culAt s c).astatS else (culAt s c).astatN, 2)]),
   (0o1000, 4, 16, fun i => { put := fun rq v s => kbufWrite rq i v s }),
   atOff 0o1100 { put := kcmdWrite }]

/-- The CHT window (chapter 13). DEDUCED: log entry 39. -/
def chtRegs (s : State) : List (Nat × Nat × Nat × (Nat → RegView)) :=
  let c := s.cht
  [atOff 0 (roReg [(0, 19), (b2n c.plane, 1), (c.epoch, 16)]),
   atOff 4 (roOwned true [(c.usedS, 26)]),
   atOff 0o10 (roReg [(c.usedN, 26)]),
   atOff 0o14 (roOwned true [(stashUsed s true, 11)]),
   atOff 0o20 (roReg [(stashUsed s false, 11)])] ++
  (List.range 8).map (fun i => (0o10000 + 4 * i, 64, 32, fun ch =>
    { readBy := some (chanSec s ch), writeBy := some (chanSec s ch), value := mget 0 (chanAt s ch).buf i
      put := fun rq v s => bufWrite rq ch i v s })) ++
  [(0o10040, 64, 32, fun ch => { readBy := some (chanSec s ch), writeBy := some (chanSec s ch)
                                 put := fun rq v s => cmdWrite rq ch v s }),
   (0o10044, 64, 32, fun ch =>
     let k := chanAt s ch
     { roOwned (chanSec s ch) [(k.pos, 26), (0, 3), (b2n k.hp, 1), (b2n k.hc, 1), (k.code, 4), (b2n k.busy, 1)] with
       writeBy := some (chanSec s ch) })]

/-- VIF_VSTATv. -/
def vstatWord (s : State) (v : Nat) : Nat :=
  let x := viAt s v
  packFields [(viState s v, 2), (b2n x.bme, 1), (b2n x.lost, 1), (0, 20), (x.spost, 16), (x.sack, 16), (x.flrgen, 16)]

/-- The window offset of VIF_VCOALv_n, by 64 × VI + vector. -/
def vcoalOffset (j : Nat) : Nat := 0o2000000 + 4 * j

/-- A write of VIF_VCOALv_n; CCOUNT 0 follows R5. -/
def vcoalWrite (rq : Req) (j v : Nat) (s : State) : State :=
  vifWrite (vcoalOffset j) rq v (fun s =>
    let cc := field v 8 8
    let s := if cc = 0 then vifBadValue (vcoalOffset j) rq v s else s
    vecFireIf (j / 64) (j % 64) (setVec (j / 64) (j % 64) (fun e => { e with
      ctime := field v 16 16, ccount := if cc = 0 then e.ccount else cc }) s)) s

/-- The VIF window (chapter 14). -/
def vifRegs (s : State) : List (Nat × Nat × Nat × (Nat → RegView)) :=
  let own := some (blockSec s Unit.vif)
  let wo := fun (put : Req → Nat → State → State) => ({ readBy := own, writeBy := own, put := put } : RegView)
  [atOff 0 (wo msixWrite), atOff 4 (wo rdoneWrite), atOff 0o10 (wo sackWrite), atOff 0o14 (wo epostWrite),
   (0o1000, 8, 4096, fun v => { wide := true, readBy := own, writeBy := own, value := vstatWord s v }),
   (0o1000000, 4, 32768, fun j =>
     { readBy := own, writeBy := own, value := field (viAt s (j / 8)).dbpend (32 * (j % 8)) 32
       onRead := fun peek s =>
         if peek then s else setVi (j / 8) (fun x => { x with dbpend := setField x.dbpend (32 * (j % 8)) 32 0 }) s }),
   (0o2000000, 4, 262144, fun j =>
     let e := vecAt s (j / 64) (j % 64)
     { readBy := own, writeBy := own, value := packFields [(e.cnt, 8), (e.ccount, 8), (e.ctime, 16)]
       put := fun rq v s => vcoalWrite rq j v s }),
   (0o10000000, 4, 1048576, fun j => { readBy := own, writeBy := own, value := mget 0 (viAt s (j / 256)).dbval (j % 256) })]

/-- QROLE of a quad (R356), fixed at LOCK. DEDUCED: log entry 30. -/
def quadRole (s : State) (q : Nat) : Nat := if s.wld.locked then sec s 4 q 1 else 0

/-- The clock code of a quad (R358): dark without a role or when switched off. DEDUCED: log entry 30. -/
def quadClock (s : State) (q : Nat) : Nat :=
  if quadGone s q then 0
  else
    match quadRole s q with
    | 1 => match (List.range 8).find? fun g => (groupQuads s g).contains q with
      | some g => if maxGen s g = 7 then 2 else 1
      | none => 0
    | 2 => match (List.range 64).find? fun p => (portQuads s p).contains q with
      | some p => if portRate s p = 2 then 2 else 1
      | none => 0
    | _ => 0

/-- A write of PRT_RXERRp sets its counts. -/
def rxerrWrite (rq : Req) (p v : Nat) (s : State) : State :=
  ownedWrite Unit.prt (0o2000 + 4 * p) (quadSec s (portQuad s p)) rq v
    (setPort p fun x => { x with hdisc := field v 0 12, ovrun := field v 12 12, fcs := field v 24 12 }) s

/-- The PRT window (chapter 15). -/
def prtRegs (s : State) : List (Nat × Nat × Nat × (Nat → RegView)) :=
  [(0, 4, 24, fun q => roReg [((quadAt s q).los.toNat, 4), ((quadAt s q).lock.toNat, 4), (0, 24), (quadClock s q, 2),
      (quadRole s q, 2)]),
   (0o200, 4, 8, fun g => roReg [(0, 26), (b2n (groupAt s g).noflit, 1), (b2n (!perstHigh s g), 1),
      ((groupAt s g).rate, 4), ((groupAt s g).width, 4)]),
   (0o1000, 4, 64, fun p => roReg [(occupancy s p, 14), (0, 12), ((portAt s p).paused.toNat, 8), (b2n (portAt s p).xoff, 1),
      (b2n (portAt s p).up, 1)]),
   (0o2000, 4, 64, fun p =>
     let own := quadSec s (portQuad s p)
     { readBy := some own, writeBy := some own
       value := packFields [((portAt s p).hdisc, 12), ((portAt s p).ovrun, 12), ((portAt s p).fcs, 12)]
       put := fun rq v s => rxerrWrite rq p v s })]

/-- A register of the DRC block that both worlds read and its owner writes. -/
def drcRw (s : State) (off : Nat) (fields : List (Nat × Nat)) (act : Nat → State → State) : RegView :=
  { writeBy := some (blockSec s Unit.drc), value := packFields fields
    put := fun rq v s => drcWrite off rq v (act v) s }

/-- The DRC window (chapter 16). -/
def drcRegs (s : State) : List (Nat × Nat × Nat × (Nat → RegView)) :=
  let own := blockSec s Unit.drc
  let d := s.drc
  [(0, 4, 16, fun c => drcRw s (4 * c) [(chstatWord s c, 36)]
      (fun v => setChanSt c fun x => { x with rskip := field v 0 8 })),
   atOff drcFreqOff { writeBy := some own, put := freqWrite
                      value := packFields [(0, 27), (d.unus.toNat, 4), (drcNshadow s, 2), (d.cur, 2), (b2n d.busy, 1)] },
   atOff drcDevfailOff (woOwned own devfailWrite),
   atOff drcSrctlOff (woOwned own srctlWrite),
   (0o1000, 4, 32, fun u => drcRw s (0o1000 + 4 * u) [((subAt s u).unc, 18), ((subAt s u).corr, 18)]
      (fun v => setSub u fun x => { x with unc := field v 0 18, corr := field v 18 18 }))] ++
  (List.range 10).map (fun k => (0o4000 + 4 * k, 64, 32, fun u =>
    drcRw s (0o4000 + 64 * u + 4 * k) [(mget 0 (subAt s u).devs k, 12)]
      (fun v => setSub u fun x => { x with devs := mset 0 x.devs k (field v 0 12) }))) ++
  [(0o10000, 4, 32, fun u => roReg [((failedDev s u).getD 0, 4), (b2n (failedDev s u).isSome, 1)])]

/-- The LGB window (chapter 17). -/
def lgbRegs (s : State) : List (Nat × Nat × Nat × (Nat → RegView)) :=
  let own := blockSec s Unit.lgb
  [atOff 0 { wide := true, readBy := some own, value := s.nv.total % 2 ^ 72 },
   atOff 0o10 (roOwned own [(s.nv.opsec, 36)]),
   atOff 0o20 { wide := true, readBy := some own, writeBy := some own, value := s.lgb.own.idx % 2 ^ 72, put := ridxWrite },
   atOff 0o30 (roOwned own [(s.lgb.own.rstat, 2)]),
   (0o40, 4, 8, fun i => roOwned own [((s.lgb.own.words.getD i 0).toNat, 36)]),
   atOff 0o100 (rwOwned Unit.lgb 0o100 own [(s.hlt.lost, 36)]
     (fun v s => { s with hlt := { s.hlt with lost := v % 2 ^ 36 } }))]

/-- The WKT window (chapter 17). -/
def wktRegs (s : State) : List (Nat × Nat × Nat × (Nat → RegView)) :=
  [(0, 4, 48, fun t => roOwned (tileSec s t) [((tileAt s t).wptr, 36)]),
   (0o400, 4, 48, fun t => { readBy := some (tileSec s t), writeBy := some (tileSec s t), value := (tileAt s t).rdptr
                             put := fun rq v s => rdptrWrite rq t v s })]

/-- The bits of DBG_CCTLi that are not reserved: KIND, LINKEN and LINK exist for data comparators, RANGE for even ones. -/
def cctlMask (i v : Nat) : Nat :=
  let v := v % 2 ^ 33
  let v := if i < 8 then v % 2 ^ 27 else v
  if i % 2 = 0 then v else setField v 5 1 0

/-- A write of DBG_CCTLi: WMATCH or MMATCH b11 follows R5. -/
def cctlWrite (rq : Req) (core i v : Nat) (s : State) : State :=
  let off := 0o100000 + core * 0o400 + 0o110 + 0o20 * i
  ownedWrite Unit.dbg off (tileSec s (core / 8)) rq v (fun s =>
    let old := ((coreAt s core).comp i).ctl.toNat
    let bad := field v 6 2 == 3 || field v 8 2 == 3
    let s := reportIf bad (regRefused Unit.dbg off rq .value (v % 2 ^ 36)) s
    let n := cctlMask i v
    let n := if field v 6 2 = 3 then setField n 6 2 (field old 6 2) else n
    let n := if field v 8 2 = 3 then setField n 8 2 (field old 8 2) else n
    setCore core (fun k => { k with comps := mmod {} k.comps i fun c => { c with ctl := BitVec.ofNat 36 n } }) s) s

/-- The per-core registers of the DBG window, at their per-core offset (chapter 18). DEDUCED: log entry 28. -/
def dbgCoreRegs (s : State) (core : Nat) : List (Nat × Nat × Nat × (Nat → RegView)) :=
  let k := coreAt s core
  let own := tileSec s (core / 8)
  let base := 0o100000 + core * 0o400
  [atOff 0 { readBy := some own, writeBy := some own, value := packFields [(0, 3), (b2n k.brkH, 1), (b2n k.maskI, 1)]
             put := fun rq v s => runWrite rq core v s },
   atOff 4 (roOwned own [(hstatWord s core, 36)]),
   atOff 0o10 (rwOwned Unit.dbg (base + 0o10) own [(k.hin, 8), (k.rin, 8), (k.hout, 8)]
     (fun v => setCore core fun k => { k with hin := field v 0 8, rin := field v 8 8, hout := field v 16 8 })),
   (0o100, 0o20, 12, fun i =>
     { wide := true, readBy := some own, writeBy := some own, value := (k.comp i).addr.toNat
       put := fun rq v s => ownedWrite Unit.dbg (base + 0o100 + 0o20 * i) own rq v
         (setCore core fun k => { k with comps := mmod {} k.comps i fun c => { c with addr := BitVec.ofNat 72 (v % 2 ^ 48) } }) s }),
   (0o110, 0o20, 12, fun i =>
     { readBy := some own, writeBy := some own, value := (k.comp i).ctl.toNat
       put := fun rq v s => cctlWrite rq core i v s })]

/-- DBG_POLICY. -/
def policyWord (s : State) : Nat :=
  packFields [(b2n (spolOpen s), 1), (secX s 14 1 1 0, 1), (b2n (portEnabled s), 1)]

/-- The hub's own registers of the DBG window. -/
def dbgRegs (s : State) : List (Nat × Nat × Nat × (Nat → RegView)) :=
  let own := blockSec s Unit.dbg
  [atOff 0 (rwOwned Unit.dbg 0 own [(s.dbu.inch, 8), (s.dbu.outch, 8)]
     (fun v s => { s with dbu := { s.dbu with inch := field v 0 8, outch := field v 8 8 } })),
   atOff 4 { readBy := some own, writeBy := some own, put := xpulseWrite },
   atOff 0o10 (roReg [(policyWord s, 36)])]

/-- HLT_REPL: its cause bits, and REPLACE_REQ as it stands at the pin (R464). -/
def replWord (s : State) : Nat := packFields [(s.hlt.repl.toNat, 7), (b2n (replaceReq s), 1)]

/-- The HLT window (chapter 19). -/
def hltRegs (s : State) : List (Nat × Nat × Nat × (Nat → RegView)) :=
  let own := blockSec s Unit.hlt
  (List.range 5).map (fun c => (4 * c, 32, 17, fun u =>
    rwOwned Unit.hlt (32 * u + 4 * c) own [(mget 0 s.hlt.cnt (8 * u + c), 36)]
      (fun v s => setCount u c (v % 2 ^ 36) s))) ++
  [atOff 0o2000 (roReg [(replWord s, 36)]),
   (0o2004, 4, 3, fun w => roOwned own [(sigLost s w, 18)])]

/-- A register of the TILE window that its owner reads and writes. -/
def tileRw (s : State) (t off : Nat) (fields : List (Nat × Nat)) (act : Nat → State → State) : RegView :=
  rwOwned (16 + t) off (tileSec s t) fields act

/-- The registers of cores in a TILE window (chapters 06, 07, 08, 10). -/
def tileCoreRegs (s : State) (t : Nat) : List (Nat × Nat × Nat × (Nat → RegView)) :=
  let own := tileSec s t
  let k := fun c => coreAt s (8 * t + c)
  [(0o700000, 4, 8, fun c => tileRw s t (0o700000 + 4 * c) [((k c).flags.toNat, 16), ((k c).ovr.toNat, 16)]
      (fun v => setCore (8 * t + c) fun k => { k with
        flags := k.flags &&& ~~~(BitVec.ofNat 16 v), ovr := k.ovr &&& ~~~(BitVec.ofNat 16 (v / 65536)) })),
   (0o700040, 4, 8, fun c => woOwned own fun rq v s =>
      ownedWrite (16 + t) (0o700040 + 4 * c) own rq v
        (fun s => (List.range 16).foldl (fun s f => if bitOf v f then setArrival (8 * t + c) f true s else s) s) s),
   (0o700100, 4, 8, fun c => tileRw s t (0o700100 + 4 * c) [((k c).drcnt, 18), ((k c).lccnt, 18)]
      (fun v => setCore (8 * t + c) fun k => { k with drcnt := field v 0 18, lccnt := field v 18 18 })),
   (0o700140, 4, 8, fun c => tileRw s t (0o700140 + 4 * c)
      [((k c).dmax, 16), (0, 9), (b2n (k c).lastKind, 1), ((k c).lastLose, 2), ((k c).lastWin, 2), ((k c).lastReg, 6)]
      (fun v => setCore (8 * t + c) fun k => { k with dmax := field v 0 16 })),
   (0o700200, 4, 8, fun c => tileRw s t (0o700200 + 4 * c) [((k c).crcPoly, 32)]
      (fun v => setCore (8 * t + c) fun k => { k with crcPoly := field v 0 32 })),
   (0o701000, 4, 8, fun c => tileRw s t (0o701000 + 4 * c) [((k c).vhit, 12), ((k c).pclean, 12), ((k c).ldrop, 12)]
      (fun v => setCore (8 * t + c) fun k => { k with vhit := field v 0 12, pclean := field v 12 12, ldrop := field v 24 12 })),
   (0o702000, 4, 8, fun c => { readBy := some own, writeBy := some own
                               value := packFields [((k c).wd.period, 20), (b2n (k c).wd.en, 1)]
                               put := fun rq v s => ownedWrite (16 + t) (0o702000 + 4 * c) own rq v
                                 (writeWdctl rq (8 * t + c) v) s }),
   (0o702040, 4, 8, fun c => roReg [(wdRemain s (8 * t + c), 20), (0, 14), ((k c).wd.state, 2)]),
   (0o702100, 4, 8, fun c => woOwned own fun rq v s =>
      ownedWrite (16 + t) (0o702100 + 4 * c) own rq v (kickWatchdog (8 * t + c) v) s)]

/-- A TILE window. DEDUCED: log entry 28. -/
def tileRegs (s : State) (t : Nat) : List (Nat × Nat × Nat × (Nat → RegView)) :=
  let own := tileSec s t
  let x := tileAt s t
  let z := tileAt (wakeSettle t s) t
  tileCoreRegs s t ++
  [atOff 0o701040 (tileRw s t 0o701040 [(x.unc, 18), (x.corr, 18)]
     (fun v => setTile t fun x => { x with unc := field v 0 18, corr := field v 18 18 })),
   atOff 0o703000 { readBy := some own, writeBy := some own
                    value := packFields [(x.cen.toNat, 8), (x.syncper, 4), (b2n x.bmode, 1), (b2n (streaming s t), 1)]
                    put := fun rq v s => wctlWrite rq t v s },
   atOff 0o703004 { readBy := some own, writeBy := some own
                    value := packFields [(z.lossw, 18), (z.widx, 13), (0, 2), (b2n z.perr, 1), (b2n z.wrapped, 1), (b2n z.full, 1)]
                    onRead := fun _ s => wakeSettle t s
                    put := fun rq v s => wstatWrite rq t v s },
   atOff 0o703010 (tileRw s t 0o703010 [(x.ridx, 13)] (fun v => setTile t fun x => { x with ridx := field v 0 13 })),
   atOff 0o703014 { readBy := some own, value := (readWdata t (wakeSettle t s)).2
                    onRead := fun _ s => (readWdata t (wakeSettle t s)).1 }]

/-- The register at an offset of a unit window, as a world sees it: none where the unit defines none (R11, R16). -/
def regView (s : State) (sec : Bool) (win off : Nat) : Option RegView :=
  match win with
  | 0 => firstRow off (hubRegs s)
  | 1 => firstRow off (pwrRegs s)
  | 2 => firstRow off (cfgRegs s)
  | 3 => firstRow off (islRegs s)
  | 4 => firstRow off (wldRegs s)
  | 5 => firstRow off (ivcRegs s)
  | 6 => firstRow off (slcRegs s)
  | 7 => firstRow off (culRegs s sec)
  | 8 => firstRow off (chtRegs s)
  | 9 => firstRow off (vifRegs s)
  | 10 => firstRow off (prtRegs s)
  | 11 => firstRow off (drcRegs s)
  | 12 => firstRow off (lgbRegs s)
  | 13 => firstRow off (wktRegs s)
  | 14 =>
    if off < 0o100000 then firstRow off (dbgRegs s)
    else if (off - 0o100000) / 0o400 < 384 then
      firstRow ((off - 0o100000) % 0o400) (dbgCoreRegs s ((off - 0o100000) / 0o400))
    else none
  | 15 => firstRow off (hltRegs s)
  | t + 16 => firstRow off (tileRegs s t)

/-- How an access of a register ended: performed, not a register, the other world's, or of the wrong size. -/
inductive RegEnd
  | done | unmapped | owner | size
  deriving DecidableEq, Repr

/-- ADDR_UNMAPPED made by the unit whose window holds the offset (R16). DEDUCED: log entry 30. DESIGN CHOICE: log entry 62. -/
def windowUnmapped (win off : Nat) (rq : Req) (write : Bool) : Report :=
  mkReport (winUnit win) Cls.reported Code.addrUnmapped (winInst win)
    (r17Fields (2 ^ 44 + win * 2 ^ 24 + off) rq write)

/-- The world rule of a register (R237): the SMBus target is no world's (R412). DEDUCED: log entry 44. -/
def worldRule (rule : Option Bool) (rq : Req) : Bool := match rule with
  | none => true
  | some w => mayWrite rq w

/-- The bits of a register. -/
def RegView.bits (r : RegView) : Nat := if r.wide then 72 else 36

/-- A read of `n` bits at an offset of a window (R4, R7, R16, R237); `peek` applies no consumption (R438). DEDUCED:
log entry 29. -/
def readReg (rq : Req) (peek : Bool) (win off n : Nat) (s : State) : State × Nat × RegEnd :=
  match regView s rq.sec win off with
  | none => (report (windowUnmapped win off rq false) s, 0, .unmapped)
  | some r =>
    if !worldRule r.readBy rq then (report (ownerRefused win off rq true 0) s, 0, .owner)
    else if n ≠ r.bits then (report (regRefused win off rq .size 0) s, 0, .size)
    else (r.onRead peek s, r.value, .done)

/-- A write of `n` bits at an offset of a window (R4, R5, R7, R16, R237). DEDUCED: log entry 29. -/
def writeReg (rq : Req) (win off n value : Nat) (s : State) : State × RegEnd :=
  match regView s rq.sec win off with
  | none => (report (windowUnmapped win off rq true) s, .unmapped)
  | some r =>
    if !worldRule r.writeBy rq then (report (ownerRefused win off rq false value) s, .owner)
    else if n ≠ r.bits then (report (regRefused win off rq .size value) s, .size)
    else (r.put rq value s, .done)

end Sys2Proof.Machine
end

