-- ==== Sys2Proof/Machine/Fill.lean ====
section
/-! DEFINITION. Fill.lean: the completion of misses: line fills and uncached accesses (R149–R152, R207, R216, R226, R270),
and the direct accesses of memory and control space that every requester shares. -/

namespace Sys2Proof.Machine

/-- How a register access ends for its requester. -/
def RegEnd.access (e : RegEnd) : AccessEnd := match e with
  | .done => .done
  | .size => .size
  | _ => .refused

/-- The bits of an access as its size and view give them, or the side field (R111, R114). -/
def accessWidth (n : Nat) (oct side : Bool) : Nat := if side then 64 else if oct then 8 * n else 9 * n

/-- A direct read of `n` units at a physical address (R111): memory or a register. -/
def physRead (rq : Req) (peek : Bool) (a n : Nat) (oct side : Bool) (s : State) : State × Nat × AccessEnd :=
  let (lo, w) := accessBits a n oct side
  match targetOf s a with
  | .control win off =>
    let (s, v, e) := readReg rq peek win off (accessWidth n oct side) s
    (s, v, e.access)
  | .unmapped => (report (addrUnmapped a rq false) s, 0, .refused)
  | _ => memRead rq a lo w s

/-- A direct write of `n` units at a physical address. -/
def physWrite (rq : Req) (a n : Nat) (oct side : Bool) (v : Nat) (s : State) : State × AccessEnd :=
  let (lo, w) := accessBits a n oct side
  match targetOf s a with
  | .control win off =>
    let (s, e) := writeReg rq win off (accessWidth n oct side) v s
    (s, e.access)
  | .unmapped => (report (addrUnmapped a rq true) s, .refused)
  | _ => memWrite rq a lo w v s

/-- A direct access of the debug master waits for its DRAM channel, for room in its queue, for its turn or for its merge read
(R383, R384, R397, R399). -/
def physHeld (s : State) (wr : Bool) (a : Nat) : Bool :=
  decide (a < 2 ^ 40) && if wr then !writeTakes s .debug (a / 64) 0 else !lineReady s .debug (a / 64)

/-- An access of the debug master that waits asks for its read. -/
def physAsk (rq : Req) (wr : Bool) (a : Nat) (s : State) : State :=
  if wr then askWrite .debug rq (a / 64) 0 s else askRead .debug false rq (a / 64) s

/-- The accesses of an uncached miss to control space are performed, in the order in which its tile issued them (R149, R150);
answers the value of a load. -/
def controlAccess (i : Nat) (m : Miss) (s : State) : State × Nat :=
  m.accs.foldl (fun (p : State × Nat) x =>
    let rq : Req := ⟨BitVec.ofNat 9 i, m.sec⟩
    if x.store then ((physWrite rq m.addr m.size m.oct m.side x.val p.1).1, p.2)
    else
      let (s, v, _) := physRead rq false m.addr m.size m.oct m.side p.1
      (s, v)) (s, 0)

/-- One access of an uncached miss completes with the answer that came: a load lands (R149, R150). -/
def uncachedAccess (i : Nat) (v : Nat) (x : MissAcc) (s : State) : State :=
  if x.store then s else deliver i x.landing (extendLoad x.ext x.width v) s

/-- The core has stored to a line, past its caches, after a write-back of it was sent and before a miss (R115). -/
def storedBetween (s : State) (i : Nat) (e : EvLine) (m : Miss) : Bool :=
  (coreAt s i).misses.any fun x => x.kind == .uncached && x.addr / 64 == e.line && decide (e.order < x.order) &&
    decide (x.order < m.order) && x.accs.any fun a => a.store

/-- Where a fill's line comes from (R216): a sibling's copy, the newest write-back that has still to cross, or the line that
the crossbar brought, which holds what has crossed before (R12, R115). Answers the bits and whether they carry the
uncorrectable mark; none while there is no such line. DEDUCED: log entry 50. -/
def fillSource (i : Nat) (m : Miss) (s : State) : State × Option (Nat × Bool) :=
  let (s, c) := fromSiblings i (m.addr / 64) s
  let brought := if replyReady s i m.id then m.got else none
  match c with
  | some b => (s, some (b, false))
  | none =>
    match newestBack s i (m.addr / 64) with
    | some (_, e) => (s, if e.crossed || storedBetween s i e m then brought else some (e.bits, false))
    | none => (s, brought)

/-- A filled line while its waiting accesses are served: the bits, whether they are dirty and by which world, whether the
line stays, whether it goes to a locked frame, and whether a store has entered it. -/
structure Filling where
  bits  : Nat
  dirty : Bool := false
  sec   : Bool := false
  stays : Bool := true
  lock  : Bool := false
  store : Bool := false
  mine  : List (Nat × Nat × Nat) := []
  deriving DecidableEq, Repr

/-- The stores of the tile's other cores that wait for the same line and issued before a load, in issue order: it reads them
(R148). -/
def waitingStores (s : State) (i line : Nat) (a : MissAcc) : List (Nat × Nat × Nat) :=
  let xs := (siblings i).flatMap fun j => ((missOn (coreAt s j) line).toList.flatMap fun x => x.accs).filter fun x =>
    x.store && decide (x.seq < a.seq)
  (sortBy (fun (x : MissAcc) => x.seq) xs).map fun x => (x.lo, x.width, x.val)

/-- The bits as a waiting load reads them (R148): without the stores of other cores that issued after it, with those that
issued before it and still wait, and with its own core's. -/
def Filling.asOf (f : Filling) (a : MissAcc) (waiting : List (Nat × Nat × Nat)) : Nat :=
  (a.olds ++ waiting ++ f.mine).foldl (fun b p => setField b p.1 p.2.1 p.2.2) f.bits

/-- One waiting access or cache operation is served from the line (R150, R151, R212); `base` is the line as it came. -/
def serveAcc (i : Nat) (m : Miss) (base : Nat) (a : MissAcc) (f : Filling) (s : State) : Filling × State :=
  let line := m.addr / 64
  match a.op with
  | some .clean =>
    ({ f with dirty := false }, if f.dirty then startWriteBack i line f.bits f.sec false false s else s)
  | some .flush =>
    ({ f with dirty := false, stays := false }, if f.dirty then startWriteBack i line f.bits f.sec false false s else s)
  | some .discard => ({ f with bits := base, dirty := false, stays := false, mine := [] }, s)
  | some .fill => ({ f with stays := true, lock := true }, s)
  | none =>
    if a.store then
      ({ f with
        bits := setField f.bits a.lo a.width a.val, dirty := true, sec := a.sec, stays := true, store := true
        mine := f.mine ++ [(a.lo, a.width, a.val)] },
        keepOlds i line (fun x => decide (x.seq < a.seq))
          (a.lo, a.width, field (seenBits (coreAt s i) line f.bits) a.lo a.width) s)
    else
      ({ f with stays := true },
        deliver i a.landing (extendLoad a.ext a.width (field (f.asOf a (waitingStores s i line a)) a.lo a.width)) s)

/-- The waiting accesses are served in issue order. -/
def serveAccs (i : Nat) (m : Miss) (base : Nat) : List MissAcc → Filling → State → Filling × State
  | [], f, s => (f, s)
  | a :: rest, f, s =>
    let (f, s) := serveAcc i m base a f s
    serveAccs i m base rest f s

/-- Loads that wait for a line which the controller marks uncorrectable land zero; its stores have no line to enter
(R226). DEDUCED: log entry 50. -/
def serveBad (i : Nat) (xs : List MissAcc) (s : State) : State :=
  xs.foldl (fun s x => if x.store ∨ x.op ≠ none then s else deliver i x.landing 0 s) s

/-- The locked frame that a fill refills after a parity error (R221), while it is empty and locked. DEDUCED: log entry
50. -/
def relockFrame (k : Core) (line : Nat) : Option Nat :=
  match mget 0 k.relock line with
  | 0 => none
  | f + 1 => if wayMode k.dway (f % 8) = 1 ∧ (mget none k.dcache f).isNone then some f else none

/-- The frame of a locked fill: the lowest empty locked frame of the set for DFILLK (R212). -/
def lockedFrame (k : Core) (lock : Bool) (line : Nat) : Option Nat :=
  if lock then emptyLocked k line else relockFrame k line

/-- Puts a filled line into a locked frame. -/
def putLocked (i key line : Nat) (f : Filling) (s : State) : State :=
  setCore i (fun k => { k with
    dcache := mset none k.dcache key (some
      { line := line, bits := f.bits, dirty := f.dirty, sec := f.sec, used := k.clock + 1 })
    clock := k.clock + 1, relock := mset 0 k.relock line 0 }) s

/-- A line that no frame takes is served without allocating (R207): its stores go to memory as a write-back. DEDUCED: log
entry 50. -/
def serveUnallocated (i line : Nat) (f : Filling) (s : State) : State :=
  if f.dirty then startWriteBack i line f.bits f.sec false false s else s

/-- Where the filled line goes (R207, R212): none when its victim waits for room in the eviction buffer. -/
def placeLine (i line : Nat) (f : Filling) (s : State) : Option State :=
  let k := coreAt s i
  if !f.stays then some s
  else
    match lockedFrame k f.lock line with
    | some key => some (putLocked i key line f s)
    | none =>
      let s := if f.lock then lockFull i line s else s
      match victimWay k.dcache k.dway line with
      | none => some (serveUnallocated i line f s)
      | some _ => installLine true i line f.bits f.dirty f.sec s

/-- A fill of the data cache completes (R150, R207, R216, R226): the core's own stores that are not yet visible lie over the
line. A fill whose victim finds no room in the eviction buffer waits. DEDUCED: log entry 50. -/
def completeFill (i : Nat) (m : Miss) (s0 : State) : State :=
  let line := m.addr / 64
  match fillSource i m s0 with
  | (_, none) => s0
  | (s, some (b, bad)) =>
    if (coreAt s i).fatal ∧ !(coreAt s0 i).fatal then s
    else if bad then endMiss i m.id (serveBad i m.accs s)
    else
      let had := !((coreAt s i).waiting line).isEmpty
      let (s, base) := rebase i line b s
      let f0 : Filling := { bits := base, dirty := had, sec := (coreAt s i).storeWorld line m.sec, store := had, lock := m.kind == .fillLocked }
      let (f, s) := serveAccs i m b m.accs f0 s
      let s := if f.store then invalidateOthers i line (if f.stays then s else leaveLine i line s) else s
      if m.kind = .fillLocked ∧ m.accs = [] ∧ lockedFrame (coreAt s i) true line = none then endMiss i m.id (lockFull i line s)
      else
        match placeLine i line f s with
        | some s => endMiss i m.id s
        | none => s0

/-- A fill of the instruction cache completes (R199, R224–R226): an uncorrectable line installs nothing, and FETCH is raised
with cause 7 at the bundle that waits for it. -/
def completeFetch (i : Nat) (m : Miss) (s0 : State) : State :=
  let line := m.addr / 64
  let r : Option (State × Nat × Bool) := match targetOf s0 m.addr with
    | .tile t => some (readTileBits t line 0 576 i s0)
    | _ => if replyReady s0 i m.id then m.got.map fun g => (s0, g.1, g.2) else none
  match r with
  | none => s0
  | some (s, b, bad) =>
    if !bad then endMiss i m.id (installFetch i line b s)
    else
      let s := settle i (endMiss i m.id s)
      let k := coreAt s i
      if mayOpen s i ∧ k.slot = 0 then takeCause i ⟨1, 0, 2, transCode 7 0 false, k.pc⟩ s else s

/-- The accesses that go to one place and complete in issue order: those to control space, or to one line (R12, R115). -/
def accessSpace (s : State) (i : Nat) (x : Miss) : Nat := if (missPorts s i x.addr false).isNone then 0 else 1 + x.addr / 64

/-- An uncached access may complete: its answer has come, and no earlier one of the core to the same line, or to control
space, is outstanding (R12, R88, R115). -/
def uncachedReady (s : State) (i : Nat) (m : Miss) : Bool :=
  m.got.isSome && replyReady s i m.id &&
    !((coreAt s i).misses.any fun x =>
      x.kind == .uncached && decide (x.order < m.order) && accessSpace s i x == accessSpace s i m)

/-- An access to control space is the next of its tile to be performed: the control lane keeps launch order (R88,
R270). DEDUCED: log entry 63. -/
def controlFirst (s : State) (i : Nat) (m : Miss) : Bool :=
  m.got.isNone && (missPorts s i m.addr false).isNone && (List.range 8).all fun c =>
    let j := 8 * (i / 8) + c
    !((coreAt s j).misses.any fun x => x.kind == .uncached && decide (x.order < m.order) && x.got.isNone &&
      (missPorts s j x.addr false).isNone)

/-- An uncached miss whose answer has come ends. -/
def finishUncached (i id : Nat) (s : State) : State :=
  match (coreAt s i).misses.find? fun m => m.id == id with
  | none => s
  | some m =>
    if uncachedReady s i m then
      endMiss i id (m.accs.foldl (fun s x => uncachedAccess i ((m.got.map fun g => g.1).getD 0) x s) s)
    else s

/-- MISS_FILL_COMPLETE: the miss at a place in the order of issue completes (R12, R150, R226, R270). DESIGN CHOICE: log
entry 57. -/
def execMissFillComplete (c : CoreId) (miss : Fin 16) (s : State) : Host.Outcome State Fault Refusal :=
  let i := coreIx c
  match (coreAt s i).misses[miss.val]? with
  | none => .next s
  | some m =>
    if !serving s then .next s
    else
      match m.kind with
      | .uncached =>
        .next (finishUncached i m.id (if controlFirst s i m then
            let (s, v) := controlAccess i m s
            gotMiss i m.id v false s
          else s))
      | .fetch => .next (completeFetch i m s)
      | _ => .next (completeFill i m s)

end Sys2Proof.Machine
end

