-- ==== Sys2Proof/Machine/Debug.lean ====
section
/-! DEFINITION. Debug.lean: the two-wire port, its registers and the accesses of the debug master (chapter 18, R430–R441),
and the generic register write (R4). -/

namespace Sys2Proof.Machine

/-- Changes the debug unit. -/
def setDbu (f : DebugUnit → DebugUnit) (s : State) : State := { s with dbu := f s.dbu }

/-- The number of ones among the low `n` bits. -/
def ones (x n : Nat) : Nat := ((List.range n).filter fun i => bitOf x i).length

/-- A command quarter has MARK 1 and odd parity over its nine bits (R430). -/
def headerOk (read : Bool) (reg : Nat) (seq mark par : Bool) : Bool :=
  mark && (b2n read + ones reg 5 + b2n seq + b2n mark + b2n par) % 2 == 1

/-- The word of four data quarters, or none where a quarter fails its parity (R430, R433). -/
def dataWord (d : Nat) : Option Nat :=
  if (List.range 4).all fun k => ones (field d (10 * k) 10) 10 % 2 == 1 then
    some (joinUnits 9 ((List.range 4).map fun k => field d (10 * k) 9))
  else none

/-- The 40 bits of a data phase that carries a word, with good parity. -/
def withParity (v : Nat) : Nat :=
  joinUnits 10 ((List.range 4).map fun k =>
    let q := field v (9 * k) 9
    q + 512 * ((ones q 9 + 1) % 2))

/-- The 5 bits of a response or a receipt: MARK 0, CODE, SEQ and odd parity over bits 1–4 (R431). -/
def responseBits (code : Nat) (seq : Bool) : Nat :=
  packFields [(0, 1), (code, 2), (b2n seq, 1), ((ones code 2 + b2n seq + 1) % 2, 1)]

/-- A fault of the port: REASON keeps the first since FAULT was last cleared (R433). -/
def portFault (reason : Nat) (s : State) : State :=
  setDbu (fun d => if d.fault then d else { d with fault := true, reason := reason }) s

/-- REG is listed and DIR is permitted (R435). -/
def regPermitted (read : Bool) (reg : Nat) : Bool :=
  if read then [0, 1, 4, 5, 6, 7].contains reg else [2, 4, 5, 6, 7, 8].contains reg

/-- The frames that FAULT does not refuse (R431). -/
def faultExempt (read : Bool) (reg : Nat) : Bool := if read then reg == 0 || reg == 1 else reg == 2

/-- The frames that BUSY turns away (R431). -/
def busyRefuses (read : Bool) (reg : Nat) : Bool :=
  if read then reg == 6 || reg == 7 else [4, 5, 6, 7, 8].contains reg

/-- The response CODE to a valid header: b00 ACCEPTED, b01 BUSY, b10 REFUSED (R431, R433). -/
def responseCode (d : DebugUnit) (read : Bool) (reg : Nat) : Nat :=
  if d.fault && !faultExempt read reg then 2
  else if !regPermitted read reg then 2
  else if d.access.isSome && busyRefuses read reg then 1
  else 0

/-- DBG_SESSION: SPOL and the chronometer. -/
def sessionReport (s : State) : Report :=
  mkReport Unit.dbg Cls.reported Code.dbgSession 0 [(b2n (spolOpen s), 1), (s.isl.chron, 62)]

/-- The header of a frame (R428, R431–R433): none where the port answers nothing; else the state after the response, and
its CODE. -/
def header (read : Bool) (reg : Nat) (seq mark par : Bool) (s : State) : State × Option Nat :=
  let silent := setDbu (fun d => { d with answer := none }) s
  if !portActive s || s.dbu.desync then (silent, none)
  else if !headerOk read reg seq mark par then (setDbu (fun d => { d with desync := true }) silent, none)
  else
    let c := responseCode s.dbu read reg
    let s := setDbu (fun d => { d with answer := some { response := responseBits c seq } }) s
    let s := if c = 2 ∧ !regPermitted read reg then portFault 7 s else s
    let s := if c = 0 ∧ !s.dbu.began then report (sessionReport s) (setDbu (fun d => { d with began := true }) s) else s
    (s, some c)

/-- DSTAT. -/
def dstatPort (d : DebugUnit) : Nat :=
  packFields [(b2n d.access.isSome, 1), (b2n d.fault, 1), (d.reason, 4), (b2n d.hasSeq, 1), (b2n (d.hasSeq && d.lseq), 1)]

/-- The value that a read of a port register returns (R435). -/
def portRead (d : DebugUnit) (reg : Nat) : Nat := match reg with
  | 0 => 0o112226010000
  | 1 => dstatPort d
  | 4 => field d.addr 0 36
  | 5 => field d.addr 36 9
  | 6 => field d.data 0 36
  | 7 => field d.data 36 36
  | _ => 0

/-- DEBUG_FRAME_READ (R430, R431). -/
def execDebugFrameRead (reg : BitVec 5) (seq mark par : Bool) (s : State) : Host.Outcome State Fault Refusal :=
  match header true reg.toNat seq mark par s with
  | (s, some 0) =>
    .next (setDbu (fun d => { d with answer := some { response := responseBits 0 seq, data := withParity (portRead d reg.toNat) } }) s)
  | (s, _) => .next s

/-- A write of DCMD starts an access, unless it names a reserved field or space (R435, R436). -/
def startAccess (v : Nat) (s : State) : State :=
  if v / 1024 ≠ 0 ∨ 2 < v % 8 then portFault 7 s else setDbu (fun d => { d with access := some { cmd := v } }) s

/-- A write of DCTL: ABORT ends an access not yet performed, and then CLEAR clears the fault (R436). -/
def dctlWrite (v : Nat) (d : DebugUnit) : DebugUnit :=
  let d := if bitOf v 0 then { d with access := d.access.filter fun a => a.done } else d
  if bitOf v 1 then { d with fault := false, reason := 0 } else d

/-- A write of a port register (R435, R436). -/
def portWrite (reg v : Nat) (s : State) : State := match reg with
  | 2 => setDbu (dctlWrite v) s
  | 4 => setDbu (fun d => { d with addr := setField d.addr 0 36 v }) s
  | 5 => setDbu (fun d => { d with addr := setField d.addr 36 9 v }) s
  | 6 => setDbu (fun d => { d with data := setField d.data 0 36 v }) s
  | 7 => setDbu (fun d => { d with data := setField d.data 36 36 v }) s
  | 8 => startAccess v s
  | _ => s

/-- A write repeats the last performed one (R434). -/
def repeats (d : DebugUnit) (reg v : Nat) (seq : Bool) : Bool :=
  reg != 2 && d.hasSeq && d.lseq == seq && d.keptReg == reg && d.keptData == v

/-- The receipt of a write frame. -/
def giveReceipt (c : Nat) (seq : Bool) (s : State) : State :=
  setDbu (fun d => { d with answer := d.answer.map fun a => { a with receipt := some (responseBits c seq) } }) s

/-- The data phase of a write that was answered ACCEPTED (R433, R434). -/
def writeData (reg : Nat) (seq : Bool) (data : Nat) (s : State) : State :=
  match dataWord data with
  | none => giveReceipt 2 seq (portFault 1 s)
  | some v =>
    if repeats s.dbu reg v seq then giveReceipt 3 seq s
    else
      let s := portWrite reg v s
      giveReceipt 0 seq (if reg = 2 then s
        else setDbu (fun d => { d with hasSeq := true, lseq := seq, keptReg := reg, keptData := v }) s)

/-- A write frame (R430, R431, R434). -/
def frameWrite (reg : Nat) (seq mark par : Bool) (data : Nat) (s : State) : State :=
  match header false reg seq mark par s with
  | (s, some 0) => writeData reg seq data s
  | (s, _) => s

/-- DEBUG_FRAME_WRITE (R434). -/
def execDebugFrameWrite (reg : BitVec 5) (seq mark par : Bool) (data : BitVec 40) (s : State) :
    Host.Outcome State Fault Refusal := .next (frameWrite reg.toNat seq mark par data.toNat s)

/-- DEBUG_BREAK (R432): the port is synchronised again, and nothing else changes. -/
def execDebugBreak (s : State) : Host.Outcome State Fault Refusal :=
  .next (if portActive s then setDbu (fun d => { d with desync := false }) s else s)

/-- A well-formed write frame of a register. -/
def goodWrite (reg : Nat) (seq : Bool) (v : Nat) (s : State) : State :=
  frameWrite reg seq true ((ones reg 5 + b2n seq + 1) % 2 == 0) (withParity v) s

/-- DCTL_ABORT (R436). DESIGN CHOICE: log entry 52. -/
def execDctlAbort (seq : Bool) (s : State) : Host.Outcome State Fault Refusal := .next (goodWrite 2 seq 1 s)

/-- DCTL_CLEAR (R436). DESIGN CHOICE: log entry 52. -/
def execDctlClear (seq : Bool) (s : State) : Host.Outcome State Fault Refusal := .next (goodWrite 2 seq 2 s)

/-- Fields of DCMD. -/
def cmdInc (c : Nat) : Bool := bitOf c 9
def cmdCns (c : Nat) : Bool := bitOf c 8
def cmdSec (c : Nat) : Bool := bitOf c 7
def cmdView (c : Nat) : Bool := bitOf c 6
def cmdUnits (c : Nat) : Nat := 2 ^ field c 4 2
def cmdWr (c : Nat) : Bool := bitOf c 3

/-- The access has been performed at its target, with its result and REASON. -/
def performed (r : State × Nat × Nat) : State :=
  setDbu (fun d => { d with access := d.access.map fun a => { a with done := true, result := r.2.1, reason := r.2.2 } }) r.1

/-- DBG_SECURE_REFUSED (R450): DCMD bits [9:0] and DADDR. -/
def secureRefused (cmd addr : Nat) : Report :=
  mkReport Unit.dbg Cls.reported Code.dbgSecureRefused 0 [(cmd, 10), (addr, 45)]

/-- The pending access of a space is performed, unless the secure policy turns it away (R243, R428, R450). -/
def performAccess (space : Nat) (act : Nat → Nat → State → State × Nat × Nat) (s : State) : State :=
  match s.dbu.access with
  | none => s
  | some a =>
    if a.done || a.cmd % 8 != space || !portActive s then s
    else if cmdSec a.cmd && !spolOpen s then performed (report (secureRefused a.cmd s.dbu.addr) s, 0, 4)
    else performed (act a.cmd s.dbu.addr s)

/-- REASON of a direct access of the debug master (R437). -/
def AccessEnd.reason (e : AccessEnd) : Nat := match e with
  | .done => 0
  | .refused => 2
  | .size => 6
  | .asleep => 8
  | .uncorrectable => 9

/-- An access of SPACE b000 (R235, R437, R438). DEDUCED: log entry 45. -/
def physicalAccess (cmd a : Nat) (s : State) : State × Nat × Nat :=
  let n := cmdUnits cmd
  let rq : Req := ⟨dbgCode, cmdSec cmd⟩
  if a % n ≠ 0 then (s, 0, 6)
  else if !worldMay s rq.sec a then (report (accessRefused a rq (cmdWr cmd)) s, 0, 2)
  else if cmdWr cmd then
    let (s, e) := physWrite rq a n (cmdView cmd) false (s.dbu.data % 2 ^ accessWidth n (cmdView cmd) false) s
    (s, 0, e.reason)
  else
    let (s, v, e) := physRead rq (!cmdCns cmd) a n (cmdView cmd) false s
    (s, v, e.reason)

/-- The memory port that an address needs is connected in this hub cycle, so that the debug master does not use it; tile
memory it reaches over the control lane (R270, R437). -/
def debugWaits (s : State) (a : Nat) : Bool :=
  match targetOf s a with
  | .dram => portBusy s (portOfLine (a / 64))
  | .hub => portBusy s (portOfLine (a / 64))
  | _ => false

/-- The policy, the alignment or the world rule turns a physical access away before it reaches memory (R235, R243). -/
def debugTurnedAway (s : State) (cmd a : Nat) : Bool :=
  (cmdSec cmd && !spolOpen s) || a % cmdUnits cmd != 0 || !worldMay s (cmdSec cmd) a

/-- DEBUG_PHYSICAL_ACCESS (R270, R437): an access that nothing turns away waits while its memory port is connected, or while
its DRAM channel cannot serve it, for which it asks (R384, R397, R399). -/
def execDebugPhysicalAccess (s : State) : Host.Outcome State Fault Refusal :=
  match s.dbu.access with
  | some x =>
    let a := s.dbu.addr
    if x.done || x.cmd % 8 != 0 || !portActive s then .next s
    else if debugTurnedAway s x.cmd a then .next (performAccess 0 physicalAccess s)
    else if physHeld s (cmdWr x.cmd) a then .next (physAsk ⟨dbgCode, cmdSec x.cmd⟩ (cmdWr x.cmd) a s)
    else if debugWaits s a then .next s
    else .next (withOutcome .debug (a / 64) (performAccess 0 physicalAccess) s)
  | none => .next s

/-- A number names no available tile (R10). -/
def noTile (s : State) (t : Nat) : Bool := decide (48 ≤ t) || !available s t

/-- A landing list entry (R440): its descriptor. -/
def landingWord (e : Landing × Bool × Nat) : Nat :=
  packFields [(e.1.reg, 6), (e.1.slot, 2), (e.2.2, 5), (b2n e.2.1, 1), (b2n e.1.miss.isSome, 1), (1, 1)]

/-- The special registers that exist (R102). -/
def srKnown (n : Nat) : Bool := [0o00, 0o01, 0o02, 0o03, 0o04, 0o05, 0o06, 0o07, 0o10, 0o11, 0o12, 0o13, 0o14, 0o20, 0o21,
  0o22, 0o23, 0o24, 0o30].contains n

/-- WRA belongs to the secure world alone (R103, R241), whatever world the core halted in. DEDUCED: log entry 47. -/
def srHidden (cmd n : Nat) : Bool := n == 0o11 && !cmdSec cmd

/-- A read of a halted core (R439, R440). -/
def coreRead (cmd i kind x : Nat) (s : State) : Nat × Nat :=
  let k := coreAt s i
  match kind with
  | 0 => ((k.read (BitVec.ofNat 6 x)).toNat, 0)
  | 1 => if !srKnown x then (0, 7) else if srHidden cmd x then (0, 0) else ((srRead s i x).toNat, 0)
  | 2 =>
    match (landingList k)[x / 2]? with
    | none => (0, 0)
    | some e => (if x % 2 = 0 then landingWord e else e.1.val.toNat, 0)
  | _ =>
    match x with
    | 0 => (k.pc, 0)
    | 1 => (k.dly, 0)
    | 2 => (k.tgt, 0)
    | _ => (0, 7)

/-- The value of a landing list entry is replaced. DEDUCED: log entry 47. -/
def setLanding (i id : Nat) (v : Double) (s : State) : State :=
  let f := fun (l : Landing) => if l.id = id then { l with val := v } else l
  setCore i (fun k => { k with flight := k.flight.map f, held := k.held.map f }) s

/-- A write of a halted core (R439, R440). -/
def coreWrite (cmd i kind x v : Nat) (s : State) : State × Nat :=
  let k := coreAt s i
  match kind with
  | 0 => (setCore i (fun k => k.write x (BitVec.ofNat 72 v)) s, 0)
  | 1 =>
    if !srKnown x then (s, 7) else if srHidden cmd x then (s, 4) else (srWrite i x (BitVec.ofNat 72 v) s, 0)
  | 2 =>
    match (landingList k)[x / 2]? with
    | none => (s, if x % 2 = 0 then 5 else 0)
    | some e =>
      if x % 2 = 0 || e.1.miss.isSome then (s, 5) else (setLanding i e.1.id (BitVec.ofNat 72 v) s, 0)
  | _ =>
    match x with
    | 0 => (setCore i (fun k => { k with pc := bundleAddr v, dly := 0 }) s, 0)
    | 1 => (setCore i (fun k => { k with dly := min 2 (v % 4) }) s, 0)
    | 2 => (setCore i (fun k => { k with tgt := bundleAddr v }) s, 0)
    | _ => (s, 7)

/-- An access of SPACE b001 (R439). -/
def coreAccess (cmd a : Nat) (s : State) : State × Nat × Nat :=
  let t := field a 11 6
  let i := 8 * t + field a 8 3
  if field cmd 4 2 ≠ 3 ∨ cmdView cmd then (s, 0, 6)
  else if noTile s t then (s, 0, 2)
  else if !(coreAt s i).halted then (s, 0, 5)
  else if (coreAt s i).sec && !cmdSec cmd then (if cmdWr cmd then (s, 0, 4) else (s, 0, 0))
  else if cmdWr cmd then
    let (s, r) := coreWrite cmd i (field a 6 2) (field a 0 6) s.dbu.data s
    (s, 0, r)
  else
    let (v, r) := coreRead cmd i (field a 6 2) (field a 0 6) s
    (s, v, r)

/-- DEBUG_CORE_ACCESS (R439, R440). -/
def execDebugCoreAccess (s : State) : Host.Outcome State Fault Refusal := .next (performAccess 1 coreAccess s)

/-- The parity bit of a stored word or tag: the spec gives no sense of parity, and a frame with an error does not say
which bit is wrong. DESIGN CHOICE: log entry 14. -/
def openParity (key v : Nat) (bad : Bool) : Nat := Config.openValue 16 [key, v, b2n bad] % 2

/-- What the L1 arrays hold for a frame (R441). A frame that holds no line has a word and an address that the spec
does not give. DESIGN CHOICE: log entry 14. -/
def l1Word (frame : Option CLine) (key word : Nat) (tag : Bool) (draw : Nat) : Nat :=
  match frame, tag with
  | some f, false =>
    let w := field f.bits (36 * word) 36
    packFields [(w, 36), (openParity (16 * key + word) w (f.bad.testBit word), 1)]
  | some f, true =>
    let h := f.line / 64
    packFields [(h, 33), (1, 1), (b2n f.dirty, 1), (0, 1), (openParity key h (f.bad.testBit 16), 1)]
  | none, false => Config.openValue 17 [key, word, draw] % 2 ^ 37
  | none, true => packFields [(Config.openValue 18 [key, draw], 33), (0, 3), (Config.openValue 19 [key, draw], 1)]

/-- A word of a local-store way (R210, R441). -/
def l1Local (k : Core) (way set word : Nat) : Nat :=
  let w := field (mget 0 k.local' (64 * way + set)) (36 * word) 36
  packFields [(w, 36), (openParity (16 * (64 * way + set) + word) w (mget false k.lbad (16 * (64 * way + set) + word)), 1)]

/-- An access of SPACE b010 (R441). -/
def l1Access (cmd a : Nat) (s : State) : State × Nat × Nat :=
  let t := field a 18 6
  let i := 8 * t + field a 15 3
  let way := field a 11 3
  let set := field a 5 6
  let word := field a 0 4
  let tag := bitOf a 4
  let k := coreAt s i
  let c := if bitOf a 14 then k.icache else k.dcache
  let frame := mget none c (8 * set + way)
  let next := { s with draws := s.draws + 1 }
  if cmdWr cmd ∨ field cmd 4 2 ≠ 3 then (s, 0, 6)
  else if noTile s t then (s, 0, 2)
  else if !k.halted then (s, 0, 5)
  else if !bitOf a 14 && wayMode k.dway way == 2 && !tag then
    (s, if tileSec s t && !cmdSec cmd then 0 else l1Local k way set word, 0)
  else
    let hidden := !cmdSec cmd && match frame with
      | some f => memSecure s (64 * f.line)
      | none => false
    (next, if hidden then 0 else l1Word frame (8 * set + way) word tag s.draws, 0)

/-- DEBUG_L1_READ (R441). -/
def execDebugL1Read (s : State) : Host.Outcome State Fault Refusal := .next (performAccess 2 l1Access s)

/-- A read that fails and leaves zero in DDATA: uncorrectable data, or a register of another width (R7, R437); a misaligned
access is not performed and leaves DDATA. -/
def failsWithZero (cmd addr reason : Nat) : Bool :=
  !cmdWr cmd && (reason == 9 || (reason == 6 && cmd % 8 == 0 && addr % cmdUnits cmd == 0))

/-- DEBUG_ACCESS_COMPLETE (R436): BUSY clears; a read's result is in DDATA; INC advances DADDR; a failure sets FAULT
(`failsWithZero`). -/
def execDebugAccessComplete (s : State) : Host.Outcome State Fault Refusal :=
  match s.dbu.access with
  | none => .next s
  | some a =>
    if !a.done then .next s
    else
      let s := setDbu (fun d => { d with access := none }) s
      if a.reason = 0 then
        let step := if a.cmd % 8 = 0 then cmdUnits a.cmd else 1
        .next (setDbu (fun d => { d with
          data := if cmdWr a.cmd then d.data else a.result
          addr := if cmdInc a.cmd then (d.addr + step) % 2 ^ 45 else d.addr }) s)
      else
        let s := if failsWithZero a.cmd s.dbu.addr a.reason then setDbu (fun d => { d with data := 0 }) s else s
        .next (portFault a.reason s)

/-- REGISTER_WRITE (R4, R5, R7, R16, R237): a write at an address of control space; an address elsewhere is not a
register and not this row's. DESIGN CHOICE: log entry 52. -/
def execRegisterWrite (rq : Req) (addr : BitVec 45) (size : BitVec 2) (oct : Bool) (value : Double) (s : State) :
    Host.Outcome State Fault Refusal :=
  if !reach rq s then .next s
  else
    let w := accessWidth (2 ^ size.toNat) oct false
    match targetOf s addr.toNat with
    | .control win off => .next (writeReg rq win off w (value.toNat % 2 ^ w) s).1
    | .unmapped => .next (report (addrUnmapped addr.toNat rq true) s)
    | _ => .next s

end Sys2Proof.Machine
end

