-- ==== Sys2Proof/Machine/Smbus.lean ====
section
/-! DEFINITION. Smbus.lean: the SMBus target (chapter 17, R411–R413). -/

namespace Sys2Proof.Machine

/-- The SMBus target as a requester; it is no world's (R17, R412). DEDUCED: log entry 44. -/
def smbReq : Req := ⟨smbCode, false⟩

/-- A word as 5 octets (R411). -/
def wordOctets (w : Nat) : List Nat := splitUnits 8 4 w ++ [field w 32 4]

/-- A double as two words, the low word first (R411). -/
def doubleOctets (d : Nat) : List Nat := wordOctets (field d 0 36) ++ wordOctets (field d 36 36)

/-- The word of 5 octets. -/
def octetWord (os : List Nat) : Nat := joinUnits 8 (os.take 4) + field (os.getD 4 0) 0 4 * 2 ^ 32

/-- What the target gives: the octets of a block read, and whether it acknowledged the transaction. -/
def smbAnswer (os : List Nat) (ack : Bool) (s : State) : State :=
  { s with lgb := { s.lgb with answer := os, pec := 0, acked := ack } }

/-- The octets of a block read of command `cmd`, with the PEC that the target supplies when the host clocks it (R411).
PRESUMED: log entry 71. -/
def smbGive (cmd : Nat) (os : List Nat) (s : State) : State :=
  let a := 2 * s.lgb.addr
  { s with lgb := { s.lgb with answer := os, pec := pecOf ([a, cmd, a + 1, os.length] ++ os), acked := true } }

/-- A transaction with the target, in the states in which it responds (R24, R411). -/
def smbDo (act : State → State) (s : State) : State := if smbResponds s then act s else smbAnswer [] false s

/-- A block read of octets by command `cmd`. -/
def smbRead (cmd : Nat) (os : State → List Nat) (s : State) : Host.Outcome State Fault Refusal :=
  .next (smbDo (fun s => smbGive cmd (os s) s) s)

/-- The PEC that the host sends with a block write is right; it may send none (R411). PRESUMED: log entry 71. -/
def pecGood (s : State) (cmd : Nat) (octets : List (BitVec 8)) (pec : Option (BitVec 8)) : Bool :=
  match pec with
  | none => true
  | some p => p.toNat == pecOf ([2 * s.lgb.addr, cmd, octets.length] ++ octets.map BitVec.toNat)

/-- A block write of `n` octets by command `cmd`; one of another count, or with a wrong PEC, is not acknowledged and changes
nothing (R411, R412). DEDUCED: log entry 51. -/
def smbWrite (cmd n : Nat) (octets : List (BitVec 8)) (pec : Option (BitVec 8)) (act : List Nat → State → State) (s : State) :
    Host.Outcome State Fault Refusal :=
  .next (smbDo (fun s =>
    if octets.length = n ∧ pecGood s cmd octets pec then act (octets.map BitVec.toNat) s else smbAnswer [] false s) s)

/-- The value of a register by its window and offset. -/
def regValue (s : State) (win off : Nat) : Nat := ((regView s false win off).map RegView.value).getD 0

/-- SMB_READ_IDENT: HUB_IDENT. -/
def execSmbReadIdent (s : State) : Host.Outcome State Fault Refusal :=
  smbRead 0o1 (fun s => wordOctets (regValue s Unit.hub 0)) s

/-- SMB_READ_ASSET_TAG: ASSET_TAG of the START section. -/
def execSmbReadAssetTag (s : State) : Host.Outcome State Fault Refusal :=
  smbRead 0o2 (fun s => splitUnits 8 16 (sec s 0 0 16)) s

/-- SMB_READ_START_STATE: CFG_STATE and CFG_PCC. -/
def execSmbReadStartState (s : State) : Host.Outcome State Fault Refusal :=
  smbRead 0o3 (fun s => wordOctets (cfgStateWord s) ++ wordOctets (cfgPccWord s)) s

/-- SMB_READ_TILE_MAP: CFG_TILES0 to CFG_TILES3, CFG_AVAIL0 and CFG_AVAIL1. -/
def execSmbReadTileMap (s : State) : Host.Outcome State Fault Refusal :=
  smbRead 0o4 (fun s => (List.range 4).flatMap (fun d => wordOctets (cfgTilesWord s d)) ++
    wordOctets (field (availMask s) 0 36) ++ wordOctets (field (availMask s) 36 12)) s

/-- SMB_READ_LOG_COUNTS: LGB_TOTAL, LGB_OPSEC and LGB_LOST. -/
def execSmbReadLogCounts (s : State) : Host.Outcome State Fault Refusal :=
  smbRead 0o20 (fun s => doubleOctets s.nv.total ++ wordOctets (s.nv.opsec % 2 ^ 36) ++ wordOctets (s.hlt.lost % 2 ^ 36)) s

/-- SMB_LATCH_RECORD: the record that the double names is latched for the target (R410). -/
def execSmbLatchRecord (octets : List (BitVec 8)) (pec : Option (BitVec 8)) (s : State) : Host.Outcome State Fault Refusal :=
  smbWrite 0o21 10 octets pec (fun os s =>
    let n := octetWord (os.take 5) + octetWord (os.drop 5) * 2 ^ 36
    smbAnswer [] true { s with lgb := { s.lgb with smb := latchRec s n } }) s

/-- SMB_READ_RECORD: LGB_RSTAT and the latched words of the target; then the next record is latched. -/
def execSmbReadRecord (s : State) : Host.Outcome State Fault Refusal :=
  .next (smbDo (fun s =>
    let l := s.lgb.smb
    let os := wordOctets l.rstat ++ l.words.flatMap fun w => wordOctets w.toNat
    smbGive 0o22 os { s with lgb := { s.lgb with smb := latchRec s ((l.idx + 1) % 2 ^ 72) } }) s)

/-- SMB_REGISTER_SELECT: the windows PWR, CFG, LGB and HLT are accepted. DESIGN CHOICE: log entry 53. -/
def execSmbRegisterSelect (octets : List (BitVec 8)) (pec : Option (BitVec 8)) (s : State) : Host.Outcome State Fault Refusal :=
  smbWrite 0o40 5 octets pec (fun os s =>
    let v := octetWord os
    let w := field v 30 6
    if w = Unit.pwr ∨ w = Unit.cfg ∨ w = Unit.lgb ∨ w = Unit.hlt then
      smbAnswer [] true { s with lgb := { s.lgb with selWin := w, selOff := field v 0 24, selOk := true } }
    else smbAnswer [] false s) s

/-- SMB_REGISTER_READ: the selected register, 10 octets for one of 72 bits; the readout registers of the logbook are the
target's own (R410). DEDUCED: log entry 51. -/
def execSmbRegisterRead (s : State) : Host.Outcome State Fault Refusal :=
  .next (smbDo (fun s =>
    if !s.lgb.selOk then smbAnswer [] false s
    else
      let wide := ((regView s false s.lgb.selWin s.lgb.selOff).map RegView.wide).getD false
      let (u, v, _) := readReg smbReq false s.lgb.selWin s.lgb.selOff (if wide then 72 else 36)
        { s with lgb := { s.lgb with own := s.lgb.smb } }
      smbGive 0o41 (if wide then doubleOctets v else wordOctets v) { u with lgb := { u.lgb with own := s.lgb.own } }) s)

/-- The image update registers that the target writes (R76). -/
def updRegister (win off : Nat) : Bool :=
  win == Unit.cfg && (off == 0o44 || (decide (0o100 ≤ off) && decide (off < 0o200) && off % 4 == 0))

/-- SMB_REGISTER_WRITE: CFG_UPD_CTL and CFG_UPD_BUF0 to CFG_UPD_BUF15. -/
def execSmbRegisterWrite (octets : List (BitVec 8)) (pec : Option (BitVec 8)) (s : State) : Host.Outcome State Fault Refusal :=
  smbWrite 0o42 5 octets pec (fun os s =>
    if s.lgb.selOk && updRegister s.lgb.selWin s.lgb.selOff then
      smbAnswer [] true (writeReg smbReq s.lgb.selWin s.lgb.selOff 36 (octetWord os) s).1
    else smbAnswer [] false s) s

/-- SMB_READ_ALERT_SEQUENCE: the alert sequence number. DEDUCED: log entry 51. -/
def execSmbReadAlertSequence (s : State) : Host.Outcome State Fault Refusal :=
  smbRead 0o43 (fun s => doubleOctets (s.nv.alertSeq.getD 0)) s

/-- SMB_ALERT_RESPONSE: a target that drives SMB_ALERT_N answers with its address, and the PEC when the host clocks it, and
releases the line (R411, R413). DEDUCED: log entry 51. PRESUMED: log entry 71. -/
def execSmbAlertResponse (s : State) : Host.Outcome State Fault Refusal :=
  .next (if smbAlertLow s then
      let a := 2 * s.lgb.addr
      let s := smbAnswer [a] true s
      { s with lgb := { s.lgb with alert := false, pec := pecOf [0x19, a] }, nv := { s.nv with alertAns := s.nv.alertSeq } }
    else smbAnswer [] false s)

end Sys2Proof.Machine
end

