-- ==== Sys2Proof/Machine/Dispatch.lean ====
section
/-! DEFINITION. Dispatch.lean: the meaning of each command. -/

namespace Sys2Proof.Machine

def exec (i : Instr) (s : State) : Host.Outcome State Fault Refusal :=
  match i with
  | .mainsLoss crit => Sys2Proof.Machine.execMainsLoss crit s
  | .mainsValidAgain inp => Sys2Proof.Machine.execMainsValidAgain inp s
  | .pwrLineChange inp => Sys2Proof.Machine.execPwrLineChange inp s
  | .pwrInputRange inp => Sys2Proof.Machine.execPwrInputRange inp s
  | .chargeComplete => Sys2Proof.Machine.execChargeComplete s
  | .chargeTimeout cv => Sys2Proof.Machine.execChargeTimeout cv s
  | .probeMeasurement straps inp samples temp => Sys2Proof.Machine.execProbeMeasurement straps inp samples temp s
  | .loadEntry => Sys2Proof.Machine.execLoadEntry s
  | .imageSelectVerify => Sys2Proof.Machine.execImageSelectVerify s
  | .testComplete failed => Sys2Proof.Machine.execTestComplete failed s
  | .lockSequence badTrain run => Sys2Proof.Machine.execLockSequence badTrain run s
  | .rideTimeExpiry => Sys2Proof.Machine.execRideTimeExpiry s
  | .vaultRegionStop j => Sys2Proof.Machine.execVaultRegionStop j s
  | .vaultClosingRecord => Sys2Proof.Machine.execVaultClosingRecord s
  | .vaultDarkTimer => Sys2Proof.Machine.execVaultDarkTimer s
  | .reprobe rq value => Sys2Proof.Machine.execReprobe rq value s
  | .reprobeComplete samples temp => Sys2Proof.Machine.execReprobeComplete samples temp s
  | .reprobePeriodExpiry => Sys2Proof.Machine.execReprobePeriodExpiry s
  | .vaultDiscard rq value => Sys2Proof.Machine.execVaultDiscard rq value s
  | .pwrSurge measured => Sys2Proof.Machine.execPwrSurge measured s
  | .inputOvercurrent measured => Sys2Proof.Machine.execInputOvercurrent measured s
  | .railOvercurrent rail measured => Sys2Proof.Machine.execRailOvercurrent rail measured s
  | .pwrStageHot measured => Sys2Proof.Machine.execPwrStageHot measured s
  | .pwrThermThrottle p tj => Sys2Proof.Machine.execPwrThermThrottle p tj s
  | .throttleRelease p => Sys2Proof.Machine.execThrottleRelease p s
  | .pwrThermTrip isl tj => Sys2Proof.Machine.execPwrThermTrip isl tj s
  | .vaultHubOverheat tj => Sys2Proof.Machine.execVaultHubOverheat tj s
  | .pwrThermHigh quad tj => Sys2Proof.Machine.execPwrThermHigh quad tj s
  | .rsvHot temp => Sys2Proof.Machine.execRsvHot temp s
  | .reservoirCooled temp => Sys2Proof.Machine.execReservoirCooled temp s
  | .pwrCoolant inlet flow lowFlowHeld => Sys2Proof.Machine.execPwrCoolant inlet flow lowFlowHeld s
  | .cfgAltWrite rq value => Sys2Proof.Machine.execCfgAltWrite rq value s
  | .cfgUpdErase rq copy => Sys2Proof.Machine.execCfgUpdErase rq copy s
  | .cfgUpdWriteLine rq copy line => Sys2Proof.Machine.execCfgUpdWriteLine rq copy line s
  | .cfgUpdVerify rq copy => Sys2Proof.Machine.execCfgUpdVerify rq copy s
  | .cfgUpdComplete => Sys2Proof.Machine.execCfgUpdComplete s
  | .hostConfigRequest g kind v => Sys2Proof.Machine.execHostConfigRequest g kind v s
  | .tilePstateRequest rq t value => Sys2Proof.Machine.execTilePstateRequest rq t value s
  | .tileStepRequest rq t value => Sys2Proof.Machine.execTileStepRequest rq t value s
  | .stepChangeComplete t => Sys2Proof.Machine.execStepChangeComplete t s
  | .supplyDroopStretch t stretch start => Sys2Proof.Machine.execSupplyDroopStretch t stretch start s
  | .junctionSample isl tj => Sys2Proof.Machine.execJunctionSample isl tj s
  | .tempHoldStepDown t => Sys2Proof.Machine.execTempHoldStepDown t s
  | .tempHoldRelease t => Sys2Proof.Machine.execTempHoldRelease t s
  | .crossingItemArrival j cycles => Sys2Proof.Machine.execCrossingItemArrival j cycles s
  | .chronometerSync diffs => Sys2Proof.Machine.execChronometerSync diffs s
  | .napEntry t => Sys2Proof.Machine.execNapEntry t s
  | .napExit t => Sys2Proof.Machine.execNapExit t s
  | .darkEntry t => Sys2Proof.Machine.execDarkEntry t s
  | .darkExit t => Sys2Proof.Machine.execDarkExit t s
  | .nop x => Sys2Proof.Machine.execNop x s
  | .add x wd f => Sys2Proof.Machine.execAdd x wd f s
  | .sub x wd f => Sys2Proof.Machine.execSub x wd f s
  | .and x wd f => Sys2Proof.Machine.execAnd x wd f s
  | .or x wd f => Sys2Proof.Machine.execOr x wd f s
  | .xor x wd f => Sys2Proof.Machine.execXor x wd f s
  | .andn x wd f => Sys2Proof.Machine.execAndn x wd f s
  | .shl x wd f => Sys2Proof.Machine.execShl x wd f s
  | .shr x wd f => Sys2Proof.Machine.execShr x wd f s
  | .sar x wd f => Sys2Proof.Machine.execSar x wd f s
  | .rol x wd f => Sys2Proof.Machine.execRol x wd f s
  | .cmpeq x wd f => Sys2Proof.Machine.execCmpeq x wd f s
  | .cmplt x wd f => Sys2Proof.Machine.execCmplt x wd f s
  | .cmpltu x wd f => Sys2Proof.Machine.execCmpltu x wd f s
  | .min x wd f => Sys2Proof.Machine.execMin x wd f s
  | .max x wd f => Sys2Proof.Machine.execMax x wd f s
  | .par x wd f => Sys2Proof.Machine.execPar x wd f s
  | .brevO x f => Sys2Proof.Machine.execBrevO x f s
  | .brevW x f => Sys2Proof.Machine.execBrevW x f s
  | .crc x f => Sys2Proof.Machine.execCrc x f s
  | .clz x wd f => Sys2Proof.Machine.execClz x wd f s
  | .ctz x wd f => Sys2Proof.Machine.execCtz x wd f s
  | .popc x wd f => Sys2Proof.Machine.execPopc x wd f s
  | .addi x wd f => Sys2Proof.Machine.execAddi x wd f s
  | .subi x wd f => Sys2Proof.Machine.execSubi x wd f s
  | .andi x wd f => Sys2Proof.Machine.execAndi x wd f s
  | .ori x wd f => Sys2Proof.Machine.execOri x wd f s
  | .xori x wd f => Sys2Proof.Machine.execXori x wd f s
  | .andni x wd f => Sys2Proof.Machine.execAndni x wd f s
  | .shli x wd f => Sys2Proof.Machine.execShli x wd f s
  | .shri x wd f => Sys2Proof.Machine.execShri x wd f s
  | .sari x wd f => Sys2Proof.Machine.execSari x wd f s
  | .roli x wd f => Sys2Proof.Machine.execRoli x wd f s
  | .cmpeqi x wd f => Sys2Proof.Machine.execCmpeqi x wd f s
  | .cmplti x wd f => Sys2Proof.Machine.execCmplti x wd f s
  | .cmpltui x wd f => Sys2Proof.Machine.execCmpltui x wd f s
  | .mini x wd f => Sys2Proof.Machine.execMini x wd f s
  | .maxi x wd f => Sys2Proof.Machine.execMaxi x wd f s
  | .mul x wd f => Sys2Proof.Machine.execMul x wd f s
  | .mulh x wd f => Sys2Proof.Machine.execMulh x wd f s
  | .mulhu x wd f => Sys2Proof.Machine.execMulhu x wd f s
  | .div x wd f => Sys2Proof.Machine.execDiv x wd f s
  | .divu x wd f => Sys2Proof.Machine.execDivu x wd f s
  | .rem x wd f => Sys2Proof.Machine.execRem x wd f s
  | .remu x wd f => Sys2Proof.Machine.execRemu x wd f s
  | .fadd x wd f => Sys2Proof.Machine.execFadd x wd f s
  | .fsub x wd f => Sys2Proof.Machine.execFsub x wd f s
  | .fmul x wd f => Sys2Proof.Machine.execFmul x wd f s
  | .fma x wd f => Sys2Proof.Machine.execFma x wd f s
  | .fnma x wd f => Sys2Proof.Machine.execFnma x wd f s
  | .fdiv x wd f => Sys2Proof.Machine.execFdiv x wd f s
  | .fmin x wd f => Sys2Proof.Machine.execFmin x wd f s
  | .fmax x wd f => Sys2Proof.Machine.execFmax x wd f s
  | .fcmpeq x wd f => Sys2Proof.Machine.execFcmpeq x wd f s
  | .fcmplt x wd f => Sys2Proof.Machine.execFcmplt x wd f s
  | .fcmple x wd f => Sys2Proof.Machine.execFcmple x wd f s
  | .fcvtDW x f => Sys2Proof.Machine.execFcvtDW x f s
  | .fcvtWD x f => Sys2Proof.Machine.execFcvtWD x f s
  | .ftoi x wd f => Sys2Proof.Machine.execFtoi x wd f s
  | .itof x wd f => Sys2Proof.Machine.execItof x wd f s
  | .ldq x f => Sys2Proof.Machine.execLdq x f s
  | .ldqs x f => Sys2Proof.Machine.execLdqs x f s
  | .ldh x f => Sys2Proof.Machine.execLdh x f s
  | .ldhs x f => Sys2Proof.Machine.execLdhs x f s
  | .ldw x f => Sys2Proof.Machine.execLdw x f s
  | .ldwu x f => Sys2Proof.Machine.execLdwu x f s
  | .ldd x f => Sys2Proof.Machine.execLdd x f s
  | .ldqx x f => Sys2Proof.Machine.execLdqx x f s
  | .ldqsx x f => Sys2Proof.Machine.execLdqsx x f s
  | .ldhx x f => Sys2Proof.Machine.execLdhx x f s
  | .ldhsx x f => Sys2Proof.Machine.execLdhsx x f s
  | .ldwx x f => Sys2Proof.Machine.execLdwx x f s
  | .ldwux x f => Sys2Proof.Machine.execLdwux x f s
  | .lddx x f => Sys2Proof.Machine.execLddx x f s
  | .ldsf x f => Sys2Proof.Machine.execLdsf x f s
  | .dclean x f => Sys2Proof.Machine.execDclean x f s
  | .dflush x f => Sys2Proof.Machine.execDflush x f s
  | .dinv x f => Sys2Proof.Machine.execDinv x f s
  | .dfillk x f => Sys2Proof.Machine.execDfillk x f s
  | .iinv x f => Sys2Proof.Machine.execIinv x f s
  | .rnginv x f => Sys2Proof.Machine.execRnginv x f s
  | .rangeEnginePass c => Sys2Proof.Machine.execRangeEnginePass c s
  | .tlbi x f => Sys2Proof.Machine.execTlbi x f s
  | .stq x f => Sys2Proof.Machine.execStq x f s
  | .sth x f => Sys2Proof.Machine.execSth x f s
  | .stw x f => Sys2Proof.Machine.execStw x f s
  | .std x f => Sys2Proof.Machine.execStd x f s
  | .stqx x f => Sys2Proof.Machine.execStqx x f s
  | .sthx x f => Sys2Proof.Machine.execSthx x f s
  | .stwx x f => Sys2Proof.Machine.execStwx x f s
  | .stdx x f => Sys2Proof.Machine.execStdx x f s
  | .stsf x f => Sys2Proof.Machine.execStsf x f s
  | .storeVisible c => Sys2Proof.Machine.execStoreVisible c s
  | .br x off => Sys2Proof.Machine.execBr x off s
  | .bz x a off => Sys2Proof.Machine.execBz x a off s
  | .bnz x a off => Sys2Proof.Machine.execBnz x a off s
  | .bltz x a off => Sys2Proof.Machine.execBltz x a off s
  | .bgez x a off => Sys2Proof.Machine.execBgez x a off s
  | .call x off => Sys2Proof.Machine.execCall x off s
  | .jr x f => Sys2Proof.Machine.execJr x f s
  | .callr x f => Sys2Proof.Machine.execCallr x f s
  | .ret x f => Sys2Proof.Machine.execRet x f s
  | .lapc x f => Sys2Proof.Machine.execLapc x f s
  | .mfs x f => Sys2Proof.Machine.execMfs x f s
  | .mts x f => Sys2Proof.Machine.execMts x f s
  | .sysc x f => Sys2Proof.Machine.execSysc x f s
  | .eret x f => Sys2Proof.Machine.execEret x f s
  | .wcall x f => Sys2Proof.Machine.execWcall x f s
  | .wret x f => Sys2Proof.Machine.execWret x f s
  | .lck x f => Sys2Proof.Machine.execLck x f s
  | .ulk x f => Sys2Proof.Machine.execUlk x f s
  | .lockedSequenceTimeout c => Sys2Proof.Machine.execLockedSequenceTimeout c s
  | .doze x f => Sys2Proof.Machine.execDoze x f s
  | .waitm x f => Sys2Proof.Machine.execWaitm x f s
  | .waitmLimitExpiry c => Sys2Proof.Machine.execWaitmLimitExpiry c s
  | .fbar x f => Sys2Proof.Machine.execFbar x f s
  | .brk x f => Sys2Proof.Machine.execBrk x f s
  | .idone x f => Sys2Proof.Machine.execIdone x f s
  | .mfence x f => Sys2Proof.Machine.execMfence x f s
  | .mfenceComplete c => Sys2Proof.Machine.execMfenceComplete c s
  | .resultLanding c => Sys2Proof.Machine.execResultLanding c s
  | .safePointDrought c => Sys2Proof.Machine.execSafePointDrought c s
  | .trapEntry c => Sys2Proof.Machine.execTrapEntry c s
  | .missFillComplete c miss => Sys2Proof.Machine.execMissFillComplete c miss s
  | .tlbWalkComplete c => Sys2Proof.Machine.execTlbWalkComplete c s
  | .evictionWritebackComplete c => Sys2Proof.Machine.execEvictionWritebackComplete c s
  | .tileAfsetWrite rq c value => Sys2Proof.Machine.execTileAfsetWrite rq c value s
  | .ivcRingWrite rq value => Sys2Proof.Machine.execIvcRingWrite rq value s
  | .doorbellAccept => Sys2Proof.Machine.execDoorbellAccept s
  | .windowTimeFire src => Sys2Proof.Machine.execWindowTimeFire src s
  | .ivcRouteWrite rq src value => Sys2Proof.Machine.execIvcRouteWrite rq src value s
  | .interruptDeliveryLaunch t => Sys2Proof.Machine.execInterruptDeliveryLaunch t s
  | .interruptDeliveryOffer t => Sys2Proof.Machine.execInterruptDeliveryOffer t s
  | .interruptEntry c => Sys2Proof.Machine.execInterruptEntry c s
  | .stackFaultEntry c => Sys2Proof.Machine.execStackFaultEntry c s
  | .watchdogExpiry c => Sys2Proof.Machine.execWatchdogExpiry c s
  | .watchdogKick rq c value => Sys2Proof.Machine.execWatchdogKick rq c value s
  | .watchdogCtlWrite rq c value => Sys2Proof.Machine.execWatchdogCtlWrite rq c value s
  | .slotGrant slot => Sys2Proof.Machine.execSlotGrant slot s
  | .slotTransfer slot => Sys2Proof.Machine.execSlotTransfer slot s
  | .slotRefresh slot => Sys2Proof.Machine.execSlotRefresh slot s
  | .mgmtSlot slot => Sys2Proof.Machine.execMgmtSlot slot s
  | .deliveryCommit q => Sys2Proof.Machine.execDeliveryCommit q s
  | .slcDeliveryStalled q => Sys2Proof.Machine.execSlcDeliveryStalled q s
  | .slcPost rq q n => Sys2Proof.Machine.execSlcPost rq q n s
  | .slcRelease rq q rcount => Sys2Proof.Machine.execSlcRelease rq q rcount s
  | .queueStop rq q stop => Sys2Proof.Machine.execQueueStop rq q stop s
  | .tideBoundary => Sys2Proof.Machine.execTideBoundary s
  | .culvertDescriptor c => Sys2Proof.Machine.execCulvertDescriptor c s
  | .descriptorStart c => Sys2Proof.Machine.execDescriptorStart c s
  | .hostCompletion c octets error => Sys2Proof.Machine.execHostCompletion c octets error s
  | .culvertCompletionPoint c => Sys2Proof.Machine.execCulvertCompletionPoint c s
  | .completionRecordWrite c => Sys2Proof.Machine.execCompletionRecordWrite c s
  | .culvertAbort rq c tag => Sys2Proof.Machine.execCulvertAbort rq c tag s
  | .keyLoad rq typ slot => Sys2Proof.Machine.execKeyLoad rq typ slot s
  | .keyEmpty rq slot => Sys2Proof.Machine.execKeyEmpty rq slot s
  | .completionTimeout c addr => Sys2Proof.Machine.execCompletionTimeout c addr s
  | .chartKeyAccept => Sys2Proof.Machine.execChartKeyAccept s
  | .lookupDecision c => Sys2Proof.Machine.execLookupDecision c s
  | .resultElementWrite c => Sys2Proof.Machine.execResultElementWrite c s
  | .chartLookup rq ch nohit => Sys2Proof.Machine.execChartLookup rq ch nohit s
  | .chartInsert rq ch ipol => Sys2Proof.Machine.execChartInsert rq ch ipol s
  | .chartUpdate rq ch => Sys2Proof.Machine.execChartUpdate rq ch s
  | .chartDelete rq ch idle => Sys2Proof.Machine.execChartDelete rq ch idle s
  | .chartAge rq ch pos => Sys2Proof.Machine.execChartAge rq ch pos s
  | .chartRead rq ch pos => Sys2Proof.Machine.execChartRead rq ch pos s
  | .chartCommandCommit => Sys2Proof.Machine.execChartCommandCommit s
  | .chartWriteThrough => Sys2Proof.Machine.execChartWriteThrough s
  | .viDoorbellWrite v off octets => Sys2Proof.Machine.execViDoorbellWrite v off octets s
  | .dbpendRead rq v k => Sys2Proof.Machine.execDbpendRead rq v k s
  | .shadowWrite v off octets => Sys2Proof.Machine.execShadowWrite v off octets s
  | .shadowRead v off len => Sys2Proof.Machine.execShadowRead v off len s
  | .vifSyncTimeout v => Sys2Proof.Machine.execVifSyncTimeout v s
  | .vifSackWrite rq value => Sys2Proof.Machine.execVifSackWrite rq value s
  | .vifEpostWrite rq value => Sys2Proof.Machine.execVifEpostWrite rq value s
  | .msixSignal rq value => Sys2Proof.Machine.execMsixSignal rq value s
  | .msixWindowTimeFire v n => Sys2Proof.Machine.execMsixWindowTimeFire v n s
  | .msixSend v n => Sys2Proof.Machine.execMsixSend v n s
  | .hostControlWindowWrite v off value => Sys2Proof.Machine.execHostControlWindowWrite v off value s
  | .flrAccept v => Sys2Proof.Machine.execFlrAccept v s
  | .vfEnableClear g f enable numVfs => Sys2Proof.Machine.execVfEnableClear g f enable numVfs s
  | .vifRdoneWrite rq value => Sys2Proof.Machine.execVifRdoneWrite rq value s
  | .viResetComplete v => Sys2Proof.Machine.execViResetComplete v s
  | .vifFlrLate v => Sys2Proof.Machine.execVifFlrLate v s
  | .hperstFall g => Sys2Proof.Machine.execHperstFall g s
  | .hperstRise g => Sys2Proof.Machine.execHperstRise g s
  | .prtLinkUp l width rate => Sys2Proof.Machine.execPrtLinkUp l width rate s
  | .prtLinkNoflit g => Sys2Proof.Machine.execPrtLinkNoflit g s
  | .prtLinkDown l => Sys2Proof.Machine.execPrtLinkDown l s
  | .prtLaneFault lane los => Sys2Proof.Machine.execPrtLaneFault lane los s
  | .prtFecHigh p corrected uncorrected => Sys2Proof.Machine.execPrtFecHigh p corrected uncorrected s
  | .frameReceive p octets err => Sys2Proof.Machine.execFrameReceive p octets err s
  | .pfcRefresh p => Sys2Proof.Machine.execPfcRefresh p s
  | .pfcFrameReceive p classes quanta => Sys2Proof.Machine.execPfcFrameReceive p classes quanta s
  | .pauseExpiry p c => Sys2Proof.Machine.execPauseExpiry p c s
  | .prtTxPausedLong p c => Sys2Proof.Machine.execPrtTxPausedLong p c s
  | .frameTransmit p => Sys2Proof.Machine.execFrameTransmit p s
  | .dramReadAccept rq line => Sys2Proof.Machine.execDramReadAccept rq line s
  | .dramWriteAccept rq line lo width value => Sys2Proof.Machine.execDramWriteAccept rq line lo width value s
  | .dramCommandIssue sub ready => Sys2Proof.Machine.execDramCommandIssue sub ready s
  | .dramReadData sub errs => Sys2Proof.Machine.execDramReadData sub errs s
  | .rowIdleClose sub bank => Sys2Proof.Machine.execRowIdleClose sub bank s
  | .refreshTimer sub => Sys2Proof.Machine.execRefreshTimer sub s
  | .mr4Poll hot => Sys2Proof.Machine.execMr4Poll hot s
  | .selfRefreshIdleEntry ch => Sys2Proof.Machine.execSelfRefreshIdleEntry ch s
  | .drcSrctlWrite rq value => Sys2Proof.Machine.execDrcSrctlWrite rq value s
  | .selfRefreshExit ch => Sys2Proof.Machine.execSelfRefreshExit ch s
  | .drcFreqWrite rq value => Sys2Proof.Machine.execDrcFreqWrite rq value s
  | .frequencyStepComplete ch ns => Sys2Proof.Machine.execFrequencyStepComplete ch ns s
  | .drcDevfailCommand rq value => Sys2Proof.Machine.execDrcDevfailCommand rq value s
  | .reportAccept => Sys2Proof.Machine.execReportAccept s
  | .logCommit => Sys2Proof.Machine.execLogCommit s
  | .healthSignalPost => Sys2Proof.Machine.execHealthSignalPost s
  | .opsecTick => Sys2Proof.Machine.execOpsecTick s
  | .lgbRidxWrite rq n => Sys2Proof.Machine.execLgbRidxWrite rq n s
  | .traceDrainLine t => Sys2Proof.Machine.execTraceDrainLine t s
  | .wktLoss t => Sys2Proof.Machine.execWktLoss t s
  | .tileWctlWrite rq t value => Sys2Proof.Machine.execTileWctlWrite rq t value s
  | .traceBufferEmpty rq t value => Sys2Proof.Machine.execTraceBufferEmpty rq t value s
  | .wktRdptrWrite rq t value => Sys2Proof.Machine.execWktRdptrWrite rq t value s
  | .tileWdataRead rq t => Sys2Proof.Machine.execTileWdataRead rq t s
  | .debugHaltRequest rq c value => Sys2Proof.Machine.execDebugHaltRequest rq c value s
  | .debugStep rq c value => Sys2Proof.Machine.execDebugStep rq c value s
  | .debugRelease rq c value => Sys2Proof.Machine.execDebugRelease rq c value s
  | .dbgHalt c => Sys2Proof.Machine.execDbgHalt c s
  | .channelPulse => Sys2Proof.Machine.execChannelPulse s
  | .xtrigInEdge => Sys2Proof.Machine.execXtrigInEdge s
  | .dbgXpulseWrite rq value => Sys2Proof.Machine.execDbgXpulseWrite rq value s
  | .xtrigOutEnd => Sys2Proof.Machine.execXtrigOutEnd s
  | .debugFrameRead reg seq mark par => Sys2Proof.Machine.execDebugFrameRead reg seq mark par s
  | .debugFrameWrite reg seq mark par data => Sys2Proof.Machine.execDebugFrameWrite reg seq mark par data s
  | .debugBreak => Sys2Proof.Machine.execDebugBreak s
  | .dctlAbort seq => Sys2Proof.Machine.execDctlAbort seq s
  | .dctlClear seq => Sys2Proof.Machine.execDctlClear seq s
  | .debugPhysicalAccess => Sys2Proof.Machine.execDebugPhysicalAccess s
  | .debugCoreAccess => Sys2Proof.Machine.execDebugCoreAccess s
  | .debugL1Read => Sys2Proof.Machine.execDebugL1Read s
  | .debugAccessComplete => Sys2Proof.Machine.execDebugAccessComplete s
  | .registerWrite rq addr size oct value => Sys2Proof.Machine.execRegisterWrite rq addr size oct value s
  | .smbReadIdent => Sys2Proof.Machine.execSmbReadIdent s
  | .smbReadAssetTag => Sys2Proof.Machine.execSmbReadAssetTag s
  | .smbReadStartState => Sys2Proof.Machine.execSmbReadStartState s
  | .smbReadTileMap => Sys2Proof.Machine.execSmbReadTileMap s
  | .smbReadLogCounts => Sys2Proof.Machine.execSmbReadLogCounts s
  | .smbLatchRecord octets pecOk => Sys2Proof.Machine.execSmbLatchRecord octets pecOk s
  | .smbReadRecord => Sys2Proof.Machine.execSmbReadRecord s
  | .smbRegisterSelect octets pecOk => Sys2Proof.Machine.execSmbRegisterSelect octets pecOk s
  | .smbRegisterRead => Sys2Proof.Machine.execSmbRegisterRead s
  | .smbRegisterWrite octets pecOk => Sys2Proof.Machine.execSmbRegisterWrite octets pecOk s
  | .smbReadAlertSequence => Sys2Proof.Machine.execSmbReadAlertSequence s
  | .smbAlertResponse => Sys2Proof.Machine.execSmbAlertResponse s
  | .hotReset g => Sys2Proof.Machine.execHotReset g s
  | .unlistedOpcode x word => Sys2Proof.Machine.execUnlistedOpcode x word s
  | .fetchFault c => Sys2Proof.Machine.execFetchFault c s

end Sys2Proof.Machine
end

