-- ==== Sys2Proof/Machine/Step.lean ====
section
/-! DEFINITION. Step.lean: one step takes the command that has waited longest; an empty queue lets one nanosecond pass. -/

namespace Sys2Proof.Machine

/-- One nanosecond without a command: the chronometer counts while the module has power (R90), and a vault's islands go off
when their time has come (R43). DESIGN CHOICE: log entry 2. -/
def tick (s : State) : State := if s.cfg.phase = .dark then s else vaultIslands (reachTime (s.isl.chron + 1) s)

/-- One step of the block. -/
def step (s : State) : Host.Outcome State Fault Refusal :=
  match s.pending with
  | [] => .next (tick s)
  | c :: rest => exec c { s with pending := rest }

/-- The state with the command that a word spells at the front of its queue; no word spells one. DESIGN CHOICE: log
entry 1. -/
def State.withFetchWord (s : State) (nbits w : Nat) : State :=
  match decodeTableWord nbits w with
  | none => s
  | some c => { s with pending := c :: s.pending }

end Sys2Proof.Machine
end

