-- ==== Sys2Proof/Safety.lean ====
section
/-! DEFINITION. Safety.lean: the terms in which the claims are stated: when a syllable may issue and what issuing it does,
when an access of a core reaches its target, the values of the integer operations in exact arithmetic, and the canonical
forms that every step keeps. -/

namespace Sys2Proof.Machine

/-- The canonical form of memory: addresses strictly rising, and no entry equal to what an unlisted address reads as.
DESIGN CHOICE: log entry 6. -/
abbrev Memory.wf (m : List Host.Cell) : Bool := mwf (0 : BitVec 8) m

/-- The state in which a syllable acts: its bundle is open. -/
abbrev opened (x : Issue) (s : State) : State := (beginSyllable x s).1

/-- The core of a syllable in that state. -/
abbrev openedCore (x : Issue) (s : State) : Core := coreAt (opened x s) (issueIx x)

/-- A syllable may issue: its core runs at a boundary that lets a bundle issue, or its bundle is open and no later slot of
it has been named. -/
def MayIssue (x : Issue) (s : State) : Prop := (beginSyllable x s).2 = true

/-- S2 is free: no division occupies it (R146). -/
def S2Free (x : Issue) (s : State) : Prop := (openedCore x s).s2Busy = false

/-- A command is a syllable that issues: its effect on the opened state gives `t`, and then the syllable ends. -/
def Issues (c : Instr) (x : Issue) (long : Bool) (s t : State) : Prop :=
  exec c s = .next (closeSyllable x long noPost t)

/-- A command is a syllable whose effect is one result: `val` lands in `dest` after `lat` contract cycles. -/
def ResultIssues (c : Instr) (x : Issue) (long : Bool) (lat : Nat) (dest : BitVec 6) (val : Double) (s : State) : Prop :=
  Issues c x long s (result (issueIx x) x.slot.val lat dest val (opened x s))

/-- The same where the syllable has reached the state `s1` before its result starts. -/
def ResultIssuesAt (c : Instr) (x : Issue) (lat : Nat) (dest : BitVec 6) (val : Double) (s s1 : State) : Prop :=
  Issues c x false s (result (issueIx x) x.slot.val lat dest val s1)

/-- An operation of the width of its syllable: a .W result is sign-extended to 72 bits (R101). -/
def atWidth (wd : Width) (g : (n : Nat) → BitVec n → BitVec n → BitVec n) (a b : Double) : Double :=
  match wd with
  | .w => (g 36 (a.setWidth 36) (b.setWidth 36)).signExtend 72
  | .d => g 72 a b

/-- The count of a shift: the low 6 bits for .W, the low 7 bits for .D (R167). -/
def countBits {n : Nat} (b : BitVec n) : Nat := if n = 36 then b.toNat % 64 else b.toNat % 128

/-- The values of the fifteen integer operations of R166 and R167, in exact arithmetic. -/
def exactInt : List ((n : Nat) → BitVec n → BitVec n → BitVec n) :=
  [ fun n a b => BitVec.ofNat n (a.toNat + b.toNat),
    fun n a b => BitVec.ofInt n (a.toInt - b.toInt),
    fun _ a b => a &&& b,
    fun _ a b => a ||| b,
    fun _ a b => a ^^^ b,
    fun _ a b => a &&& ~~~b,
    fun n a b => BitVec.ofNat n (a.toNat * 2 ^ countBits b),
    fun n a b => BitVec.ofNat n (a.toNat / 2 ^ countBits b),
    fun n a b => BitVec.ofInt n (a.toInt / 2 ^ countBits b),
    fun n a b => (a <<< (countBits b % n)) ||| (a >>> (n - countBits b % n)),
    fun _ a b => if a = b then 1 else 0,
    fun _ a b => if a.toInt < b.toInt then 1 else 0,
    fun _ a b => if a.toNat < b.toNat then 1 else 0,
    fun _ a b => if a.toInt ≤ b.toInt then a else b,
    fun _ a b => if a.toInt ≤ b.toInt then b else a ]

/-- The register forms of those operations, in the same order. -/
def integerForms (x : Issue) (wd : Width) (f : RegForm) : List Instr :=
  [.add x wd f, .sub x wd f, .and x wd f, .or x wd f, .xor x wd f, .andn x wd f, .shl x wd f, .shr x wd f, .sar x wd f,
    .rol x wd f, .cmpeq x wd f, .cmplt x wd f, .cmpltu x wd f, .min x wd f, .max x wd f]

/-- Their immediate forms. -/
def immediateForms (x : Issue) (wd : Width) (f : ImmForm) : List Instr :=
  [.addi x wd f, .subi x wd f, .andi x wd f, .ori x wd f, .xori x wd f, .andni x wd f, .shli x wd f, .shri x wd f,
    .sari x wd f, .roli x wd f, .cmpeqi x wd f, .cmplti x wd f, .cmpltui x wd f, .mini x wd f, .maxi x wd f]

/-- The one bits among the low `w` bits. -/
def oneBits (w : Nat) (a : Double) : Nat := ((List.range w).filter fun i => a.getLsbD i).length

/-- A core access goes through in S3: no comparator stops it, it is aligned, its translation gives a physical address,
memory type and view, and neither the view nor the world rule refuses it (R112, R199, R232). `s1` is the state after the
comparators and the TLBs have seen it. -/
def Reaches (i va n : Nat) (need : Need) (side store watched : Bool) (s s1 : State) (pa mt : Nat) (oct : Bool) : Prop :=
  let w := if watched then watchAccess i va n store s else s
  stopped w i = false ∧ va % n = 0 ∧ s1 = tlbRefill i va w ∧ translate (coreAt s1 i) i va need = .ok pa mt oct ∧
    (side = true → oct = true) ∧ (mt = 2 ∨ worldMay s1 (coreAt s1 i).sec pa = true)

/-- The loads: command, units, extension, side field, virtual address (R109, R113, R114). -/
def loadForms (x : Issue) (k : Core) (f : ImmForm) (r : RegForm) : List (Instr × Nat × LoadExt × Bool × Nat × BitVec 6) :=
  let a := (k.read f.a + f.imm.signExtend 72).toNat % 2 ^ 48
  let b := (k.read r.a + k.read r.b).toNat % 2 ^ 48
  [(.ldq x f, 1, .zero, false, a, f.dest), (.ldqs x f, 1, .sign, false, a, f.dest), (.ldh x f, 2, .zero, false, a, f.dest),
    (.ldhs x f, 2, .sign, false, a, f.dest), (.ldw x f, 4, .sign, false, a, f.dest),
    (.ldwu x f, 4, .zero, false, a, f.dest), (.ldd x f, 8, .zero, false, a, f.dest), (.ldsf x f, 1, .zero, true, a, f.dest),
    (.ldqx x r, 1, .zero, false, b, r.dest), (.ldqsx x r, 1, .sign, false, b, r.dest),
    (.ldhx x r, 2, .zero, false, b, r.dest), (.ldhsx x r, 2, .sign, false, b, r.dest),
    (.ldwx x r, 4, .sign, false, b, r.dest), (.ldwux x r, 4, .zero, false, b, r.dest),
    (.lddx x r, 8, .zero, false, b, r.dest)]

/-- The stores: command, units, side field, virtual address, data register (R109, R113, R114). -/
def storeForms (x : Issue) (k : Core) (f : ImmForm) (r : RegForm) : List (Instr × Nat × Bool × Nat × BitVec 6) :=
  let a := (k.read f.a + f.imm.signExtend 72).toNat % 2 ^ 48
  let b := (k.read r.a + k.read r.b).toNat % 2 ^ 48
  [(.stq x f, 1, false, a, f.dest), (.sth x f, 2, false, a, f.dest), (.stw x f, 4, false, a, f.dest),
    (.std x f, 8, false, a, f.dest), (.stsf x f, 1, true, a, f.dest), (.stqx x r, 1, false, b, r.dest),
    (.sthx x r, 2, false, b, r.dest), (.stwx x r, 4, false, b, r.dest), (.stdx x r, 8, false, b, r.dest)]

/-- The canonical form of memory and of every table that the claims assume canonical. -/
def Canonical (s : State) : Prop :=
  Memory.wf s.mem = true ∧ mwf {} s.cores = true ∧ mwf {} s.tiles = true ∧ mwf {} s.isl.tiles = true ∧
    mwf {} s.slc.queues = true ∧ mwf none s.slc.delivs = true ∧ mwf {} s.cul.culs = true ∧ mwf {} s.cht.chans = true ∧
    mwf {} s.vif.vis = true ∧ mwf {} s.prt.groups = true ∧ mwf {} s.prt.ports = true ∧ mwf {} s.prt.quads = true ∧
    mwf {} s.drc.subs = true ∧ mwf {} s.drc.chans = true ∧ mwf [] s.drc.marks = true ∧ mwf {} s.nv.records = true ∧
    mwf 0 s.hlt.cnt = true ∧ (∀ i, mwf 0 (coreAt s i).regs = true) ∧ (∀ p, mwf 0 (portAt s p).pause = true) ∧
    ∀ v, mwf 0 (viAt s v).dbval = true ∧ mwf {} (viAt s v).errs = true ∧ mwf {} (viAt s v).vecs = true

end Sys2Proof.Machine
end

