-- ==== Sys2Proof/Certificates/Slice0/Obligations.lean ====
section
/-! DEFINITION. Obligations.lean: the statements for the provers, one definition each. -/

open Sys2Proof Sys2Proof.Machine

/-- A step runs the command at the front of the queue. For every command c, every queue rest and every state: step of
the state whose queue is c followed by rest is exec of c on the state with the queue rest; on an empty queue step
answers the state one nanosecond later, with the islands of a vault off once their time has come (log entry 2: the
model's choice), or the state itself in DARK. (00_reading.md.) -/
def Obligations.FrontCommandRuns : Prop :=
  (∀ (c : Instr) (rest : List Instr) (s : State),
      step { s with pending := c :: rest } = exec c { s with pending := rest }) ∧
    ∀ s : State, s.pending = [] → step s = .next (if s.cfg.phase = .dark then s
      else vaultIslands (reachTime (s.isl.chron + 1) s))

/-- The register and immediate forms of the integer group issue the exact result. ADD, SUB, AND, OR, XOR, ANDN, SHL,
SHR, SAR, ROL, CMPEQ, CMPLT, CMPLTU, MIN and MAX: when the syllable may issue in S0 or S1 with func o000, or with func
o777 for a long immediate, exec answers the next state in which the result lands one contract cycle later with the
value that exact arithmetic modulo 2^w gives; counts of w or more give what the table of R167 gives. The immediate
forms ADDI to MAXI land, when the syllable may issue in S0 or S1, the result of the same operation on srcA and the
sign-extended imm15. (R104, R107, R109, R147, R166, R167.) -/
def Obligations.IntegerForms : Prop :=
  ∀ (x : Issue) (wd : Width) (f : RegForm) (g : ImmForm) (s : State), MayIssue x s → (x.slot = 0 ∨ x.slot = 1) →
    (f.func = 0 ∨ f.func = 0o777#9 → ∀ p ∈ (integerForms x wd f).zip exactInt,
      ResultIssues p.1 x (f.func == 0o777#9) 1 f.dest
        (atWidth wd p.2 ((openedCore x s).read f.a)
          (if f.func = 0o777#9 then x.next.signExtend 72 else (openedCore x s).read f.b)) s) ∧
    ∀ p ∈ (immediateForms x wd g).zip exactInt,
      ResultIssues p.1 x false 1 g.dest (atWidth wd p.2 ((openedCore x s).read g.a) (g.imm.signExtend 72)) s

/-- PAR, CLZ, CTZ and POPC count bits, BREV reverses them, CRC shifts octets through a polynomial. When the syllable
may issue in S0 or S1: PAR, CLZ, CTZ, POPC, BREV.O and BREV.W with their zero fields zero answer the next state in
which the named count (CLZ and CTZ of zero give w), parity or reversal of srcA lands one contract cycle later, with no
flag; CRC with func below 8 and func[1:0] not b11 answers the one in which, two contract cycles later, the check value
of 4 or 8 octets of srcB, lowest first, lands, each octet entering the low bits of the previous value and eight
reflected steps following with the polynomial that func[1:0] selects, which for b10 is TILE_CRCPc.POLY as a load of
the core would read it in this cycle. (R109, R168, R190, R191, R192.) -/
def Obligations.CountsReversalsAndCrc : Prop :=
  ∀ (x : Issue) (wd : Width) (f : RegForm) (s : State), MayIssue x s → (x.slot = 0 ∨ x.slot = 1) →
    (f.func = 0 → f.b = 0 →
      let a := (openedCore x s).read f.a
      let w := widthBits wd
      ResultIssues (.par x wd f) x false 1 f.dest (if oneBits w a % 2 = 1 then 1 else 0) s ∧
      ResultIssues (.popc x wd f) x false 1 f.dest (BitVec.ofNat 72 (oneBits w a)) s ∧
      ResultIssues (.ctz x wd f) x false 1 f.dest
        (BitVec.ofNat 72 ((List.range w).findIdx fun i => a.getLsbD i)) s ∧
      ResultIssues (.clz x wd f) x false 1 f.dest
        (BitVec.ofNat 72 ((List.range w).findIdx fun i => a.getLsbD (w - 1 - i))) s ∧
      (∃ v : Double, (∀ i < 72, v.getLsbD i = a.getLsbD (8 * (i / 8) + (7 - i % 8))) ∧
        ResultIssues (.brevO x f) x false 1 f.dest v s) ∧
      ∃ v : Double, (∀ i < 72, v.getLsbD i = a.getLsbD (36 * (i / 36) + (35 - i % 36))) ∧
        ResultIssues (.brevW x f) x false 1 f.dest v s) ∧
    (f.func.toNat < 8 → f.func.toNat % 4 ≠ 3 →
      let k := openedCore x s
      let poly := match f.func.toNat % 4 with
        | 0 => polyCrc32c
        | 1 => polyCrc64
        | _ => crcPolyNow s (issueIx x) k
      let bit := fun (c : Nat) (_ : Nat) => if c % 2 = 1 then (c / 2) ^^^ poly else c / 2
      let octet := fun (c : Nat) (o : Nat) => (List.range 8).foldl bit (c ^^^ o)
      let octets := (List.range (if f.func.toNat < 4 then 4 else 8)).map fun i =>
        (k.read f.b).toNat / 2 ^ (8 * i) % 256
      ResultIssues (.crc x f) x false 2 f.dest
        (BitVec.ofNat 72 (octets.foldl octet ((k.read f.a).toNat % 2 ^ (if f.func.toNat % 4 = 1 then 64 else 32)))) s)

/-- MUL, MULH and MULHU issue the halves of the product, latency 3, and raise no flag. MUL, MULH and MULHU: when the
syllable may issue in S2, no division occupies S2 and func is o000 or o777, exec answers the next state in which the
low w bits of the product, bits [2w-1:w] of the signed product, or bits [2w-1:w] of the unsigned product land three
contract cycles later. MUL is stated with both the signed and the unsigned product. (R169.) -/
def Obligations.MultiplyForms : Prop :=
  ∀ (x : Issue) (wd : Width) (f : RegForm) (s : State), MayIssue x s → S2Free x s → x.slot = 2 →
    (f.func = 0 ∨ f.func = 0o777#9) →
      let a := (openedCore x s).read f.a
      let b := if f.func = 0o777#9 then x.next.signExtend 72 else (openedCore x s).read f.b
      let lands := fun c g => ResultIssues c x (f.func == 0o777#9) 3 f.dest (atWidth wd g a b) s
      lands (.mul x wd f) (fun n a b => BitVec.ofInt n (a.toInt * b.toInt)) ∧
      lands (.mul x wd f) (fun n a b => BitVec.ofNat n (a.toNat * b.toNat)) ∧
      lands (.mulh x wd f) (fun n a b => BitVec.ofInt n (a.toInt * b.toInt / 2 ^ n)) ∧
      lands (.mulhu x wd f) (fun n a b => BitVec.ofNat n (a.toNat * b.toNat / 2 ^ n))

/-- DIV, DIVU, REM and REMU issue quotient and remainder with DZ and OV. DIV, DIVU, REM and REMU: when the syllable
may issue in S2, no division occupies S2 and func is o000 or o777, exec answers the next state in which, 11 (.W) or 19
(.D) contract cycles later, the quotient truncated toward zero or the remainder lands; divisor zero gives 0 or the
dividend and brings DZ; the most negative value by -1 gives the dividend or 0 and brings OV, in the signed forms only;
the operation occupies S2. (R170, R109, R146, R147.) -/
def Obligations.DivideForms : Prop :=
  ∀ (x : Issue) (wd : Width) (f : RegForm) (s : State), MayIssue x s → S2Free x s → x.slot = 2 →
    (f.func = 0 ∨ f.func = 0o777#9) →
      let a := (openedCore x s).read f.a
      let b := if f.func = 0o777#9 then x.next.signExtend 72 else (openedCore x s).read f.b
      let zero := match wd with
        | .w => b.setWidth 36 == 0#36
        | .d => b == 0#72
      let full := match wd with
        | .w => a.setWidth 36 == BitVec.intMin 36 && b.setWidth 36 == -1#36
        | .d => a == BitVec.intMin 72 && b == -1#72
      let lands := fun c (signed : Bool) (g : (n : Nat) → BitVec n → BitVec n → BitVec n) =>
        Issues c x (f.func == 0o777#9) s
          (launch (issueIx x) 2 (match wd with | .w => 11 | .d => 19) f.dest.toNat (atWidth wd g a b)
            (fun l => { l with busy := true, dz := zero, ov := signed && full }) (opened x s))
      lands (.div x wd f) true (fun n a b =>
        if b = 0 then 0 else if a = BitVec.intMin n ∧ b = -1 then a else BitVec.ofInt n (a.toInt.tdiv b.toInt)) ∧
      lands (.rem x wd f) true (fun n a b =>
        if b = 0 then a else if a = BitVec.intMin n ∧ b = -1 then 0
        else BitVec.ofInt n (a.toInt - a.toInt.tdiv b.toInt * b.toInt)) ∧
      lands (.divu x wd f) false (fun n a b => if b = 0 then 0 else BitVec.ofNat n (a.toNat / b.toNat)) ∧
      lands (.remu x wd f) false (fun n a b =>
        if b = 0 then a else BitVec.ofNat n (a.toNat - a.toNat / b.toNat * b.toNat))

/-- The floating-point group issues its rounded result with its flags. FADD, FSUB, FMUL, FMA, FNMA, FDIV, FMIN, FMAX,
FCMPEQ, FCMPLT, FCMPLE, FCVT.D.W, FCVT.W.D, FTOI and ITOF: when the syllable may issue in S2, no division occupies S2
and func is b000 or b100 to b111 (and srcB is zero where the row reads none), exec answers the next state in which the
result of the operation under the rounding mode that func or FS.RM selects lands after the latency of its row,
bringing its flags; FSUB is FADD of the negated second operand, FNMA is FMA of the negated first operand, and FMA and
FNMA also read dest; FDIV occupies S2. (R109, R110, R146, R147, R175, R177, R178, R179, R180, R181, R182, R184.) -/
def Obligations.FloatingPointForms : Prop :=
  ∀ (x : Issue) (wd : Width) (f : RegForm) (s : State), MayIssue x s → S2Free x s → x.slot = 2 →
    (f.func = 0 ∨ (4 ≤ f.func.toNat ∧ f.func.toNat ≤ 7)) →
      let k := openedCore x s
      let m := fmtOf wd
      let rm := if f.func = 0 then rndOf (k.fs.toNat / 2 ^ 14 % 4) else rndOf f.func.toNat
      let bits := fun (r : BitVec 6) => (k.read r).toNat % 2 ^ widthBits wd
      let a := decodeF m (bits f.a)
      let b := decodeF m (bits f.b)
      let d := decodeF m (bits f.dest)
      let lands := fun c (u : Width) (lat : Nat) (busy : Bool) (r : Nat × Nat) =>
        Issues c x false s
          (launch (issueIx x) 2 lat f.dest.toNat
            (match u with
              | .w => (BitVec.ofNat 36 r.1).signExtend 72
              | .d => BitVec.ofNat 72 r.1)
            (fun l => { l with flags := r.2, fp := true, busy := busy }) (opened x s))
      lands (.fadd x wd f) wd 4 false (fAdd m rm a b) ∧
      lands (.fsub x wd f) wd 4 false (fAdd m rm a (negate b)) ∧
      lands (.fmul x wd f) wd 4 false (fMul m rm a b) ∧
      lands (.fma x wd f) wd 5 false (fFma m rm a b d) ∧
      lands (.fnma x wd f) wd 5 false (fFma m rm (negate a) b d) ∧
      lands (.fdiv x wd f) wd (match wd with | .w => 14 | .d => 22) true (fDiv m rm a b) ∧
      lands (.fmin x wd f) wd 4 false (fMinMax m false (bits f.a) (bits f.b)) ∧
      lands (.fmax x wd f) wd 4 false (fMinMax m true (bits f.a) (bits f.b)) ∧
      lands (.fcmpeq x wd f) wd 4 false (fCompare 0 a b) ∧
      lands (.fcmplt x wd f) wd 4 false (fCompare 1 a b) ∧
      lands (.fcmple x wd f) wd 4 false (fCompare 2 a b) ∧
      (f.b = 0 →
        lands (.fcvtDW x f) .d 4 false (fConvert binary72 rm (decodeF binary36 ((k.read f.a).toNat % 2 ^ 36))) ∧
        lands (.fcvtWD x f) .w 4 false (fConvert binary36 rm (decodeF binary72 ((k.read f.a).toNat % 2 ^ 72))) ∧
        lands (.ftoi x wd f) wd 4 false
          (((fToInt (widthBits wd) rm a).1 % 2 ^ widthBits wd).toNat, (fToInt (widthBits wd) rm a).2) ∧
        lands (.itof x wd f) wd 4 false (fOfInt m rm (match wd with
          | .w => ((k.read f.a).setWidth 36).toInt
          | .d => (k.read f.a).toInt)))

/-- A syllable outside its slots, in a branch delay, with a bad field or in a wrong mode meets ILLEGAL or PRIV and
none of its effect. ADD (for its shape: the integer register forms), ADDI, MUL, FADD, LDD, BR and ERET stand for the
rows of each group: a syllable that may issue in a slot its row does not list meets ILLEGAL with CODE 2 and its word
as EVAL (before any other cause of the same slot: log entry 22, DEDUCED); one in its slot with a func value that is
not listed meets CODE 3; a long immediate in S3 meets CODE 4, before CODE 2 (log entry 22); and an opcode that the map
does not list meets CODE 1. In S3 with its zero fields zero, each syllable of the control group, ERET, WCALL and WRET
in the delay of a taken branch meets CODE 5; outside one, WCALL in the secure world or without a secure image and WRET
on a tile that the secure world owns meet CODE 6, and PRIV with the syllable's word is met by WCALL in the normal user
mode, WRET outside the secure kernel, and ERET, DOZE and IDONE in a user mode. The syllable has no other effect. The
statement cites R108 only for these single-syllable causes. (R92, R100, R106, R107, R108, R118, R121, R124, R129,
R259.) -/
def Obligations.IllegalSyllables : Prop :=
  ∀ (x : Issue) (wd : Width) (f : RegForm) (m : ImmForm) (a : BitVec 6) (o : BitVec 21) (off : BitVec 27) (word : Word)
    (s : State), MayIssue x s →
    let k := openedCore x s
    let priv := fun c w => Issues c x false s (addCause (issueIx x) ⟨3, 3, 1, 0, w⟩ (opened x s))
    let meets := fun c long code w =>
      Issues c x long s (addCause (issueIx x) ⟨2, x.slot.val, 0, code, w⟩ (opened x s))
    (2 ≤ x.slot.val → f.func ≠ 0o777#9 →
      meets (.add x wd f) false 2 (regWord (match wd with | .w => 0o002 | .d => 0o003) f)) ∧
    (2 ≤ x.slot.val → meets (.addi x wd m) false 2 (immWord (match wd with | .w => 0o102 | .d => 0o103) m)) ∧
    (x.slot.val ≠ 2 → f.func ≠ 0o777#9 →
      meets (.mul x wd f) false 2 (regWord (match wd with | .w => 0o200 | .d => 0o201) f)) ∧
    (x.slot.val ≠ 2 → meets (.fadd x wd f) false 2 (regWord (match wd with | .w => 0o300 | .d => 0o301) f)) ∧
    (x.slot.val ≠ 3 → meets (.ldd x m) false 2 (immWord 0o406 m)) ∧
    (x.slot.val ≠ 3 → meets (.br x off) false 2 (packFields [(off.toNat, 27), (0o600, 9)])) ∧
    (x.slot.val ≠ 3 → meets (.eret x m) false 2 (immWord 0o703 m)) ∧
    (x.slot.val < 2 → f.func ≠ 0 → f.func ≠ 0o777#9 →
      meets (.add x wd f) false 3 (regWord (match wd with | .w => 0o002 | .d => 0o003) f)) ∧
    (x.slot = 3 → f.func = 0o777#9 →
      meets (.add x wd f) true 4 (regWord (match wd with | .w => 0o002 | .d => 0o003) f)) ∧
    (opcodeListed (word.toNat / 2 ^ 27) = false → meets (.unlistedOpcode x word) false 1 word.toNat) ∧
    (x.slot = 3 → k.dly ≠ 0 →
      let far := fun (op : Nat) => packFields [(off.toNat, 27), (op, 9)]
      let near := fun (op : Nat) => packFields [(o.toNat % 2 ^ 15, 15), (a.toNat, 6), (o.toNat / 2 ^ 15, 6), (op, 9)]
      meets (.br x off) false 5 (far 0o600) ∧ meets (.call x off) false 5 (far 0o610) ∧
      meets (.bz x a o) false 5 (near 0o601) ∧ meets (.bnz x a o) false 5 (near 0o602) ∧
      meets (.bltz x a o) false 5 (near 0o603) ∧ meets (.bgez x a o) false 5 (near 0o604) ∧
      (f.dest = 0 → f.b = 0 → f.func = 0 →
        meets (.jr x f) false 5 (regWord 0o620 f) ∧ meets (.callr x f) false 5 (regWord 0o621 f) ∧
        (f.a = 0 → meets (.ret x f) false 5 (regWord 0o622 f))) ∧
      (m.a = 0 → meets (.lapc x m) false 5 (immWord 0o630 m)) ∧
      (m.dest = 0 → m.a = 0 → meets (.wcall x m) false 5 (immWord 0o704 m) ∧
        (m.imm = 0 → meets (.eret x m) false 5 (immWord 0o703 m) ∧ meets (.wret x m) false 5 (immWord 0o705 m)))) ∧
    (x.slot = 3 → k.dly = 0 → m.dest = 0 → m.a = 0 →
      (k.sec = true ∨ hasSecureImage s x.tile.val = false → meets (.wcall x m) false 6 (immWord 0o704 m)) ∧
      (k.sec = false → k.kernel = false → hasSecureImage s x.tile.val = true → priv (.wcall x m) (immWord 0o704 m)) ∧
      (m.imm.toNat < 16 → k.kernel = false → priv (.idone x m) (immWord 0o714 m)) ∧
      (m.imm = 0 →
        (tileSec s x.tile.val = true → meets (.wret x m) false 6 (immWord 0o705 m)) ∧
        (tileSec s x.tile.val = false → (k.sec = false ∨ k.kernel = false) → priv (.wret x m) (immWord 0o705 m)) ∧
        (k.kernel = false → priv (.eret x m) (immWord 0o703 m) ∧ priv (.doze x m) (immWord 0o710 m))))

/-- A load from the core's own tile memory lands the stored units, extended, four cycles later. LDQ, LDQS, LDH, LDHS,
LDW, LDWU, LDD, LDSF and their indexed forms: when the syllable may issue in S3, its access reaches the core's own
tile memory, no word it reads has an error, no earlier store of the core to that line waits to become visible and no
locked sequence is open, exec answers the next state in which the units (word view: 9 bits each; octet view: 8), or
the side field, land zero-extended or sign-extended as the row says, 4 contract cycles later; memory is unchanged by
the syllable. (R113, R114, R115, R134, R147, R193, R195.) -/
def Obligations.LoadsFromOwnTileMemory : Prop :=
  ∀ (x : Issue) (f : ImmForm) (r : RegForm) (s s1 : State) (pa : Nat) (oct : Bool), MayIssue x s → x.slot = 3 →
    r.func = 0 → ∀ p ∈ loadForms x (openedCore x s) f r,
      let n := p.2.1
      let side := p.2.2.2.1
      let lo := if side then 512 else if oct then 8 * (pa % 64) else 9 * (pa % 64)
      let w := if side then 64 else if oct then 8 * n else 9 * n
      Reaches (issueIx x) p.2.2.2.2.1 n .load side false true (opened x s) s1 pa 0 oct →
      routeOf s1 (issueIx x) pa 0 = .own →
      (∀ j < 16, mget 0 s1.tmErr (16 * (pa / 64) + j) = 0) →
      (∀ q ∈ (coreAt s1 (issueIx x)).stores, q.line ≠ pa / 64) →
      (coreAt s1 (issueIx x)).seq = none →
        ResultIssuesAt p.1 x 4 p.2.2.2.2.2
          (match p.2.2.1 with
            | .zero => BitVec.ofNat 72 (lineBits s1 (pa / 64) / 2 ^ lo % 2 ^ w)
            | .sign => (BitVec.ofNat w (lineBits s1 (pa / 64) / 2 ^ lo % 2 ^ w)).signExtend 72) s s1

/-- A store to the core's own tile memory waits to become visible, and STORE_VISIBLE then writes exactly its units.
STQ, STH, STW, STD, STSF and their indexed forms: when the syllable may issue in S3 and its access reaches the core's
own tile memory, exec answers the next state in which the low 9 x n or 8 x n bits of the data register (64 for the
side field) wait as a store to the addressed bits of the addressed line; with no locked sequence open the reservations
of other cores on the line break, as the store issues (log entry 21: DEDUCED), and the store joins the core's stores;
in an open sequence it joins the sequence's held stores. The syllable itself leaves memory unchanged. STORE_VISIBLE,
for a core whose one waiting store is to its own tile memory and reaches no uncorrectable word, in a state whose
memory and table of cores are canonical: exec answers a next state in which the addressed stored bits of the line hold
the store's value, the other bits of the line are as before, every octet of every other line reads as before, and the
core's list of stores is empty. (R113, R114, R130, R132, R148, R193, R225.) -/
def Obligations.StoresToOwnTileMemory : Prop :=
  (∀ (x : Issue) (f : ImmForm) (r : RegForm) (s s1 : State) (pa : Nat) (oct : Bool), MayIssue x s → x.slot = 3 →
    r.func = 0 → ∀ p ∈ storeForms x (openedCore x s) f r,
      let n := p.2.1
      let side := p.2.2.1
      let lo := if side then 512 else if oct then 8 * (pa % 64) else 9 * (pa % 64)
      let w := if side then 64 else if oct then 8 * n else 9 * n
      let i := issueIx x
      let k := coreAt s1 i
      let st : PendStore :=
        { line := pa / 64, lo := lo, width := w, val := ((openedCore x s).read p.2.2.2.2).toNat % 2 ^ w
          issued := k.cyc, sec := k.sec }
      Reaches i p.2.2.2.1 n .store side true true (opened x s) s1 pa 0 oct →
      routeOf s1 i pa 0 = .own →
        (k.seq = none → Issues p.1 x false s
          (breakReservations (i / 8) (some i) (pa / 64)
            (setCore i (fun k => { k with stores := k.stores ++ [st] }) s1))) ∧
        ∀ q, k.seq = some q → Issues p.1 x false s
          (setCore i (fun k => { k with seq := some { q with stores := q.stores ++ [st] } }) s1)) ∧
  ∀ (c : CoreId) (s : State) (p : PendStore), (coreAt s (coreIx c)).stores = [p] → p.cached = false →
    p.lo + p.width ≤ 576 → Memory.wf s.mem = true → mwf {} s.cores = true →
    (∀ j < 16, mget 0 s.tmErr (16 * p.line + j) ≠ 255) →
      ∃ t, exec (.storeVisible c) s = .next t ∧
        (coreAt t (coreIx c)).stores = [] ∧
        (∀ b < 576, (lineBits t p.line).testBit b =
          if p.lo ≤ b ∧ b < p.lo + p.width then p.val.testBit (b - p.lo) else (lineBits s p.line).testBit b) ∧
        ∀ a, a / 72 ≠ p.line → mget (0 : BitVec 8) t.mem a = mget 0 s.mem a

/-- The cache and translation operations act on the line, range or entries they name. DCLEAN, DFLUSH, DINV, DFILLK,
IINV, RNGINV and TLBI in S3: when the syllable may issue, its mode allows it and its access goes through to a cached
line (IINV: to any line), exec answers the next state in which (for a line that no miss of the core is to bring) a
dirty frame without a parity error is written back and stays clean (DCLEAN) or is invalidated (DFLUSH in an unlocked
way), a frame in an unlocked way is invalidated without write-back and the line's waiting cached stores are discarded
(DINV), a fill into a locked way is started for a line that the core nowhere holds (DFILLK), the instruction line in a
normal way is invalidated (IINV), the range joins the ranges of the range engine (RNGINV), and the entries that TLBI's
kind, world, context and address name leave both TLB levels. (R203, R211, R212, R213, R215, R199.) -/
def Obligations.CacheOperations : Prop :=
  ∀ (x : Issue) (f : ImmForm) (r : RegForm) (s s1 : State) (pa mt : Nat) (oct : Bool), MayIssue x s → x.slot = 3 →
    let i := issueIx x
    let k0 := openedCore x s
    let k := coreAt s1 i
    let va := (k0.read f.a + f.imm.signExtend 72).toNat % 2 ^ 48
    let line := pa / 64
    let through := fun need store => Reaches i va 1 need false store false (opened x s) s1 pa mt oct
    (∀ key fr, through .load false → routeOf s1 i pa mt = .cached → dFrame s1 i line = some (key, fr) →
      missOn (coreAt s1 i) line = none → fr.bad = 0 → fr.dirty = true →
        Issues (.dclean x f) x false s
          (startWriteBack i line fr.bits fr.sec false false (setFrame i key (some { fr with dirty := false }) s1))) ∧
    (∀ key fr, through .load false → routeOf s1 i pa mt = .cached → dFrame s1 i line = some (key, fr) →
      missOn (coreAt s1 i) line = none → fr.bad = 0 → fr.dirty = true → lockedKey (coreAt s1 i) key = false →
        Issues (.dflush x f) x false s
          (startWriteBack i line fr.bits fr.sec false false (setFrame i key none (leaveLine i line s1)))) ∧
    (∀ key fr s2 s3,
      s3 = setCore i (fun k => { k with stores := k.stores.filter fun p => !(p.cached && p.line == line) }) s1 →
      missOn (coreAt s3 i) line = none → s2 = unserve i line s3 →
      k0.kernel = true → through .store true → routeOf s1 i pa mt = .cached → dFrame s2 i line = some (key, fr) →
      fr.bad = 0 → lockedKey (coreAt (setFrame i key none s2) i) key = false →
        Issues (.dinv x f) x false s (setFrame i key none s2)) ∧
    (k0.kernel = true → through .load false → routeOf s1 i pa mt = .cached → dFrame s1 i line = none → k.fatal = false →
      (emptyLocked k line).isSome = true → evictFind k line = none → missOn k line = none →
        Issues (.dfillk x f) x false s (startMiss i .fillLocked pa 64 oct false [] s1)) ∧
    (∀ w fr, k0.kernel = true → through .fetch false → findWay k.icache k.iway line = some w →
      mget none k.icache (frameKey line w) = some fr → fr.bad = 0 → wayMode k.iway w = 0 →
      mwf {} s1.cores = true →
        Issues (.iinv x f) x false s
          (setCore i (fun k => { k with icache := mset none k.icache (frameKey line w) none }) s1)) ∧
    (k0.kernel = true → stopped (opened x s) i = false → r.func = 0 → k0.ranges.length < 8 →
      (k0.read r.a).toNat < 2 ^ 45 → (k0.read r.b).toNat ≠ 0 →
        Issues (.rnginv x r) x false s
          (setCore i (fun k => { k with ranges := k.ranges ++
            [((k0.read r.a).toNat / 64, Nat.min (k0.read r.b).toNat (2 ^ 39 - (k0.read r.a).toNat / 64), k0.sec)] })
            (opened x s))) ∧
    (k0.kernel = true → stopped (opened x s) i = false → r.func = 0 →
        let b := (k0.read r.b).toNat
        let va := (k0.read r.a).toNat % 2 ^ 48
        let gone := fun (e : TlbEntry) =>
          decide (e.sec = k0.sec) && match b % 4 with
            | 0 => true
            | 1 => !e.g && decide (e.ctx = b / 4 % 2 ^ 16)
            | 2 => decide (e.va = va / 2 ^ pageBits e.lvl) && (e.g || decide (e.ctx = b / 4 % 2 ^ 16))
            | _ => decide (e.va = va / 2 ^ pageBits e.lvl)
        Issues (.tlbi x r) x false s
          (setCore i (fun k => { k with
            tlb1 := k.tlb1.filter fun e => !gone e, tlb2 := k.tlb2.filter fun e => !gone e }) (opened x s)))

/-- Branches break an open sequence, link, and name their target. BR, BZ, BNZ, BLTZ, BGEZ, CALL, JR, CALLR, RET and
LAPC in S3: when the syllable may issue outside the delay of a taken branch, with its zero fields zero and no cause or
comparator stopping the bundle, exec answers the next state in which an open locked sequence is broken and the target
of the bundle is bundle + offset x 16 modulo 2^48, bits [47:4] of srcA or of lk; a conditional branch that is not
taken names no target and a taken one does, and both enter the trace, after what precedes the bundle there; CALL and
CALLR land the address of the third bundle after in lk one cycle later; LAPC lands bundle + imm15 x 16 one cycle
later. Addresses are taken modulo 2^48 with zeros above (log entry 24: DEDUCED). (R116, R117, R118, R132, R195, R416,
R417.) -/
def Obligations.BranchesNameTheirTargets : Prop :=
  ∀ (x : Issue) (off : BitVec 27) (a : BitVec 6) (o : BitVec 21) (f : RegForm) (m : ImmForm) (s s1 : State),
    MayIssue x s → x.slot = 3 → (openedCore x s).dly = 0 → stopped (opened x s) (issueIx x) = false →
      let i := issueIx x
      s1 = setCore i Core.breakSeq (opened x s) →
      let k := coreAt s1 i
      let plus := fun (d : Int) => (((k.pc : Int) + d * 16) % 2 ^ 48).toNat
      let goes := fun t s => setCore i (fun k => { k with taken := some t }) s
      let links := launch i 3 1 64 (BitVec.ofNat 72 ((k.pc + 48) % 2 ^ 48)) id s1
      let traced := fun kind t s =>
        traceCore i (fun ch x => emitTarget (i % 8) kind (coreAt s i).pc t ch x) (traceIssue i (coreAt s i).pc s)
      let noted := fun taken => traceBranch i taken (traceIssue i k.pc s1)
      let v := k.read a
      Issues (.br x off) x false s (goes (plus off.toInt) s1) ∧
      Issues (.bz x a o) x false s
        (if v = 0 then goes (plus o.toInt) (noted true) else noted false) ∧
      Issues (.bnz x a o) x false s
        (if v ≠ 0 then goes (plus o.toInt) (noted true) else noted false) ∧
      Issues (.bltz x a o) x false s
        (if v.toInt < 0 then goes (plus o.toInt) (noted true) else noted false) ∧
      Issues (.bgez x a o) x false s
        (if 0 ≤ v.toInt then goes (plus o.toInt) (noted true) else noted false) ∧
      Issues (.call x off) x false s (goes (plus off.toInt) links) ∧
      (f.dest = 0 → f.b = 0 → f.func = 0 →
        let t := (k.read f.a).toNat % 2 ^ 48 / 16 * 16
        Issues (.jr x f) x false s (goes t (traced 0 t s1)) ∧ Issues (.callr x f) x false s (goes t (traced 1 t links))) ∧
      (f.dest = 0 → f.a = 0 → f.b = 0 → f.func = 0 →
        Issues (.ret x f) x false s
          (goes (k.lk.toNat % 2 ^ 48 / 16 * 16) (traced 2 (k.lk.toNat % 2 ^ 48 / 16 * 16) s1))) ∧
      (m.a = 0 → Issues (.lapc x m) x false s (result i 3 1 m.dest (BitVec.ofNat 72 (plus m.imm.toInt)) s1))

/-- MFS lands a special register one cycle later, MTS writes one for the next bundle. MFS and MTS in S3 with their
zero fields zero and an assigned number: when the syllable may issue and nothing stops the bundle, exec answers the
next state in which MFS of CSTAT, FS, CHR, CID and LK in every mode, of WRA in the secure kernel, and of every other
register in kernel mode lands the register's value one contract cycle later (stated: CSTAT and CID field by field, FS,
CTX, VBASE, EPC, ETGT, ECAUSE and EVAL of the current world, CHR, LK and WRA); MTS to FS or LK in every mode, to WRA
in the secure kernel, to CSTAT, CTX, VBASE, EPC, ETGT, ECAUSE, EVAL, TCTL or TBASE in kernel mode, or to DWAY or IWAY
in the kernel of the world that owns the tile, puts the whole of srcA among the writes that the end of the bundle
performs; MTS to a read-only register changes nothing in any mode; and a mode that the Read or Write column does not
allow meets PRIV with the syllable's word. (R102, R103, R208, R237.) -/
def Obligations.SpecialRegisterAccess : Prop :=
  ∀ (x : Issue) (m : ImmForm) (s : State), MayIssue x s → x.slot = 3 → stopped (opened x s) (issueIx x) = false →
    let i := issueIx x
    let k := openedCore x s
    let b := if k.sec then k.secB else k.norB
    let n := m.imm.toNat
    let lands := fun v => ResultIssues (.mfs x m) x false 1 m.dest v s
    let bit := fun (c : Bool) => if c then 1 else 0
    (m.a = 0 →
      (n = 0o00 → lands (BitVec.ofNat 72 (bit k.kernel + 2 * bit k.sec + 8 * bit k.lc + 16 * bit k.dr + 32 * bit k.dz +
        64 * bit k.ov + 128 * bit k.lb + 256 * bit k.ie + 512 * bit k.tlc + 1024 * bit k.tdr + 2048 * bit k.seq.isSome +
        4096 * bit k.ex + 8192 * bit (!k.held.isEmpty)))) ∧
      (n = 0o01 → lands (k.fs.setWidth 72)) ∧
      (n = 0o12 → lands (BitVec.ofNat 72 (tileChron (opened x s) (i / 8)))) ∧
      (n = 0o13 → lands (BitVec.ofNat 72 (i + 512 * islOf (opened x s) (i / 8)))) ∧
      (n = 0o14 → lands k.lk) ∧
      (k.kernel = true →
        (n = 0o03 → lands (k.ctx.setWidth 72)) ∧
        (n = 0o04 → lands (BitVec.ofNat 72 b.vbase)) ∧
        (n = 0o05 → lands (BitVec.ofNat 72 b.epc)) ∧
        (n = 0o06 → lands (BitVec.ofNat 72 b.etgt)) ∧
        (n = 0o07 → lands (b.ecause.setWidth 72)) ∧
        (n = 0o10 → lands (BitVec.ofNat 72 b.eval)) ∧
        (n = 0o11 → k.sec = true → lands (BitVec.ofNat 72 k.wra)) ∧
        (n ∈ [0o02, 0o20, 0o21, 0o22, 0o23, 0o24, 0o30] → lands (srRead (opened x s) i n))) ∧
      ((k.kernel = false ∧ n ∈ [0o02, 0o03, 0o04, 0o05, 0o06, 0o07, 0o10, 0o11, 0o20, 0o21, 0o22, 0o23, 0o24, 0o30] ∨
          k.sec = false ∧ n = 0o11) →
        Issues (.mfs x m) x false s (addCause i ⟨3, 3, 1, 0, immWord 0o700 m⟩ (opened x s)))) ∧
    (m.dest = 0 →
      (k.kernel = true ∧ n ∈ [0o00, 0o03, 0o04, 0o05, 0o06, 0o07, 0o10, 0o20, 0o21] ∨ n ∈ [0o01, 0o14] ∨
          k.kernel = true ∧ k.sec = true ∧ n = 0o11 ∨
          k.kernel = true ∧ k.sec = tileSec (opened x s) (i / 8) ∧ n ∈ [0o22, 0o23] →
        Issues (.mts x m) x false s
          (setCore i (fun c => { c with later := c.later ++ [(n, k.read m.a)] }) (opened x s))) ∧
      (n ∈ [0o02, 0o12, 0o13, 0o24, 0o30] → Issues (.mts x m) x false s (opened x s)) ∧
      ((k.kernel = false ∧ n ∈ [0o00, 0o03, 0o04, 0o05, 0o06, 0o07, 0o10, 0o11, 0o20, 0o21, 0o22, 0o23] ∨
          k.sec = false ∧ n = 0o11 ∨ k.sec ≠ tileSec (opened x s) (i / 8) ∧ n ∈ [0o22, 0o23]) →
        Issues (.mts x m) x false s (addCause i ⟨3, 3, 1, 0, immWord 0o701 m⟩ (opened x s))))

/-- NOP, SYSC, BRK, LCK, ULK, FBAR, DOZE, WAITM and MFENCE have the effect of their rows. When the syllable may issue
in its slot with its zero fields zero and nothing stops the bundle, exec answers the next state of: NOP (every slot):
nothing; SYSC and BRK (BRKH 0): the SYSC or BRK cause with CODE imm15; BRK with BRKH 1: a halt request at the bundle's
end; LCK: an open sequence, broken from the start in the delay of a taken branch (in the body of an open one LB stays
as it is: log entry 67, the model's choice); ULK on an unbroken sequence: the held stores leave it together and 1
lands, on a broken or no sequence 0 lands and LB is set; FBAR: a barrier boundary after the landing of the last
earlier floating-point result, in flight or (to count after the return) held; DOZE in kernel mode, WAITM and MFENCE:
the doze, the wait and the fence that follow the bundle. (R92, R106, R120, R130, R131, R132, R157, R159, R188, R442.)
-/
def Obligations.SystemSyllables : Prop :=
  ∀ (x : Issue) (m : ImmForm) (s : State), MayIssue x s →
    let i := issueIx x
    let o := opened x s
    let k := openedCore x s
    Issues (.nop x) x false s o ∧
    (x.slot = 3 → stopped o i = false →
      (m.dest = 0 → m.a = 0 →
        Issues (.sysc x m) x false s (addCause i ⟨6, 3, 0o07, m.imm.toNat, 0⟩ o) ∧
        exec (.brk x m) s = .next (closeSyllable x false breakHalt
          (if k.brkH then o else addCause i ⟨6, 3, 0o10, m.imm.toNat, 0⟩ o))) ∧
      (m.dest = 0 → m.a = 0 → m.imm = 0 →
        Issues (.lck x m) x false s
          (setCore i (fun c => { c with seq := some ⟨c.cyc, decide (c.dly ≠ 0), [], []⟩ }) o) ∧
        Issues (.fbar x m) x false s (setCore i (fun c =>
          let last := fun (ls : List Landing) (j : Nat) =>
            (ls.filter fun l => l.fp && decide (l.issued < c.cyc)).foldl (fun j l => max j l.due) j + 1
          if c.held.any (fun l => l.fp) then { c with hbars := c.hbars ++ [(last c.held 0, c.cyc)] }
          else { c with fbars := c.fbars ++ [(last c.flight c.cyc, c.cyc)] }) o) ∧
        (k.kernel = true → exec (.doze x m) s = .next (closeSyllable x false enterDoze o)) ∧
        exec (.mfence x m) s =
          .next (closeSyllable x false (fun j t => setCore j (fun c => { c with fence := true }) t) o)) ∧
      (m.a = 0 → exec (.waitm x m) s = .next (closeSyllable x false (startWait m) o)) ∧
      (m.a = 0 → m.imm = 0 →
        (∀ b lines stores, k.seq = some ⟨b, false, lines, stores⟩ →
          Issues (.ulk x m) x false s
            (let now := stores.map fun p => { p with issued := k.cyc }
             result i 3 1 m.dest 1 (now.foldl (fun t p => breakReservations (i / 8) (some i) p.line t)
               (setCore i (fun c => { c with seq := none, stores := c.stores ++ now }) o)))) ∧
        ((k.seq = none ∨ ∃ b lines stores, k.seq = some ⟨b, true, lines, stores⟩) →
          Issues (.ulk x m) x false s (result i 3 1 m.dest 0 (setCore i (fun c => { c with seq := none, lb := true }) o)))))

/-- WAITM ends at once on a set flag and freezes otherwise; DOZE freezes until a delivery above the level. What
follows the bundle of WAITM and DOZE, in a state whose table of cores is canonical (that a safe point after WAITM is
judged as the wait begins, and that a core dozes with a trap or stack fault pending, is log entry 67: the model's
choice): where the awaited flag reads 1 the wait ends with status 1 landing in the next bundle's cycle, and the flag
is cleared unless K is 1; otherwise the core freezes with the flag, K, the chronometer-copy limit (none for 0, else 64
ns per unit) and the destination; DOZE leaves the core dozing, unless an offered delivery lies above its level. (R92,
R157, R254.) -/
def Obligations.WaitsAndDozeFreeze : Prop :=
  ∀ (i : Nat) (m : ImmForm) (s : State), mwf {} s.cores = true →
    let k := coreAt s i
    let w := m.imm.toNat
    (k.flags.getLsbD (w % 16) = true →
      let k' := coreAt (startWait m i s) i
      k'.wait = k.wait ∧
      k'.flight = k.flight ++ [{ id := k.nid, reg := m.dest.toNat, slot := 3, due := k.cyc, val := 1, sec := k.sec
                                 issued := k.cyc - 1 }] ∧
      k'.flags = if w.testBit 4 then k.flags else k.flags &&& ~~~(BitVec.ofNat 16 (2 ^ (w % 16)))) ∧
    (k.flags.getLsbD (w % 16) = false →
      (coreAt (startWait m i s) i).wait = some ⟨w % 16, w.testBit 4,
        if w / 32 % 1024 = 0 then none else some (tileChron s (i / 8) + 64 * (w / 32 % 1024)), m.dest.toNat, k.safe⟩) ∧
    ((∀ q ∈ k.offers, aboveLevel k q.level = false) → (coreAt (enterDoze i s) i).dozing = true)

/-- Taking an exception saves the resume state, vectors at VBASE + 64 x VEC, and holds what is in flight. Taking an
exception at the boundary before bundle p, with EX 0 and not both results that land later and results held, in a state
whose table of cores is canonical: EPC and ETGT of the world receive p and the pending target, ECAUSE receives VEC,
CODE, SLOT, EDLY, SP (1 exactly at a safe point) and PMODE in their places, EVAL the value; the mode is kernel, EX is
1, an open sequence breaks, results that land after the current contract cycle move to the held landing buffer with
their remaining counts, and the next bundle is VBASE + 64 x VEC. With EX 1 the core halts instead: CORE_DOUBLE_FAULT.
(R122, R123, R125.) -/
def Obligations.ExceptionEntrySavesAndVectors : Prop :=
  ∀ (i vec code slot eval p dly tgt : Nat) (s : State), mwf {} s.cores = true →
    let k := coreAt s i
    let k' := coreAt (enterException i vec code slot eval p dly tgt s) i
    let b := if k.sec then k.secB else k.norB
    let b' := if k.sec then k'.secB else k'.norB
    (k.ex = false → ((∀ l ∈ k.flight, l.due ≤ k.cyc) ∨ k.held = []) → vec < 32 → dly < 4 → slot < 4 → code < 2 ^ 15 →
      b'.epc = p ∧ b'.etgt = tgt ∧ b'.eval = eval % 2 ^ 48 ∧ b'.vbase = b.vbase ∧
      (∃ sp : Bool, (sp = true ↔ (∀ l ∈ k.flight, l.due ≤ k.cyc) ∧ k.missing = [] ∧ k.held = [] ∧ dly = 0 ∧ k.seq = none) ∧
        b'.ecause = BitVec.ofNat 36
        (vec + (if k.kernel then 2 ^ 6 else 0) + 2 ^ 7 * dly + 2 ^ 9 * slot + (if sp then 2 ^ 11 else 0) + 2 ^ 12 * code)) ∧
      k'.kernel = true ∧ k'.ex = true ∧ k'.sec = k.sec ∧ k'.regs = k.regs ∧ k'.lk = k.lk ∧
      k'.pc = (b.vbase + 64 * vec) % 2 ^ 48 ∧ k'.dly = 0 ∧
      k'.flight = k.flight.filter (fun l => decide (l.due ≤ k.cyc)) ∧
      k'.held = k.held ++ (k.flight.filter fun l => decide (k.cyc < l.due)).map (fun l => { l with due := l.due - k.cyc }) ∧
      (∀ q, k'.seq = some q → q.broken = true)) ∧
    (k.ex = true → k'.fatal = true ∧ k'.pc = k.pc ∧ k'.ex = true)

/-- ERET, WCALL, WRET and IDONE restore and switch what their rules give. ERET in kernel mode, WCALL in the normal
kernel on a tile with a secure image, WRET in the secure kernel on a normal-owned tile, and IDONE in kernel mode, in
S3 outside a branch delay with their zero fields zero, may-issue and unstopped: exec answers the next state in which
the bundle is followed by the return. In a state whose table of cores is canonical, ERET makes the mode PMODE, clears
EX, goes to EPC with min(EDLY, 2) delay bundles and returns the held results to flight; WRET clears g5 to g63, lk and
FS, ends the secure world's pending traps, returns to the normal world in kernel mode at WRA and leaves the normal
bank and the sticky bits, but for DR where its own bundle made a drought, as WCALL does; WCALL enters the secure world
in kernel mode at the secure VBASE + o3700 with WRA at the next bundle, leaves EX and the normal bank and holds what
is still in flight with its remaining count, but halts the core where results are already held. A good completion (EX
0, own world, a level frame of the named level, or a stack-fault frame of it or of base) pops the frame: CL is that of
the frame below, or base, mode and IE are the frame's, the results in flight are gone and no delay is left, the
frame's resume bundle is next and the status of its wait is due there. Any other leaves stack, mode, IE and what is in
flight, counts in BADCNT, is reported, and makes a stack fault pending with the level named (a second one keeps the
first: log entry 72, the model's choice), or with a stack-fault frame on the stack halts the core with a report.
(R123, R124, R126, R127, R128, R129, R165, R187, R256, R259, R260, R261.) -/
def Obligations.ReturnsAndWorldCalls : Prop :=
  (∀ (x : Issue) (m : ImmForm) (s : State), MayIssue x s → x.slot = 3 → stopped (opened x s) (issueIx x) = false →
    m.dest = 0 → m.a = 0 →
      let k := openedCore x s
      let o := opened x s
      (m.imm = 0 → k.dly = 0 → k.kernel = true →
        exec (.eret x m) s = .next (closeSyllable x false returnFromException o)) ∧
      (k.dly = 0 → k.sec = false → k.kernel = true → hasSecureImage s x.tile.val = true →
        exec (.wcall x m) s = .next (closeSyllable x false (worldCall m.imm) o)) ∧
      (m.imm = 0 → k.dly = 0 → k.sec = true → k.kernel = true → tileSec s x.tile.val = false →
        exec (.wret x m) s = .next (closeSyllable x false worldReturn o)) ∧
      (m.imm.toNat < 16 → k.kernel = true →
        exec (.idone x m) s = .next (closeSyllable x false
          (fun i t => if goodCompletion t i m.imm.toNat then exitInterrupt i t
            else badCompletion (coreAt s (issueIx x)).pc m.imm.toNat i t) o))) ∧
  ∀ (i : Nat) (imm : BitVec 15) (s : State), mwf {} s.cores = true →
    let k := coreAt s i
    let b := if k.sec then k.secB else k.norB
    let dr := match k.dueAt with
      | some d => !d.cleared
      | none => k.dr
    (let e := coreAt (returnFromException i s) i
     e.ex = false ∧ e.kernel = b.ecause.getLsbD 6 ∧ e.pc = b.epc ∧ e.dly = min (b.ecause.toNat / 128 % 4) 2 ∧ e.sec = k.sec ∧
       e.held = [] ∧ e.flight = k.held.map (fun l => { l with due := k.cyc + l.due }) ∧ e.regs = k.regs) ∧
    (let r := coreAt (worldReturn i s) i
     r.sec = false ∧ r.kernel = true ∧ r.pc = k.wra ∧ r.lk = 0 ∧ r.fs = 0 ∧ r.regs = k.regs.filter (fun p => decide (p.1 < 5)) ∧
       r.norB = k.norB ∧ r.ex = k.ex ∧ r.lb = k.lb ∧ r.ov = k.ov ∧ r.dz = k.dz ∧
       r.dr = dr ∧ r.lc = k.lc ∧ (∀ p ∈ r.fpPend, p.sec = false) ∧ ∀ p ∈ r.ctPend, p.2 = false) ∧
    (k.statDue = none → (∀ l ∈ k.flight, k.cyc < l.due) → (k.flight = [] ∨ k.held = []) →
     let c := coreAt (worldCall imm i s) i
     c.flight = [] ∧ c.held = k.held ++ k.flight.map (fun l => { l with due := l.due - k.cyc }) ∧
     c.sec = true ∧ c.kernel = true ∧ c.wra = k.pc ∧ c.pc = (k.secB.vbase + 0o3700) % 2 ^ 48 ∧ c.norB = k.norB ∧ c.ex = k.ex ∧
       c.regs = k.regs ∧ c.lb = k.lb ∧ c.ov = k.ov ∧ c.dz = k.dz ∧
       c.dr = dr ∧ c.lc = k.lc) ∧
    (k.statDue = none → (∀ l ∈ k.flight, k.cyc < l.due) → k.flight ≠ [] → k.held ≠ [] →
      (coreAt (worldCall imm i s) i).fatal = true) ∧
    ∀ pc v,
      (k.stack = [] → goodCompletion s i v = false) ∧
      (∀ f fs, k.stack = f :: fs →
        (goodCompletion s i v = true ↔ k.ex = false ∧ k.sec = tileSec s (i / 8) ∧
          (f.level = some v ∨ f.fault = true ∧ f.level = none)) ∧
        let e := coreAt (exitInterrupt i s) i
        e.stack = fs ∧ e.level = (fs.head?.bind fun g => g.level) ∧ e.kernel = f.pmode ∧ e.ie = f.ie ∧ e.flight = [] ∧
          e.dly = 0 ∧ e.pc = f.resume ∧ e.statDue = f.waitm ∧ e.sec = k.sec ∧ e.ex = k.ex ∧ e.regs = k.regs) ∧
      let bad := coreReport Cls.reported Code.ivcStackFault i
        [(v, 4), (k.level.getD 16, 5), (k.stack.length, 5), (pc / 16 % 2 ^ 44, 44)]
      let b := badCompletion pc v i s
      let e := coreAt b i
      e.stack = k.stack ∧ e.kernel = k.kernel ∧ e.ie = k.ie ∧ e.flight = k.flight ∧ e.pc = k.pc ∧ e.regs = k.regs ∧
        e.badcnt = min (k.badcnt + 1) 255 ∧ e.fpend = some (k.fpend.getD v) ∧
        ((∀ f ∈ k.stack, f.fault = false) → e.fatal = k.fatal ∧ b.hlt = (report bad s).hlt) ∧
        ((∃ f ∈ k.stack, f.fault = true) → e.fatal = true ∧ b.hlt = (report (coreReport Cls.fatal Code.ivcStackHalt i
          [(k.level.getD 16, 5), (k.stack.length, 5)]) (report bad s)).hlt)

/-- The end of a bundle advances the contract cycle and the address, and a due result lands in its register. When a
bundle counts as issued, in a state whose table of cores is canonical, the contract cycle increases by one, the next
bundle is the one after it, or the pending target after the second delay bundle of a taken branch, a taken branch
leaves two delay bundles, the general registers, lk and the results in flight are unchanged, and the drought count
rises by one while IE is 1 and EX is 0. RESULT_LANDING on a running core at a bundle boundary that no miss, wait or
fence freezes, with no status due: where the one result due has destination r, exec answers the next state in which it
has left the core's results in flight, r holds its value (lk its bundle address; nothing for g0), DZ and OV include
its own and FS its flags; where two results of different slots are due in the same cycle on one general register other
than g0 and nothing else is due, the register holds the value of the higher slot and LC is set. (R101, R102, R117,
R142, R144, R145, R163, R171, R184.) -/
def Obligations.BundlesEndAndResultsLand : Prop :=
  (∀ (i : Nat) (s : State), mwf {} s.cores = true →
    let k := coreAt s i
    let k' := coreAt (advance i s) i
    k'.cyc = k.cyc + 1 ∧ k'.regs = k.regs ∧ k'.lk = k.lk ∧ k'.flight = k.flight ∧ k'.slot = 0 ∧ k'.taken = none ∧
    (k.taken = none → k.dly = 0 → k'.pc = (k.pc + 16) % 2 ^ 48 ∧ k'.dly = 0) ∧
    (k.taken = none → k.dly = 2 → k'.pc = (k.pc + 16) % 2 ^ 48 ∧ k'.dly = 1 ∧ k'.tgt = k.tgt) ∧
    (k.taken = none → k.dly = 1 → k'.pc = k.tgt ∧ k'.dly = 0) ∧
    (∀ t, k.taken = some t → k'.pc = (k.pc + 16) % 2 ^ 48 ∧ k'.dly = 2 ∧ k'.tgt = t) ∧
    (k.ie = true → k.ex = false → k'.drought = k.drought + 1) ∧
    ((k.ie = false ∨ k.ex = true) → k'.drought = 0) ∧
    ∀ j, j ≠ i → coreAt (advance i s) j = coreAt s j) ∧
  ∀ (c : CoreId) (s : State), mwf {} s.cores = true → atBoundary s (coreIx c) = true →
    (coreAt s (coreIx c)).statDue = none → (coreAt s (coreIx c)).stalled = false →
    let i := coreIx c
    let k := coreAt s i
    let due := fun (l : Landing) => decide (l.due ≤ k.cyc) && l.miss.isNone
    ∃ t, exec (.resultLanding c) s = .next t ∧
      let k' := coreAt t i
      (∀ l, k.flight.filter due = [l] →
        k'.flight = k.flight.filter (fun l => !due l) ∧
        k'.dz = (k.dz || l.dz) ∧ k'.ov = (k.ov || l.ov) ∧ k'.fs = k.fs ||| BitVec.ofNat 36 (l.flags % 32) ∧
        (l.reg = 0 → k'.regs = k.regs ∧ k'.lk = k.lk) ∧
        (0 < l.reg → l.reg < 64 → k'.regs = mset 0 k.regs l.reg l.val ∧ k'.lk = k.lk) ∧
        (l.reg = 64 → k'.regs = k.regs ∧ k'.lk = l.val &&& 0o7777777777777760#72)) ∧
      ∀ a b, k.flight.filter due = [a, b] → a.id ≠ b.id → a.due = b.due → a.reg = b.reg → 0 < a.reg → a.reg < 64 →
        a.slot ≠ b.slot →
          k'.regs = mset 0 k.regs a.reg (if a.slot < b.slot then b.val else a.val) ∧ k'.lc = true

/-- The events of a core between its bundles. In a state whose table of cores is canonical, exec answers the next
state of: LOCKED_SEQUENCE_TIMEOUT at a boundary past b + 8 with no deferred match: the sequence is closed and LB is 1;
WAITM_LIMIT_EXPIRY: the wait ends with status 0, at the instant of its limit; MFENCE_COMPLETE with nothing left to
become visible (an outstanding load does not hold it): the fence ends; SAFE_POINT_DROUGHT with a drought due: DR is 1,
unless an MTS of that bundle has cleared it, and the count has risen; RANGE_ENGINE_PASS: every held range has been
applied: where one range is held and no frame has a parity error, each line of either L1 cache in the range (of a
world that the range's may access) is invalidated, a dirty one being on its way to memory, and every other frame is as
before; EVICTION_WRITEBACK_COMPLETE: the oldest dirty line, once its data has crossed, has left the buffer;
TILE_AFSET_WRITE by the tile's world: each named flag is set; WATCHDOG_KICK and WATCHDOG_CTL_WRITE by the tile's
world: the kick reloads an armed or expired watchdog where KEY is o246135; the control write sets PERIOD, and EN 0
stops the count with STATE disabled at its present REMAIN, EN 1 arms a disabled one with REMAIN = PERIOD; a PERIOD of
0 with EN 1 is reported and leaves PERIOD (that EN acts with it is log entry 72: the model's choice, and that EN 1
does not reload a running one log entry 27: DEDUCED). (R5, R132, R155, R157, R159, R163, R164, R165, R213, R218, R263,
R264.) -/
def Obligations.CoreEventsTakeEffect : Prop :=
  ∀ (c : CoreId) (s : State), mwf {} s.cores = true →
    let i := coreIx c
    let k := coreAt s i
    (∀ q, atBoundary s i = true → k.seq = some q → q.opened + 8 < k.cyc → k.mdef = 0 →
      ∃ t, exec (.lockedSequenceTimeout c) s = .next t ∧ (coreAt t i).seq = none ∧ (coreAt t i).lb = true) ∧
    (∀ w l, k.wait = some w → w.limit = some l →
      ∃ t, exec (.waitmLimitExpiry c) s = .next t ∧ (coreAt t i).wait = none ∧
        t.isl.chron = s.isl.chron + (l - tileChron s c.tile.val) ∧
        (coreAt t i).flight = k.flight ++ [{ id := k.nid, reg := w.dest, slot := 3, due := k.cyc, val := 0, sec := k.sec
                                             issued := k.cyc - 1 }]) ∧
    (k.fence = true → k.stores = [] → k.ranges = [] → (∀ e ∈ k.evict, e.dirty = false) →
      (∀ m ∈ k.misses, ∀ a ∈ m.accs, a.store = false ∧ a.op ≠ some .clean ∧ a.op ≠ some .flush) →
      ∃ t, exec (.mfenceComplete c) s = .next t ∧ (coreAt t i).fence = false) ∧
    (∀ b, atBoundary s i = true → k.dueAt = some b →
      ∃ t, exec (.safePointDrought c) s = .next t ∧ (coreAt t i).dr = !b.cleared ∧ (coreAt t i).dueAt = none ∧
        (coreAt t i).drcnt = min (k.drcnt + 1) (2 ^ 18 - 1)) ∧
    exec (.rangeEnginePass c) s =
      .next (k.ranges.foldl (fun s r => applyRange i r s) (setCore i (fun k => { k with ranges := [] }) s)) ∧
    (∀ lo n sec, k.ranges = [(lo, n, sec)] → mwf none k.dcache = true → mwf none k.icache = true →
      (∀ e ∈ k.dcache ++ k.icache, ∀ f, e.2 = some f → f.bad = 0) →
        let hit := fun (f : CLine) => decide (lo ≤ f.line) && decide (f.line < lo + n) && worldMay s sec (64 * f.line)
        ∃ t, exec (.rangeEnginePass c) s = .next t ∧ (coreAt t i).ranges = [] ∧
          (∀ key, mget none (coreAt t i).dcache key = (mget none k.dcache key).filter (fun f => !hit f) ∧
            mget none (coreAt t i).icache key = (mget none k.icache key).filter (fun f => !hit f)) ∧
          ∀ key f, mget none k.dcache key = some f → hit f = true → f.dirty = true →
            ∃ e ∈ (coreAt t i).evict, e.line = f.line ∧ e.bits = f.bits ∧ e.sec = f.sec ∧ e.dirty = true) ∧
    (∀ e, k.evict.find? (fun e => e.dirty) = some e → e.crossed = true → e.later = none → (∀ y ∈ k.evict, y.kept = false) →
      exec (.evictionWritebackComplete c) s = .next (setCore i (fun k => { k with evict := k.evict.erase e }) s)) ∧
    ∀ (rq : Req) (v : Word), reach rq s = true → available s c.tile.val = true → rq.sec = tileSec s c.tile.val →
      exec (.tileAfsetWrite rq c v) s = .next ((List.range 16).foldl
        (fun s f => if v.getLsbD f then setArrival i f true s else s) s) ∧
      exec (.watchdogKick rq c v) s =
        .next (if v.toNat / 2 ^ 18 = 0o246135 ∧ (k.wd.state = 1 ∨ k.wd.state = 2) then wdReload i 1 s else s) ∧
      ∃ u, exec (.watchdogCtlWrite rq c v) s = .next u ∧ u.mem = s.mem ∧
        let p := v.toNat % 2 ^ 20
        let bad := v.getLsbD 20 = true ∧ p = 0
        let period := if bad then k.wd.period else p
        (coreAt u i).wd = (if v.getLsbD 20 = false then { k.wd with en := false, period := period, remain := wdRemain s i, state := 0 }
          else if k.wd.en = true then { k.wd with period := period }
          else { en := true, period := period, remain := period, from' := tileChron s c.tile.val, state := 1 }) ∧
        u.hlt = if bad then (report (mkReport Unit.tile Cls.reported Code.regRefused (8 * c.tile.val)
          [(0o702000 + 4 * c.core.val, 24), (rq.code.toNat, 9), (0, 2), (0, 1), (v.toNat, 36)]) s).hlt else s.hlt

/-- TRAP_ENTRY, FETCH_FAULT and TLB_WALK_COMPLETE raise what their rules give. In a state whose table of cores is
canonical, each as the next state that exec answers. TRAP_ENTRY at a boundary where a trap is due: with EX 0 and not
both results that land later and results held, it enters FPTRAP where the world has pending flags, CODE being the set
of all of them and none of them staying pending, and else CONTRACT with code 1 before code 2, the taken code alone
leaving the pending list; EPC is the bundle, the mode is kernel, EX is 1 and the next bundle is VBASE + 64 x VEC; in a
wait it comes before the interrupt or stack fault that would end the wait, whose status 2 then lands (log entry 20:
DEDUCED). FETCH_FAULT at an issuing boundary starts a table walk on a TLB miss, raises FETCH with the translation's
cause, raises WORLD where the fetched address is not of the core's own world, and else changes nothing but the
boundary and the first TLB level. TLB_WALK_COMPLETE enters a permitted leaf in both TLB levels, which hold no other
new entry (the entry that leaves is log entry 11's), raises FETCH or DATA with cause and level where the walk stops
(for a halted core after its release: log entry 47, DEDUCED), and starts the channel's exit from self-refresh where a
table line lies in a DRAM channel that takes no request. (R121, R153, R165, R186, R187, R188, R199, R200, R202, R232,
R234, R397.) -/
def Obligations.TrapsAndFetchFaultsEnter : Prop :=
  ∀ (c : CoreId) (s : State), mwf {} s.cores = true →
    let i := coreIx c
    let st := settle i s
    let traps := fun (t : State) => if (coreAt t i).fpDue then takeFpTrap i t else takeContract i t
    let enters := fun (p : State) =>
      let k := coreAt p i
      let k' := coreAt (traps p) i
      let b := if k.sec then k.secB else k.norB
      let b' := if k.sec then k'.secB else k'.norB
      let with' := fun (vec : Nat) =>
        b'.ecause.toNat % 32 = vec ∧ k'.pc = (b.vbase + 64 * vec) % 2 ^ 48 ∧ b'.epc = k.pc ∧ k'.kernel = true ∧
          k'.ex = true ∧ k'.sec = k.sec ∧ k'.regs = k.regs
      k.ex = false → ((∀ l ∈ k.flight, l.due ≤ k.cyc) ∨ k.held = []) →
        ((∃ p ∈ k.fpPend, p.sec = k.sec) → with' 0o11 ∧
          (∀ n < 15, b'.ecause.getLsbD (12 + n) = true ↔ ∃ p ∈ k.fpPend, p.sec = k.sec ∧ p.flags.testBit n = true) ∧
          k'.fpPend = k.fpPend.filter (fun p => decide (p.sec ≠ k.sec)) ∧ k'.ctPend = k.ctPend) ∧
        ((∀ p ∈ k.fpPend, p.sec ≠ k.sec) → with' 0o12 ∧ k'.fpPend = k.fpPend ∧
          ((1, k.sec) ∈ k.ctPend → b'.ecause.toNat / 2 ^ 12 % 2 ^ 15 = 1 ∧
            k'.ctPend = k.ctPend.filter (fun p => decide (p ≠ (1, k.sec)))) ∧
          ((1, k.sec) ∉ k.ctPend → b'.ecause.toNat / 2 ^ 12 % 2 ^ 15 = 2 ∧
            k'.ctPend = k.ctPend.filter (fun p => decide (p ≠ (2, k.sec)))))
    (boundaryFree s i = true → (coreAt s i).wait = none → (coreAt st i).trapDue = true →
      exec (.trapEntry c) s = .next (traps st) ∧ enters st) ∧
    (∀ w st' p, boundaryFree s i = true → (coreAt s i).wait = some w →
      st' = settle i (setCore i (fun k => { k with statDue := none, wait := none }) s) → (coreAt st' i).trapDue = true →
      interruptDue st' i = true ∨ stackFaultDue st' i = true → p = landDue i (waitStatus i w.dest 2 st') →
        exec (.trapEntry c) s = .next (traps p) ∧ enters p) ∧
    (atBoundary s i = true → mayOpen st i = true →
      let s1 := tlbRefill i (coreAt st i).pc st
      let k := coreAt s1 i
      (translate k i k.pc .fetch = .miss → exec (.fetchFault c) s = .next (setCore i (fun k => { k with
        walk := some ⟨k.pc, false, true, 2, 0, k.sec, k.ctx.toNat, (k.bankOf k.sec).tbase⟩ }) s1)) ∧
      (∀ e l, translate k i k.pc .fetch = .fault e l →
        exec (.fetchFault c) s = .next (takeCause i ⟨1, 0, 2, e + 16 * l, k.pc⟩ s1)) ∧
      ∀ pa mt oct, translate k i k.pc .fetch = .ok pa mt oct →
        (memSecure s1 pa = k.sec → exec (.fetchFault c) s = .next s1) ∧
        (memSecure s1 pa ≠ k.sec →
          exec (.fetchFault c) s = .next (takeCause i ⟨1, 0, 6, worldCode pa true false k.sec, k.pc⟩
            (report (accessRefused pa ⟨BitVec.ofNat 9 i, k.sec⟩ false) s1)))) ∧
    ∀ w s2 r, (coreAt s i).walk = some w → (coreAt s i).fatal = false → (coreAt s i).on = true →
      walkTable i w [0, 1, 2, 3] w.base (setCore i (fun k => { k with walk := none }) s) = (s2, r) →
        (∀ e l, r = .stop e l → (coreAt s i).halt.isSome = true → exec (.tlbWalkComplete c) s = .next s) ∧
        (∀ e l, r = .stop e l → (coreAt s i).halt = none → exec (.tlbWalkComplete c) s = .next (takeCause i ⟨5, w.slot, if w.fetch then 2 else 3,
          e + 16 * l + (if w.store then 64 else 0), w.va⟩ s2)) ∧
        (∀ l, r = .held l → exec (.tlbWalkComplete c) s = .next (askRead (.walk i w) false ⟨BitVec.ofNat 9 i, w.sec⟩ l s)) ∧
        ∀ e pa mt oct, r = .leaf e →
          checkEntry (coreAt (fillTlbs i e s2) i) i e (needOf w.need) e.lvl w.va = .ok pa mt oct →
            ∃ t, exec (.tlbWalkComplete c) s = .next t ∧
              e ∈ (coreAt t i).tlb1 ∧ e ∈ (coreAt t i).tlb2 ∧ (coreAt t i).walk = none ∧ t.mem = s2.mem ∧
              (∀ y ∈ (coreAt t i).tlb1, y = e ∨ y ∈ (coreAt s2 i).tlb1) ∧
              ∀ y ∈ (coreAt t i).tlb2, y = e ∨ y ∈ (coreAt s2 i).tlb2

/-- MISS_FILL_COMPLETE ends an uncached access, or fills the line and serves the accesses in order. While services
run, in states whose tables are canonical. An uncached load whose answer has come, with no earlier access of the core
to its line outstanding, lands the value, extended, and ends; an access to control space, the only one of its tile, is
performed and, with nothing else of the tile on its way, ends. A line miss (no other core of the tile waiting for the
line, no waiting store of the core in it, no cache operation among its accesses: log entry 50, DEDUCED, gives the
source order) takes the bits of the one copy in the tile, else of the newest write-back that has not crossed (with no
uncached store of the core to the line outstanding), else of the crossbar's answer; each waiting load lands, extended,
the bits with the stores before it in issue order; the frame then holds the bits with all of them, dirty if there is
one, of the world of the last: the lowest empty locked frame for DFILLK, the locked frame that lost the line to a
parity error, else the victim way's frame, whose dirty line goes to the eviction buffer; every other frame of the core
stays, a store takes away the copy in the tile, and the miss ends. With four victims in the buffer the fill of an
occupied frame waits. With the uncorrectable mark the load lands zero; an instruction line from DRAM enters the
instruction cache. (R12, R88, R115, R149, R150, R151, R207, R212, R216, R218, R221, R226.) -/
def Obligations.MissesComplete : Prop :=
  ∀ (c : CoreId) (n : Fin 16) (m : Miss) (s : State), mwf {} s.cores = true →
    let i := coreIx c
    let k := coreAt s i
    let line := m.addr / 64
    mwf none k.dcache = true → k.misses[n.val]? = some m → k.misses.find? (fun x => x.id == m.id) = some m → serving s = true →
      (∀ a v b, m.kind = .uncached → uncachedReady s i m = true → m.accs = [a] → a.store = false → m.got = some (v, b) →
        exec (.missFillComplete c n) s = .next (endMiss i m.id (deliver i a.landing (extendLoad a.ext a.width v) s))) ∧
      (∀ a win off u v, m.kind = .uncached → m.accs = [a] → m.got = none → targetOf s m.addr = .control win off →
        k.misses = [m] → (∀ j, j / 8 = i / 8 → j ≠ i → (coreAt s j).misses = []) →
        (coreAt u i).misses = [m] → (∀ y ∈ u.slc.xing, y.tile ≠ i / 8) →
          (a.store = true → u = (writeReg ⟨BitVec.ofNat 9 i, m.sec⟩ win off
              (if m.side then 64 else if m.oct then 8 * m.size else 9 * m.size) a.val s).1 →
            exec (.missFillComplete c n) s = .next (endMiss i m.id (gotMiss i m.id 0 false u))) ∧
          (a.store = false → (∃ e, physRead ⟨BitVec.ofNat 9 i, m.sec⟩ false m.addr m.size m.oct m.side s = (u, v, e)) →
            exec (.missFillComplete c n) s = .next (endMiss i m.id
              (deliver i a.landing (extendLoad a.ext a.width v) (gotMiss i m.id v false u))))) ∧
      (∀ b key, (m.kind = .line ∨ m.kind = .fillLocked) → k.waiting line = [] →
        (∀ j ∈ siblings i, missOn (coreAt s j) line = none) →
        (∀ a ∈ m.accs, a.op = none ∧ a.olds = []) → ((m.accs.filter fun a => !a.store).map fun a => a.landing).Nodup →
        let others := fun j => ∀ j' ∈ siblings i, j' ≠ j → dFrame s j' line = none ∧ evictFind (coreAt s j') line = none
        let back := fun (e : EvLine) => e.line = line ∧ e.dirty = true
        let stores := fun (xs : List MissAcc) =>
          xs.foldl (fun b a => if a.store then setField b a.lo a.width a.val else b) b
        let victim := mget none k.dcache key
        ((∃ j ∈ siblings i, ∃ q f, dFrame s j line = some (q, f) ∧ f.bad = 0 ∧ (coreAt s j).waiting line = [] ∧
              b = f.bits ∧ others j) ∨
          (others i ∧ ∃ j ∈ i :: siblings i, ∃ e ∈ (coreAt s j).evict, back e ∧ e.crossed = false ∧ b = e.bits ∧
            (∀ x ∈ k.misses, x.kind = .uncached → x.addr / 64 = line → ∀ a ∈ x.accs, a.store = false) ∧
            ∀ j' ∈ i :: siblings i, ∀ e' ∈ (coreAt s j').evict, back e' → e' = e ∨ e'.order < e.order) ∨
          (others i ∧ (∀ j ∈ i :: siblings i, ∀ e ∈ (coreAt s j).evict, back e → e.crossed = true) ∧ m.got = some (b, false) ∧
            replyReady s i m.id = true)) →
        ((m.kind = .fillLocked ∧ ∃ w < 8, key = frameKey line w ∧ wayMode k.dway w = 1 ∧ victim = none ∧
              ∀ v < w, wayMode k.dway v = 1 → mget none k.dcache (frameKey line v) ≠ none) ∨
          (m.kind = .line ∧ mget 0 k.relock line = key + 1 ∧ wayMode k.dway (key % 8) = 1 ∧ victim = none) ∨
          (m.kind = .line ∧ mget 0 k.relock line = 0 ∧ (∃ w, victimWay k.dcache k.dway line = some w ∧ key = frameKey line w) ∧
            ∀ v, victim = some v → v.bad = 0 ∧ k.waiting v.line = [])) →
          (victim = none ∨ (k.evict.filter fun e => e.victim).length < 4 →
            ∃ t, exec (.missFillComplete c n) s = .next t ∧
              (∃ fr, mget none (coreAt t i).dcache key = some fr ∧ fr.line = line ∧ fr.bits = stores m.accs ∧ fr.bad = 0 ∧
                fr.dirty = m.accs.any (fun a => a.store) ∧
                fr.sec = m.accs.foldl (fun x a => if a.store then a.sec else x) m.sec) ∧
              (∀ key', key' ≠ key → mget none (coreAt t i).dcache key' = mget none k.dcache key') ∧
              (∀ v, victim = some v → v.dirty = true →
                ∃ e ∈ (coreAt t i).evict, e.line = v.line ∧ e.bits = v.bits ∧ e.sec = v.sec ∧ e.dirty = true ∧ e.victim = true) ∧
              (∀ pre a post, m.accs = pre ++ a :: post → a.store = false → ∀ l ∈ k.flight, l.id = a.landing →
                { l with val := extendLoad a.ext a.width (field (stores pre) a.lo a.width), miss := none } ∈
                  (coreAt t i).flight) ∧
              (m.accs.any (fun a => a.store) = true → ∀ j ∈ siblings i, ∀ q f, dFrame s j line = some (q, f) →
                mget none (coreAt t j).dcache q = none) ∧
              (coreAt t i).misses = k.misses.filter (fun x => x.id != m.id)) ∧
          (victim ≠ none → 4 ≤ (k.evict.filter fun e => e.victim).length →
            exec (.missFillComplete c n) s = .next s)) ∧
      (∀ s1 b a, m.kind = .line → fillSource i m s = (s1, some (b, true)) → (coreAt s1 i).fatal = false → m.accs = [a] →
        a.store = false → a.op = none →
          exec (.missFillComplete c n) s = .next (endMiss i m.id (deliver i a.landing 0 s1))) ∧
      ∀ b, m.kind = .fetch → targetOf s m.addr = .dram → m.got = some (b, false) → replyReady s i m.id = true →
        exec (.missFillComplete c n) s = .next (endMiss i m.id (installFetch i line b s))

/-- Mains loss before RUN goes to DARK and leaves the stored vault images as they are. MAINS_LOSS by a criterion that
applies to the input, in CHARGE, PROBE, LOAD, TEST or LOCK, answers a next state in DARK, and in DARK leaves the state
as it is; the two vault slots and which of them is the newest are unchanged. (R42.) -/
def Obligations.LossBeforeServiceEndsInDark : Prop :=
  ∀ (crit : Fin 5) (s : State), s.cfg.phase ∈ [Phase.dark, .charge, .probe, .load, .test, .lock] →
    (s.cfg.phase = .dark ∨ criterionApplies crit.val s = true) →
    ∃ t, exec (.mainsLoss crit) s = .next t ∧ t.cfg.phase = .dark ∧ t.nv.slot0 = s.nv.slot0 ∧ t.nv.slot1 = s.nv.slot1 ∧
      t.nv.newest = s.nv.newest ∧ (s.cfg.phase = .dark → t = s)

/-- Mains loss in service rides; mains back in time resumes, and RIDE_TIME leads to VAULT. MAINS_LOSS by a criterion
that applies to the input, in RUN or HELM-ONLY, answers a next state in RIDE that began at the present instant and
remembers HELM-ONLY; RIDE_TIME_EXPIRY in RIDE answers VAULT with the vault sequence entered, no sooner than RIDE_TIME
after the loss; MAINS_VALID_AGAIN with an input that R32 calls valid leaves DARK for CHARGE as the reset state but for
the start state, the class of the input, what outlives DARK, the levels of HPERST_N, the queue and the count of free
values (memory, which the spec gives no contents, reads zeros, and a register without a given value holds the model's:
log entries 4 and 6, DESIGN CHOICE), returns from RIDE to RUN or HELM-ONLY before RIDE_TIME, and starts the vault
after it. (R32, R40, R41, R43, R47, R54.) -/
def Obligations.RideAndReturn : Prop :=
  ∀ (crit : Fin 5) (inp : MainsInput) (s : State),
    ((s.cfg.phase = .run ∨ s.cfg.phase = .helm) → criterionApplies crit.val s = true →
      ∃ t, exec (.mainsLoss crit) s = .next t ∧ t.cfg.phase = .ride ∧ t.pwr.rideFrom = s.isl.chron ∧ t.pwr.loss = true ∧
        t.pwr.crit = crit.val ∧ t.pwr.rideHelm = (s.cfg.phase == .helm) ∧ t.mem = s.mem ∧ t.cores = s.cores) ∧
    (s.cfg.phase = .ride →
      (∃ t, exec .rideTimeExpiry s = .next t ∧ t.cfg.phase = .vault ∧ t.pwr.vault = .entered ∧
        s.pwr.rideFrom + rideTime s ≤ t.isl.chron ∧ t.mem = s.mem) ∧
      (s.isl.chron < s.pwr.rideFrom + rideTime s → validAgain inp s = true →
        ∃ t, exec (.mainsValidAgain inp) s = .next t ∧ t.cfg.phase = (if s.pwr.rideHelm then .helm else .run) ∧
          t.pwr.loss = false ∧ t.pwr.vin = inp.vin.toNat ∧ t.mem = s.mem ∧ t.cores = s.cores) ∧
      (s.pwr.rideFrom + rideTime s ≤ s.isl.chron → validAgain inp s = true →
        ∃ t, exec (.mainsValidAgain inp) s = .next t ∧ t.cfg.phase = .vault)) ∧
    (s.cfg.phase = .dark → validAgain inp s = true →
      exec (.mainsValidAgain inp) s = .next { State.reset with
        pending := s.pending, draws := s.draws, nv := s.nv, hperst := s.hperst
        cfg := { State.reset.cfg with phase := .charge }, pwr := { State.reset.pwr with dcIn := inp.dc } })

/-- A change of line class, an input out of range, and the conditions that only report. PWR_LINE_CHANGE in RUN or
HELM-ONLY: with a low line and 184 V or DC, or a high or DC line and AC below 176 V, the class changes to the one that
the input gives, REQUIRED is recomputed for it and READY is whether USABLE reaches it; PWR_INPUT_RANGE outside DARK
without a loss (out of the rated range but within the loss criteria, or back in it), PWR_THERM_HIGH from 105 C,
RSV_HOT from 75 C, RESERVOIR_COOLED below 70 C and PWR_COOLANT outside DARK: exec answers the next state with the
sample recorded and the report of R50 to R52 made, charging stopped or resumed, and an excursion of input or coolant
reported once. (R30, R31, R36, R50, R52.) -/
def Obligations.InputConditionsAreReported : Prop :=
  ∀ (inp : MainsInput) (quad : Option QuadId) (tj temp inlet flow : BitVec 8) (held : Bool) (s : State),
    ((s.cfg.phase = .run ∨ s.cfg.phase = .helm) →
      ∀ c, (s.pwr.line = 1 ∧ inp.dc = true ∧ c = 3) ∨ (s.pwr.line = 1 ∧ inp.dc = false ∧ 184 ≤ inp.vin.toNat ∧ c = 2) ∨
          (s.pwr.line ≠ 1 ∧ inp.dc = false ∧ inp.vin.toNat < 176 ∧ c = 1) →
        ∃ t, exec (.pwrLineChange inp) s = .next t ∧ t.pwr.line = c ∧ t.pwr.required = requiredEnergy s c ∧
          t.pwr.ready = decide (requiredEnergy s c ≤ s.pwr.usable) ∧ t.pwr.vin = inp.vin.toNat ∧ t.mem = s.mem) ∧
    (s.cfg.phase ≠ .dark →
      (s.pwr.loss = false → excursion inp = true →
        let u := { takeInput inp s with pwr := { (takeInput inp s).pwr with excur := true } }
        exec (.pwrInputRange inp) s = .next (if s.pwr.excur then u else report (mkReport Unit.pwr Cls.reported
          Code.pwrInputRange 78 [(inp.vin.toNat, 10), (if inp.dc then 0 else inp.freq.toNat, 9)]) u)) ∧
      (s.pwr.loss = false → inRange inp = true → exec (.pwrInputRange inp) s = .next (takeInput inp s)) ∧
      (145 ≤ tj.toNat → exec (.pwrThermHigh quad tj) s = .next (report (mkReport Unit.pwr Cls.reported Code.pwrThermHigh
        ((quad.map fun q => 53 + q.val).getD 52) [((quad.map fun q => 53 + q.val).getD 52, 7), (tj.toNat, 8)]) s)) ∧
      (115 ≤ temp.toNat → exec (.rsvHot temp) s = .next (report (mkReport Unit.pwr Cls.protect Code.rsvHot 79
        [(temp.toNat, 8)]) { s with pwr := { s.pwr with chargeOff := true } })) ∧
      (let bad := inlet.toNat < 45 ∨ 85 < inlet.toNat ∨ (flow.toNat < 20 ∧ held = true)
       let t := { s with pwr := { s.pwr with coolOut := decide bad, inlet := inlet.toNat, flow := flow.toNat } }
       exec (.pwrCoolant inlet flow held) s = .next (if bad ∧ s.pwr.coolOut = false then
         report (mkReport Unit.pwr Cls.reported Code.pwrCoolant 81 [(inlet.toNat, 8), (flow.toNat, 8)]) t else t))) ∧
    (temp.toNat < 110 →
      exec (.reservoirCooled temp) s = .next { s with pwr := { s.pwr with chargeOff := false } })

/-- The start states follow one another. CHARGE_COMPLETE (while charging goes on) and CHARGE_TIMEOUT in CHARGE enter
PROBE (the latter no sooner than 20 s, keeping the voltage); PROBE_MEASUREMENT in PROBE enters LOAD with the SMBus
address o130 plus the straps, the line class and the measured reservoir; LOAD_ENTRY in LOAD counts the power cycle;
IMAGE_SELECT_VERIFY after it uses the candidate copy when it verifies, else the other one when that verifies, and
enters TEST, and where neither verifies holds the module in LOAD; TEST_COMPLETE in TEST enters LOCK; LOCK_SEQUENCE in
LOCK performs steps 1 to 5 in order where they are still due and, unless it stops there (log entry 61: the model's
choice), steps 6 to 8; step 1 takes the watermarks of DRAM, hub memory, key slots, interrupt sources and each tile
memory and the owners of blocks, quads and tiles from the WORLDS section and locks them. (R33, R36, R54, R55, R56,
R58, R60, R63, R64, R66, R61, R231.) -/
def Obligations.StartRunsThroughItsStates : Prop :=
  ∀ (cv : BitVec 16) (straps : BitVec 3) (inp : MainsInput) (v : ProbeSamples) (temp : BitVec 8)
    (failed : List (PTileId × Fin 6)) (bt : List SubId) (bs : List (SubId × Fin 4)) (s : State),
    (s.cfg.phase = .charge →
      (s.pwr.chargeOff = false → exec .chargeComplete s = .next { s with cfg := { s.cfg with phase := .probe } }) ∧
      ∃ t, exec (.chargeTimeout cv) s = .next t ∧ t.cfg.phase = .probe ∧ t.pwr.tmoVolt = some cv.toNat ∧
        20000000000 ≤ t.isl.chron) ∧
    (s.cfg.phase = .probe →
      ∃ t, exec (.probeMeasurement straps inp v temp) s = .next t ∧ t.cfg.phase = .load ∧ t.lgb.addr = 0o130 + straps.toNat ∧
        t.pwr.line = (if inp.dc then 3 else if 180 ≤ inp.vin.toNat then 2 else 1) ∧
        (s.pwr.tmoVolt = none → t.pwr.usable = (measure v temp.toNat).usable) ∧
        (s.pwr.tmoVolt ≠ none → t.pwr.usable = 0 ∧ t.pwr.pstat = 3)) ∧
    (s.cfg.phase = .load → s.cfg.loadIn = false →
      ∃ t, exec .loadEntry s = .next t ∧ t.cfg.loadIn = true ∧ t.nv.pcc = min (s.nv.pcc + 1) (2 ^ 36 - 1)) ∧
    (s.cfg.phase = .load → s.cfg.loadIn = true → s.cfg.held = false →
      let bad := fun (b : Bool) => (copyFault (flashCopy s b)).isSome
      ∃ t, exec .imageSelectVerify s = .next t ∧ t.mem = s.mem ∧ t.nv = s.nv ∧
        (bad false = true → bad true = true → t.cfg.phase = .load ∧ t.cfg.held = true ∧ t.cfg.copy = s.cfg.copy) ∧
        ∀ b, bad b = false → b = candidate s ∨ bad (candidate s) = true →
          t.cfg.phase = .test ∧ t.cfg.copy = (if b then 2 else 1) ∧ t.cfg.seq = imgSeq (flashCopy s b)) ∧
    (s.cfg.phase = .test → ∃ t, exec (.testComplete failed) s = .next t ∧ t.cfg.phase = .lock) ∧
    (s.cfg.phase = .lock →
      let s5 := if s.wld.locked then s else
        restoreVault (trainDram bt bs { lockWorlds s with pwr := { s.pwr with ceilLow := s.pwr.line == 1 } })
      let s6 := loadImages (zeroPages (zeroTables { loadRoutes (loadQueues s5) with cht := {} }))
      let s7 := { s6 with cfg := { s6.cfg with nalt := nalt s6 } }
      exec (.lockSequence bt ⟨bs, true⟩) s = .next s5 ∧
      exec (.lockSequence bt ⟨bs, false⟩) s = .next (enterService (match selectAlternate s7 with
        | some a => { s7 with cfg := { s7.cfg with cur := a } }
        | none => report (noAlternate s7) { s7 with cfg := { s7.cfg with noAlt := true } }))) ∧
    let t := lockWorlds s
    t.wld.locked = true ∧ t.wld.dwm = fld (image s) 1 0 4 ∧ t.wld.hwm = fld (image s) 1 4 4 ∧
      t.wld.kwm = fld (image s) 1 8 4 ∧ t.wld.blocks = BitVec.ofNat 16 (fld (image s) 1 12 4) ∧
      t.wld.quads = BitVec.ofNat 24 (fld (image s) 1 16 4) ∧ t.wld.tiles = BitVec.ofNat 48 (fld (image s) 1 24 8) ∧
      t.wld.iwm = fldX (image s) 1 20 4 4096 ∧ (∀ k < 48, mget 0 t.wld.twm k = fld (image s) 1 (32 + 2 * k) 2) ∧
      t.mem = s.mem ∧ t.cores = s.cores ∧ t.cfg = s.cfg

/-- The vault sequence and the writes of PWR_CTL. In VAULT with its services stopped VAULT_REGION_STOP fixes the first
incomplete region, no sooner than the engine has written those before it, and VAULT_CLOSING_RECORD, once the regions
are written, writes the image into the slot that does not hold the newest image, makes it the newest and closes the
vault; VAULT_DARK_TIMER then reaches DARK, or CHARGE where mains never failed. REPROBE in RUN or HELM-ONLY by the
owner of the PWR block starts a reprobe; VAULT_DISCARD with the key value erases both slots (PWR_VLT.DONE then reads
0: log entry 60, the model's choice); REPROBE_COMPLETE, while charging goes on, takes the measured reservoir and
READY; REPROBE_PERIOD_EXPIRY under WAIT in HELM-ONLY starts a reprobe. (R35, R38, R39, R43, R45, R46, R47, R49.) -/
def Obligations.VaultAndReservoirCommands : Prop :=
  ∀ (i : Fin 16) (rq : Req) (value : Word) (v : ProbeSamples) (temp : BitVec 8) (s : State),
    (s.cfg.phase = .vault → s.pwr.vault = .stopped →
      (s.pwr.vaultStop = none →
        ∃ t, exec (.vaultRegionStop i) s = .next t ∧ t.pwr.vaultStop = some i.val ∧ t.pwr.vault = .stopped ∧
          vaultAt s i.val ≤ t.isl.chron ∧ t.cfg = s.cfg ∧ t.nv = s.nv) ∧
      let u := vaultIslands (reachTime (vaultAt s (s.pwr.vaultStop.getD 16)) s)
      ∃ t, exec .vaultClosingRecord s = .next t ∧ t.pwr.vault = .closed ∧ t.pwr.vaultEnd = u.isl.chron ∧
        (s.nv.newest = some false → t.nv.slot1 = some (makeImage u) ∧ t.nv.slot0 = s.nv.slot0 ∧ t.nv.newest = some true) ∧
        (s.nv.newest ≠ some false → t.nv.slot0 = some (makeImage u) ∧ t.nv.slot1 = s.nv.slot1 ∧ t.nv.newest = some false)) ∧
    (s.cfg.phase = .vault → s.pwr.vault = .closed →
      ∃ t, exec .vaultDarkTimer s = .next t ∧ t.cfg.phase = (if s.pwr.loss then .dark else .charge) ∧
        t.nv.slot0 = s.nv.slot0 ∧ t.nv.slot1 = s.nv.slot1) ∧
    ((s.cfg.phase = .run ∨ s.cfg.phase = .helm) → reach rq s = true → rq.sec = blockSec s Unit.pwr →
      (value.getLsbD 1 = false → value.getLsbD 0 = true →
        exec (.reprobe rq value) s =
          .next (if s.pwr.reprobing then s else { s with pwr := { s.pwr with reprobing := true } })) ∧
      (value.getLsbD 1 = true → value.toNat / 2 ^ 18 = 0o123321 → value.getLsbD 0 = false →
        ∃ t, exec (.vaultDiscard rq value) s = .next t ∧ t.nv.slot0 = none ∧ t.nv.slot1 = none ∧ t.nv.newest = none ∧
          t.pwr.vDone = 0 ∧ t.mem = s.mem) ∧
      (s.pwr.reprobing = true → s.pwr.chargeOff = false →
        ∃ t, exec (.reprobeComplete v temp) s = .next t ∧ t.pwr.reprobing = false ∧
          t.pwr.usable = (measure v temp.toNat).usable ∧ t.pwr.cap = (measure v temp.toNat).cap ∧
          t.pwr.ready = decide (requiredEnergy s s.pwr.line ≤ (measure v temp.toNat).usable))) ∧
    (s.cfg.phase = .helm → s.cfg.hwait = true →
      ∃ t, exec .reprobePeriodExpiry s = .next t ∧ t.pwr.reprobing = true ∧
        s.pwr.waitFrom + reprobePeriod s ≤ t.isl.chron ∧ t.pwr.waitFrom = t.isl.chron)

/-- The protection actions of R50. PWR_SURGE (above 480 V), INPUT_OVERCURRENT and PWR_STAGE_HOT (from 105 C) in RUN or
HELM-ONLY disconnect the input and enter RIDE, and a lower value changes nothing (log entry 60, the model's choice, as
for the throttle); RAIL_OVERCURRENT and PWR_THERM_TRIP (from 115 C) on a tile or quad island report and switch the
island off, on the hub (or, for overcurrent, the DRAM rail) leave the serving state (VAULT for a trip in service;
DARK, or CHARGE of the next start, for overcurrent: R47, R54); PWR_THERM_THROTTLE (from 105 C) holds the physical
tile, reporting it once, and THROTTLE_RELEASE, below 95 C, releases it, each weighing its steps anew where it is a
logical tile; VAULT_HUB_OVERHEAT (125 C) ends VAULT. (R47, R50, R54.) -/
def Obligations.ProtectionActions : Prop :=
  ∀ (m : BitVec 16) (rail : Fin 78) (isl : IslandId) (p : PTileId) (tj : BitVec 8) (s : State),
    ((s.cfg.phase = .run ∨ s.cfg.phase = .helm) →
      ∀ p ∈ [(Instr.pwrSurge m, 4801), (.inputOvercurrent m, 0), (.pwrStageHot m, 1050)], p.2 ≤ m.toNat →
        ∃ t, exec p.1 s = .next t ∧ t.cfg.phase = .ride ∧ t.pwr.discon = true ∧ t.pwr.loss = true ∧ t.pwr.crit = 4 ∧
          t.mem = s.mem) ∧
    (m.toNat ≤ 4800 → exec (.pwrSurge m) s = .next s) ∧
    (m.toNat < 1050 → exec (.pwrStageHot m) s = .next s) ∧
    (s.cfg.phase ≠ .dark →
      (rail.val ≠ 52 → rail.val ≠ 77 → exec (.railOvercurrent rail m) s = .next (islandOff rail.val
        (report (mkReport Unit.pwr Cls.protect Code.pwrOvercurrent rail.val [(rail.val, 7), (m.toNat, 16)]) s))) ∧
      ((rail.val = 52 ∨ rail.val = 77) → ∃ t, exec (.railOvercurrent rail m) s = .next t ∧
        t.cfg.phase = (if s.pwr.loss then .dark else .charge)) ∧
      (isl.val ≠ 52 → 155 ≤ tj.toNat → exec (.pwrThermTrip isl tj) s = .next (islandOff isl.val
        (report (mkReport Unit.pwr Cls.protect Code.pwrThermTrip isl.val [(isl.val, 7), (tj.toNat, 8)]) s))) ∧
      (isl.val = 52 → 155 ≤ tj.toNat → s.cfg.phase ∈ [Phase.run, .helm, .ride] →
        ∃ t, exec (.pwrThermTrip isl tj) s = .next t ∧ t.cfg.phase = .vault ∧ t.pwr.vault = .entered) ∧
      (145 ≤ tj.toNat →
        let u := { s with isl := { s.isl with
          tj := mset 0 s.isl.tj p.val tj.toNat, hot := mset false s.isl.hot p.val true } }
        let v := if mget false s.isl.hot p.val then u
          else report (mkReport Unit.pwr Cls.protect Code.pwrThermThrottle p.val [(p.val, 7), (tj.toNat, 8)]) u
        (∀ t0, logicalOf s p.val = some t0 → exec (.pwrThermThrottle p tj) s = .next (resteer t0 v)) ∧
        (logicalOf s p.val = none → exec (.pwrThermThrottle p tj) s = .next v)) ∧
      (tj.toNat < 145 → exec (.pwrThermThrottle p tj) s = .next s)) ∧
    (tjOf s p.val < 135 →
      let u := { s with isl := { s.isl with hot := mset false s.isl.hot p.val false } }
      (∀ t0, logicalOf s p.val = some t0 → exec (.throttleRelease p) s = .next (resteer t0 u)) ∧
      (logicalOf s p.val = none → exec (.throttleRelease p) s = .next u)) ∧
    (s.cfg.phase = .vault → 165 ≤ tj.toNat → ∃ t, exec (.vaultHubOverheat tj) s = .next t ∧
      t.cfg.phase = (if s.pwr.loss then .dark else .charge))

/-- CFG_ALT and the image update registers. By the owner of the CFG block: CFG_ALT_WRITE with REQ in RUN makes a
matching alternate pending, and in HELM-ONLY with another matching alternate sets the current one; naming the current
one clears a pending change in both (log entry 48: DEDUCED); CFG_UPD_ERASE, CFG_UPD_WRITE_LINE and CFG_UPD_VERIFY on
the copy not in use with no operation running start that operation, and on the copy in use are refused with RESULT 7;
CFG_UPD_COMPLETE ends an erase with the copy erased, a line write with the 64 octets of the buffer, as it then stands
(log entry 61: the model's choice), at the line, and a verification with its RESULT: 6 where check 1 fails (log entry
48), else 3 for the CRC, 4 for the key hash, 5 for the signature, 6 for a malformed copy, 2 for a valid one, which
ends a hold in LOAD and is used. (R58, R61, R72, R76, R77.) -/
def Obligations.ConfigurationWrites : Prop :=
  ∀ (rq : Req) (v : Word) (b : Bool) (line : BitVec 20) (s : State),
    rq.sec = blockSec s Unit.cfg →
    ((s.cfg.phase = .run ∨ s.cfg.phase = .helm) → reach rq s = true →
      (v.getLsbD 3 = true → v.toNat % 8 = s.cfg.cur →
        exec (.cfgAltWrite rq v) s = .next { s with cfg := { s.cfg with pend := false } }) ∧
      (v.getLsbD 3 = true → s.cfg.phase = .run → v.toNat % 8 ≠ s.cfg.cur → v.toNat % 8 < s.cfg.nalt →
        altMatches s (v.toNat % 8) = true →
          exec (.cfgAltWrite rq v) s = .next { s with cfg := { s.cfg with pend := true, palt := v.toNat % 8 } }) ∧
      (v.getLsbD 3 = true → s.cfg.phase = .helm → s.cfg.noAlt = false → v.toNat % 8 ≠ s.cfg.cur → v.toNat % 8 < s.cfg.nalt →
        altMatches s (v.toNat % 8) = true →
          exec (.cfgAltWrite rq v) s = .next { s with cfg := { s.cfg with cur := v.toNat % 8 } }) ∧
      ∀ p ∈ [(Instr.cfgUpdErase rq b, 1, 0), (.cfgUpdWriteLine rq b line, 2, line.toNat), (.cfgUpdVerify rq b, 3, 0)],
        let value := p.2.2 + (if b then 2 ^ 33 else 0) + 2 ^ 34 * p.2.1
        (s.cfg.held = false → s.cfg.updBusy = false → s.cfg.copy ≠ (if b then 2 else 1) →
          exec p.1 s = .next { s with cfg := { s.cfg with
            updBusy := true, updOp := p.2.1, updB := b, updLine := p.2.2, updVal := value } }) ∧
        (s.cfg.held = false → s.cfg.copy = (if b then 2 else 1) →
          ∃ t, exec p.1 s = .next t ∧ t.cfg = { s.cfg with updRes := 7 } ∧ t.nv = s.nv)) ∧
    (s.cfg.updBusy = true →
      (s.cfg.updOp = 1 → ∃ t, exec .cfgUpdComplete s = .next t ∧ flashCopy t s.cfg.updB = [] ∧
        flashCopy t (!s.cfg.updB) = flashCopy s (!s.cfg.updB) ∧ t.cfg.updRes = 1 ∧ t.cfg.updBusy = false) ∧
      (s.cfg.updOp = 2 → ∃ t, exec .cfgUpdComplete s = .next t ∧
        flashCopy t s.cfg.updB = msetMany 255 (flashCopy s s.cfg.updB) (64 * s.cfg.updLine)
          ((List.range 64).map fun i => mget 0 s.cfg.updBuf i) ∧
        flashCopy t (!s.cfg.updB) = flashCopy s (!s.cfg.updB) ∧ t.cfg.updRes = 1 ∧ t.cfg.updBusy = false) ∧
      (s.cfg.updOp = 3 →
        let c := flashCopy s s.cfg.updB
        let len := imgLength c
        let whole := decide (imgOcts c 0 8 = magic ∧ imgLe c 8 4 = 1 ∧ len % 64 = 0 ∧ 1024 ≤ len ∧ len ≤ 67108864)
        let crc := decide (crc64 (imgOcts c 0 (len - 8)) = imgLe c (len - 8) 8)
        let key := decide (Sign.sha384 (imgOcts c 32 97) = Config.fusedKeyHash)
        let signed := Sign.verifies (Sign.sha384 (imgOcts c 0 (len - 128))) (imgOcts c 32 97) (imgOcts c (len - 128) 96)
        ∃ t, exec .cfgUpdComplete s = .next t ∧ t.cfg.updBusy = false ∧ t.nv = s.nv ∧
          t.cfg.updRes = (if whole = false then 6 else if crc = false then 3 else if key = false then 4
            else if signed = false then 5 else if (malformedAt c).isSome then 6 else 2) ∧
          if t.cfg.updRes = 2 ∧ s.cfg.held = true
            then t.cfg.phase = .test ∧ t.cfg.held = false ∧ t.cfg.copy = if s.cfg.updB then 2 else 1
            else t.cfg.phase = s.cfg.phase ∧ t.cfg.copy = s.cfg.copy))

/-- The step rules give a tile with at most one running neighbour its target, and hold that neighbour down where they
must. The step rules applied to a running tile t at rest (its step is its target), in a state whose tile table is
canonical: U is the lowest of the ceiling in force, the temperature hold, step 0 under the thermal throttle and the
hold-downs on t, and W the lower of U and the requested step. Without a running neighbour the target is W and nothing
holds the tile. With one running neighbour n, at rest at step q, the lower of its own bound and request, with t its
only running neighbour, no hold-down on either and the two at most g = 11 - STEP_MARGIN apart: where q is at most U +
g the target is the step nearest to W within g of q, n keeps its target, and n is recorded as holding t exactly where
the target is not W; where q is above U + g the target is U, and n is held down to U + g with t recorded as its cause.
The actual step of either stays until its change completes. (R50, R80, R81, R82, R84, R87.) -/
def Obligations.StepRules : Prop :=
  ∀ (t : Nat) (s : State), mwf {} s.isl.tiles = true → tileRunning s t = true → (tileIsl s t).target = (tileIsl s t).step →
    let x := tileIsl s t
    let u := resteer t s
    let g := 11 - secX s 3 0 1 0
    let U := min (min x.ceil (if x.tempOn then x.tempHold else 15))
      (min (if throttled s t then 0 else 15) (min x.holdLo x.holdHi))
    let W := min U x.req
    (runningNbrs s t = [] → (tileIsl u t).target = W ∧ (tileIsl u t).step = x.step ∧ (tileIsl u t).supplyBy = []) ∧
    ∀ n q, runningNbrs s t = [n] → runningNbrs s n = [t] → n ≠ t →
      let y := tileIsl s n
      y.target = q → y.step = q → q = min (upperBound s n) y.req → x.req ≤ 15 → y.req ≤ 15 → x.step ≤ q + g → q ≤ x.step + g →
      x.holdLo = 15 → x.holdHi = 15 → y.holdLo = 15 → y.holdHi = 15 →
        (tileIsl u t).step = x.step ∧ (tileIsl u n).step = q ∧
        (q ≤ U + g →
          (tileIsl u t).target = (if W + g < q then q - g else if q + g < W then q + g else W) ∧ (tileIsl u n).target = q ∧
          (tileIsl u t).supplyBy = (if q ≤ W + g ∧ W ≤ q + g then [] else [n])) ∧
        (U + g < q →
          (tileIsl u t).target = U ∧ (tileIsl u n).target = U + g ∧ (tileIsl u n).supplyBy = [t])

/-- Step requests, step changes, droop, junction samples, temperature holds and the synchronisation. TILE_STEP_REQUEST
by the tile's world on a running tile of the schedule with PSTATE b000 sets the requested step, and (in a state whose
tile table is canonical, as in every clause) the step rules are applied; STEP_CHANGE_COMPLETE brings the actual step
and the supply to the target at the end of the ramp, and what the change held back is weighed anew;
SUPPLY_DROOP_STRETCH on a running tile records the droop and, where it would leave a running neighbour at more than
twice the tile's rate, stretches that neighbour and reports it (the neighbour's own droop counted); JUNCTION_SAMPLE
outside DARK records the sample of any island, and on a running tile more than the limit above the hub starts a hold
at its step; TEMP_HOLD_STEP_DOWN and TEMP_HOLD_RELEASE move the hold by one step, and the latter ends it with its
report when it no longer holds, and ends one of several holds alone; CHRONOMETER_SYNC brings the chronometer to a
multiple of 65,536 ns and, for one running or napping tile, records the difference to slew away. (R80, R82, R84, R85,
R86, R87, R90, R91.) -/
def Obligations.StepsAndTemperatureHolds : Prop :=
  ∀ (rq : Req) (t : TileId) (v : Word) (st : Fin 101) (on : Bool) (isl : IslandId) (tj : BitVec 8) (d : Int) (s : State), mwf {} s.isl.tiles = true →
    let x := tileIsl s t.val
    (reach rq s = true → rq.sec = tileSec s t.val → inMask s t.val = true → v.toNat / 16 % 8 = 0 → x.state = .run →
      exec (.tileStepRequest rq t v) s = .next (resteer t.val
        (setTileIsl t.val (fun x => { x with pstate := 0, pend := 0 })
          (setTileIsl t.val (fun x => { x with req := v.toNat % 16 }) s)))) ∧
    (x.changing = true →
      let s1 := reachTime (x.since + 1000 * (x.target - x.volt)) s
      exec (.stepChangeComplete t) s = .next (restretchAll t.val (resteer t.val (setTileIsl t.val (fun x =>
        { x with step := x.target, changing := false, volt := x.target, since := s1.isl.chron }) s1)))) ∧
    (tileRunning s t.val = true →
      let s1 := setTileIsl t.val (fun x => { x with droop := if on then 1 + st.val else 0 }) s
      exec (.supplyDroopStretch t st on) s = .next (((adjacent s t.val).1.toList ++ (adjacent s t.val).2.toList).foldl
        (fun u n => restretchPair n t.val (restretchPair t.val n u)) s1) ∧
      ∀ n, adjacent s t.val = (none, some n) → n ≠ t.val → tileRunning s n = true → on = true →
        (tileIsl s n).stretch = [] → x.stretch = [] →
        2 * (stepMHz x.step * (100 + ((tileIsl s n).droop - 1))) < stepMHz (tileIsl s n).step * (100 + st.val) →
          exec (.supplyDroopStretch t st on) s = .next (report (nbrLimit (islOf s t.val) (islOf s n) 3 true x.step
            (tileIsl s n).step) (setTileIsl n (fun y => { y with stretch := [t.val] }) s1))) ∧
    (s.cfg.phase ≠ .dark → mwf 0 s.isl.tj = true →
      (∃ u, exec (.junctionSample isl tj) s = .next u ∧ tjOf u isl.val = tj.toNat) ∧
      (isl.val < 52 → logicalOf s isl.val = some t.val → islOf s t.val = isl.val → tileRunning s t.val = true →
        runningNbrs s t.val = [] → x.tempBy = [] → x.tempOn = false → tjOf s 52 + tempLimit s < tj.toNat →
          let s1 := { s with isl := { s.isl with tj := mset 0 s.isl.tj isl.val tj.toNat } }
          let s2 := resteer t.val (report (tempReport s1 isl.val 52 true) (setTileIsl t.val (fun y =>
            { y with tempBy := [52], tempOn := true, tempHold := y.step }) s1))
          exec (.junctionSample isl tj) s = .next ((hubPairs s2 isl.val).foldl (fun u p => markHot p u) s2))) ∧
    (x.tempOn = true → (hotterThan s t.val (tempLimit s)).isSome = true →
      exec (.tempHoldStepDown t) s =
        .next (resteer t.val (setTileIsl t.val (fun x => { x with tempHold := min x.tempHold x.step - 1 }) s))) ∧
    (x.tempOn = true → stillHolding s t.val ≠ [] →
      exec (.tempHoldRelease t) s = .next (setTileIsl t.val (fun y => { y with tempBy := stillHolding s t.val })
        ((x.tempBy.filter fun o => !(stillHolding s t.val).contains o).foldl
          (fun u o => report (tempReport u (islOf u t.val) o false) u) s))) ∧
    (x.tempOn = true → hotterThan s t.val (tempLimit s - 5) = none → x.tempHold + 1 < min x.req x.ceil →
      exec (.tempHoldRelease t) s =
        .next (resteer t.val (setTileIsl t.val (fun x => { x with tempHold := x.tempHold + 1 }) s))) ∧
    (∀ o, x.tempOn = true → hotterThan s t.val (tempLimit s - 5) = none → min x.req x.ceil ≤ x.tempHold + 1 →
      x.tempBy = [o] → exec (.tempHoldRelease t) s = .next (resteer t.val (setTileIsl t.val (fun x =>
        { x with tempHold := 15, tempOn := false, tempBy := [] }) (report (tempReport s (islOf s t.val) o false) s)))) ∧
    (s.cfg.phase ≠ .dark →
      (∃ u, exec (.chronometerSync []) s = .next u ∧ u.isl.chron % 65536 = 0 ∧ s.isl.chron ≤ u.isl.chron ∧
        u.isl.chron < s.isl.chron + 65536) ∧
      (isl.val < 52 → logicalOf s isl.val = some t.val → (x.state = .run ∨ x.state = .nap) →
          ∃ u, exec (.chronometerSync [(isl, d)]) s = .next u ∧ (tileIsl u t.val).copyDiff = d ∧
            (tileIsl u t.val).copyAt = u.isl.chron))

/-- Nap, dark, and what crosses into a tile. In a state whose tile table is canonical: TILE_PSTATE_REQUEST by the
tile's world on a running tile of the schedule makes nap or dark pending, and a code above 3 is refused while its STEP
acts (log entry 34: DEDUCED); NAP_ENTRY with a nap pending, every core of the tile ready and no miss outstanding puts
the tile into nap; NAP_EXIT of a tile that is leaving nap, with no dark request pending (R94), runs it again at the
step that R84 gives, with PSTATE b000 (log entry 67: the model's choice); DARK_ENTRY sends out the dirty lines of the
tile's cores (or wakes the channels that hold its stores up), takes the tile dark, with or without its memory, once
they are visible, and a further one removes its power, all its cores then being off; the parts, and what an item does
at a tile, are log entry 35's (DEDUCED). A dark request to a napping tile does the same at once; DARK_EXIT starts its
cores anew, once DRAM can give what it reloads; CROSSING_ITEM_ARRIVAL of the first item of a crossing within 9 cycles,
to a running tile, writes the item's parts and sets its arrival flag, an interrupt message that comes to a napping
tile makes it leave nap, and a line that a tile sent to the hub may be carried by later slots (R161). (R88, R92, R93,
R94, R96, R97, R155, R283.) -/
def Obligations.TilePowerStates : Prop :=
  ∀ (rq : Req) (t : TileId) (v : Word) (i : Nat) (cyc : BitVec 18) (s : State), mwf {} s.isl.tiles = true →
    let x := tileIsl s t.val
    (reach rq s = true → rq.sec = tileSec s t.val → inMask s t.val = true → x.state = .run → v.toNat / 16 % 8 ∈ [1, 2, 3] →
      (v.toNat / 16 % 8 = 3 → cannotReload s t.val = false) →
      exec (.tilePstateRequest rq t v) s = .next (resteer t.val
        (setTileIsl t.val (fun x => { x with pstate := v.toNat / 16 % 8, pend := v.toNat / 16 % 8 })
          (setTileIsl t.val (fun x => { x with req := v.toNat % 16 }) s)))) ∧
    (reach rq s = true → rq.sec = tileSec s t.val → inMask s t.val = true → 3 < v.toNat / 16 % 8 →
      exec (.tilePstateRequest rq t v) s = .next (resteer t.val (pstateRefused t.val v.toNat
        (setTileIsl t.val (fun x => { x with req := v.toNat % 16 }) s)))) ∧
    (reach rq s = true → rq.sec = tileSec s t.val → inMask s t.val = true → x.state = .nap → v.toNat / 16 % 8 = 2 →
      exec (.tilePstateRequest rq t v) s = .next (resteer t.val (darkStep t.val true
        (setTileIsl t.val (fun x => { x with pstate := 2, pend := 2 })
          (setTileIsl t.val (fun x => { x with req := v.toNat % 16 }) s))))) ∧
    (serving s = true → tileRunning s t.val = true → x.pend = 1 → entryBegun s t.val = true → quiet s t.val = true →
      exec (.napEntry t) s = .next (traceTile t.val 2 (releaseNeighbours t.val .nap s)) ∧
        (tileIsl (releaseNeighbours t.val .nap s) t.val).state = .nap) ∧
    (available s t.val = true → x.state = .nap → x.exiting = true → x.pend ≠ 2 → x.pend ≠ 3 →
      exec (.napExit t) s = .next (enterStep t.val (traceTile t.val 6 (setTileIsl t.val
        (fun x => { x with state := .run, exiting := false, pend := 0, pstate := 0 }) s)))) ∧
    (serving s = true → available s t.val = true → x.pend = 2 ∨ x.pend = 3 → x.state = .run → x.closing = false →
      entryBegun s t.val = true → quiet s t.val = true →
        (∀ l ls, heldStores s t.val = l :: ls →
          exec (.darkEntry t) s = .next ((l :: ls).foldl (fun s l => wakeLine l s) s)) ∧
        let s1 := flushTile t.val s
        (heldStores s t.val = [] → tileClean s1 t.val = false → exec (.darkEntry t) s = .next s1) ∧
        (heldStores s t.val = [] → tileClean s1 t.val = true → mwf {} s1.isl.tiles = true →
          ∃ u, exec (.darkEntry t) s = .next u ∧ u = enterDark t.val (x.pend == 2) s1 ∧ (tileIsl u t.val).closing = true ∧
            (tileIsl u t.val).state = (if x.pend = 2 then .darkKeep else .darkLose))) ∧
    (serving s = true → x.closing = true → mwf {} s.cores = true →
      ∃ u, exec (.darkEntry t) s = .next u ∧ (tileIsl u t.val).closing = false ∧ (tileIsl u t.val).state = x.state ∧
        ∀ c < 8, (coreAt u (8 * t.val + c)).on = false) ∧
    (available s t.val = true → x.exiting = true → inMask s t.val = true → serving s = true →
      let p := removePower t.val s
      (x.state = .darkKeep → exec (.darkExit t) s = .next (traceDarkExit t.val (startTile t.val p))) ∧
      (x.state = .darkLose → reloadHeld p t.val = none →
        exec (.darkExit t) s = .next (traceDarkExit t.val (startTile t.val (reloadTile t.val p)))) ∧
      ∀ l, x.state = .darkLose → reloadHeld p t.val = some l →
        exec (.darkExit t) s = .next (startExit (subOf l) (setTileIsl t.val (fun x => { x with exiting := true }) p))) ∧
    (∀ y, s.slc.xing[i]? = some y → (s.slc.xing.take i).all (fun z => z.tile != y.tile) = true →
      available s y.tile = true → (tileIsl s y.tile).state = .nap → y.intr.isSome = true → y.flag = none →
        ∃ u, exec (.crossingItemArrival i cyc) s = .next u ∧ (tileIsl u y.tile).exiting = true) ∧
    (∀ b, s.slc.xing.length ≤ i → (hubBound s)[i - s.slc.xing.length]? = some b → cyc.toNat ≤ 9 →
      ((hubBound s).takeWhile fun z => z != b).all (fun z => senderOf s z != senderOf s b) = true →
        exec (.crossingItemArrival i cyc) s = .next { s with slc := { s.slc with toHub := (hubBound s).erase b } }) ∧
    ∀ y, s.slc.xing[i]? = some y → (s.slc.xing.take i).all (fun z => z.tile != y.tile) = true → cyc.toNat ≤ 9 →
      available s y.tile = true → (tileIsl s y.tile).state = .run →
        let s1 := answerStore y (writeItem y { s with slc := { s.slc with xing := dropAt s.slc.xing i } })
        (y.flag = none → exec (.crossingItemArrival i cyc) s = .next s1) ∧
        ∀ c f, y.flag = some (c, f) →
          exec (.crossingItemArrival i cyc) s = .next (setArrival (8 * y.tile + c) f false s1)

/-- A core starts in the secure kernel at its secure image, else in the normal kernel. When a core starts, in a state
whose table of cores is canonical, it is in kernel mode of the secure world at the secure entry address where the tile
has a secure image (with the normal entry in WRA where it also has a normal one), and of the normal world at the
normal entry address otherwise; every general register reads zero, its special registers and pending state are clear,
and its watchdog is armed when WD_PERIOD is nonzero. (R99, R135, R263.) -/
def Obligations.CoreStartState : Prop :=
  ∀ (i : Nat) (s : State), mwf {} s.cores = true →
    let k := coreAt (startCore i s) i
    let n := runImage s (i / 8) false
    let x := runImage s (i / 8) true
    k.on = true ∧ k.kernel = true ∧ k.sec = decide (x.len ≠ 0) ∧
      k.pc = (if x.len ≠ 0 then x.entry else n.entry) ∧ (x.len ≠ 0 → n.len ≠ 0 → k.wra = n.entry) ∧
      (∀ r, k.read r = 0) ∧ k.lk = 0 ∧ k.fs = 0 ∧ k.ex = false ∧ k.ie = false ∧ k.ctx = 0 ∧ k.secB = {} ∧ k.norB = {} ∧
      k.flight = [] ∧ k.held = [] ∧ k.stack = [] ∧ k.seq = none ∧ k.stores = [] ∧ k.misses = [] ∧ k.halt = none ∧
      k.wd.en = decide (wdPeriod s ≠ 0) ∧ (wdPeriod s ≠ 0 → k.wd.state = 1 ∧ k.wd.remain = wdPeriod s)

/-- A doorbell reaches the router, is counted, and fires its window. IVC_RING_WRITE puts the doorbell with its source,
requester and world behind those on their way; DOORBELL_ACCEPT takes the oldest one: a normal-world doorbell for a
secure source is refused with a report, an unrouted source sets UNR and is reported once, and a routed source with an
open count below 255 counts it, starts the timer at the first, and fires where CCOUNT or CTIME is reached with EN 1;
WINDOW_TIME_FIRE of an enabled window with a running timer moves time to its bound and fires it; IVC_ROUTE_WRITE of a
routed source in its own world sets EN, CCOUNT and CTIME and keeps TILE, CORE, LEVEL and VEC. (R239, R245, R246, R248,
R249, R250, R251.) -/
def Obligations.DoorbellsCountAndFire : Prop :=
  ∀ (rq : Req) (v : Word) (src : SourceId) (w : BitVec 72) (s : State),
    (reach rq s = true → exec (.ivcRingWrite rq v) s = .next { s with ivc := { s.ivc with
      bells := s.ivc.bells ++ [⟨v.toNat % 2 ^ 18, rq.code.toNat, rq.sec⟩] } }) ∧
    (∀ b rest, s.ivc.bells = b :: rest →
      let s1 := { s with ivc := { s.ivc with bells := rest } }
      (b.src < s.wld.iwm → b.sec = false → exec .doorbellAccept s = .next (report
        (mkReport Unit.ivc Cls.reported Code.wldSourceRefused 0 [(b.src, 18), (b.code, 9)]) s1)) ∧
      ((s.wld.iwm ≤ b.src ∨ b.sec = true) → (routeAt s b.src).routed = false →
        exec .doorbellAccept s = .next (
          let t := setSrc b.src (fun q => { q with unr := true }) s1
          if (srcAt s b.src).unr then t
          else report (mkReport Unit.ivc Cls.reported Code.ivcUnrouted 0 [(b.src, 18), (b.code, 9)]) t)) ∧
      ((s.wld.iwm ≤ b.src ∨ b.sec = true) → (routeAt s b.src).routed = true → (srcAt s b.src).cnt < 255 →
        exec .doorbellAccept s = .next (
          let t := setSrc b.src (fun q => { q with
            cnt := q.cnt + 1, timer := true, t0 := if q.cnt = 0 then s.isl.chron else q.t0 }) s1
          if firesNow t b.src then fire b.src t else t))) ∧
    ((srcAt s src.val).timer = true → (routeAt s src.val).ctime ≠ 0 → (routeAt s src.val).en = true →
      ∃ t, exec (.windowTimeFire src) s = .next t ∧ t = fire src.val
        (reachTime ((srcAt s src.val).t0 + 64 * (routeAt s src.val).ctime) s)) ∧
    (reach rq s = true → (s.wld.iwm ≤ src.val ∨ rq.sec = true) → (routeAt s src.val).routed = true →
      w.toNat / 2 ^ 24 % 256 ≠ 0 →
        let r := { routeAt s src.val with
          en := w.getLsbD 23, ccount := w.toNat / 2 ^ 24 % 256, ctime := w.toNat / 2 ^ 32 % 2 ^ 16 }
        let t := { s with ivc := { s.ivc with routes := mset {} s.ivc.routes src.val r } }
        exec (.ivcRouteWrite rq src w) s = .next (if firesNow t src.val then fire src.val t else t))

/-- A fired source is launched, offered and entered. INTERRUPT_DELIVERY_LAUNCH takes the oldest fired source routed to
a deliverable tile from the waiting list to those in flight, its message entering the tile's crossing, and a napping
tile begins to leave nap; INTERRUPT_DELIVERY_OFFER takes the oldest of them to the tile, once no landing header that
rang it and no earlier item is on its way there: it makes a napping tile leave nap, and in a running one it is offered
to its core (here awake) with level, vector and firing order; INTERRUPT_ENTRY at a boundary, once it has settled and a
wait there has ended, where R253 permits the best offer and no trap or stack fault comes first, answers the next state
in which the frame of the present core is pushed, with the destination of the wait's status if there was one, the mode
is kernel, EPC is the resume address and the next bundle is VBASE + o4000 + 64 x VEC, EX unchanged; the state's table
of cores is canonical. (R92, R252, R253, R254, R255, R257.) -/
def Obligations.DeliveriesReachTheCore : Prop :=
  ∀ (t : TileId) (c : CoreId) (s : State), mwf {} s.cores = true →
    (∀ src, s.ivc.wait.find? (fun q => (routeAt s q).tile == t.val) = some src → deliverable s t.val = true →
      let sent := fun (s : State) => { s with
        ivc := { s.ivc with wait := s.ivc.wait.erase src, flying := s.ivc.flying ++ [src] }
        slc := { s.slc with xing := s.slc.xing ++ [{ tile := t.val, intr := some src }] } }
      ((tileIsl s t.val).state = .run → exec (.interruptDeliveryLaunch t) s = .next (sent s)) ∧
      ((tileIsl s t.val).state = .nap → exec (.interruptDeliveryLaunch t) s =
        .next (sent (setTileIsl t.val (fun x => { x with exiting := true }) s)))) ∧
    (∀ src, s.ivc.flying.find? (fun q => (routeAt s q).tile == t.val) = some src →
      (s.slc.xing.any fun x => x.tile == t.val && x.bell == some src) = false →
      (∀ n, (s.slc.xing.findIdx? fun x => x.tile == t.val && x.intr == some src) = some n →
        (s.slc.xing.take n).all (fun x => x.tile != t.val) = true) →
      let r := routeAt s src
      let i := 8 * t.val + r.core
      let come := fun (s : State) => { s with slc := { s.slc with xing := s.slc.xing.filter fun x =>
        !(x.tile == t.val && x.intr == some src) } }
      ((tileIsl s t.val).state = .nap → exec (.interruptDeliveryOffer t) s =
        .next (setTileIsl t.val (fun x => { x with exiting := true }) (come s))) ∧
      (tileRunning s t.val = true → (coreAt s i).dozing = false →
        exec (.interruptDeliveryOffer t) s = .next (setCore i (fun k => { k with
          offers := k.offers ++ [⟨src, r.level, r.vec, (srcAt s src).order⟩] })
          (come { s with ivc := { s.ivc with flying := s.ivc.flying.erase src } })))) ∧
    (let i := coreIx c
     let s' := (entryBoundary i s).1
     let k := coreAt s' i
     ∀ o, boundaryFree s i = true → interruptDue s' i = true → stackFaultDue s' i = false → k.trapDue = false →
       bestOffer k = some o →
         ∃ u, exec (.interruptEntry c) s = .next u ∧
           let k' := coreAt u i
           let b := if k.sec then k.secB else k.norB
           let b' := if k.sec then k'.secB else k'.norB
           (∃ f, k'.stack = f :: k.stack ∧ f.level = some o.level ∧ f.src = o.src ∧ f.resume = k.pc ∧
             f.pmode = k.kernel ∧ f.ie = k.ie ∧ f.fault = false ∧
             f.waitm = (match (coreAt s i).wait with | some w => some w.dest | none => (coreAt s i).statDue)) ∧
           k'.kernel = true ∧ k'.ex = k.ex ∧ k'.sec = k.sec ∧ k'.regs = k.regs ∧ b'.epc = k.pc ∧
           k'.pc = (b.vbase + (0o4000 + 64 * o.vec)) % 2 ^ 48 ∧ k'.offers = k.offers.filter (fun p => p != o) ∧
           u.mem = s.mem)

/-- The stack-fault entry and the watchdog's two expiries. STACK_FAULT_ENTRY with a pending bad completion, at a
boundary, once it has settled and a wait there has ended, where no trap is due, pushes a stack-fault frame at the
core's level and goes to VBASE + o4000 in kernel mode; WATCHDOG_EXPIRY of an armed watchdog reports WDOG_EXPIRED and
starts a second period with STATE 2; of one in STATE 2 it halts the core, with STATE 3, reports WDOG_HALT and rings
the core-fault source (with the code of the core: log entry 72, the model's choice). The state's table of cores is
canonical. (R261, R262, R263, R265.) -/
def Obligations.StackFaultsAndWatchdogs : Prop :=
  ∀ (c : CoreId) (s : State), mwf {} s.cores = true →
    let i := coreIx c
    let k := coreAt s i
    (∀ v, let s' := (entryBoundary i s).1
      let k := coreAt s' i
      boundaryFree s i = true → k.fpend = some v → stackFaultDue s' i = true → k.trapDue = false →
        ∃ u, exec (.stackFaultEntry c) s = .next u ∧
          let k' := coreAt u i
          let b := if k.sec then k.secB else k.norB
          (∃ f, k'.stack = f :: k.stack ∧ f.level = k.level ∧ f.fault = true ∧ f.src = v ∧ f.resume = k.pc ∧
            f.pmode = k.kernel) ∧
          k'.kernel = true ∧ k'.pc = (b.vbase + 0o4000) % 2 ^ 48 ∧ k'.fpend = none ∧ k'.regs = k.regs ∧ u.mem = s.mem) ∧
    (k.on = true → k.halt = none → k.fatal = false → k.wd.en = true →
      (k.wd.state = 1 → ∃ u, exec (.watchdogExpiry c) s = .next u ∧ (coreAt u i).wd.state = 2 ∧
        (coreAt u i).wd.remain = k.wd.period ∧ (coreAt u i).fatal = false ∧ (coreAt u i).pc = k.pc ∧
        u.hlt = (report (coreReport Cls.reported Code.wdogExpired i [(k.wd.period, 20), (k.pc / 16 % 2 ^ 44, 44)]) s).hlt) ∧
      (k.wd.state = 2 → ∃ u, exec (.watchdogExpiry c) s = .next u ∧ (coreAt u i).wd.state = 3 ∧
        (coreAt u i).fatal = true ∧
        u.hlt = (report (coreReport Cls.fatal Code.wdogHalt i [(k.pc / 16 % 2 ^ 44, 44)]) s).hlt ∧ u.ivc.bells = s.ivc.bells ++
          [⟨(secX s 9 8 4 4096 + i) % 262144, i, tileSec s (i / 8)⟩]))

/-- Posts, releases and stops of a queue. SLC_POST, SLC_RELEASE and QUEUE_STOP by a requester that may write the
queue's registers: a post of N = 1 to 255 elements that fit the ring raises TAIL by N modulo 2^17, and one that does
not fit changes no pointer and is reported as SLC_RING_OVERFLOW; on an undefined queue it is reported; a release of a
core queue that does not pass DCOUNT sets RCOUNT, and one that does is reported as SLC_RELEASE_BAD; a write of STOP
sets it. HEAD, DCOUNT and every other queue are unchanged. The table of queues is canonical. (R273, R274, R275, R276.)
-/
def Obligations.QueueRegisterWrites : Prop :=
  ∀ (rq : Req) (q : QueueId) (n : BitVec 8) (c : BitVec 17) (stop : Bool) (s : State), mwf {} s.slc.queues = true →
    reach rq s = true → (queueSec s q.val = true → rq.sec = true) →
    let x := qst s q.val
    (n ≠ 0 → qrec s q.val = none → exec (.slcPost rq q n) s = .next (queueUndefined q.val (0o10000000 + 4 * q.val) rq s)) ∧
    (∀ r, qrec s q.val = some r →
      (n ≠ 0 → (x.tail + 2 ^ 17 - x.head) % 2 ^ 17 + n.toNat ≤ 2 ^ (r.rsz + 4) →
        ∃ t, exec (.slcPost rq q n) s = .next t ∧ qst t q.val = { x with tail := (x.tail + n.toNat) % 2 ^ 17 } ∧
          (∀ q', q' ≠ q.val → qst t q' = qst s q') ∧ t.mem = s.mem ∧ t.hlt = s.hlt) ∧
      (n ≠ 0 → 2 ^ (r.rsz + 4) < (x.tail + 2 ^ 17 - x.head) % 2 ^ 17 + n.toNat →
        exec (.slcPost rq q n) s = .next (report (mkReport Unit.slc Cls.reported Code.slcRingOverflow 0
          [(q.val, 20), (x.head, 17), (x.tail, 17), (n.toNat, 8)]) s)) ∧
      (r.culv = false → (c.toNat + 2 ^ 17 - x.rcount) % 2 ^ 17 ≤ (x.dcount + 2 ^ 17 - x.rcount) % 2 ^ 17 →
        ∃ t, exec (.slcRelease rq q c) s = .next t ∧ qst t q.val = { x with rcount := c.toNat } ∧
          (∀ q', q' ≠ q.val → qst t q' = qst s q') ∧ t.mem = s.mem) ∧
      (r.culv = false → (x.dcount + 2 ^ 17 - x.rcount) % 2 ^ 17 < (c.toNat + 2 ^ 17 - x.rcount) % 2 ^ 17 →
        exec (.slcRelease rq q c) s = .next (report (mkReport Unit.slc Cls.reported Code.slcReleaseBad 0
          [(q.val, 20), (x.dcount, 17), (x.rcount, 17), (c.toNat, 17)]) s)) ∧
      ∃ t, exec (.queueStop rq q stop) s = .next t ∧ qst t q.val = { x with stop := stop } ∧
        (∀ q', q' ≠ q.val → qst t q' = qst s q') ∧ t.mem = s.mem)

/-- A hub cycle applies its pattern and makes its grant, and a tide boundary starts the next tide. SLOT_GRANT,
SLOT_TRANSFER and SLOT_REFRESH while an alternate's schedule runs, for a slot not before the next one (a skipped slot
passes without a line or a grant: log entry 31, DEDUCED) whose entry has their KIND: the pattern of the entry is
applied, then the grant to the entry's ditch when it is eligible or else the donation to its ring, nothing, or the
almanac's refresh where the almanac places refresh; the next slot is the one after. A grant takes the first eligible
queue after LAST, in the order of R276 and R281: n elements, the smallest of BURST, the ring's count and the landing
entries free, make their lines bound for the queue's canal or culvert, BUSY is set and LAST is the queue's index. A
donation goes to the ring's first eligible member from PTR and PTR moves past it; without one the slot is idle. A
pattern that connects the one bound line's source to its destination carries it, if it can leave, and any other
pattern leaves it bound. MGMT_SLOT under the management schedule applies its pattern and grants the first eligible
management ditch from the pointer, which moves to the next one, or counts an idle slot. TIDE_BOUNDARY outside VAULT
with no schedule change pending keeps the schedule, reloads the ceilings (each available tile's for the line class and
alternate in force) and counts the tide. (R81, R268, R276, R280, R281, R287, R290, R291, R390, R393.) -/
def Obligations.SlotsRunTheSchedule : Prop :=
  (∀ (k : Fin 65536) (s : State), serving s = true →
    let at' := fun (s : State) => { s with slc := { s.slc with slot := k.val, cycle := s.slc.cycle + (k.val - s.slc.next) } }
    let ends := fun (t : State) => Host.Outcome.next (φ := Fault) (ρ := Refusal)
      { t with slc := { t.slc with next := k.val + 1, cycle := t.slc.cycle + 1 } }
    (s.slc.mode = 1 → s.slc.next ≤ k.val →
      let a := s.cfg.cur
      let e := slotEntry s a k.val
      let s1 := applyPattern a (e / 2 ^ 22 % 2 ^ 12) (at' s)
      let d := e % 2 ^ 14
      (e / 2 ^ 34 % 4 = 0 → exec (.slotGrant k) s =
        ends (if ditchEligible s1 d then grant d false s1 else donate (e / 2 ^ 14 % 256) s1)) ∧
      (e / 2 ^ 34 % 4 = 1 → exec (.slotTransfer k) s = ends s1) ∧
      (e / 2 ^ 34 % 4 = 2 → exec (.slotRefresh k) s = ends (if drcPlace s1 = 0 then almanacRefresh d s1 else s1))) ∧
    (s.slc.mode = 2 → s.slc.next ≤ k.val →
      let s1 := mgmtPattern (at' s)
      let ds := mgmtDitches s1
      ((∀ d ∈ ds, ditchEligible s1 d = false) →
        exec (.mgmtSlot k) s = ends { s1 with slc := { s1.slc with cIdle := s1.slc.cIdle + 1 } }) ∧
      ∀ d, ((ds.filter fun d => decide (s1.slc.mgmtPtr ≤ d)) ++ ds.filter fun d => decide (d < s1.slc.mgmtPtr)).find?
          (ditchEligible s1) = some d →
        exec (.mgmtSlot k) s = ends (grant d false { s1 with slc := { s1.slc with
          mgmtPtr := (ds.find? fun x => decide (d < x)).getD (ds.headD 0) } })) ∧
    ((s.slc.mode = 1 ∨ s.slc.mode = 2) → s.cfg.phase ≠ .vault → leavesHelm s = false → s.cfg.pend = false →
      ∃ t, exec .tideBoundary s = .next t ∧ t = countTide (boundaryCeilings s)) ∧
    (mwf {} s.isl.tiles = true → (s.cfg.phase = .run ∨ s.cfg.phase = .helm) → ∀ t < 48, available s t = true →
      (tileIsl (boundaryCeilings s) t).ceil = ceilingOf { s with pwr := { s.pwr with ceilLow := s.pwr.line == 1 } } t)) ∧
  ∀ (s : State), mwf {} s.slc.queues = true → mwf {} s.slc.ditches = true → mwf none s.slc.delivs = true →
    (∀ q r, qrec s q = some r → r.culv = false →
      let x := qst s q
      (eligible s q = true ↔ x.stop = false ∧ x.busy = false ∧ (x.tail + 2 ^ 17 - x.head) % 2 ^ 17 ≠ 0 ∧
        (x.dcount + 2 ^ 17 - x.rcount) % 2 ^ 17 < 2 ^ r.lsz ∧ inMask s r.tile = true ∧ tileRunning s r.tile = true ∧
        entryBegun s r.tile = false)) ∧
    (∀ d i, let dt := ditchAt s d
      (pickQueue s dt = some i ↔ ∃ j < dt.nq, i = (dt.last + 1 + j) % dt.nq ∧ eligible s (dt.qfirst + i) = true ∧
        ∀ j' < j, eligible s (dt.qfirst + (dt.last + 1 + j') % dt.nq) = false) ∧
      ∀ (don : Bool) r, pickQueue s dt = some i → qrec s (dt.qfirst + i) = some r →
        let q := dt.qfirst + i
        let x := qst s q
        let n := min (min dt.burst ((x.tail + 2 ^ 17 - x.head) % 2 ^ 17))
          (if r.culv then dt.burst else 2 ^ r.lsz - (x.dcount + 2 ^ 17 - x.rcount) % 2 ^ 17)
        let u := grant d don s
        u.slc.bound = s.slc.bound ++ ((List.range n).flatMap fun e => (List.range r.elines).map fun l =>
          let line := (if r.rdram then 0 else hubLine0) + r.rbase +
            ((x.head + e) % 2 ^ 17 % 2 ^ (r.rsz + 4) * r.elines + l)
          ⟨portOfLine line, if r.culv then portCulvert r.cul else portCanal r.tile, s.slc.cycle, .elem q e l line⟩) ∧
        qst u q = { x with busy := true } ∧ mget none u.slc.delivs q = some ⟨n, n * r.elines, 0, 0, 0, false⟩ ∧
        (ditchAt u d).last = i ∧ u.mem = s.mem) ∧
    (∀ r i, let ms := ringMembers s s.cfg.cur r
      let p := mget 0 s.slc.rptr r
      (r ≠ 255 → r < altNring s s.cfg.cur →
        (∃ j < ms.length, i = (p + j) % ms.length ∧ ditchEligible s (ms.getD i 0) = true ∧
          ∀ j' < j, ditchEligible s (ms.getD ((p + j') % ms.length) 0) = false) →
        donate r s = grant (ms.getD i 0) true { s with slc := { s.slc with
          cDon := s.slc.cDon + 1, rptr := mset 0 s.slc.rptr r ((i + 1) % ms.length) } }) ∧
      (r = 255 ∨ altNring s s.cfg.cur ≤ r ∨ (∀ d ∈ ms, ditchEligible s d = false) →
        donate r s = { s with slc := { s.slc with cIdle := s.slc.cIdle + 1 } })) ∧
    ∀ a p b, s.slc.bound = [b] → s.slc.headers = [] → b.src ≠ unconnected →
      let s' := newCycle (some (a, p)) s
      (patSource s' a p b.dst ≠ b.src → applyPattern a p s = s') ∧
      (patSource s' a p b.dst = b.src → holds s' b = true → canLeave (offered (spend b.dst s')) b = true →
        applyPattern a p s = carry b (offered (spend b.dst s')))

/-- A delivery commits, and one that stalls is reported once. DELIVERY_COMMIT of a queue whose delivery has its header
connected raises HEAD by the delivery's elements (and DCOUNT for a core queue), ends the delivery, sends the landing
header of a core queue on its way with its arrival flag, and rings the queue's doorbell where it has one;
SLC_DELIVERY_STALLED of a delivery with a bound line, not yet reported, reports it with its source and destination,
and marks it; one already reported changes nothing. The tables of queues and deliveries are canonical. (R272, R282,
R286.) -/
def Obligations.DeliveriesCommit : Prop :=
  ∀ (q : QueueId) (s : State) (x : Deliv), mwf {} s.slc.queues = true → mwf none s.slc.delivs = true →
    mget none s.slc.delivs q.val = some x →
    (∀ r, qrec s q.val = some r → x.hdr = 2 →
      ∃ t, exec (.deliveryCommit q) s = .next t ∧
        qst t q.val = { qst s q.val with
          head := ((qst s q.val).head + x.n) % 2 ^ 17, busy := false,
          dcount := if r.culv then (qst s q.val).dcount else ((qst s q.val).dcount + x.n) % 2 ^ 17 } ∧
        mget none t.slc.delivs q.val = none ∧ t.mem = s.mem ∧
        (r.culv = true → t.slc.xing = s.slc.xing) ∧
        (r.culv = false → ∃ h : XItem, t.slc.xing = s.slc.xing ++ [h] ∧ h.tile = r.tile ∧ h.flag = some (r.core, r.flag) ∧
          h.line = tileLine0 r.tile + r.lbase) ∧
        t.ivc.bells = (if r.dbe then s.ivc.bells ++ [⟨r.src % 262144, 0o702, queueSec s q.val⟩] else s.ivc.bells)) ∧
    (∀ b, firstBound s q.val = some b → x.stalled = false →
      ∃ t, exec (.slcDeliveryStalled q) s = .next t ∧ mget none t.slc.delivs q.val = some { x with stalled := true } ∧
        b.since + 65536 ≤ t.slc.cycle ∧ t.slc.bound = s.slc.bound ∧
        t.hlt = (report (mkReport Unit.slc Cls.reported Code.slcDeliveryStalled 0
          [(q.val, 20), (b.src, 8), (b.dst, 8)]) s).hlt) ∧
    (x.stalled = true → exec (.slcDeliveryStalled q) s = .next s)

/-- A descriptor is checked, started, fed, completed and recorded. CULVERT_DESCRIPTOR with fewer than two descriptors
held takes the oldest received element: well formed it waits, malformed it is past its completion point with STATUS
o10, removed by an abort with STATUS 1. DESCRIPTOR_START of a waiting head: a line that its world may not reach ends
it with STATUS o11 and the report of the first such line (the source's before the destination's: log entry 73, the
model's choice), and no memory changes; else a memory source binds one line for every source line, a host source asks
the host for its reads (log entry 33: DEDUCED; with no other outstanding and at most 768 of them, the newest requests
are all of its own: log entry 56, PRESUMED), and the transfer moves. HOST_COMPLETION while a request is outstanding
(and no request still to be sent is of a VI that may send none) binds its octets as lines for the culvert, from the
quads that log entry 33 gives; with an error at an outstanding request (as COMPLETION_TIMEOUT, where the VI's timeouts
are on) it ends the octets to come before the address, and at the first address the transfer, with STATUS o14.
CULVERT_COMPLETION_POINT launches the last line whose connection has come where it is taken, and else starts the exit
of its channel. COMPLETION_RECORD_WRITE past the point writes and posts the record where its queue has room, and frees
the descriptor; without a record a status other than OK is reported. The table of culverts is canonical. (R236, R295,
R298, R299, R300, R307, R309, R348.) -/
def Obligations.CulvertTransfersRun : Prop :=
  ∀ (c : CulvertId) (off : BitVec 25) (os : List (BitVec 8)) (a : BitVec 64) (s : State), mwf {} s.cul.culs = true →
    let k := culAt s c.val
    (∀ d rest, k.queued = d :: rest → k.held.length < 2 →
      ∃ t, exec (.culvertDescriptor c) s = .next t ∧ (culAt t c.val).queued = rest ∧
        ∃ h : Held, (culAt t c.val).held = k.held ++ [h] ∧ h.desc = d ∧
          (d.cut = true → h.stage = .pointed ∧ h.status = 1) ∧
          (d.cut = false → badFormat s d = true → h.stage = .pointed ∧ h.status = 0o10) ∧
          (d.cut = false → badFormat s d = false → h.stage = .waiting)) ∧
    (∀ h rest, k.held = h :: rest →
      let d := h.desc
      let rq := culReq c.val d.sec
      let alone := s.cul.late = [] ∧
        ∀ c' h' rest', c' ≠ c.val → (culAt s c').held = h' :: rest' → h'.unasked = [] ∧ h'.reqs = []
      let open' := ∀ c' h' rest', (culAt s c').held = h' :: rest' → h'.unasked = [] ∨ hostOpen s h'.desc.vi = true
      let src := lineFault s rq d.sk false (endLines d.sk d.saddr d.lines)
      let dst := lineFault s rq d.dk true (endLines d.dk d.daddr d.lines)
      (h.stage = .waiting → ∀ l r, src = some (l, r) ∨ (src = none ∧ dst = some (l, r)) →
        ∃ t, exec (.descriptorStart c) s = .next t ∧ t.mem = s.mem ∧ t.slc.xing = s.slc.xing ∧
          t.hlt = (report r s).hlt ∧
          ∃ h', (culAt t c.val).held = h' :: rest ∧ h'.stage = .pointed ∧ h'.status = 0o11 ∧ h'.eaddr = l) ∧
      (h.stage = .waiting → src = none → dst = none → d.ciph = 0 → d.sk < 3 → d.dk ≠ 3 →
        ∃ t, exec (.descriptorStart c) s = .next t ∧ t.mem = s.mem ∧
          t.slc.bound = s.slc.bound ++ (List.range d.lines).map (fun i =>
            (⟨portOfLine (d.saddr / 64 + i), portCulvert c.val, s.slc.cycle,
              .source c.val i (some (d.saddr / 64 + i))⟩ : BLine)) ∧
          ∃ h', (culAt t c.val).held = h' :: rest ∧ h'.stage = .moving ∧ h'.need = d.lines ∧ h'.desc = d) ∧
      (h.stage = .waiting → src = none → dst = none → d.ciph = 0 → d.sk = 3 → hostOpen s d.vi = true →
        h.reqs = [] → alone → (hostReads s d.vi d.saddr d.len).length ≤ 768 →
        ∃ t, exec (.descriptorStart c) s = .next t ∧ t.mem = s.mem ∧ t.cul.asked = hostReads s d.vi d.saddr d.len ∧
          ∃ h', (culAt t c.val).held = h' :: rest ∧ h'.stage = .moving ∧ h'.desc = d ∧
            h'.reqs = (hostReads s d.vi d.saddr d.len).map fun r => (r.2.1, r.2.2, s.isl.chron)) ∧
      (h.stage = .moving → d.sk = 3 → h.ready = false →
        (h.reqs ≠ [] → open' → ∃ t, exec (.hostCompletion c ⟨off, os⟩ none) s = .next t ∧ t.mem = s.mem ∧ t.slc.bound = s.slc.bound ++
          hostLines s c.val d.vi off.toNat ((os.map BitVec.toNat).take (d.len - off.toNat))) ∧
        ∀ p ∈ [(Instr.hostCompletion c ⟨off, os⟩ (some a), true), (.completionTimeout c a, (leastTimeout s d.vi).isSome)],
          p.2 = true → (requestAt s c.val a.toNat).isSome = true → h.fail = none → 0 < d.len →
            (a.toNat < d.saddr + d.len →
              (hostRun h.octets (h.octets.length + 1) 0).length + d.saddr < a.toNat →
                ∃ t, exec p.1 s = .next t ∧ t.mem = s.mem ∧
                  ∃ h', (culAt t c.val).held = h' :: rest ∧ h'.stage = .moving ∧ h'.failSt = 0o14 ∧
                    h'.fail = some (a.toNat - d.saddr, a.toNat)) ∧
            (a.toNat = d.saddr → d.ciph = 0 → ∃ t, exec p.1 s = .next t ∧ t.mem = s.mem ∧
              ∃ h', (culAt t c.val).held = h' :: rest ∧ h'.stage = .pointed ∧ h'.status = 0o14 ∧ h'.eaddr = a.toNat)) ∧
      (∀ o outs, h.stage = .moving → h.last = true → h.outs = o :: outs →
        (outTakes s c.val o = true → exec (.culvertCompletionPoint c) s = .next (launchDest c.val s)) ∧
        (outTakes s c.val o = false → exec (.culvertCompletionPoint c) s = .next
          (setHead c.val (fun h => { h with lastAt := s.slc.cycle }) (outWakes c.val o s)))) ∧
      (h.stage = .pointed → writesVisible s c.val = true → elementDue h = false → d.cqv = true →
        (qrec s d.cq).isSome = true → queueSec s d.cq = d.sec → ringRoom s d.cq = true → elementHeld s d.cq = false →
          exec (.completionRecordWrite c) s =
            .next (dropHead c.val (writeElement rq d.cq (recordBits c.val h) (formRecord c.val h s)))) ∧
      (h.stage = .pointed → writesVisible s c.val = true → elementDue h = false → d.cqv = false →
        exec (.completionRecordWrite c) s = .next (dropHead c.val
          (if h.status = 0 then formRecord c.val h s else report (noRecord c.val h) (formRecord c.val h s)))))

/-- Aborts end a waiting or moving transfer, and key slots take and lose their material. CULVERT_ABORT by a requester
that may see the tag of the held head: a waiting or moving transfer is past its completion point with STATUS 1 and the
world's abort outcome is 1; with no such tag held, received or arriving the outcome is 2. KEY_LOAD with a listed type
into a slot of the requester's world gives the slot the type and as many octets of the world's key buffer as the type
has, and zeroes the buffer; KEY_EMPTY empties the slot and zeroes the buffer; a slot of the other world is refused and
no slot or buffer changes (the buffer: log entry 37, DEDUCED). The table of culverts is canonical. (R238, R306, R310.)
-/
def Obligations.CulvertAbortsAndKeys : Prop :=
  ∀ (rq : Req) (c : CulvertId) (tag : Word) (typ : BitVec 3) (slot : BitVec 16) (s : State),
    mwf {} s.cul.culs = true → reach rq s = true →
    let k := culAt s c.val
    let out := fun (x : Culvert) => if rq.sec then x.astatS else x.astatN
    (∀ h rest, k.held = h :: rest → h.desc.tag = tag.toNat → (rq.sec = true ∨ h.desc.sec = false) →
      (h.stage = .waiting ∨ h.stage = .moving) →
        ∃ t, exec (.culvertAbort rq c tag) s = .next t ∧ out (culAt t c.val) = 1 ∧ t.mem = s.mem ∧
          ∃ h', (culAt t c.val).held = h' :: rest ∧ h'.stage = .pointed ∧ h'.status = 1) ∧
    ((∀ h ∈ k.held, h.desc.tag ≠ tag.toNat) → (∀ d ∈ k.queued, d.tag ≠ tag.toNat) →
      (∀ e ∈ coming s c.val, lw (comingLine s c.val e) 2 0 36 ≠ tag.toNat) →
      ∃ t, exec (.culvertAbort rq c tag) s = .next t ∧ out (culAt t c.val) = 2 ∧ (culAt t c.val).held = k.held) ∧
    (decide (slot.toNat < s.wld.kwm) = rq.sec →
      (1 ≤ typ.toNat → typ.toNat ≤ 4 →
        exec (.keyLoad rq typ slot) s = .next (setKeyBuf rq.sec 0 { s with keys := (mset {} s.keys slot.toNat
          ⟨typ.toNat, BitVec.ofNat 512 ((keyBuf s rq.sec).toNat % 2 ^ (8 * keyLength typ.toNat))⟩) })) ∧
      exec (.keyEmpty rq slot) s = .next (setKeyBuf rq.sec 0 { s with keys := mset {} s.keys slot.toNat {} })) ∧
    (decide (slot.toNat < s.wld.kwm) ≠ rq.sec → ∀ cmd ∈ [Instr.keyLoad rq typ slot, .keyEmpty rq slot],
      ∃ t, exec cmd s = .next t ∧ t.keys = s.keys ∧ t.cul = s.cul)

/-- A command written to a free channel is accepted, one written to a busy channel is refused. CHART_LOOKUP,
CHART_INSERT, CHART_UPDATE, CHART_DELETE, CHART_AGE and CHART_READ by the world of the channel: on a channel that is
not busy exec answers the next state in which the channel is busy with the command's operation, flag and position, and
its commit waits behind those accepted before; on a busy channel the write is reported as CHT_CHANNEL_BUSY and changes
nothing else. The statement is about each of the six rows. (R326, R328.) -/
def Obligations.ChartCommandsAreAccepted : Prop :=
  ∀ (rq : Req) (ch : Fin 32) (b : Bool) (pos : BitVec 26) (s : State), reach rq s = true →
    rq.sec = decide (ch.val < schan s) →
    ∀ p ∈ [(Instr.chartLookup rq ch b, 1 * 2 ^ 33 + (if b then 2 ^ 30 else 0)),
        (.chartInsert rq ch b, 2 * 2 ^ 33 + (if b then 2 ^ 32 else 0)), (.chartUpdate rq ch, 3 * 2 ^ 33),
        (.chartDelete rq ch b, 4 * 2 ^ 33 + (if b then 2 ^ 31 else 0)), (.chartAge rq ch pos, 5 * 2 ^ 33 + pos.toNat),
        (.chartRead rq ch pos, 6 * 2 ^ 33 + pos.toNat)],
      ((chanAt s ch.val).busy = false → exec p.1 s = .next { s with cht := { s.cht with
        chans := mset {} s.cht.chans ch.val { chanAt s ch.val with busy := true, cmd := p.2 }
        queue := s.cht.queue ++ [ch.val] } }) ∧
      ((chanAt s ch.val).busy = true → exec p.1 s = .next (report (mkReport Unit.cht Cls.reported Code.chtChannelBusy ch.val
        [(ch.val, 5), (0o10040 + 64 * ch.val, 24), (p.2, 36)]) s))

/-- A command whose key is bad ends BADKEY and changes nothing. CHART_COMMAND_COMMIT of an accepted LOOKUP, INSERT,
UPDATE or DELETE whose key has a nonzero word at or above KEYW, or a 1 in a bit that KMASK clears, answers the next
state in which the command has left the queue, its channel is free with CODE BADKEY (o14), no hit bits and position 0
(log entry 68: the model's choice), and the tables, the stash, the hit planes, the buffers, memory and every other
channel are as before; a key with neither is not refused in this way. The table of channels is canonical. (R328,
R330.) -/
def Obligations.ChartBadKeysChangeNothing : Prop :=
  ∀ (ch : Nat) (rest : List Nat) (s : State), mwf {} s.cht.chans = true → s.cht.queue = ch :: rest →
    let c := chanAt s ch
    let w := decide (ch < schan s)
    let key := bufWords c 0 4
    let bad := ∃ i < 4, if i < chartKeyw s w then (key / 2 ^ (36 * i) % 2 ^ 36) &&& chartKmask s w i ≠ key / 2 ^ (36 * i) % 2 ^ 36
      else key / 2 ^ (36 * i) % 2 ^ 36 ≠ 0
    (badKey s w key = true ↔ bad) ∧
    (bad → c.cmd / 2 ^ 33 % 8 ∈ [1, 2, 3, 4] →
      ∃ t, exec .chartCommandCommit s = .next t ∧ t.mem = s.mem ∧ t.hlt = s.hlt ∧
        (∃ chans, t.cht = { s.cht with queue := rest, chans := chans }) ∧
        chanAt t ch = { c with busy := false, code := 0o14, hc := false, hp := false, pos := 0 } ∧
        ∀ j, j ≠ ch → chanAt t j = chanAt s j)

/-- Lookups, inserts, updates, deletes, ages and reads commit with their codes. CHART_COMMAND_COMMIT of the oldest
accepted command, whose key is good: while a line that it needs must be fetched, that line becomes bound and the
command stays; with every line there and none in error it leaves the queue. LOOKUP of a present key marks it unless
NOHIT is 1, returns its action words and ends HIT (2), of an absent one ends MISS (3); UPDATE writes the present
entry, marks it and ends DONE (1); DELETE of a present key writes zeros, clears both hit bits and ends DONE, but with
IDLE 1 of an entry that is not idle ends NOTIDLE (o10) and changes no entry; UPDATE and DELETE of an absent key end
NOTFOUND (6); INSERT of a present key ends EXISTS (4), or with IPOL 1 replaces it and ends REPLACED (5), of an absent
one takes the lowest free entry of the candidate bucket with more free ones (the first of two equal ones), else the
lowest free one of the stash share, marked, and ends DONE, with CHT_STASH_HIGH where the stash rises to three
quarters, and with none free ends FULL (7) with CHT_INSERT_FULL; READ returns the entry with o17, and beyond the
positions ends REFUSED (o16); AGE scans at most 16,384 positions: the first valid idle entry ends it AGED (o11) with
the entry, the end of the positions END (o13), and else CONTINUE (o12) at the next position. A code without an entry
leaves position 0 and HC and HP 0 (log entry 68: the model's choice), except END, which leaves STAT.POS at the
position and the hit bits of that position (log entry 73: the model's choice). (R314, R322, R326, R327, R328, R329,
R331.) -/
def Obligations.ChartCommandsCommit : Prop :=
  ∀ (ch : Nat) (rest : List Nat) (s : State), s.cht.queue = ch :: rest →
    let w := decide (ch < schan s)
    let c := chanAt s ch
    let op := c.cmd / 2 ^ 33 % 8
    let key := bufWords c 0 4
    let action := bufWords c 4 4
    let pos := c.cmd % 2 ^ 26
    let runs := fun (t : State) => exec .chartCommandCommit s = .next { t with cht := { t.cht with queue := rest } }
    (∀ s1 es, badKey s w key = false → examine w (keyPositions s w key) s = (s1, es) → op ∈ [1, 2, 3, 4] →
      (missingLines es ≠ [] → exec .chartCommandCommit s = .next (wantLines (missingLines es) s1)) ∧
      (missingLines es = [] → anyError es = false →
        (∀ p e, presentAt key es = some (p, e) →
          (op = 1 → runs (endCommand ch w 2 (some p) (putBuf 4 4 (e / 2 ^ 144))
            (if c.cmd.testBit 30 then s1 else markHit w p s1))) ∧
          (op = 2 → c.cmd.testBit 32 = false → runs (endCommand ch w 4 (some p) id s1)) ∧
          (op = 2 → c.cmd.testBit 32 = true →
            runs (endCommand ch w 5 (some p) id (markHit w p (putEntry w p (makeEntry key action) s1)))) ∧
          (op = 3 → runs (endCommand ch w 1 (some p) id (markHit w p (putEntry w p (makeEntry key action) s1)))) ∧
          (op = 4 → c.cmd.testBit 31 = false → runs (endCommand ch w 1 (some p) id
            (setPlaneBit false w p false (setPlaneBit true w p false (putEntry w p 0 s1))))) ∧
          (op = 4 → c.cmd.testBit 31 = true → entryIdle (planesAccess w p s1) w p = false →
            runs (endCommand ch w 8 (some p) id (planesAccess w p s1)))) ∧
        (presentAt key es = none →
          (op = 1 → runs (endCommand ch w 3 none (putBuf 4 4 0) s1)) ∧
          (op = 2 →
            let nb := chartNb s w
            let bs := buckets s w key
            let share := stashShare s w
            let freeIn := fun (lo k : Nat) =>
              ((List.range k).map fun i => lo + i).filter fun p => es.any fun x => x.1 == p && isFree x
            let bucket := if nb = 0 then [] else
              if (freeIn (4 * bs.1) 4).length < (freeIn (4 * bs.2) 4).length then freeIn (4 * bs.2) 4 else freeIn (4 * bs.1) 4
            let place := (bucket ++ freeIn (4 * nb) share).head?
            (∀ p, place = some p →
              let s2 := markHit w p (putEntry w p (makeEntry key action) s1)
              runs (endCommand ch w 1 (some p) id
                (if 4 * stashUsed s1 w < 3 * share ∧ 3 * share ≤ 4 * stashUsed s2 w then
                  report (chtReport Cls.reported Code.chtStashHigh 0 [(if w then 1 else 0, 1), (stashUsed s2 w, 11)]) s2
                else s2))) ∧
            (place = none → runs (endCommand ch w 7 none id (report (chtReport Cls.reported Code.chtInsertFull ch
              [(if w then 1 else 0, 1), (ch, 5), (bs.1, 23), (bs.2, 23)]) s1)))) ∧
          ((op = 3 ∨ op = 4) → runs (endCommand ch w 6 none id s1))))) ∧
    (∀ s1 n p e, op = 5 → ageScan w 16384 pos s = (s1, .code n p e) →
      runs (endCommand ch w (if n = 0o12 ∧ chartEnd s1 w ≤ p then 0o13 else n) (some p)
        (if n = 0o11 then putBuf 0 8 e else id) s1)) ∧
    (∀ (n p : Nat) (t t1 : State) (e : Nat),
      ageScan w 0 p t = (t, .code 0o12 p 0) ∧
      (chartEnd t w ≤ p → ageScan w (n + 1) p t = (t, .code 0o13 p 0)) ∧
      (p < chartEnd t w → chartEntry w p t = (t1, .bits e) →
        let t2 := planesAccess w p t1
        (entryValid e = false → ageScan w (n + 1) p t = ageScan w n (p + 1) t1) ∧
        (entryValid e = true → entryIdle t2 w p = false → ageScan w (n + 1) p t = ageScan w n (p + 1) t2) ∧
        (entryValid e = true → entryIdle t2 w p = true → ageScan w (n + 1) p t = (t2, .code 0o11 p e)))) ∧
    (op = 6 → chartEnd s w ≤ pos → runs (endCommand ch w 0o16 none id s)) ∧
    (∀ s1 e, op = 6 → pos < chartEnd s w → chartEntry w pos s = (s1, .bits e) →
      runs (endCommand ch w 0o17 (some pos) (putBuf 0 8 e) s1))

/-- A culvert's key is accepted, decided and answered, and changed lines go to DRAM. CHART_KEY_ACCEPT takes the one
waiting key into the engine, and the bucket lines that it misses become bound; LOOKUP_DECISION of the oldest lookup of
a culvert, with every line there, gives the descriptor that made it a hit with its position, stash mark and action
words, or a miss, marked where an entry is in error, and a hit marks the entry's bit in the current plane;
RESULT_ELEMENT_WRITE of a decided lookup past its completion point, its writes visible and its ring (of the action for
a hit, MISSQ for a miss) defined with room and not held, writes the element; CHART_WRITE_THROUGH in a hub cycle that
connects the engine to its subchannel, and in which no other request has reached the line, puts the oldest changed
line into DRAM (log entry 64: DESIGN CHOICE). The table of culverts is canonical where the element is written. (R313,
R320, R321, R322, R323, R324, R325, R327.) -/
def Obligations.ChartLookupsReachTheirRings : Prop :=
  (∀ (x : Lookup) (s s1 s2 : State) (es : List (Nat × Found)), s.cul.lane = [x] →
    s1 = { s with cul := { s.cul with lane := [] }, cht := { s.cht with waits := s.cht.waits ++ [x] } } →
    examine x.sec (keyPositions s1 x.sec x.key) s1 = (s2, es) →
      exec .chartKeyAccept s = .next (wantLines (missingLines es) s2)) ∧
  (∀ (c : CulvertId) (x : Lookup) (s s1 : State) (es : List (Nat × Found)),
    s.cht.waits.find? (fun x => x.cul == c.val) = some x → examine x.sec (keyPositions s x.sec x.key) s = (s1, es) →
    missingLines es = [] →
      let s2 := { s1 with cht := { s1.cht with waits := s1.cht.waits.erase x } }
      let give := fun (l : Look) (s : State) => setCul c.val (fun k => { k with held := match k.held with
        | [] => []
        | h :: t => (if h.key.isSome ∧ h.lookup = x.num ∧ h.look.isNone then { h with look := some l } else h) :: t }) s
      (∀ p e, presentAt x.key es = some (p, e) → exec (.lookupDecision c) s =
        .next (give ⟨true, decide (4 * chartNb s2 x.sec ≤ p), false, p, e / 2 ^ 144⟩
          (setPlaneBit s2.cht.plane x.sec p true s2))) ∧
      (presentAt x.key es = none → exec (.lookupDecision c) s = .next (give ⟨false, false, anyError es, 0, 0⟩ s2))) ∧
  (∀ (c : CulvertId) (h : Held) (rest : List Held) (l : Look) (q : Nat) (s : State), mwf {} s.cul.culs = true →
    (culAt s c.val).held = h :: rest →
    h.look = some l → h.stage = .pointed → writesVisible s c.val = true → elementDue h = true →
    ((l.hit = true ∧ q = l.action % 2 ^ 20 ∧ elementQueue s h.desc.sec q = true) ∨
      (l.hit = false ∧ q = chartMissq s h.desc.sec ∧ (qrec s q).isSome = true)) →
    ringRoom s q = true → elementHeld s q = false →
      exec (.resultElementWrite c) s = .next (setHead c.val (fun h => { h with elem := true })
        (writeElement (culReq c.val h.desc.sec) q (resultBits c.val h l false) s))) ∧
  ∀ (l b : Nat) (rest : List (Nat × Nat)) (s : State), s.cht.writes = (l, b) :: rest →
    connected s portChart (portOfLine l) = true → s.slc.spent.contains (portOfLine l) = false → lineTakes s l = true →
      s.slc.touched.contains l = false →
      let s1 := offered (spend (portOfLine l) s)
      exec .chartWriteThrough s = .next (carried (dramPut ⟨0o701, tableSec s l⟩ l 0 576 b
        { s1 with cht := { s1.cht with writes := rest }, slc := { s1.slc with touched := l :: s1.slc.touched } }))

/-- A host write rings a doorbell, posts a shadow record, writes the MSI-X table, or is logged. VI_DOORBELL_WRITE and
SHADOW_WRITE to BAR0 of a VI in service: the 4 aligned octets of doorbell i < NQ of a mirrored VI store the value, set
bit i of the pending mask and ring DBSRC with the normal world, and any other mirrored write is only logged with CODE
1; the 8 octets of an aligned block of a shadowed VI are posted to SWQ as the record of R344 where it has room (SPOST
increases, LOST clears), else LOST is set, CODE 2 is logged and VIF_SHADOW_LOST reported. HOST_CONTROL_WINDOW_WRITE of
a vector below NVEC writes its address, data or mask. A write of a VI not in service is logged with CODE 3; one past
the window, to a VI in reset or D3hot (where its PF notes Unsupported Request; log entry 56: PRESUMED), or to one
disabled while services run is discarded. A log entry goes to ERRCNT mod 16 with the time. The tables are canonical.
(R70, R339, R340, R341, R344.) -/
def Obligations.HostWritesReachTheInterface : Prop :=
  ∀ (v : ViId) (off : Fin 16384) (val : BitVec 32) (data : BitVec 64) (os : List (Option (BitVec 8))) (o : Fin 4096)
    (s : State), mwf {} s.vif.vis = true → mwf 0 (viAt s v.val).dbval = true → mwf {} (viAt s v.val).errs = true →
    let x := viAt s v.val
    let q := viSwq s v.val
    let logs := fun (t : State) (code detail : Nat) => (viAt t v.val).errcnt = (x.errcnt + 1) % 2 ^ 32 ∧
      mget {} (viAt t v.val).errs (x.errcnt % 16) = ⟨code, detail % 2 ^ 32, s.isl.chron % 2 ^ 64⟩ ∧
      (viAt t v.val).dbval = x.dbval ∧ (viAt t v.val).dbpend = x.dbpend ∧ t.mem = s.mem ∧ t.ivc = s.ivc ∧ t.slc = s.slc
    (windowState s v.val = 1 →
      (viShadowed s v.val = false →
        (off.val + 4 ≤ bar0Size s v.val → off.val % 4 = 0 → off.val / 4 < viNq s v.val →
          ∀ cmd ∈ [Instr.viDoorbellWrite v off ((List.range 4).map fun i => some (val.extractLsb' (8 * i) 8)),
              .shadowWrite v off ((List.range 4).map fun i => some (val.extractLsb' (8 * i) 8))],
            ∃ t, exec cmd s = .next t ∧ mget 0 (viAt t v.val).dbval (off.val / 4) = val.toNat ∧
              (∀ j, j ≠ off.val / 4 → mget 0 (viAt t v.val).dbval j = mget 0 x.dbval j) ∧
              (viAt t v.val).dbpend = x.dbpend ||| 2 ^ (off.val / 4) ∧ (viAt t v.val).errcnt = x.errcnt ∧
              t.ivc.bells = s.ivc.bells ++ [⟨viDbsrc s v.val % 262144, 0o703, false⟩] ∧ t.mem = s.mem ∧
              ∀ u, u ≠ v.val → viAt t u = viAt s u) ∧
        (off.val + os.length ≤ bar0Size s v.val → (off.val % 4 ≠ 0 ∨ os.length ≠ 4 ∨ none ∈ os ∨ viNq s v.val ≤ off.val / 4) →
          ∀ cmd ∈ [Instr.viDoorbellWrite v off os, .shadowWrite v off os],
            ∃ t, exec cmd s = .next t ∧ logs t 1 off.val)) ∧
      (viShadowed s v.val = true → off.val + 8 ≤ bar0Size s v.val → off.val % 8 = 0 →
        let record := v.val + off.val * 2 ^ 12 + 255 * 2 ^ 26 + x.flrgen % 2 ^ 16 * 2 ^ 36 + data.toNat * 2 ^ 72 +
          s.isl.chron % 2 ^ 72 * 2 ^ 144 + (if x.lost then 2 ^ 216 else 0)
        ∀ cmd ∈ [Instr.shadowWrite v off ((List.range 8).map fun i => some (data.extractLsb' (8 * i) 8)),
            .viDoorbellWrite v off ((List.range 8).map fun i => some (data.extractLsb' (8 * i) 8))],
          (ringRoom s q = true → exec cmd s = .next (setVi v.val (fun x => { x with
            spost := (x.spost + 1) % 65536, lost := false }) (writeElement vifReq q record s))) ∧
          (ringRoom s q = false → ∃ t, exec cmd s = .next t ∧ logs t 2 off.val ∧ (viAt t v.val).lost = true ∧
            (viAt t v.val).spost = x.spost ∧ t.hlt = (report (mkReport Unit.vif Cls.reported Code.vifShadowLost v.val
              [(v.val, 12), (off.val, 14), (q, 20)]) s).hlt))) ∧
    (windowState s v.val = 1 ∨ windowState s v.val = 2 → bar0Size s v.val < off.val + os.length →
      ∀ cmd ∈ [Instr.viDoorbellWrite v off os, .shadowWrite v off os], exec cmd s = .next s) ∧
    (windowState s v.val = 1 → o.val % 4 = 0 → 0o2000 ≤ o.val → o.val < 0o4000 → (o.val - 0o2000) / 16 < viNvec s v.val →
      exec (.hostControlWindowWrite v o val) s = .next (setVec v.val ((o.val - 0o2000) / 16) (fun e =>
        { e with
          addr := if o.val % 16 = 0 then e.addr / 2 ^ 32 * 2 ^ 32 + val.toNat
            else if o.val % 16 = 4 then e.addr % 2 ^ 32 + val.toNat * 2 ^ 32 + e.addr / 2 ^ 64 * 2 ^ 64 else e.addr
          data := if o.val % 16 = 8 then val.toNat else e.data
          mask := if o.val % 16 = 12 then val.getLsbD 0 else e.mask }) s)) ∧
    (∀ cmd ∈ [Instr.viDoorbellWrite v off os, .shadowWrite v off os, .hostControlWindowWrite v o val],
      (windowState s v.val = 0 → serving s = true → exec cmd s = .next s) ∧
      (windowState s v.val = 3 → x.d3 = false ∨ viReachable s v.val = false ∨ viVf s v.val ≠ 0 → exec cmd s = .next s) ∧
      (windowState s v.val = 3 → x.d3 = true → viReachable s v.val = true → viVf s v.val = 0 →
        exec cmd s = .next { s with vif := { s.vif with
          aers := mmod {} s.vif.aers (4 * viGroup s v.val + viPf s v.val) (fun a => { a with unc := a.unc ||| BitVec.twoPow 32 20 }) } })) ∧
    (windowState s v.val = 2 →
      (off.val + os.length ≤ bar0Size s v.val →
        ∀ cmd ∈ [Instr.viDoorbellWrite v off os, .shadowWrite v off os], ∃ t, exec cmd s = .next t ∧ logs t 3 off.val) ∧
      ∃ t, exec (.hostControlWindowWrite v o val) s = .next t ∧ logs t 3 (2 * 2 ^ 28 + o.val / 4 * 4))

/-- Host reads cross the crossbar, wait, time out or are refused, and the service's registers act on a VI.
SHADOW_READ, or the same HOST_CONFIG_REQUEST, of BAR0: a shadowed page of a VI in service binds the hub lines at SPAGE
that hold its octets for the port of the group's first quad (log entry 43: DEDUCED), unless SYNC is 1 and SACK differs
from SPOST, when the read waits with the SPOST of its acceptance; the line that a read of one line needs answers it
octet by octet when it is carried. A VI not in service answers zeros; one in reset or D3hot, and a read past the
window, Unsupported Request, which a request to a PF notes in its error status (log entry 56: PRESUMED); a disabled
one nothing with its link down, else Unsupported Request, before the end of LOCK as an early request. VIF_SYNC_TIMEOUT
serves the oldest waiting read no sooner than 1 ms after its acceptance. VIF_SACK_WRITE by the owner of the block for
a shadowed VI that is not disabled sets SACK and serves exactly the reads that wait for that value. VIF_EPOST_WRITE
with a code from o100000 adds the log entry. DBPEND_READ returns 32 bits of the mask and clears them. No memory
changes. The tables are canonical. (R74, R338, R340, R342, R343, R345, R349.) -/
def Obligations.HostReadsAndServiceWrites : Prop :=
  ∀ (v : ViId) (off : Fin 16384) (len : Fin 4097) (rq : Req) (k : Fin 8) (value : Word) (s : State),
    mwf {} s.vif.vis = true → mwf {} (viAt s v.val).errs = true →
    let x := viAt s v.val
    let st := windowState s v.val
    let lines := fun (k o n : Nat) => (List.range ((o + max n 1 - 1) / 64 + 1 - o / 64)).map fun i =>
      (⟨portOfLine (hubLine0 + viSpage s v.val + o / 64 + i), 0o200 + groupQuad s (viGroup s v.val), s.slc.cycle,
        .page v.val k i (hubLine0 + viSpage s v.val + o / 64 + i)⟩ : BLine)
    let g := viGroup s v.val
    let answers := fun (a : HostAnswer) (u : State) => { u with vif := { u.vif with answers := [(v.val, a)] } }
    let inWindow := off.val + max len.val 1 ≤ bar0Size s v.val
    let owns := reach rq s = true ∧ (rq.sec = blockSec s Unit.vif ∨ rq.code = smbCode)
    let unsupported :=
      let u := answers .unsupported s
      if viReachable s v.val = true ∧ viVf s v.val = 0 then { u with vif := { u.vif with
        aers := mmod {} u.vif.aers (4 * g + viPf s v.val) fun a => { a with unc := a.unc ||| BitVec.twoPow 32 20 } } }
      else u
    (∀ cmd ∈ [Instr.shadowRead v off len] ++
        (if serving s = true ∧ v.val < nvi s ∧ g < 8 ∧ groupUp s g = true
          then [Instr.hostConfigRequest (Fin.ofNat 8 g) (.nonPosted false off len) v] else []),
      (st = 1 → inWindow → viShadowed s v.val = true →
        (viSync s v.val = false ∨ x.sack = x.spost →
          ∃ t, exec cmd s = .next t ∧ t.vif.answers = [] ∧ t.mem = s.mem ∧ t.ivc = s.ivc ∧
            t.slc.bound = s.slc.bound ++ lines x.readNum off.val len.val ∧
            viAt t v.val = { x with reads := x.reads ++ [⟨x.readNum, off.val, len.val, []⟩], readNum := x.readNum + 1 }) ∧
        (viSync s v.val = true → x.sack ≠ x.spost →
          ∃ t, exec cmd s = .next t ∧ t.vif.answers = [] ∧ t.mem = s.mem ∧ t.slc = s.slc ∧
            viAt t v.val = { x with waits := x.waits ++ [⟨off.val, len.val, x.spost, s.isl.chron⟩] })) ∧
      (st = 2 → inWindow → exec cmd s = .next (answers (.normal (List.replicate len.val 0)) s)) ∧
      (st = 3 ∨ (st ≠ 0 ∧ ¬inWindow) → exec cmd s = .next unsupported) ∧
      (st = 0 → groupUp s g = false → exec cmd s = .next (answers .nothing s)) ∧
      (st = 0 → groupUp s g = true → serving s = true ∨ s.cfg.early = true → exec cmd s = .next unsupported) ∧
      (st = 0 → groupUp s g = true → serving s = false → s.cfg.early = false →
        exec cmd s = .next (answers .unsupported (report (mkReport Unit.cfg Cls.reported Code.hostEarlyReq g
          [(g, 3), (0, 1)]) { s with cfg := { s.cfg with early := true } })))) ∧
    (∀ r b, x.reads.find? (fun y => y.num == r.num) = some r → r.got = [] → r.off / 64 = (r.off + max r.len 1 - 1) / 64 →
      b.cargo = .page v.val r.num 0 (hubLine0 + viSpage s v.val + r.off / 64) →
      hubBad s (hubLine0 + viSpage s v.val + r.off / 64) = false →
      (carry b s).vif.answers = s.vif.answers ++ [(v.val, .normal ((List.range r.len).map fun i =>
        lineBits s (hubLine0 + viSpage s v.val + r.off / 64) / 2 ^ (8 * ((r.off + i) % 64)) % 256))]) ∧
    (∀ w rest, x.waits = w :: rest →
      ∃ t, exec (.vifSyncTimeout v) s = .next t ∧ t.mem = s.mem ∧
        t.slc.bound = s.slc.bound ++ lines x.readNum w.off w.len ∧
        (viAt t v.val).reads = x.reads ++ [⟨x.readNum, w.off, w.len, []⟩] ∧
        (viAt t v.val).waits = rest ∧ w.at' + 1000000 ≤ t.isl.chron ∧ (viAt t v.val).errcnt = (x.errcnt + 1) % 2 ^ 32 ∧
        mget {} (viAt t v.val).errs (x.errcnt % 16) = ⟨5, w.off % 2 ^ 32, t.isl.chron % 2 ^ 64⟩) ∧
    (owns → value.toNat % 2 ^ 12 = v.val →
      (v.val < nvi s → viShadowed s v.val = true → viState s v.val ≠ 0 →
        let n := value.toNat / 2 ^ 12 % 2 ^ 16
        let ready := x.waits.filter fun w => w.spost == n
        ∃ t, exec (.vifSackWrite rq value) s = .next t ∧ t.mem = s.mem ∧
          t.slc.bound = s.slc.bound ++ (ready.zipIdx.map fun p => lines (x.readNum + p.2) p.1.off p.1.len).flatten ∧
          viAt t v.val = { x with
            sack := n
            waits := x.waits.filter fun w => w.spost != n
            reads := x.reads ++ ready.zipIdx.map fun p => ⟨x.readNum + p.2, p.1.off, p.1.len, []⟩
            readNum := x.readNum + ready.length }) ∧
      (v.val < nvi s → 0o100000 ≤ value.toNat / 2 ^ 12 % 2 ^ 16 →
        ∃ t, exec (.vifEpostWrite rq value) s = .next t ∧ t.mem = s.mem ∧ t.vif.answers = s.vif.answers ∧
          (viAt t v.val).errcnt = (x.errcnt + 1) % 2 ^ 32 ∧
          mget {} (viAt t v.val).errs (x.errcnt % 16) =
            ⟨value.toNat / 2 ^ 12 % 2 ^ 16, 0, s.isl.chron % 2 ^ 64⟩)) ∧
    (owns → ∃ t, exec (.dbpendRead rq v k) s = .next t ∧ t.mem = s.mem ∧
      t.answer.toNat = x.dbpend / 2 ^ (32 * k.val) % 2 ^ 32 ∧
      (∀ i, (viAt t v.val).dbpend.testBit i = (x.dbpend.testBit i && !(decide (32 * k.val ≤ i) && decide (i < 32 * k.val + 32)))) ∧
      ∀ u, u ≠ v.val → viAt t u = viAt s u)

/-- A vector counts its signals, fires, and sends its message once. MSIX_SIGNAL by the owner of the block for a vector
below NVEC of a VI that is not disabled or resetting counts the signal, starts the timer at the first, and fires where
CCOUNT or CTIME is reached: the pending bit is set and the window starts afresh; for any other VI or vector it is
reported as VIF_CTL_BAD and nothing else changes. MSIX_WINDOW_TIME_FIRE of a running timer with CTIME not 0 moves time
to the bound and fires. MSIX_SEND sends the address and data of a pending vector and clears the bit when MSI-X Enable
and Bus Master Enable are 1 and both masks 0, and changes nothing when one of them is otherwise. The state's tables
are canonical. (R249, R250, R347.) -/
def Obligations.VectorsCoalesceAndSend : Prop :=
  ∀ (v : ViId) (n : Fin 64) (rq : Req) (value : Word) (s : State), mwf {} s.vif.vis = true →
    mwf {} (viAt s v.val).vecs = true →
    let e := vecAt s v.val n.val
    let counted := fun (k : Nat) => { e with
      cnt := min 255 (e.cnt + 1), timer := true, t0 := if e.cnt = 0 then k else e.t0 }
    let fired := { e with pend := true, cnt := 0, timer := false, t0 := 0 }
    (reach rq s = true → rq.sec = blockSec s Unit.vif → value.toNat % 2 ^ 12 = v.val → value.toNat / 2 ^ 12 % 2 ^ 6 = n.val →
      (v.val < nvi s → n.val < viNvec s v.val → viState s v.val = 1 ∨ viState s v.val = 2 →
        let c := counted s.isl.chron
        ∃ t, exec (.msixSignal rq value) s = .next t ∧ t.mem = s.mem ∧ t.hlt = s.hlt ∧ t.vif.msix = s.vif.msix ∧
          vecAt t v.val n.val =
            (if e.ccount ≤ c.cnt ∨ (e.ctime ≠ 0 ∧ c.t0 + 64 * e.ctime ≤ s.isl.chron) then fired else c)) ∧
      (nvi s ≤ v.val ∨ viNvec s v.val ≤ n.val ∨ viState s v.val = 0 ∨ viState s v.val = 3 →
        exec (.msixSignal rq value) s = .next (report (mkReport Unit.vif Cls.reported Code.vifCtlBad v.val
          [(0, 24), (value.toNat, 36)]) s))) ∧
    (e.timer = true → e.ctime ≠ 0 →
      ∃ t, exec (.msixWindowTimeFire v n) s = .next t ∧ e.t0 + 64 * e.ctime ≤ t.isl.chron ∧ vecAt t v.val n.val = fired ∧
        t.mem = s.mem ∧ t.vif.msix = s.vif.msix) ∧
    (let x := viAt s v.val
     (viState s v.val = 1 ∨ viState s v.val = 2 → e.pend = true → x.msixEn = true → x.fmask = false → e.mask = false →
        x.bme = true → ∃ t, exec (.msixSend v n) s = .next t ∧ t.vif.msix = some (v.val, n.val, e.addr, e.data) ∧
          vecAt t v.val n.val = { e with pend := false } ∧ t.mem = s.mem) ∧
     (e.pend = false ∨ x.msixEn = false ∨ x.fmask = true ∨ e.mask = true ∨ x.bme = false →
        exec (.msixSend v n) s = .next s))

/-- What a VI reset clears, keeps and rings, what else is reset with it, and when it completes. FLR_ACCEPT of a
reachable VF puts it into reset with FLRGEN increased, its log, doorbells, SPOST, SACK and LOST cleared and RSTSRC
rung; no other VI, no queue and no memory changes. VF_ENABLE_CLEAR of a PF that is not in reset, HPERST_FALL of a
present group and HOT_RESET of a group that is up begin the same reset of the VFs removed and of every VI of the
group; the first leaves Max Payload Size and ASPM control, the last two clear them and the AER state of a PF.
VIF_RDONE_WRITE by the owner of the block marks a VI in reset and is reported for any other; VI_RESET_COMPLETE then
ends the reset, once no culvert holds a descriptor of the VI; VIF_FLR_LATE reports a reset 90 ms old once.
HOST_CONFIG_REQUEST through a group that is up, of a configuration request: retried before service and in reset; from
then on, of a reachable VI, answered normally, a write of Bus Master Enable, the MSI-X control or the power state
changing that alone, a read of the IDs giving the PF's VENDOR and PFDEV, or ones for a VF (R335). The link items and
the completion timeout of a PF are set likewise; a VF has none. An AtomicOp is Unsupported Request, which a PF notes
in its error status. The formats, and the culverts that a reset ends, are log entries 56 and 55's (PRESUMED), the rest
of what a reset clears entry 43's (DEDUCED). The tables are canonical. (R74, R335, R337, R349, R350, R351, R353, R360,
R363.) -/
def Obligations.InterfacesReset : Prop :=
  ∀ (v : ViId) (g : GroupId) (f : Fin 4) (on : Bool) (num : Fin 1025) (rq : Req) (value : Word) (a : CfgAccess) (s : State),
    mwf {} s.vif.vis = true →
    let x := viAt s v.val
    let fresh := fun (t : State) (u : Nat) => (viAt t u).reset = true ∧ (viAt t u).rdone = false ∧
      (viAt t u).flrgen = ((viAt s u).flrgen + 1) % 65536 ∧ (viAt t u).from' = s.isl.chron ∧ (viAt t u).errcnt = 0 ∧
      (viAt t u).errs = [] ∧ (viAt t u).dbval = [] ∧ (viAt t u).dbpend = 0 ∧ (viAt t u).spost = 0 ∧ (viAt t u).sack = 0 ∧
      (viAt t u).lost = false ∧ (viAt t u).waits = [] ∧ (viAt t u).reads = [] ∧ (viAt t u).bme = false ∧
      (viAt t u).msixEn = false ∧ (viAt t u).fmask = false ∧ (viAt t u).d3 = false ∧
      (viAt t u).vecs = ((viAt s u).vecs.map fun e => (e.1, ({ ccount := e.2.ccount, ctime := e.2.ctime } : Vec))).filter
        fun e => e.2 != {}
    let kept := fun (t : State) => t.mem = s.mem ∧ t.slc.queues = s.slc.queues
    (viReachable s v.val = true → viVf s v.val ≠ 0 →
      ∃ t, exec (.flrAccept v) s = .next t ∧ fresh t v.val ∧ (viAt t v.val).mps = x.mps ∧
        (viAt t v.val).aspmL1 = x.aspmL1 ∧ (∀ u, u ≠ v.val → viAt t u = viAt s u) ∧ kept t ∧
        t.ivc.bells = s.ivc.bells ++ [⟨viRstsrc s v.val % 262144, 0o703, false⟩]) ∧
    (serving s = true → groupUp s g.val = true → ∀ pf, pfVi s g.val f.val = some pf → (viAt s pf).reset = false →
      let old : Sriov := mget {} s.vif.pfs (4 * g.val + f.val)
      ∃ t, exec (.vfEnableClear g f on num) s = .next t ∧ kept t ∧
        ∀ u, if u < nvi s ∧ viGroup s u = g.val ∧ viPf s u = f.val ∧ viVf s u ≠ 0 ∧
            (old.enable = true ∧ viVf s u ≤ old.numVfs) ∧ ¬(on = true ∧ viVf s u ≤ num.val)
          then fresh t u else viAt t u = viAt s u) ∧
    (serving s = true → groupUp s g.val = true → perstHigh s g.val = true → groupPresent s g.val = true →
      ∀ cmd ∈ [Instr.hotReset g, .hperstFall g], ∃ t, exec cmd s = .next t ∧ kept t ∧
        ∀ u, if u < nvi s ∧ viGroup s u = g.val then fresh t u ∧ (viAt t u).mps = 0 ∧ (viAt t u).aspmL1 = false ∧
            (mwf {} s.vif.aers = true → viVf s u = 0 → aerOf t u = {})
          else viAt t u = viAt s u) ∧
    (reach rq s = true → rq.sec = blockSec s Unit.vif → value.toNat % 2 ^ 12 = v.val →
      (v.val < nvi s → x.reset = true → ∃ t, exec (.vifRdoneWrite rq value) s = .next t ∧
        viAt t v.val = { x with rdone := true } ∧ kept t) ∧
      (nvi s ≤ v.val ∨ x.reset = false → exec (.vifRdoneWrite rq value) s = .next (report
        (mkReport Unit.vif Cls.reported Code.vifCtlBad v.val [(4, 24), (value.toNat, 36)]) s))) ∧
    (x.reset = true → x.rdone = true → culvertsOf s v.val = 0 → ∃ t, exec (.viResetComplete v) s = .next t ∧
      viAt t v.val = { x with reset := false, rdone := false, late := false, from' := 0 } ∧ kept t) ∧
    (x.reset = true → x.late = false → ∃ t, exec (.vifFlrLate v) s = .next t ∧ x.from' + 90000000 ≤ t.isl.chron ∧
      viAt t v.val = { x with late := true } ∧ kept t ∧
      t.hlt = (report (mkReport Unit.vif Cls.reported Code.vifFlrLate v.val
        [(v.val, 12), (x.flrgen, 16), (culvertsOf s v.val, 32)]) s).hlt) ∧
    (groupUp s g.val = true →
      (serving s = false ∨ (v.val < nvi s ∧ viGroup s v.val = g.val ∧ x.reset = true) →
        exec (.hostConfigRequest g (.config a) v) s =
          .next { s with vif := { s.vif with answers := [(v.val, .retry)] } }) ∧
      (serving s = true → ∃ t, exec (.hostConfigRequest g .atomic v) s = .next t ∧ kept t ∧
        t.vif.answers = [(v.val, .unsupported)] ∧ t.vif.vis = s.vif.vis ∧
        (mwf {} s.vif.aers = true → viReachable s v.val = true → viVf s v.val = 0 →
          aerOf t v.val = { aerOf s v.val with unc := (aerOf s v.val).unc ||| BitVec.twoPow 32 20 }) ∧
        (viReachable s v.val = false ∨ viVf s v.val ≠ 0 → t.vif.aers = s.vif.aers)) ∧
      (viReachable s v.val = true → viGroup s v.val = g.val → x.reset = false →
        let sets := fun (b : CfgAccess) (y : Vi) => ∃ t, exec (.hostConfigRequest g (.config b) v) s = .next t ∧
          viAt t v.val = y ∧ (∀ u, u ≠ v.val → viAt t u = viAt s u) ∧ kept t ∧ t.vif.answers = [(v.val, .normal [])]
        (∀ on mask, sets (.command on) { x with bme := on } ∧ sets (.power on) { x with d3 := on } ∧
          sets (.msix on mask) { x with msixEn := on, fmask := mask } ∧
          (viVf s v.val ≠ 0 → sets (.aspm on) x)) ∧
        (viVf s v.val = 0 → ∀ on (w : BitVec 3) (n : BitVec 4), sets (.l0p on w) { x with l0p := on, l0pWidth := w } ∧
          sets (.aspm on) { x with aspmL1 := on } ∧
          (n.toNat ∈ [0, 1, 2, 5, 6, 9, 10, 13, 14] → sets (.timeout n on) { x with ctoVal := n, ctoOff := on })) ∧
        exec (.hostConfigRequest g (.config (.read .ids)) v) s = .next { s with vif := { s.vif with answers :=
          [(v.val, .normal ((List.range 4).map fun i =>
            (if viVf s v.val = 0 then pfField s v.val 4 2 + 2 ^ 16 * pfField s v.val 6 2 else 2 ^ 32 - 1)
              / 2 ^ (8 * i) % 256))] } }))

/-- Links come up, are held or degraded, and go down, each change reported. HPERST_RISE of a group held in reset frees
it to train and clears NOFLIT; HPERST_FALL and PRT_LINK_DOWN of a group that is up take the link down, and every VI of
it is in reset while services run. PRT_LINK_UP of a present group out of reset and not held, at a width and rate that
it has and does not run at (log entry 42: DEDUCED for a live link), records them and reports PRT_LINK_UP, and
PRT_LINK_DEGRADED too below its full width or highest rate; PRT_LINK_NOFLIT holds it in Detect. PRT_LINK_UP of a
present port that is down starts it with no frame counted, and pauses the partner where the occupancy is at XOFF (log
entry 42); PRT_FEC_HIGH reports more than 1 corrected codeword in 10^4 where the port corrects (log entry 42);
PRT_LINK_DOWN ends its pauses and reports a frame that was on the wire as PRT_TX_ABORT. PRT_LANE_FAULT sets LOS or
clears LOCK of a lane of a present group or port. Reports are those of a code and instance not reported before. Memory
is unchanged. The tables are canonical. (R23, R351, R360, R361, R362, R364, R366, R373.) -/
def Obligations.LinksComeUpAndGoDown : Prop :=
  ∀ (g : GroupId) (p : PortId) (w r : BitVec 4) (lane : Fin 96) (co un : BitVec 18) (s : State),
    mwf {} s.prt.groups = true → mwf {} s.prt.ports = true → mwf {} s.prt.quads = true → mwf {} s.vif.vis = true →
    let x := groupAt s g.val
    let y := portAt s p.val
    let b := quadAt s (lane.val / 4)
    let m := BitVec.ofNat 4 (2 ^ (lane.val % 4))
    let rep := fun (code inst : Nat) (fs : List (Nat × Nat)) => mkReport Unit.prt Cls.reported code inst fs
    let other := fun (t : State) => (∀ j, j ≠ g.val → groupAt t j = groupAt s j) ∧ t.prt.ports = s.prt.ports ∧ t.mem = s.mem
    (perstHigh s g.val = false → ∃ t, exec (.hperstRise g) s = .next t ∧ perstHigh t g.val = true ∧ other t ∧
      groupAt t g.val = { x with noflit := false }) ∧
    (x.width ≠ 0 →
      (∃ t, exec (.prtLinkDown (.group g)) s = .next t ∧ groupAt t g.val = { x with width := 0, rate := 0 } ∧ other t ∧
        (serving s = true → ∀ u < nvi s, viGroup s u = g.val → (viAt t u).reset = true) ∧
        (s.prt.limits = [] → t.hlt = (report (rep Code.prtLinkDown (96 + g.val)
          [(0, 1), (g.val, 3), (x.width, 4), (x.rate, 4)]) s).hlt)) ∧
      (perstHigh s g.val = true → groupPresent s g.val = true → ∃ t, exec (.hperstFall g) s = .next t ∧
        perstHigh t g.val = false ∧ groupAt t g.val = { x with width := 0, rate := 0 } ∧ other t ∧
        (s.prt.limits = [] → t.hlt = (report (rep Code.prtLinkDown (96 + g.val)
          [(0, 1), (g.val, 3), (x.width, 4), (x.rate, 4)]) s).hlt))) ∧
    (lanesOn s = true → groupPresent s g.val = true → perstHigh s g.val = true → x.noflit = false →
      (x.width ≠ w.toNat ∨ x.rate ≠ r.toNat → (∀ q ∈ groupQuads s g.val, quadGone s q = false) → 1 ≤ w.toNat → w.toNat ≤ fullWidth s g.val → 1 ≤ r.toNat →
        r.toNat ≤ maxGen s g.val →
        ∃ t, exec (.prtLinkUp (.group g) w r) s = .next t ∧ other t ∧
          groupAt t g.val = { x with width := w.toNat, rate := r.toNat } ∧
          (s.prt.limits = [] →
            let up := report (rep Code.prtLinkUp (96 + g.val) [(0, 1), (g.val, 3), (w.toNat, 4), (r.toNat, 4)]) s
            t.hlt = (if w.toNat < fullWidth s g.val ∨ r.toNat < maxGen s g.val
              then report (rep Code.prtLinkDegraded (96 + g.val) [(g.val, 3), (w.toNat, 4), (r.toNat, 4)]) up else up).hlt)) ∧
      (x.width = 0 → ∃ t, exec (.prtLinkNoflit g) s = .next t ∧ other t ∧ groupAt t g.val = { x with noflit := true } ∧
        (s.prt.limits = [] → t.hlt = (report (rep Code.prtLinkNoflit (96 + g.val) [(g.val, 3)]) s).hlt))) ∧
    (lanesOn s = true → portPresent s p.val = true → y.up = false → (∀ q ∈ portQuads s p.val, quadGone s q = false) →
      let on := { y with up := true, frames := 0 }
      ∃ t, exec (.prtLinkUp (.port p) w r) s = .next t ∧
        (pfcen s p.val = 0 ∨ (y.xoff = false ∧ occupancy s p.val < xoffLine s p.val) → portAt t p.val = on ∧ t.prt.pfc = s.prt.pfc) ∧
        (pfcen s p.val ≠ 0 → y.xoff = false → xoffLine s p.val ≤ occupancy s p.val →
          portAt t p.val = { on with xoff := true, pfcAt := s.isl.chron } ∧
          t.prt.pfc = some (p.val, pfcen s p.val, 65535)) ∧
        (s.prt.limits = [] → t.hlt = (report (rep Code.prtLinkUp (104 + p.val)
          [(1, 1), (p.val, 6), (nlane s p.val, 4), (portRate s p.val, 4)]) s).hlt) ∧
        (∀ j, j ≠ p.val → portAt t j = portAt s j) ∧ t.prt.groups = s.prt.groups ∧ t.mem = s.mem) ∧
    (y.up = true →
      (∃ t, exec (.prtLinkDown (.port p)) s = .next t ∧ t.prt.quads = s.prt.quads ∧ t.mem = s.mem ∧
        portAt t p.val = { y with up := false, xoff := false, tx := none, pause := [], paused := 0, long' := 0 } ∧
        (s.prt.limits = [] →
          let down := rep Code.prtLinkDown (104 + p.val)
            [(1, 1), (p.val, 6), (nlane s p.val, 4), (portRate s p.val, 4)]
          (∀ len stop, y.tx = some (len, stop) → s.isl.chron < stop →
            t.hlt = (report down (report (rep Code.prtTxAbort (104 + p.val) [(p.val, 6), (len, 14)]) s)).hlt) ∧
          ((∀ len stop, y.tx = some (len, stop) → stop ≤ s.isl.chron) → t.hlt = (report down s).hlt))) ∧
      (secX s 4 (132 + 16 * p.val) 1 0 = 1 → exec (.prtFecHigh p co un) s = .next s) ∧
      (secX s 4 (132 + 16 * p.val) 1 0 = 0 → portSpeed s p.val * 10 ^ 9 < co.toNat * 5120 * 10 ^ 4 → ∃ t, exec (.prtFecHigh p co un) s = .next t ∧ t.prt.ports = s.prt.ports ∧ t.mem = s.mem ∧
        (s.prt.limits = [] → t.hlt = (report (rep Code.prtFecHigh (104 + p.val)
          [(p.val, 6), (co.toNat, 18), (un.toNat, 18)]) s).hlt))) ∧
    (lanesOn s = true → laneUsed s lane.val = true → ∀ los : Bool, (if los then b.los &&& m = 0 else b.lock &&& m ≠ 0) →
      ∃ t, exec (.prtLaneFault lane los) s = .next t ∧ t.mem = s.mem ∧ t.prt.ports = s.prt.ports ∧
        quadAt t (lane.val / 4) = (if los then { b with los := b.los ||| m } else { b with lock := b.lock &&& ~~~m }) ∧
        (s.prt.limits = [] → t.hlt = (report (rep Code.prtLaneFault lane.val
          [(lane.val, 7), (if los then 0 else 1, 1), (1, 18)]) s).hlt))

/-- Received frames are stored, counted or discarded, and frames are sent in order. FRAME_RECEIVE on a present port
that is up, of a frame that is no PFC frame to consume, no longer than MAXFRM - 4 without FCS that fits the port's
share and the quad's 4,096 lines appends its lines to the quad that R368 names, octet i at octet i mod 64 of line i /
64, each with the side field of R365 and the time of its SFD, counts it (FCSERR too when it is in error), and pauses
the partner with quanta 65,535 when the occupancy reaches XOFF with PFCEN not 0; one without room is only counted in
OVERRUN and reported as PRT_RX_OVERRUN, at most once a second (log entry 42: DEDUCED), any frame in HELM-ONLY only in
HDISC. PFC_REFRESH while the occupancy stays above XON repeats the pause half its time after the last (log entry 3).
FRAME_TRANSMIT, when the frame before it has ended, takes the next frame out of its egress buffer and sends its octets
padded to 60 with 4 octets of FCS. Memory is unchanged. The tables are canonical. (R365, R366, R368, R369, R370,
R372.) -/
def Obligations.FramesAreStoredAndSent : Prop :=
  ∀ (p : PortId) (octets : List (BitVec 8)) (err : Bool) (s : State), mwf {} s.prt.ports = true → mwf {} s.prt.quads = true →
    let i := p.val
    let y := portAt s i
    let os := octets.map BitVec.toNat
    let n := max 1 ((os.length + 63) / 64)
    (lanesOn s = true → y.up = true → portPresent s i = true →
      (helmServing s = true → ∃ t, exec (.frameReceive p octets err) s = .next t ∧ t.prt.quads = s.prt.quads ∧
        t.mem = s.mem ∧ portAt t i = { y with hdisc := min (y.hdisc + 1) 4095 }) ∧
      (helmServing s = false → os.length + 4 ≤ maxfrm s i → (isPfc os = false ∨ err = true ∨ pfcen s i = 0) →
        let q := if nlane s i = 8 then portQuad s i + y.frames % 2 else portQuad s i
        (occupancy s i + n ≤ portShare s i → (quadAt s q).ingress.length + n ≤ 4096 →
          let side := fun j => i + (if j = 0 then 64 else 0) + (if j + 1 = n then 128 else 0) + (if err then 256 else 0) +
            frameClass s i os % 8 * 2 ^ 9 + y.frames % 16 * 2 ^ 12 + os.length % 2 ^ 14 * 2 ^ 16 +
            (s.isl.chron - (8 * (os.length + 4) + portSpeed s i - 1) / portSpeed s i) % 2 ^ 34 * 2 ^ 30
          ∃ t lines, exec (.frameReceive p octets err) s = .next t ∧ t.mem = s.mem ∧ lines.length = n ∧
            (quadAt t q).ingress = (quadAt s q).ingress ++ lines ∧ (quadAt t q).egress = (quadAt s q).egress ∧
            (∀ k, k ≠ q → quadAt t k = quadAt s k) ∧
            (∀ k < os.length, lines.getD (k / 64) 0 / 2 ^ (8 * (k % 64)) % 256 = os.getD k 0) ∧
            (∀ j < n, lines.getD j 0 / 2 ^ 512 = side j) ∧
            (portAt t i).frames = y.frames + 1 ∧ (portAt t i).fcs = (if err then min (y.fcs + 1) 4095 else y.fcs) ∧
            (pfcen s i ≠ 0 → y.xoff = false → xoffLine s i ≤ occupancy s i + n →
              (portAt t i).xoff = true ∧ t.prt.pfc = some (i, pfcen s i, 65535))) ∧
        (portShare s i < occupancy s i + n ∨ 4096 < (quadAt s q).ingress.length + n → ∃ t, exec (.frameReceive p octets err) s = .next t ∧
          t.prt.quads = s.prt.quads ∧ t.mem = s.mem ∧ portAt t i = { y with ovrun := min (y.ovrun + 1) 4095 } ∧
          let last := mget ((none : Option Nat), 0) s.prt.limits (4096 * Code.prtRxOverrun + 104 + i)
          t.hlt = if ∃ k, last.1 = some k ∧ s.isl.chron < k + 1000000000 then s.hlt else (report
            (mkReport Unit.prt Cls.reported Code.prtRxOverrun (104 + i)
              [(i, 6), (frameClass s i os, 3), (min (last.2 + 1) (2 ^ 18 - 1), 18)]) s).hlt))) ∧
    (y.up = true → y.xoff = true → xonLine s i < occupancy s i →
      ∃ t, exec (.pfcRefresh p) s = .next t ∧ t.prt.pfc = some (i, pfcen s i, 65535) ∧ t.mem = s.mem ∧
        y.pfcAt + 65535 * 256 / portSpeed s i ≤ t.isl.chron ∧ portAt t i = { y with pfcAt := t.isl.chron } ∧
        t.prt.quads = s.prt.quads) ∧
    (lanesOn s = true → y.up = true → ∀ q f, nextFrame s i = some (q, f) →
      let data := (f.lines.flatMap fun l => (List.range 64).map fun k => l / 2 ^ (8 * k) % 256).take f.len
      ∃ t fcs, exec (.frameTransmit p) s = .next t ∧ t.mem = s.mem ∧ fcs.length = 4 ∧
        t.prt.sent = some (i, data ++ List.replicate (60 - f.len) 0 ++ fcs) ∧
        (∀ len stop, y.tx = some (len, stop) → stop ≤ t.isl.chron) ∧
        quadAt t q = { quadAt s q with egress := (quadAt s q).egress.erase f } ∧ ∀ k, k ≠ q → quadAt t k = quadAt s k)

/-- A received PFC frame pauses the classes it names, and a pause ends or is reported. PFC_FRAME_RECEIVE on a port
that is up with PFCEN not 0: each class c that the frame names and PFCEN has is paused from now for its quanta of 512
bit times at the port's speed, or released by quanta 0; every other class keeps its pause; in HELM-ONLY the frame is
only counted in HDISC. PAUSE_EXPIRY of a paused class moves time to the end of its pause and releases it.
PRT_TX_PAUSED_LONG of a class paused for at least 1 s and not yet reported moves time to 1 s after its beginning and
reports it once. No frame, buffer or memory changes. The tables are canonical. (R371.) -/
def Obligations.PausesBeginAndEnd : Prop :=
  ∀ (p : PortId) (c : Fin 8) (classes : BitVec 8) (quanta : BitVec 128) (s : State), mwf {} s.prt.ports = true →
    mwf 0 (portAt s p.val).pause = true →
    let y := portAt s p.val
    let m := BitVec.ofNat 8 (2 ^ c.val)
    (lanesOn s = true → y.up = true → pfcen s p.val ≠ 0 → helmServing s = true →
      ∃ t, exec (.pfcFrameReceive p classes quanta) s = .next t ∧ t.mem = s.mem ∧ t.prt.quads = s.prt.quads ∧
        portAt t p.val = { y with hdisc := min (y.hdisc + 1) 4095 }) ∧
    (lanesOn s = true → y.up = true → pfcen s p.val ≠ 0 → helmServing s = false →
      ∃ t, exec (.pfcFrameReceive p classes quanta) s = .next t ∧ t.mem = s.mem ∧ t.prt.quads = s.prt.quads ∧
        let q := quanta.toNat / 2 ^ (16 * c.val) % 2 ^ 16
        let z := portAt t p.val
        if classes.getLsbD c.val = true ∧ (pfcen s p.val).testBit c.val = true then
          z.paused.getLsbD c.val = decide (q ≠ 0) ∧
            (q ≠ 0 → mget 0 z.pause c.val = s.isl.chron + (512 * q + portSpeed s p.val - 1) / portSpeed s p.val)
        else z.paused.getLsbD c.val = y.paused.getLsbD c.val ∧ mget 0 z.pause c.val = mget 0 y.pause c.val) ∧
    (y.paused.getLsbD c.val = true →
      (∃ t, exec (.pauseExpiry p c) s = .next t ∧ mget 0 y.pause c.val ≤ t.isl.chron ∧ t.mem = s.mem ∧
        (portAt t p.val).paused = y.paused &&& ~~~m ∧ mget 0 (portAt t p.val).pause c.val = 0 ∧ t.prt.quads = s.prt.quads) ∧
      (y.long'.getLsbD c.val = false → mget 0 y.pause (8 + c.val) + 1000000000 ≤ mget 0 y.pause c.val → ∃ t, exec (.prtTxPausedLong p c) s = .next t ∧
        mget 0 y.pause (8 + c.val) + 1000000000 ≤ t.isl.chron ∧ portAt t p.val = { y with long' := y.long' ||| m } ∧
        t.mem = s.mem ∧ t.prt.quads = s.prt.quads ∧
        (s.prt.limits = [] → t.hlt = (report (mkReport Unit.prt Cls.reported Code.prtTxPausedLong (104 + p.val)
          [(p.val, 6), (c.val, 3)]) s).hlt)))

/-- DRAM reads and writes are accepted, issued oldest first, and delivered with their outcome. While register accesses
take place, DRAM_READ_ACCEPT of a line whose subchannel is up queues the read, or has it wait while the queue is full,
reads wait or a step holds the channel (a queued write of the line answers one that can enter instead), and on a
subchannel that is down delivers the uncorrectable mark; DRAM_WRITE_ACCEPT of a full line stores it and queues or
merges the write, every other line unchanged, and an accepted read of the line keeps what it held; while the write
queue is full it takes no line. DRAM_COMMAND_ISSUE takes the request that the policy names (the oldest ready read in
the READ phase of POLICY 0): a read is issued, a write leaves its queue. DRAM_READ_DATA of an issued read decodes its
burst: a line without errors is delivered as it stands; one in whose burst the decoder finds a single wrong symbol is
delivered corrected, counted, reported and written back where the queue has room; one with the syndromes of the poison
pattern, and one that the code cannot correct, are delivered with the mark and reported; a read that kept its line
delivers what it kept, for an asker (log entry 65: DEDUCED) as the outcome that waits for it. What a requester with a
crossbar port is delivered is bound for it as a line and reaches it when carried (log entry 65: DEDUCED).
ROW_IDLE_CLOSE closes a row that nothing hits. Memory and the tables are canonical. (R380, R382, R383, R384, R385,
R386, R388, R398.) -/
def Obligations.DramRequestsAreServed : Prop :=
  ∀ (rq : Req) (line : BitVec 34) (value : Line) (sub : SubId) (bank : Fin 32) (ready : BitVec 32) (s : State),
    Memory.wf s.mem = true → mwf {} s.drc.subs = true → mwf {} s.drc.chans = true → mwf [] s.drc.marks = true →
    let l := line.toNat
    let u := l % 32
    let x := subAt s u
    let y := subAt s sub.val
    let sent := fun (code l v : Nat) (bad : Bool) (t : State) =>
      let port := if code < 0o600 then some (code / 8) else if code < 0o640 then some (0o140 + (code - 0o600))
        else if code = 0o701 then some 0o230 else none
      match port with
      | none => t.drc.out = some (code, l, v, bad) ∧ t.slc = s.slc
      | some d => t.drc.out = s.drc.out ∧ t.slc = { s.slc with
          bound := s.slc.bound ++ [⟨portOfLine l, d, s.slc.cycle, .data code l v bad⟩] }
    (live s = true →
      let r : DReq := { line := l, write := false, code := rq.code.toNat, sec := rq.sec, order := s.drc.order }
      (subDown s u = false → writeQueued s l = false →
        ∃ t, exec (.dramReadAccept rq line) s = .next t ∧ t.mem = s.mem ∧ t.drc.out = s.drc.out ∧
          (if x.reads.length < 64 ∧ (chanSt s (u / 2)).step = false ∧ x.waits = [] then subAt t u = { x with reads := x.reads ++ [r] }
            else subAt t u = { x with waits := x.waits ++ [r] }) ∧
          (chanSt t (u / 2)).exit' = ((chanSt s (u / 2)).exit' || (chanSt s (u / 2)).sr)) ∧
      (subDown s u = false → writeQueued s l = true → (chanSt s (u / 2)).step = false → (chanSt s (u / 2)).sr = false →
        x.reads.length < 64 → x.waits = [] → ∃ t, exec (.dramReadAccept rq line) s = .next t ∧ sent rq.code.toNat l (lineBits s l) false t ∧ t.mem = s.mem ∧
          t.drc.subs = s.drc.subs) ∧
      (subDown s u = true → ∃ t, exec (.dramReadAccept rq line) s = .next t ∧ t.mem = s.mem ∧
        (subAt t u).unc = min (x.unc + 1) (2 ^ 18 - 1) ∧ sent rq.code.toNat l (lineBits s l) true t) ∧
      (subDown s u = false → tableLine s l = false → (chanSt s (u / 2)).step = false → (chanSt s (u / 2)).sr = false →
        (64 ≤ x.writes.length → exec (.dramWriteAccept rq line 0 576 value) s = .next s) ∧
        (x.writes.length < 64 →
          ∃ t, exec (.dramWriteAccept rq line 0 576 value) s = .next t ∧ lineBits t l = value.toNat ∧
            (∀ k, k ≠ l → lineBits t k = lineBits s k) ∧
            (subAt t u).writes = (if writeQueued s l then x.writes.map (fun q => if q.line = l then { q with sec := q.sec || rq.sec } else q)
              else x.writes ++ [{ r with write := true }]) ∧
            (subAt t u).reads = x.reads.map fun q =>
              if q.line = l ∧ q.kept = none then { q with kept := some (lineBits s l, lineErrors s l) } else q))) ∧
    (∀ r, (chanSt s (sub.val / 2)).sr = false → y.waits = [] → y.postp = 0 → nextRequest s sub.val ready.toNat = some r →
      ∃ t, exec (.dramCommandIssue sub ready) s = .next t ∧ t.mem = s.mem ∧
        let z := subAt t sub.val
        z.issued = (if r.write then y.issued else y.issued ++ [r]) ∧
        z.reads.map (fun q => q.order) = (y.reads.map fun q => q.order).filter (fun o => o != r.order) ∧
        z.writes.map (fun q => q.order) = (y.writes.map fun q => q.order).filter (fun o => o != r.order) ∧
        (drcPolicy s = 0 → (chanSt s (sub.val / 2)).step = false → y.wphase = false → y.reads ≠ [] →
          r ∈ y.reads ∧ ready.getLsbD (bankOfLine r.line) = true ∧ ∀ q ∈ y.reads, q.write = false →
            ready.getLsbD (bankOfLine q.line) = true → r.order ≤ q.order)) ∧
    (∀ r rest, y.issued = r :: rest → subDown s sub.val = false → subOf r.line = sub.val → mget [] s.drc.marks r.line = [] →
      r.kept = none → r.asker = none → r.merge = false → ∀ (k : Fin 40) (w : BitVec 16), w ≠ 0 →
      let e := { s with drc := { s.drc with marks := mset [] s.drc.marks r.line [(k.val, w.toNat)] } }
      let out := fun (t : State) (v : Nat) (bad : Bool) => sent r.code r.line v bad t ∧
        (subAt t sub.val).issued = rest
      (poisoned s r.line = false → ∃ t, exec (.dramReadData sub []) s = .next t ∧ out t (lineBits s r.line) false ∧
        t.hlt = s.hlt ∧ t.mem = s.mem) ∧
      (∀ j x, decoded e r.line = .single j x → drcDevfail s ≠ 1 →
        let d := delivered e r.line [(j, x)]
        ∃ t, exec (.dramReadData sub [(k, w)]) s = .next t ∧ out t d false ∧
          (subAt t sub.val).corr = min (y.corr + 1) (2 ^ 18 - 1) ∧
          (writeQueued s r.line = false → y.writes.length < 64 → lineBits t r.line = d % 2 ^ 576 ∧
            mget [] t.drc.marks r.line = [] ∧ writeQueued t r.line = true) ∧
          t.hlt = (report (mkReport Unit.drc Cls.corrected Code.drcCorrected sub.val
            [(sub.val, 5), (j / 4, 4), (64 * r.line, 45)]) s).hlt) ∧
      (decoded s r.line = .poison → ∃ t, exec (.dramReadData sub []) s = .next t ∧ out t (lineBits s r.line) true ∧
        t.mem = s.mem ∧ t.hlt = (report (mkReport Unit.drc Cls.reported Code.drcPoisonRead sub.val
          [(64 * r.line, 45), (r.code, 9)]) s).hlt) ∧
      (decoded e r.line = .bad → ∃ t, exec (.dramReadData sub [(k, w)]) s = .next t ∧ out t (lineBits s r.line) true ∧
        t.mem = s.mem ∧ (subAt t sub.val).unc = min (y.unc + 1) (2 ^ 18 - 1) ∧
        t.hlt = (report (mkReport Unit.drc Cls.reported Code.drcUncorrectable sub.val
          [(64 * r.line, 45), (r.code, 9), (0, 18)]) s).hlt)) ∧
    (∀ r rest b, y.issued = r :: rest → r.kept = some (b, []) → r.merge = false → ∃ t, exec (.dramReadData sub []) s = .next t ∧
      (subAt t sub.val).issued = rest ∧ t.mem = s.mem ∧ t.drc.marks = s.drc.marks ∧
      (r.asker = none → sent r.code r.line b false t) ∧
      ∀ who, r.asker = some who → asks s who = true → t.drc.ready = s.drc.ready ++ [(who, r.line, b, false)]) ∧
    (∀ b code k v bad, b.cargo = .data code k v bad → (carry b s).drc.out = some (code, k, v, bad)) ∧
    ((openRow y bank.val).isSome = true → (∀ r ∈ y.reads ++ y.writes, bankOfLine r.line = bank.val → rowHit y r = false) →
      ∃ t, exec (.rowIdleClose sub bank) s = .next t ∧ mget 0 y.used bank.val + drcPgidle s ≤ t.isl.chron ∧
        subAt t sub.val = { y with rows := mset 0 y.rows bank.val 0 } ∧ t.mem = s.mem)

/-- Refresh, self-refresh, frequency steps and device designation. REFRESH_TIMER under controller placement, 3.9 us
after the last was due (1.95 us for a hot subchannel), postpones a refresh while reads, or under row-hit-first any
requests, are queued and fewer than 4 are postponed, else closes every row; MR4_POLL records which subchannels are
hot. A channel without requests, deferral or step enters self-refresh by SELF_REFRESH_IDLE_ENTRY SRIDLE us after its
last request and by DRC_SRCTL_WRITE of the owner at once; SELF_REFRESH_EXIT after an exit has started leaves it with
the state of R389. DRC_FREQ_WRITE of a usable set up to NSHADOW in RUN or HELM-ONLY starts the step on the channels
that are up, one of the set in use changes nothing, any other is reported; FREQUENCY_STEP_COMPLETE of a drained
channel moves it to the set, and the last one ends the step. DRC_DEVFAIL_COMMAND designates a device where none is,
else is reported; without GO a DEV above 9 is refused as R5 says. REFRESH_TIMER stands for the instant it is due (log
entry 3), and the requests that postpone it are those of log entry 65. The tables are canonical. (R240, R381, R389,
R394, R396, R397, R399.) -/
def Obligations.DramControlCommands : Prop :=
  ∀ (sub : SubId) (hot : BitVec 32) (ch : ChanId) (rq : Req) (value ns : Word) (s : State), mwf {} s.drc.subs = true →
    mwf {} s.drc.chans = true → live s = true ∨ pastTb s = true →
    let y := subAt s sub.val
    let c := ch.val
    let x := chanSt s c
    let mine := reach rq s = true ∧ rq.sec = blockSec s Unit.drc ∧ s.cfg.phase ≠ .vault
    let due := y.refAt + if y.hot then 1950 else 3900
    (ctlRefresh s sub.val = true → (chanSt s (sub.val / 2)).sr = false → (chanSt s (sub.val / 2)).step = false →
      subDown s sub.val = false → ∃ t, exec (.refreshTimer sub) s = .next t ∧ t.mem = s.mem ∧ due ≤ t.isl.chron ∧
        subAt t sub.val = (if (y.reads ≠ [] ∨ drcPolicy s ≠ 0 ∧ y.writes ≠ []) ∧ y.postp < 4 then { y with postp := y.postp + 1, refAt := due }
          else { y with rows := [], postp := 0, refAt := due })) ∧
    (∃ t, exec (.mr4Poll hot) s = .next t ∧ t.mem = s.mem ∧
      ∀ u < 32, subAt t u = { subAt s u with hot := hot.getLsbD u }) ∧
    (mayRest s c = true → x.srReq = false →
      let rested := fun (t : State) => chanSt t c = { x with sr := true, srReq := false, exit' := false } ∧
        (∀ u, u / 2 = c → (subAt t u).rows = []) ∧ t.mem = s.mem
      (drcSridle s ≠ 0 → ∃ t, exec (.selfRefreshIdleEntry ch) s = .next t ∧ rested t ∧
        x.idle + 1000 * drcSridle s ≤ t.isl.chron) ∧
      (mine → live s = true → value.toNat = 2 ^ c → ∃ t, exec (.drcSrctlWrite rq value) s = .next t ∧ rested t ∧
        ∀ k, k ≠ c → chanSt t k = chanSt s k)) ∧
    (mine → value.toNat = 2 ^ c → x.sr = false → chanEmpty s c = false →
      ∃ t, exec (.drcSrctlWrite rq value) s = .next t ∧ chanSt t c = { x with srReq := true } ∧ t.drc.subs = s.drc.subs) ∧
    (x.sr = true → x.exit' = true → ∃ t, exec (.selfRefreshExit ch) s = .next t ∧ t.mem = s.mem ∧
      chanSt t c = { x with sr := false, exit' := false, idle := s.isl.chron } ∧
      ∀ u, u / 2 = c → (subAt t u).rows = [] ∧ (subAt t u).used = [] ∧ (subAt t u).wphase = false ∧
        (subAt t u).refAt = s.isl.chron ∧ (subAt t u).postp = 0 ∧
        (subAt t u).reads.all (fun r => r.passed == 0) = true) ∧
    (mine → value.getLsbD 2 = true →
      let set' := value.toNat % 4
      (set' = s.drc.cur → exec (.drcFreqWrite rq value) s = .next s) ∧
      (set' ≠ s.drc.cur → runOrHelm s = true → s.drc.busy = false → set' ≤ drcNshadow s → s.drc.unus.getLsbD set' = false →
        ∃ t, exec (.drcFreqWrite rq value) s = .next t ∧ t.drc.busy = true ∧ t.drc.target = set' ∧ t.drc.cur = s.drc.cur ∧
          t.drc.subs = s.drc.subs ∧ ∀ k < 16, chanSt t k = (if subDown s (2 * k) ∧ subDown s (2 * k + 1) then chanSt s k
            else { chanSt s k with step := true })) ∧
      (set' ≠ s.drc.cur → runOrHelm s = false ∨ s.drc.busy = true ∨ drcNshadow s < set' ∨ s.drc.unus.getLsbD set' = true →
        exec (.drcFreqWrite rq value) s = .next (report (mkReport Unit.drc Cls.reported Code.drcFreqRefused 0
          [(value.toNat, 36)]) s))) ∧
    (x.step = true → (∀ u, u / 2 = c → (subAt s u).reads = [] ∧ (subAt s u).writes = [] ∧ (subAt s u).issued = []) →
      ∃ t, exec (.frequencyStepComplete ch ns) s = .next t ∧ t.mem = s.mem ∧
        chanSt t c = { x with step := false, set' := s.drc.target, idle := s.isl.chron } ∧
        (∀ k, k ≠ c → chanSt t k = chanSt s k) ∧
        ((∃ k < 16, k ≠ c ∧ (chanSt s k).step = true) → t.drc.busy = s.drc.busy ∧ t.drc.cur = s.drc.cur) ∧
        ((∀ k < 16, k ≠ c → (chanSt s k).step = false) → t.drc.busy = false ∧ t.drc.cur = s.drc.target)) ∧
    (mine → value.getLsbD 9 = false → 9 < value.toNat / 32 % 16 → exec (.drcDevfailCommand rq value) s = .next (report
      (mkReport Unit.drc Cls.reported Code.regRefused 0 [(0o104, 24), (rq.code.toNat, 9), (0, 2), (0, 1), (value.toNat, 36)]) s)) ∧
    (mine → value.getLsbD 9 = true →
      let u := value.toNat % 32
      let d := value.toNat / 32 % 16
      (mget 0 s.nv.failDev u = 0 → d ≤ 9 → ∃ t, exec (.drcDevfailCommand rq value) s = .next t ∧ t.mem = s.mem ∧
        t.nv = { s.nv with failDev := mset 0 s.nv.failDev u (d + 1) } ∧
        t.hlt = (report (mkReport Unit.drc Cls.wear Code.drcDeviceFailed u
          [(u, 5), (d, 4), (0, 1), (mget 0 (subAt s u).devs d, 12)]) s).hlt) ∧
      (mget 0 s.nv.failDev u ≠ 0 ∨ 9 < d → ∃ t, exec (.drcDevfailCommand rq value) s = .next t ∧ t.mem = s.mem ∧
        t.nv = s.nv ∧ t.hlt = (report (mkReport Unit.drc Cls.reported Code.drcDevfailRefused u [(value.toNat, 36),
          if mget 0 s.nv.failDev u = 0 then (0, 1) else (1, 1), (mget 0 s.nv.failDev u - 1, 4)]) s).hlt))

/-- Reports are counted, logged, committed and signalled, and the SMBus target reads them. REPORT_ACCEPT takes the
oldest report (their order is log entry 17's, the model's choice), counts it, logs it (folded as R406 gives) or counts
it as lost, and asserts REPLACE_REQ for a cause; LOG_COMMIT of a new entry writes the record under LGB_TOTAL with its
CHECK and alerts for classes 2 to 4, of a folded one raises REPEAT and sets LASTSEC; HEALTH_SIGNAL_POST posts the
element, wakes its ring's channel or counts it; OPSEC_TICK adds a second; LGB_RIDX_WRITE of the owner latches a
record. In the states of R24 the twelve SMBus commands answer the octets of R411 and R412 with their PEC (log entry
71: octets and polynomial of SMBus, PRESUMED; log entry 51: the answers, DEDUCED; the select of log entry 53), latch
and advance, select and write, and release the alert; a block write of the wrong count or PEC is not acknowledged and
changes nothing. The tables are canonical. (R24, R402, R403, R404, R405, R406, R407, R409, R410, R411, R412, R413.) -/
def Obligations.LogbookAndManagementPort : Prop :=
  ∀ (rq : Req) (n : Double) (os : List (BitVec 8)) (pec : Option (BitVec 8)) (s : State), mwf {} s.nv.records = true →
    mwf 0 s.hlt.cnt = true →
    let w5 := fun (w : Nat) => [w % 256, w / 2 ^ 8 % 256, w / 2 ^ 16 % 256, w / 2 ^ 24 % 256, w / 2 ^ 32 % 16]
    let d10 := fun (d : Nat) => w5 (d % 2 ^ 36) ++ w5 (d / 2 ^ 36 % 2 ^ 36)
    (∀ r rest, s.hlt.waiting = r :: rest →
      let k := 8 * r.unit + r.cls
      let c := min (mget 0 s.hlt.cnt k + 1) (2 ^ 36 - 1)
      ∃ t, exec .reportAccept s = .next t ∧ t.mem = s.mem ∧ t.nv.records = s.nv.records ∧ mget 0 t.hlt.cnt k = c ∧
        (r.cls ≠ Cls.corrected ∨ cthresh s r.unit = 0 ∨ c ≠ cthresh s r.unit → t.hlt.waiting = rest) ∧
        (s.hlt.logq.length < 64 → ∃ e, t.hlt.logq = s.hlt.logq ++ [e] ∧ e.rep = r ∧ e.opsec = s.nv.opsec ∧ e.pcc = s.nv.pcc ∧
          (e.fold = true ↔ (r.cls = Cls.corrected ∨ r.cls = Cls.reported) ∧ ∃ x, s.hlt.newest = some x ∧ x.unit = r.unit ∧
            x.inst = r.inst ∧ x.cls = r.cls ∧ x.code = r.code ∧ x.rep < 65535)) ∧
        (64 ≤ s.hlt.logq.length → t.hlt.logq = s.hlt.logq ∧
          (r.cls ≠ Cls.corrected → t.hlt.lost = min (s.hlt.lost + 1) (2 ^ 36 - 1))) ∧
        ∀ b, replBit r.code = some b → t.hlt.repl.getLsbD b = true ∧ t.hlt.repl.getLsbD 7 = true) ∧
    (∀ e rest, s.hlt.logq = e :: rest → s.hlt.lostPend = 0 →
      ∃ t, exec .logCommit s = .next t ∧ t.hlt.logq = rest ∧ t.mem = s.mem ∧
        (e.fold = false →
          let r := recAt t s.nv.total
          t.nv.total = (s.nv.total + 1) % 2 ^ 72 ∧ r.opsec = e.opsec ∧ r.pcc = e.pcc ∧ r.unit = e.rep.unit ∧
          r.cls = e.rep.cls ∧ r.code = e.rep.code ∧ r.inst = e.rep.inst ∧ r.lastsec = e.opsec ∧ r.data = e.rep.data ∧
          r.rep = 1 ∧ r.frac = e.frac ∧ r.state = 10 ∧ r.check = recCheck r ∧
          (e.rep.cls ∈ [2, 3, 4] → t.lgb.alert = true ∧ t.nv.alertSeq = some s.nv.total) ∧
          (e.rep.cls ∈ [0, 1] → t.lgb.alert = s.lgb.alert ∧ t.nv.alertSeq = s.nv.alertSeq)) ∧
        (e.fold = true → t.nv.total = s.nv.total ∧ (recAt t (s.nv.total - 1)).lastsec = e.opsec ∧
          (recAt t (s.nv.total - 1)).rep = min ((recAt s (s.nv.total - 1)).rep + 1) 65535 ∧
          (recAt t (s.nv.total - 1)).check = recCheck (recAt t (s.nv.total - 1)))) ∧
    (∀ g rest, s.hlt.signals = g :: rest → serving s = true →
      let s1 := { s with hlt := { s.hlt with signals := rest } }
      (ringRoom s g.queue = true → elementHeld s g.queue = true → exec .healthSignalPost s = .next (wakeElement g.queue s)) ∧
      (ringRoom s g.queue = true → elementHeld s g.queue = false → exec .healthSignalPost s = .next (writeElement (slcReq (queueSec s g.queue)) g.queue
        (signalBits g (sigLost s g.w)) (setSigLost g.w 0 s1))) ∧
      (ringRoom s g.queue = false → sigLost s g.w ≠ 0 → exec .healthSignalPost s =
        .next (setSigLost g.w (min (sigLost s g.w + 1) (2 ^ 18 - 1)) s1)) ∧
      (ringRoom s g.queue = false → sigLost s g.w = 0 → exec .healthSignalPost s = .next (report
        (mkReport Unit.hlt Cls.reported Code.hltSignalLost 0 [(g.w, 2), (g.queue, 20)]) (setSigLost g.w 1 s1)))) ∧
    (s.cfg.phase ≠ .dark → ∃ t, exec .opsecTick s = .next t ∧ t.nv.opsec = (s.nv.opsec + 1) % 2 ^ 36 ∧
      s.lgb.secFrom + 1000000000 ≤ t.isl.chron ∧ t.mem = s.mem) ∧
    (reach rq s = true → rq.sec = blockSec s Unit.lgb → exec (.lgbRidxWrite rq n) s = .next { s with lgb := { s.lgb with
      own := if retained s n.toNat then ⟨n.toNat, recCond s n.toNat, recAll (recAt s n.toNat)⟩
        else ⟨n.toNat, 0, [0, 0, 0, 0, 0, 0, 0, 0]⟩ } }) ∧
    (smbResponds s = true →
      let gives := fun (cmd : Instr) (a : List Nat) (ack : Bool) (t : State) =>
        exec cmd s = .next { t with lgb := { t.lgb with answer := a, pec := 0, acked := ack } }
      let block := fun (cmd : Instr) (c : Nat) (a : List Nat) (t : State) => exec cmd s = .next { t with lgb := { t.lgb with
        answer := a, pec := pecOf ([2 * s.lgb.addr, c, 2 * s.lgb.addr + 1, a.length] ++ a), acked := true } }
      let wrong := fun (c n : Nat) (v : List (BitVec 8)) (p : Option (BitVec 8)) => v.length ≠ n ∨
        ∃ x, p = some x ∧ x.toNat ≠ pecOf ([2 * s.lgb.addr, c, v.length] ++ v.map BitVec.toNat)
      block .smbReadIdent 0o1 (w5 0o112226030200) s ∧
      block .smbReadAssetTag 0o2 ((List.range 16).map fun i => sec s 0 0 16 / 2 ^ (8 * i) % 256) s ∧
      block .smbReadStartState 0o3 (w5 (cfgStateWord s) ++ w5 (cfgPccWord s)) s ∧
      block .smbReadTileMap 0o4 ((List.range 4).flatMap (fun d => w5 (cfgTilesWord s d)) ++ w5 (availMask s % 2 ^ 36) ++
        w5 (availMask s / 2 ^ 36 % 2 ^ 12)) s ∧
      block .smbReadLogCounts 0o20 (d10 s.nv.total ++ w5 (s.nv.opsec % 2 ^ 36) ++ w5 (s.hlt.lost % 2 ^ 36)) s ∧
      block .smbReadAlertSequence 0o43 (d10 (s.nv.alertSeq.getD 0)) s ∧
      block .smbReadRecord 0o22 (w5 s.lgb.smb.rstat ++ s.lgb.smb.words.flatMap fun w => w5 w.toNat)
        { s with lgb := { s.lgb with smb := latchRec s ((s.lgb.smb.idx + 1) % 2 ^ 72) } } ∧
      (wrong 0o21 10 os pec → gives (.smbLatchRecord os pec) [] false s) ∧
      (wrong 0o40 5 os pec → gives (.smbRegisterSelect os pec) [] false s) ∧
      (wrong 0o42 5 os pec → gives (.smbRegisterWrite os pec) [] false s) ∧
      (∀ v : BitVec 80, let octets := (List.range 10).map fun i => v.extractLsb' (8 * i) 8
        ¬ wrong 0o21 10 octets pec → gives (.smbLatchRecord octets pec) [] true
        { s with lgb := { s.lgb with smb := latchRec s (v.toNat % 2 ^ 36 + v.toNat / 2 ^ 40 % 2 ^ 36 * 2 ^ 36) } }) ∧
      (∀ v : BitVec 40,
        let octets := (List.range 5).map fun i => v.extractLsb' (8 * i) 8
        let win := v.toNat / 2 ^ 30 % 2 ^ 6
        (¬ wrong 0o40 5 octets pec → win ∈ [Unit.pwr, Unit.cfg, Unit.lgb, Unit.hlt] → gives (.smbRegisterSelect octets pec) [] true { s with lgb :=
          { s.lgb with selWin := win, selOff := v.toNat % 2 ^ 24, selOk := true } }) ∧
        (win ∉ [Unit.pwr, Unit.cfg, Unit.lgb, Unit.hlt] → gives (.smbRegisterSelect octets pec) [] false s) ∧
        (¬ wrong 0o42 5 octets pec → s.lgb.selOk = true → updRegister s.lgb.selWin s.lgb.selOff = true → gives (.smbRegisterWrite octets pec) [] true
          (writeReg smbReq s.lgb.selWin s.lgb.selOff 36 (v.toNat % 2 ^ 36) s).1) ∧
        (s.lgb.selOk = false ∨ updRegister s.lgb.selWin s.lgb.selOff = false →
          gives (.smbRegisterWrite octets pec) [] false s)) ∧
      (s.lgb.selOk = false → gives .smbRegisterRead [] false s) ∧
      (s.lgb.selOk = true → s.lgb.selWin = Unit.cfg → s.lgb.selOff = 0 →
        block .smbRegisterRead 0o41 (w5 (cfgStateWord s)) s) ∧
      (s.lgb.selOk = true → s.lgb.selWin = Unit.lgb → s.lgb.selOff = 0o20 →
        block .smbRegisterRead 0o41 (d10 (s.lgb.smb.idx % 2 ^ 72)) s) ∧
      (s.lgb.alert = true → exec .smbAlertResponse s = .next { s with
        lgb := { s.lgb with alert := false, answer := [2 * s.lgb.addr], pec := pecOf [25, 2 * s.lgb.addr], acked := true }
        nv := { s.nv with alertAns := s.nv.alertSeq } }) ∧
      (s.lgb.alert = false → gives .smbAlertResponse [] false s))

/-- The wake trace is controlled, drained and read, and cores are halted, stepped and released. In a hub cycle that
connects the tile's canal to its culvert, with the connection unused and no descriptor line bound for it (log entry
64), TRACE_DRAIN_LINE, once the waiting packets have reached the buffer (log entry 70: the model's choice, as for the
writes of the controls and reads below), takes its 16 oldest words, lets LOSS b01 in where packets were lost, after
which each core that lost some owes a SYNC, and binds the words from the culvert to the next ring line; when that line
crosses, it is written in the world of the tile and WPTR advances; WKT_LOSS reports the words lost at most once per
second; TILE_WCTL_WRITE, TRACE_BUFFER_EMPTY and WKT_RDPTR_WRITE of the tile's owner set the controls (an enabled core
owes a SYNC), empty a full buffer with the packets on their way to it (log entry 66: DEDUCED) and set RDPTR within the
ring; TILE_WDATA_READ gives the word at RIDX, zero with PERR and a report for bad parity. A write of HALT makes a
running core's halt due, DBG_HALT takes it at a boundary that settling leaves as it is, RELEASE and STEP let it go on
and are refused for a core halted by a fault. Edges and DBG_XPULSE writes send pulses; CHANNEL_PULSE halts the cores
that listen and drives the pin, which XTRIG_OUT_END releases. The tables are canonical. (R414, R420, R425, R426, R427,
R442, R444, R447, R449, R450.) -/
def Obligations.TraceAndRunControl : Prop :=
  ∀ (t : TileId) (c : CoreId) (rq : Req) (value : Word) (s : State), mwf {} s.cores = true → mwf {} s.tiles = true →
    reach rq s = true →
    let z := wakeSettle t.val s
    let x := tileAt z t.val
    let v := value.toNat
    let i := coreIx c
    let k := coreAt s i
    (let d := portCulvert (traceCul s t.val)
     let l := traceBase z t.val + (x.wptr + (drains z t.val).length) % 2 ^ 36 % traceSize z t.val
     serving s = true → drainReady z t.val = true → connected s t.val d = true → d ∉ s.slc.spent →
      (∀ b ∈ s.slc.bound, b.src = t.val → b.dst = d → ∃ t' l' w, b.cargo = .drain t' l' w) →
      ∃ u bits, exec (.traceDrainLine t) s = .next u ∧ u.mem = s.mem ∧
        (x.lostBuf = 0 → u.tiles = (setTile t.val (fun x => { x with used := x.used - 16 }) z).tiles ∧ u.cores = z.cores) ∧
        (x.lostBuf ≠ 0 → x.used ≤ 8192 → (tileAt u t.val).used = x.used - 15 ∧ (tileAt u t.val).lostBuf = 0 ∧
          mget 0 (tileAt u t.val).buf x.widx =
            BitVec.ofNat 36 (min x.lostBuf (2 ^ 27 - 1) + 2 ^ 27 + 7 * 2 ^ 29) ∧
          ∀ j < 8, (coreAt z (8 * t.val + j)).trace.full = true → (coreAt u (8 * t.val + j)).trace.full = false ∧
            (coreAt u (8 * t.val + j)).trace.owed = some 3 ∧ (coreAt u (8 * t.val + j)).trace.base = none) ∧
        u.slc = { s.slc with spent := d :: s.slc.spent, cConn := s.slc.cConn + 1, cLines := s.slc.cLines + 1,
                             bound := s.slc.bound ++ [⟨d, portOfLine l, s.slc.cycle, .drain t.val l bits⟩] } ∧
        ∀ j < 16, bits / 2 ^ (36 * j) % 2 ^ 36 = (mget 0 x.buf ((x.widx + 8192 - x.used + j) % 8192)).toNat) ∧
    (∀ l bits, carry ⟨portCulvert (traceCul s t.val), portOfLine l, 0, .drain t.val l bits⟩ s =
      setTile t.val (fun x => { x with wptr := (x.wptr + 1) % 2 ^ 36 }) (dramPut (culReq (traceCul s t.val) (tileSec s t.val)) l 0 576 bits
        { s with slc := { s.slc with touched := l :: s.slc.touched, cLines := s.slc.cLines + 1,
                                     bound := s.slc.bound.erase ⟨portCulvert (traceCul s t.val), portOfLine l, 0, .drain t.val l bits⟩ } })) ∧
    (let y := tileAt s t.val
     y.unrep ≠ 0 → available s t.val = true → s.cfg.phase ≠ .dark → ∃ u, exec (.wktLoss t) s = .next u ∧
      (tileAt u t.val).unrep = 0 ∧ (∀ r, y.repAt = some r → r + 1000000000 ≤ u.isl.chron) ∧ u.mem = s.mem ∧
      u.hlt = (report (mkReport Unit.wkt Cls.reported Code.wktLoss t.val
        [(t.val, 6), (min y.unrep (2 ^ 18 - 1), 18), (y.reason, 2)]) s).hlt) ∧
    (rq.sec = tileSec s t.val →
      (available s t.val = true →
        (v / 2 ^ 8 % 16 ≤ 8 → ∃ u, exec (.tileWctlWrite rq t value) s = .next (wakeSettle t.val u) ∧ u.mem = s.mem ∧
          (tileAt u t.val).cen = BitVec.ofNat 8 v ∧ (tileAt u t.val).bmode = value.getLsbD 12 ∧
          (tileAt u t.val).syncper = v / 2 ^ 8 % 16 ∧
          ∀ j < 8, (tileAt s t.val).cen.getLsbD j = false → value.getLsbD j = true →
            (coreAt s (8 * t.val + j)).on = true → (coreAt u (8 * t.val + j)).trace.owed = some 0 ∧
              (coreAt u (8 * t.val + j)).trace.base = none) ∧
        ((tileAt s t.val).full = true → value.getLsbD 35 = false → ∃ u, exec (.traceBufferEmpty rq t value) s = .next u ∧ u.mem = s.mem ∧
          (tileAt u t.val).full = false ∧ (tileAt u t.val).widx = 0 ∧ (tileAt u t.val).used = 0 ∧
          (tileAt u t.val).tileQ = [] ∧ ∀ j < 8, (coreAt u (8 * t.val + j)).trace.fifo = [] ∧ ((tileAt s t.val).cen.getLsbD j = true → (coreAt u (8 * t.val + j)).trace.owed = some 0)) ∧
        (mget false x.bufBad x.ridx = false → exec (.tileWdataRead rq t) s =
          .next { z with answer := (mget 0 x.buf x.ridx).setWidth 72 }) ∧
        (mget false x.bufBad x.ridx = true → ∃ u, exec (.tileWdataRead rq t) s = .next u ∧ u.answer = 0 ∧
          (tileAt u t.val).perr = true ∧ u.hlt = (report (mkReport Unit.wkt Cls.reported Code.wktParity t.val
            [(t.val, 6), (x.ridx, 13)]) z).hlt)) ∧
      (((tileAt s t.val).wptr + 2 ^ 36 - v) % 2 ^ 36 ≤ traceSize s t.val → ∃ u, exec (.wktRdptrWrite rq t value) s = .next u ∧
        tileAt u t.val = { tileAt s t.val with rdptr := v } ∧ u.mem = s.mem) ∧
      (traceSize s t.val < ((tileAt s t.val).wptr + 2 ^ 36 - v) % 2 ^ 36 → exec (.wktRdptrWrite rq t value) s = .next (report
        (mkReport Unit.wkt Cls.reported Code.regRefused 0
          [(0o400 + 4 * t.val, 24), (rq.code.toNat, 9), (0, 2), (0, 1), (v, 36)]) s))) ∧
    (rq.sec = tileSec s (i / 8) →
      ∀ cmd ∈ [Instr.debugHaltRequest rq c value, .debugStep rq c value, .debugRelease rq c value],
        (v % 8 = 1 → k.halted = false → available s (i / 8) = true →
          let state := (tileIsl s (i / 8)).state
          state = .run ∨ state = .nap → ∃ u, exec cmd s = .next u ∧ u.mem = s.mem ∧ coreAt u i = { k with
            maskI := value.getLsbD 4, brkH := value.getLsbD 3, haltReq := some (k.haltReq.getD 1) } ∧
            (state = .nap → haltWaits s i = false → (tileIsl u (i / 8)).exiting = true)) ∧
        (∀ h, v % 8 = 2 ∨ v % 8 = 4 → k.fatal = false → k.halt = some h → h.dozed = false →
          ∃ u, exec cmd s = .next u ∧ u.mem = s.mem ∧ (coreAt u i).halt = none ∧ (coreAt u i).haltReq = none ∧
            (coreAt u i).step = decide (v % 8 = 4) ∧ (coreAt u i).pc = k.pc ∧ (coreAt u i).dly = k.dly ∧
            (coreAt u i).tgt = k.tgt ∧ (coreAt u i).regs = k.regs) ∧
        (v % 8 = 2 ∨ v % 8 = 4 → k.fatal = true → ∃ u, exec cmd s = .next u ∧ (coreAt u i).fatal = true ∧
          (coreAt u i).pc = k.pc ∧
          u.hlt = (report (mkReport Unit.dbg Cls.reported Code.dbgRunRefused i [(v, 36), (5, 4)]) s).hlt)) ∧
    (∀ r, k.haltReq = some r → atBoundary s i = true → k.halted = false → tileRunning s c.tile.val = true → serving s = true →
      haltWaits s i = false → (r = 4 → entersFirst s i = false) → drought i (seqTimeout i (landNow i s)) = s → ∃ u, exec (.dbgHalt c) s = .next u ∧ u.mem = s.mem ∧
        (coreAt u i).halt.map (fun h => (h.cause, h.dozed)) = some (r, k.dozing) ∧ (coreAt u i).haltReq = none ∧
        (coreAt u i).pc = k.pc ∧ (coreAt u i).dly = k.dly ∧ (coreAt u i).tgt = k.tgt ∧ (coreAt u i).regs = k.regs ∧
        u.dbu.pulses = (if k.hout = 0 then s.dbu.pulses else s.dbu.pulses ++ [(k.hout, i / 8)]) ∧
        u.hlt = (report (mkReport Unit.dbg Cls.reported Code.dbgHalt i [(r, 4), (k.pc / 16 % 2 ^ 44, 44)]) s).hlt) ∧
    (portActive s = true → s.dbu.inch ≠ 0 → exec .xtrigInEdge s =
      .next { s with dbu := { s.dbu with pulses := s.dbu.pulses ++ [(s.dbu.inch, 48)] } }) ∧
    (rq.sec = blockSec s Unit.dbg → v % 256 ≠ 0 → exec (.dbgXpulseWrite rq value) s =
      .next { s with dbu := { s.dbu with pulses := s.dbu.pulses ++ [(v % 256, 48)] } }) ∧
    (∀ mask o rest, s.dbu.pulses = (mask, o) :: rest → ∃ u, exec .channelPulse s = .next u ∧ u.dbu.pulses = rest ∧
      u.mem = s.mem ∧
      (k.on = true → tileRunning s (i / 8) = true ∨ (tileIsl s (i / 8)).state = .nap → k.hin &&& mask ≠ 0 → k.halted = false →
        spolOpen s = true ∨ tileSec s (i / 8) = false → coreAt u i = { k with haltReq := some (k.haltReq.getD 1) }) ∧
      (s.dbu.outch &&& mask ≠ 0 → portActive s = true → u.dbu.xout = true ∧ u.dbu.xoutTo = s.isl.chron + 40)) ∧
    (s.dbu.xout = true → ∃ u, exec .xtrigOutEnd s = .next u ∧ u.dbu.xout = false ∧ s.dbu.xoutTo ≤ u.isl.chron ∧
      u.mem = s.mem)

/-- Frames of the two-wire port, the accesses they start, and a write of a register. DEBUG_FRAME_READ with a good
header of a port that is active and without fault answers the register, in quarters of odd parity; a bad header is not
answered until DEBUG_BREAK. DEBUG_FRAME_WRITE with good data performs the write and keeps it, a repeat is not
performed again, bad data sets the fault. DCTL_ABORT drops an access not performed, DCTL_CLEAR clears the fault.
DEBUG_PHYSICAL_ACCESS of hub memory, no pattern connecting its port, reads or writes the units named;
DEBUG_CORE_ACCESS reads and writes g registers and HPC of a halted core; DEBUG_L1_READ gives the word of a frame; a
SEC request under SPOL 0 ends with REASON 4. DEBUG_ACCESS_COMPLETE returns the result or sets the fault.
REGISTER_WRITE is refused by world, then by size (log entry 29), else performed. Memory and the table of cores are
canonical. (R4, R16, R243, R431, R433, R434, R435, R436, R437, R439, R441, R450.) -/
def Obligations.DebugPortAccesses : Prop :=
  ∀ (reg : BitVec 5) (seq mark par : Bool) (data : BitVec 40) (rq : Req) (addr : BitVec 45) (size : BitVec 2) (oct : Bool)
    (value : Double) (s : State), Memory.wf s.mem = true → mwf {} s.cores = true →
    let d := s.dbu
    let r := reg.toNat
    let bits := fun (x code : Nat) (sq : Bool) => x < 32 ∧ x.testBit 0 = false ∧ x / 2 % 4 = code ∧ x.testBit 3 = sq ∧
      (List.range 5).countP (x.testBit ·) % 2 = 1
    let receipt := fun (t : State) (code : Nat) => ∃ a p, t.dbu.answer = some a ∧ bits a.response 0 seq ∧
      a.receipt = some p ∧ bits p code seq
    (portActive s = true → d.desync = false →
      (headerOk true r seq mark par = true → d.fault = false → d.access = none → r ∈ [0, 4, 5, 6, 7] →
        ∃ t, exec (.debugFrameRead reg seq mark par) s = .next t ∧ t.mem = s.mem ∧ t.dbu.addr = d.addr ∧
          t.dbu.data = d.data ∧ ∃ a, t.dbu.answer = some a ∧ bits a.response 0 seq ∧ a.receipt = none ∧
            let v := ([0o112226010000, 0, 0, 0, d.addr % 2 ^ 36, d.addr / 2 ^ 36 % 2 ^ 9, d.data % 2 ^ 36,
              d.data / 2 ^ 36 % 2 ^ 36] : List Nat).getD r 0
            ∀ j < 4, a.data / 2 ^ (10 * j) % 2 ^ 9 = v / 2 ^ (9 * j) % 2 ^ 9 ∧
              (List.range 10).countP (fun b => a.data.testBit (10 * j + b)) % 2 = 1) ∧
      (headerOk true r seq mark par = false → exec (.debugFrameRead reg seq mark par) s =
        .next { s with dbu := { d with desync := true, answer := none } }) ∧
      (headerOk false r seq mark par = true → d.fault = false → d.access = none → r ∈ [4, 5, 6, 7, 8] →
        (∀ v, dataWord data.toNat = some v → (d.hasSeq = false ∨ d.lseq ≠ seq ∨ d.keptReg ≠ r ∨ d.keptData ≠ v) →
          ∃ t, exec (.debugFrameWrite reg seq mark par data) s = .next t ∧ t.mem = s.mem ∧ t.dbu.hasSeq = true ∧
            t.dbu.lseq = seq ∧ t.dbu.keptReg = r ∧ t.dbu.keptData = v ∧ receipt t 0 ∧
            (r = 4 → t.dbu.addr = setField d.addr 0 36 v) ∧ (r = 5 → t.dbu.addr = setField d.addr 36 9 v) ∧
            (r = 6 → t.dbu.data = setField d.data 0 36 v) ∧ (r = 7 → t.dbu.data = setField d.data 36 36 v) ∧
            (r = 8 → v < 1024 → v % 8 < 3 → t.dbu.access = some { cmd := v } ∧ t.dbu.fault = false) ∧
            (r = 8 → (1024 ≤ v ∨ 3 ≤ v % 8) → t.dbu.access = none ∧ t.dbu.fault = true ∧ t.dbu.reason = 7)) ∧
        (∀ v, dataWord data.toNat = some v → d.hasSeq = true → d.lseq = seq → d.keptReg = r → d.keptData = v →
          ∃ t, exec (.debugFrameWrite reg seq mark par data) s = .next t ∧ t.dbu.addr = d.addr ∧ t.dbu.data = d.data ∧
            t.dbu.access = none ∧ receipt t 3) ∧
        (dataWord data.toNat = none → ∃ t, exec (.debugFrameWrite reg seq mark par data) s = .next t ∧
          t.dbu.addr = d.addr ∧ t.dbu.data = d.data ∧ t.dbu.access = none ∧ t.dbu.fault = true ∧ t.dbu.reason = 1)) ∧
      (∃ t, exec (.dctlAbort seq) s = .next t ∧ t.dbu.access = d.access.filter (fun a => a.done) ∧ t.dbu.fault = d.fault ∧
        t.mem = s.mem) ∧
      ∃ t, exec (.dctlClear seq) s = .next t ∧ t.dbu.access = d.access ∧ t.dbu.fault = false ∧ t.dbu.reason = 0 ∧
        t.mem = s.mem) ∧
    (portActive s = true → exec .debugBreak s = .next { s with dbu := { d with desync := false } }) ∧
    (∀ q, d.access = some q →
      let a := d.addr
      let n := 2 ^ (q.cmd / 16 % 4)
      let view := q.cmd.testBit 6
      let sec := q.cmd.testBit 7
      let ends := fun (t : State) (res reason : Nat) =>
        t.dbu = { d with access := some { cmd := q.cmd, done := true, result := res, reason := reason } }
      (q.done = false → portActive s = true →
        (sec = true → spolOpen s = false → ∀ p ∈ [(0, Instr.debugPhysicalAccess), (1, .debugCoreAccess), (2, .debugL1Read)],
          q.cmd % 8 = p.1 → (p.1 = 0 → physHeld s (q.cmd.testBit 3) a = false ∧ debugWaits s a = false) → ∃ t, exec p.2 s = .next t ∧ t.mem = s.mem ∧ t.cores = s.cores ∧
            ends t 0 4) ∧
        (sec = false ∨ spolOpen s = true →
          (q.cmd % 8 = 0 → targetOf s a = .hub → a % n = 0 → worldMay s sec a = true → debugWaits s a = false →
            let lo := if view then 8 * (a % 64) else 9 * (a % 64)
            let w := if view then 8 * n else 9 * n
            (q.cmd.testBit 3 = false → hubWordBad s (a / 64) lo w = false → ∃ t, exec .debugPhysicalAccess s = .next t ∧
              t.mem = s.mem ∧ ends t (lineBits s (a / 64) / 2 ^ lo % 2 ^ w) 0) ∧
            (q.cmd.testBit 3 = true → ∃ t, exec .debugPhysicalAccess s = .next t ∧ ends t 0 0 ∧
              (∀ l, l ≠ a / 64 → lineBits t l = lineBits s l) ∧ ∀ j < 576, (lineBits t (a / 64)).testBit j =
                if lo ≤ j ∧ j < lo + w then d.data.testBit (j - lo) else (lineBits s (a / 64)).testBit j)) ∧
          (let tile := a / 2 ^ 11 % 64
           let i := 8 * tile + a / 2 ^ 8 % 8
           let k := coreAt s i
           q.cmd % 8 = 1 → q.cmd / 16 % 4 = 3 → view = false → tile < 48 → available s tile = true →
            (k.halted = false → ∃ t, exec .debugCoreAccess s = .next t ∧ t.cores = s.cores ∧ ends t 0 5) ∧
            (k.halted = true → k.sec = false ∨ sec = true →
              (a / 64 % 4 = 0 → q.cmd.testBit 3 = false → ∃ t, exec .debugCoreAccess s = .next t ∧ t.cores = s.cores ∧
                ends t (k.read (BitVec.ofNat 6 (a % 64))).toNat 0) ∧
              (a / 64 % 4 = 0 → q.cmd.testBit 3 = true → mwf 0 k.regs = true → ∃ t, exec .debugCoreAccess s = .next t ∧ ends t 0 0 ∧
                (coreAt t i).read (BitVec.ofNat 6 (a % 64)) = if a % 64 = 0 then 0 else BitVec.ofNat 72 d.data) ∧
              (a / 64 % 4 = 3 → a % 64 = 0 → q.cmd.testBit 3 = true → ∃ t, exec .debugCoreAccess s = .next t ∧ ends t 0 0 ∧
                (coreAt t i).pc = d.data % 2 ^ 48 / 16 * 16 ∧ (coreAt t i).dly = 0))) ∧
          (let tile := a / 2 ^ 18 % 64
           let k := coreAt s (8 * tile + a / 2 ^ 15 % 8)
           let way := a / 2 ^ 11 % 8
           let cache := if a.testBit 14 then k.icache else k.dcache
           q.cmd % 8 = 2 → q.cmd / 16 % 4 = 3 → q.cmd.testBit 3 = false → tile < 48 → available s tile = true →
            k.halted = true → a.testBit 4 = false → a.testBit 14 = true ∨ wayMode k.dway way ≠ 2 →
            ∀ f, mget none cache (8 * (a / 32 % 64) + way) = some f → sec = true ∨ memSecure s (64 * f.line) = false →
              ∃ t res, exec .debugL1Read s = .next t ∧ t.mem = s.mem ∧ t.cores = s.cores ∧ ends t res 0 ∧
                res % 2 ^ 36 = f.bits / 2 ^ (36 * (a % 16)) % 2 ^ 36))) ∧
      (q.done = true → ∃ t, exec .debugAccessComplete s = .next t ∧ t.mem = s.mem ∧ t.dbu.access = none ∧
        (q.reason = 0 → t.dbu.fault = d.fault ∧ t.dbu.data = (if q.cmd.testBit 3 then d.data else q.result) ∧
          t.dbu.addr = (if q.cmd.testBit 9 then (a + (if q.cmd % 8 = 0 then n else 1)) % 2 ^ 45 else a)) ∧
        (q.reason ≠ 0 → d.fault = false → t.dbu.fault = true ∧ t.dbu.reason = q.reason ∧ t.dbu.addr = a))) ∧
    (reach rq s = true → ∀ win off, targetOf s addr.toNat = .control win off →
      let w := if oct then 8 * 2 ^ size.toNat else 9 * 2 ^ size.toNat
      let run := exec (.registerWrite rq addr size oct value) s
      let v := value.toNat % 2 ^ w
      (regView s rq.sec win off = none → run = .next (report (windowUnmapped win off rq true) s)) ∧
      ∀ g, regView s rq.sec win off = some g →
        (worldRule g.writeBy rq = false → run = .next (report (ownerRefused win off rq false v) s)) ∧
        (worldRule g.writeBy rq = true → w ≠ g.bits → run = .next (report (regRefused win off rq .size v) s)) ∧
        (worldRule g.writeBy rq = true → w = g.bits → run = .next (g.put rq v s)))

/-- The state after reset has its memory and its tables in canonical form and lists nothing. State.reset satisfies
Canonical: its memory and every table that a statement here assumes canonical list nothing, its queue of commands is
empty and the module is in DARK. (R6, R54.) -/
def Obligations.ResetIsCanonical : Prop :=
  Canonical State.reset ∧ State.reset.mem = [] ∧ State.reset.pending = [] ∧ State.reset.cfg.phase = .dark

/-- Every step answers a next state, takes one command off the queue and keeps memory canonical. For every state whose
memory is in canonical form (addresses strictly rising, no entry equal to what an unlisted address reads as), step
answers a next state, never a fault or a refusal; its memory is in canonical form, and its queue is what followed the
command at the front. An empty queue stays empty. (R6, R193.) -/
def Obligations.EveryStepKeepsMemoryCanonical : Prop :=
  ∀ s : State, Memory.wf s.mem = true →
    ∃ t, step s = .next t ∧ Memory.wf t.mem = true ∧ t.pending = s.pending.tail

/-- Every step keeps the tables of cores, tiles, queues, culverts, channels, ports and interfaces canonical. Canonical
holds of the state that a step answers whenever it holds of the state before: each table that the other statements
assume canonical stays so, whichever command runs. (R6.) -/
def Obligations.EveryStepKeepsTheTablesCanonical : Prop :=
  ∀ s t : State, Canonical s → step s = .next t → Canonical t

/-- No step moves a watermark or an ownership but the start, and no step but WCALL and WRET moves a running core's
world. For every step of a state whose tables are canonical: the watermarks, the owners of blocks, quads and tiles and
the lock stay as they are, but where LOCK_SEQUENCE performs step 1, which gives them the values of the WORLDS section,
and where the module returns to DARK or leaves it for CHARGE, when they are those after reset; and a core that is on
before and after the step keeps its world, but where its own WCALL in the normal world takes it to the secure world on
a tile with a secure image, its own WRET on a tile that the secure world does not own takes it back, or it starts anew
(its tile did not run, or the module was in LOCK). So no step takes a core of a running secure-owned tile from the
secure to the normal world. (R100, R127, R231, R242.) -/
def Obligations.WorldsChangeOnlyByTheirRules : Prop :=
  ∀ s t : State, Canonical s → step s = .next t →
    let worlds := fun (s : State) => (s.wld.locked, s.wld.dwm, s.wld.hwm, s.wld.kwm, s.wld.iwm, s.wld.blocks, s.wld.quads,
      s.wld.tiles, s.wld.twm)
    (worlds t = worlds s ∨
      (∃ bt run rest, s.pending = .lockSequence bt run :: rest ∧ s.cfg.phase = .lock ∧ s.wld.locked = false ∧
        worlds t = worlds (lockWorlds s)) ∨
      (worlds t = worlds State.reset ∧ (t.cfg.phase = .dark ∨ t.cfg.phase = .charge))) ∧
    ∀ i, (coreAt s i).on = true → (coreAt t i).on = true → (coreAt t i).sec ≠ (coreAt s i).sec →
      (tileIsl s (i / 8)).state ≠ .run ∨ s.cfg.phase = .lock ∨
      ∃ x f rest, issueIx x = i ∧
        ((s.pending = .wcall x f :: rest ∧ (coreAt s i).sec = false ∧ hasSecureImage s (i / 8) = true) ∨
          (s.pending = .wret x f :: rest ∧ (coreAt s i).sec = true ∧ tileSec s (i / 8) = false))

/-- Every step keeps RCOUNT, DCOUNT, HEAD and TAIL of every queue in order. An invariant of every step from a state
whose tables are canonical, true after reset: for every defined queue whose ring and landing sizes are in range
(R271), the counts are below 2^17, the ring holds at most 2^(RSZ+4) elements, the elements of a delivery that has not
committed are among them, and for a tile-bound queue DCOUNT has not passed HEAD (they are equal) and RCOUNT has not
passed DCOUNT: the entries delivered and not released, with those of the delivery under way, are at most the 2^LSZ of
the landing ring. (R273, R274, R275, R281, R282, R289.) -/
def Obligations.QueueCountsStayInOrder : Prop :=
  let ordered := fun (s : State) => ∀ q r, qrec s q = some r → r.rsz ≤ 12 → r.lsz ≤ 10 →
    let x := qst s q
    let n := match mget none s.slc.delivs q with
      | some d => d.n
      | none => 0
    let ring := (x.tail + 2 ^ 17 - x.head) % 2 ^ 17
    x.head < 2 ^ 17 ∧ x.tail < 2 ^ 17 ∧ x.dcount < 2 ^ 17 ∧ x.rcount < 2 ^ 17 ∧ n ≤ ring ∧ ring ≤ 2 ^ (r.rsz + 4) ∧
      (r.culv = false → x.dcount = x.head ∧ (x.dcount + 2 ^ 17 - x.rcount) % 2 ^ 17 + n ≤ 2 ^ r.lsz)
  ordered State.reset ∧ ∀ s t : State, Canonical s → ordered s → step s = .next t → ordered t
end

