-- ==== Sys2Proof/Laws/Sparse.lean ====
section
/-! SUPPORT. Laws/Sparse.lean: reading and writing canonical sparse tables. -/

namespace Sys2Proof.Machine

variable {α : Type} [DecidableEq α]

/-- The keys of a canonical table rise. -/
theorem mwf_cons {d : α} {k : Nat} {v : α} {t : SMap α} (h : mwf d ((k, v) :: t) = true) :
    v ≠ d ∧ (∀ p ∈ t, k < p.1) ∧ mwf d t = true := by
  induction t generalizing k v with
  | nil => simpa [mwf] using h
  | cons p t ih =>
    obtain ⟨k', v'⟩ := p
    simp only [mwf, Bool.and_eq_true, decide_eq_true_eq] at h
    obtain ⟨⟨hv, hk⟩, ht⟩ := h
    have h2 : mwf d ((k', v') :: t) = true := by
      simp only [mwf, Bool.and_eq_true, decide_eq_true_eq]
      exact ht
    obtain ⟨_, h3, _⟩ := ih h2
    refine ⟨hv, fun p hp => ?_, h2⟩
    rcases List.mem_cons.1 hp with rfl | hp
    · exact hk
    · exact Nat.lt_trans hk (h3 p hp)

/-- A table is canonical when its head lies below a canonical tail. -/
theorem mwf_of_cons {d : α} {k : Nat} {v : α} {t : SMap α} (hv : v ≠ d) (hk : ∀ p ∈ t, k < p.1)
    (ht : mwf d t = true) : mwf d ((k, v) :: t) = true := by
  cases t with
  | nil => simpa [mwf] using hv
  | cons p t =>
    obtain ⟨k', v'⟩ := p
    simp only [mwf, Bool.and_eq_true, decide_eq_true_eq] at ht ⊢
    exact ⟨⟨hv, hk _ (List.mem_cons_self ..)⟩, ht⟩

omit [DecidableEq α] in
/-- A key below every listed key reads as the default. -/
theorem mget_below {d : α} {t : SMap α} {i : Nat} (h : ∀ p ∈ t, i < p.1) : mget d t i = d := by
  cases t with
  | nil => rfl
  | cons p t =>
    obtain ⟨k, v⟩ := p
    have : i < k := h (k, v) (List.mem_cons_self ..)
    simp only [mget]
    rw [if_neg (by omega), if_pos this]

/-- The keys after a write are the keys before and the key written. -/
theorem mset_keys {d : α} {i : Nat} {v : α} : ∀ {t : SMap α} {p : Nat × α}, p ∈ mset d t i v → p ∈ t ∨ p = (i, v)
  | [], p, h => by
    simp only [mset] at h
    split at h <;> simp_all
  | (k, w) :: t, p, h => by
    simp only [mset] at h
    split at h
    · split at h
      · exact .inl h
      · rcases List.mem_cons.1 h with h | h
        · exact .inr h
        · exact .inl h
    · split at h
      · split at h
        · exact .inl (List.mem_cons_of_mem _ h)
        · rcases List.mem_cons.1 h with h | h
          · exact .inr h
          · exact .inl (List.mem_cons_of_mem _ h)
      · rcases List.mem_cons.1 h with h | h
        · exact .inl (h ▸ List.mem_cons_self ..)
        · rcases mset_keys h with h | h
          · exact .inl (List.mem_cons_of_mem _ h)
          · exact .inr h

/-- A write keeps the canonical form. -/
theorem mset_wf {d : α} : ∀ {t : SMap α} {i : Nat} {v : α}, mwf d t = true → mwf d (mset d t i v) = true
  | [], i, v, _ => by
    simp only [mset]
    split
    · rfl
    · simpa [mwf] using ‹¬ v = d›
  | (k, w) :: t, i, v, h => by
    obtain ⟨hw, hk, ht⟩ := mwf_cons h
    simp only [mset]
    split
    · split
      · exact h
      · refine mwf_of_cons ‹_› (fun p hp => ?_) h
        rcases List.mem_cons.1 hp with rfl | hp
        · assumption
        · exact Nat.lt_trans ‹i < k› (hk p hp)
    · split
      · split
        · exact ht
        · rename_i hik _
          exact mwf_of_cons ‹_› (fun p hp => hik ▸ hk p hp) ht
      · refine mwf_of_cons hw (fun p hp => ?_) (mset_wf ht)
        rcases mset_keys hp with hp | rfl
        · exact hk p hp
        · show k < i
          omega

/-- A read of the key just written gives the value. -/
theorem mget_mset_same {d : α} : ∀ {t : SMap α} {i : Nat} {v : α}, mwf d t = true → mget d (mset d t i v) i = v
  | [], i, v, _ => by
    simp only [mset]
    split
    · simp [mget, ‹v = d›]
    · simp [mget]
  | (k, w) :: t, i, v, h => by
    obtain ⟨_, hk, ht⟩ := mwf_cons h
    simp only [mset]
    split
    · rename_i hik
      split
      · simp only [mget]
        rw [if_neg (by omega), if_pos hik, ‹v = d›]
      · simp [mget]
    · split
      · rename_i hik
        split
        · rw [mget_below (fun p hp => hik ▸ hk p hp), ‹v = d›]
        · simp [mget]
      · simp only [mget]
        rw [if_neg (by omega), if_neg (by omega)]
        exact mget_mset_same ht

/-- A write leaves every other key as it was. -/
theorem mget_mset_ne {d : α} :
    ∀ {t : SMap α} {i j : Nat} {v : α}, mwf d t = true → j ≠ i → mget d (mset d t i v) j = mget d t j
  | [], i, j, v, _, hj => by
    simp only [mset]
    split
    · rfl
    · simp only [mget]
      rw [if_neg (Ne.symm hj), ite_self]
  | (k, w) :: t, i, j, v, h, hj => by
    obtain ⟨_, hk, ht⟩ := mwf_cons h
    simp only [mset]
    split
    · split
      · rfl
      · simp only [mget]
        rw [if_neg (Ne.symm hj)]
        split
        · rw [if_neg (by omega), if_pos (by omega)]
        · rfl
    · split
      · rename_i hik
        have hkj : ¬ k = j := by omega
        split
        · simp only [mget]
          rw [if_neg hkj]
          split
          · exact mget_below fun p hp => Nat.lt_trans ‹j < k› (hk p hp)
          · rfl
        · simp only [mget]
          rw [if_neg (Ne.symm hj), if_neg hkj, hik]
      · simp only [mget]
        rw [mget_mset_ne ht hj]

/-- Writing the value that a canonical table already holds changes nothing. -/
theorem mset_same {d : α} : ∀ {t : SMap α} {i : Nat}, mwf d t = true → mset d t i (mget d t i) = t
  | [], i, _ => by simp [mset, mget]
  | (k, w) :: t, i, h => by
    obtain ⟨hw, hk, ht⟩ := mwf_cons h
    simp only [mset, mget]
    by_cases hik : k = i
    · subst hik
      simp [hw]
    · by_cases hlt : i < k
      · simp [hik, hlt]
      · simp [hik, hlt, Ne.symm hik, mset_same ht]

/-- Every write keeps the canonical form: for a change by a function. -/
theorem mmod_wf {d : α} {t : SMap α} {i : Nat} {f : α → α} (h : mwf d t = true) : mwf d (mmod d t i f) = true :=
  mset_wf h

/-- Dropping entries keeps the canonical form. -/
theorem filter_wf {d : α} {p : Nat × α → Bool} : ∀ {t : SMap α}, mwf d t = true → mwf d (t.filter p) = true
  | [], _ => rfl
  | (k, w) :: t, h => by
    obtain ⟨hw, hk, ht⟩ := mwf_cons h
    rw [List.filter_cons]
    split
    · exact mwf_of_cons hw (fun q hq => hk q (List.mem_filter.1 hq).1) (filter_wf ht)
    · exact filter_wf ht

/-- A fold of writes keeps the canonical form. -/
theorem foldl_mset_wf {β : Type} {d : α} (f : SMap α → β → SMap α)
    (hf : ∀ m b, mwf d m = true → mwf d (f m b) = true) :
    ∀ (l : List β) (m : SMap α), mwf d m = true → mwf d (l.foldl f m) = true
  | [], _, h => h
  | b :: l, m, h => foldl_mset_wf f hf l (f m b) (hf m b h)

/-- A changed core reads back changed. -/
theorem coreAt_setCore {s : State} (h : mwf {} s.cores = true) (i : Nat) (f : Core → Core) :
    coreAt (setCore i f s) i = f (coreAt s i) := by
  simp only [coreAt, setCore, mmod]
  exact mget_mset_same h

/-- A change of one core leaves the others. -/
theorem coreAt_setCore_ne {s : State} (h : mwf {} s.cores = true) {i j : Nat} (hj : j ≠ i) (f : Core → Core) :
    coreAt (setCore i f s) j = coreAt s j := by
  simp only [coreAt, setCore, mmod]
  exact mget_mset_ne h hj

end Sys2Proof.Machine
end

