-- ==== Sys2Proof/Laws/Memory.lean ====
section
/-! SUPPORT. Laws/Memory.lean: the stored lines of memory: what a write of stored bits changes and what it leaves. -/

namespace Sys2Proof.Machine

/-- A field is a run of bits. -/
theorem testBit_field (x lo n i : Nat) : (field x lo n).testBit i = (decide (i < n) && x.testBit (lo + i)) := by
  simp [field, Nat.testBit_mod_two_pow, Nat.testBit_shiftRight]

/-- The bits of a number after a field is replaced. -/
theorem testBit_setField (x lo n v i : Nat) :
    (setField x lo n v).testBit i = if lo ≤ i ∧ i < lo + n then v.testBit (i - lo) else x.testBit i := by
  have split : x = x % 2 ^ lo + 2 ^ lo * (x / 2 ^ lo % 2 ^ n) + 2 ^ (lo + n) * (x / 2 ^ (lo + n)) := by
    rw [Nat.pow_add, ← Nat.div_div_eq_div_mul, Nat.mul_assoc, Nat.add_assoc, ← Nat.mul_add, Nat.mod_add_div,
      Nat.mod_add_div]
  have val : setField x lo n v = 2 ^ lo * (2 ^ n * (x / 2 ^ (lo + n)) + v % 2 ^ n) + x % 2 ^ lo := by
    have h : field x lo n * 2 ^ lo = 2 ^ lo * (x / 2 ^ lo % 2 ^ n) := by
      rw [field, Nat.shiftRight_eq_div_pow, Nat.mul_comm]
    unfold setField
    rw [h]
    conv_lhs => rw [split]
    have e : (x % 2 ^ lo + 2 ^ lo * (x / 2 ^ lo % 2 ^ n) + 2 ^ (lo + n) * (x / 2 ^ (lo + n))) / 2 ^ lo % 2 ^ n =
        x / 2 ^ lo % 2 ^ n := by rw [← split]
    rw [e, Nat.mul_add, ← Nat.mul_assoc, ← Nat.pow_add, Nat.mul_comm (v % 2 ^ n)]
    omega
  rw [val, Nat.testBit_two_pow_mul_add _ (Nat.mod_lt _ (Nat.two_pow_pos lo))]
  by_cases h1 : i < lo
  · rw [if_pos h1, if_neg (by omega), Nat.testBit_mod_two_pow]
    simp [h1]
  · rw [if_neg h1, Nat.testBit_two_pow_mul_add _ (Nat.mod_lt _ (Nat.two_pow_pos n))]
    by_cases h2 : i < lo + n
    · rw [if_pos (by omega), if_pos ⟨by omega, h2⟩, Nat.testBit_mod_two_pow]
      simp [show i - lo < n by omega]
    · rw [if_neg (by omega), if_neg (by omega), Nat.testBit_div_two_pow]
      congr 1
      omega

/-- The bits of units joined, each below its width. -/
theorem testBit_joinUnits (w : Nat) (hw : 0 < w) : ∀ (xs : List Nat) (i : Nat),
    (joinUnits w xs).testBit i = ((xs[i / w]?).getD 0).testBit (i % w)
  | [], i => by simp [joinUnits]
  | x :: t, i => by
    rw [joinUnits, Nat.add_comm, Nat.testBit_two_pow_mul_add _ (Nat.mod_lt _ (Nat.two_pow_pos w))]
    by_cases h : i < w
    · rw [if_pos h, Nat.testBit_mod_two_pow, Nat.div_eq_of_lt h, Nat.mod_eq_of_lt h]
      simp [h]
    · rw [if_neg h, testBit_joinUnits w hw t (i - w)]
      obtain ⟨j, rfl⟩ : ∃ j, i = j + w := ⟨i - w, by omega⟩
      rw [Nat.add_sub_cancel, Nat.add_div_right _ hw, Nat.add_mod_right]
      rfl

/-- Octets written at keys `b` to `b + n - 1` by the fold that a line write is. -/
theorem mget_putOctets (g : Nat → BitVec 8) (b : Nat) : ∀ (n : Nat) (m : List Host.Cell), mwf 0 m = true → ∀ a,
    mget (0 : BitVec 8) ((List.range n).foldl (fun m j => mset 0 m (b + j) (g j)) m) a =
      if b ≤ a ∧ a < b + n then g (a - b) else mget 0 m a
  | 0, m, _, a => by simp
  | n + 1, m, h, a => by
    rw [List.range_succ, List.foldl_append, List.foldl_cons, List.foldl_nil]
    have hw := foldl_mset_wf (fun (m : SMap (BitVec 8)) j => mset 0 m (b + j) (g j)) (fun _ _ h => mset_wf h)
      (List.range n) m h
    by_cases ha : a = b + n
    · subst ha
      rw [mget_mset_same hw, if_pos ⟨by omega, by omega⟩, Nat.add_sub_cancel_left]
    · rw [mget_mset_ne hw ha, mget_putOctets g b n m h a]
      by_cases hb : b ≤ a ∧ a < b + n
      · rw [if_pos hb, if_pos ⟨hb.1, by omega⟩]
      · rw [if_neg hb, if_neg (by omega)]

/-- A line write keeps memory canonical. -/
theorem putLine_wf {s : State} (h : Memory.wf s.mem = true) (l v : Nat) : Memory.wf (putLine l v s).mem = true := by
  simp only [putLine]
  exact foldl_mset_wf _ (fun _ _ h => mset_wf h) _ _ h

/-- A write of stored bits keeps memory canonical. -/
theorem putBits_wf {s : State} (h : Memory.wf s.mem = true) (l lo w v : Nat) :
    Memory.wf (putBits l lo w v s).mem = true := putLine_wf h _ _

/-- A line write, octet by octet. -/
theorem mget_putLine {s : State} (h : Memory.wf s.mem = true) (l v a : Nat) :
    mget (0 : BitVec 8) (putLine l v s).mem a =
      if a / 72 = l then BitVec.ofNat 8 (field v (8 * (a % 72)) 8) else mget 0 s.mem a := by
  simp only [putLine]
  rw [mget_putOctets (fun j => BitVec.ofNat 8 (field v (8 * j) 8)) (72 * l) 72 s.mem h a]
  by_cases hl : a / 72 = l
  · have : a - 72 * l = a % 72 := by omega
    rw [if_pos hl, if_pos ⟨by omega, by omega⟩, this]
  · rw [if_neg hl, if_neg (by omega)]

/-- The bits of a line as its octets give them. -/
theorem testBit_lineBits (s : State) (l i : Nat) :
    (lineBits s l).testBit i =
      (decide (i < 576) && (mget (0 : BitVec 8) s.mem (72 * l + i / 8)).toNat.testBit (i % 8)) := by
  rw [lineBits, testBit_joinUnits 8 (by omega), List.getElem?_map]
  by_cases h : i < 576
  · rw [List.getElem?_eq_getElem (by rw [List.length_range]; omega), List.getElem_range]
    simp [h]
  · rw [List.getElem?_eq_none (by rw [List.length_range]; omega)]
    simp [h]

/-- A line reads back as it was written. -/
theorem testBit_lineBits_putLine {s : State} (h : Memory.wf s.mem = true) (l v i : Nat) :
    (lineBits (putLine l v s) l).testBit i = (decide (i < 576) && v.testBit i) := by
  rw [testBit_lineBits, mget_putLine h]
  by_cases hi : i < 576
  · rw [if_pos (by omega), BitVec.toNat_ofNat, Nat.mod_eq_of_lt (by simp only [field]; exact Nat.mod_lt _ (by omega)),
      testBit_field]
    have h2 : 8 * ((72 * l + i / 8) % 72) + i % 8 = i := by omega
    rw [h2]
    simp [show i % 8 < 8 by omega]
  · simp [hi]

/-- A write of a line leaves the other lines. -/
theorem lineBits_putLine_ne {s : State} (h : Memory.wf s.mem = true) {l l' : Nat} (v : Nat) (hl : l' ≠ l) :
    lineBits (putLine l v s) l' = lineBits s l' := by
  apply Nat.eq_of_testBit_eq
  intro i
  rw [testBit_lineBits, testBit_lineBits]
  by_cases hi : i < 576
  · rw [mget_putLine h, if_neg (by omega)]
  · simp [hi]

/-- A write of stored bits replaces those bits of its line. -/
theorem testBit_lineBits_putBits {s : State} (h : Memory.wf s.mem = true) (l lo w v i : Nat) (hw : lo + w ≤ 576) :
    (lineBits (putBits l lo w v s) l).testBit i =
      if lo ≤ i ∧ i < lo + w then v.testBit (i - lo) else (lineBits s l).testBit i := by
  rw [putBits, testBit_lineBits_putLine h, testBit_setField]
  by_cases hi : i < 576
  · simp [hi]
  · rw [if_neg (by omega), testBit_lineBits]
    simp [hi]

/-- A write of stored bits leaves the octets of every other line. -/
theorem mget_putBits_ne {s : State} (h : Memory.wf s.mem = true) {l a : Nat} (lo w v : Nat) (ha : a / 72 ≠ l) :
    mget (0 : BitVec 8) (putBits l lo w v s).mem a = mget 0 s.mem a := by
  rw [putBits, mget_putLine h, if_neg ha]

end Sys2Proof.Machine
end

