-- ==== Sys2Proof/Laws/State.lean ====
section
/-! SUPPORT. State.lean: what each update of the state leaves unchanged, one lemma for each field. -/

namespace Sys2Proof.Machine

variable (s : State)

@[simp] theorem setCore_pending (i : Nat) (f : Core → Core) : (setCore i f s).pending = s.pending := rfl
@[simp] theorem setCore_draws (i : Nat) (f : Core → Core) : (setCore i f s).draws = s.draws := rfl
@[simp] theorem setCore_cfg (i : Nat) (f : Core → Core) : (setCore i f s).cfg = s.cfg := rfl
@[simp] theorem setCore_nv (i : Nat) (f : Core → Core) : (setCore i f s).nv = s.nv := rfl
@[simp] theorem setCore_pwr (i : Nat) (f : Core → Core) : (setCore i f s).pwr = s.pwr := rfl
@[simp] theorem setCore_isl (i : Nat) (f : Core → Core) : (setCore i f s).isl = s.isl := rfl
@[simp] theorem setCore_wld (i : Nat) (f : Core → Core) : (setCore i f s).wld = s.wld := rfl
@[simp] theorem setCore_hlt (i : Nat) (f : Core → Core) : (setCore i f s).hlt = s.hlt := rfl
@[simp] theorem setCore_lgb (i : Nat) (f : Core → Core) : (setCore i f s).lgb = s.lgb := rfl
@[simp] theorem setCore_mem (i : Nat) (f : Core → Core) : (setCore i f s).mem = s.mem := rfl
@[simp] theorem setCore_hperst (i : Nat) (f : Core → Core) : (setCore i f s).hperst = s.hperst := rfl
@[simp] theorem setCore_poison (i : Nat) (f : Core → Core) : (setCore i f s).poison = s.poison := rfl
@[simp] theorem setCore_keys (i : Nat) (f : Core → Core) : (setCore i f s).keys = s.keys := rfl
@[simp] theorem setCore_tiles (i : Nat) (f : Core → Core) : (setCore i f s).tiles = s.tiles := rfl
@[simp] theorem setCore_tmErr (i : Nat) (f : Core → Core) : (setCore i f s).tmErr = s.tmErr := rfl
@[simp] theorem setCore_ivc (i : Nat) (f : Core → Core) : (setCore i f s).ivc = s.ivc := rfl
@[simp] theorem setCore_dbu (i : Nat) (f : Core → Core) : (setCore i f s).dbu = s.dbu := rfl
@[simp] theorem setCore_slc (i : Nat) (f : Core → Core) : (setCore i f s).slc = s.slc := rfl
@[simp] theorem setCore_cul (i : Nat) (f : Core → Core) : (setCore i f s).cul = s.cul := rfl
@[simp] theorem setCore_vif (i : Nat) (f : Core → Core) : (setCore i f s).vif = s.vif := rfl
@[simp] theorem setCore_prt (i : Nat) (f : Core → Core) : (setCore i f s).prt = s.prt := rfl
@[simp] theorem setCore_answer (i : Nat) (f : Core → Core) : (setCore i f s).answer = s.answer := rfl
@[simp] theorem setCore_cht (i : Nat) (f : Core → Core) : (setCore i f s).cht = s.cht := rfl
@[simp] theorem setCore_drc (i : Nat) (f : Core → Core) : (setCore i f s).drc = s.drc := rfl

@[simp] theorem setTile_pending (t : Nat) (f : Tile → Tile) : (setTile t f s).pending = s.pending := rfl
@[simp] theorem setTile_draws (t : Nat) (f : Tile → Tile) : (setTile t f s).draws = s.draws := rfl
@[simp] theorem setTile_cfg (t : Nat) (f : Tile → Tile) : (setTile t f s).cfg = s.cfg := rfl
@[simp] theorem setTile_nv (t : Nat) (f : Tile → Tile) : (setTile t f s).nv = s.nv := rfl
@[simp] theorem setTile_pwr (t : Nat) (f : Tile → Tile) : (setTile t f s).pwr = s.pwr := rfl
@[simp] theorem setTile_isl (t : Nat) (f : Tile → Tile) : (setTile t f s).isl = s.isl := rfl
@[simp] theorem setTile_wld (t : Nat) (f : Tile → Tile) : (setTile t f s).wld = s.wld := rfl
@[simp] theorem setTile_hlt (t : Nat) (f : Tile → Tile) : (setTile t f s).hlt = s.hlt := rfl
@[simp] theorem setTile_lgb (t : Nat) (f : Tile → Tile) : (setTile t f s).lgb = s.lgb := rfl
@[simp] theorem setTile_mem (t : Nat) (f : Tile → Tile) : (setTile t f s).mem = s.mem := rfl
@[simp] theorem setTile_hperst (t : Nat) (f : Tile → Tile) : (setTile t f s).hperst = s.hperst := rfl
@[simp] theorem setTile_poison (t : Nat) (f : Tile → Tile) : (setTile t f s).poison = s.poison := rfl
@[simp] theorem setTile_keys (t : Nat) (f : Tile → Tile) : (setTile t f s).keys = s.keys := rfl
@[simp] theorem setTile_cores (t : Nat) (f : Tile → Tile) : (setTile t f s).cores = s.cores := rfl
@[simp] theorem setTile_tmErr (t : Nat) (f : Tile → Tile) : (setTile t f s).tmErr = s.tmErr := rfl
@[simp] theorem setTile_ivc (t : Nat) (f : Tile → Tile) : (setTile t f s).ivc = s.ivc := rfl
@[simp] theorem setTile_dbu (t : Nat) (f : Tile → Tile) : (setTile t f s).dbu = s.dbu := rfl
@[simp] theorem setTile_slc (t : Nat) (f : Tile → Tile) : (setTile t f s).slc = s.slc := rfl
@[simp] theorem setTile_cul (t : Nat) (f : Tile → Tile) : (setTile t f s).cul = s.cul := rfl
@[simp] theorem setTile_vif (t : Nat) (f : Tile → Tile) : (setTile t f s).vif = s.vif := rfl
@[simp] theorem setTile_prt (t : Nat) (f : Tile → Tile) : (setTile t f s).prt = s.prt := rfl
@[simp] theorem setTile_answer (t : Nat) (f : Tile → Tile) : (setTile t f s).answer = s.answer := rfl
@[simp] theorem setTile_cht (t : Nat) (f : Tile → Tile) : (setTile t f s).cht = s.cht := rfl
@[simp] theorem setTile_drc (t : Nat) (f : Tile → Tile) : (setTile t f s).drc = s.drc := rfl

@[simp] theorem setTileIsl_pending (t : Nat) (f : TileIsl → TileIsl) : (setTileIsl t f s).pending = s.pending := rfl
@[simp] theorem setTileIsl_draws (t : Nat) (f : TileIsl → TileIsl) : (setTileIsl t f s).draws = s.draws := rfl
@[simp] theorem setTileIsl_cfg (t : Nat) (f : TileIsl → TileIsl) : (setTileIsl t f s).cfg = s.cfg := rfl
@[simp] theorem setTileIsl_nv (t : Nat) (f : TileIsl → TileIsl) : (setTileIsl t f s).nv = s.nv := rfl
@[simp] theorem setTileIsl_pwr (t : Nat) (f : TileIsl → TileIsl) : (setTileIsl t f s).pwr = s.pwr := rfl
@[simp] theorem setTileIsl_wld (t : Nat) (f : TileIsl → TileIsl) : (setTileIsl t f s).wld = s.wld := rfl
@[simp] theorem setTileIsl_hlt (t : Nat) (f : TileIsl → TileIsl) : (setTileIsl t f s).hlt = s.hlt := rfl
@[simp] theorem setTileIsl_lgb (t : Nat) (f : TileIsl → TileIsl) : (setTileIsl t f s).lgb = s.lgb := rfl
@[simp] theorem setTileIsl_mem (t : Nat) (f : TileIsl → TileIsl) : (setTileIsl t f s).mem = s.mem := rfl
@[simp] theorem setTileIsl_hperst (t : Nat) (f : TileIsl → TileIsl) : (setTileIsl t f s).hperst = s.hperst := rfl
@[simp] theorem setTileIsl_poison (t : Nat) (f : TileIsl → TileIsl) : (setTileIsl t f s).poison = s.poison := rfl
@[simp] theorem setTileIsl_keys (t : Nat) (f : TileIsl → TileIsl) : (setTileIsl t f s).keys = s.keys := rfl
@[simp] theorem setTileIsl_cores (t : Nat) (f : TileIsl → TileIsl) : (setTileIsl t f s).cores = s.cores := rfl
@[simp] theorem setTileIsl_tiles (t : Nat) (f : TileIsl → TileIsl) : (setTileIsl t f s).tiles = s.tiles := rfl
@[simp] theorem setTileIsl_tmErr (t : Nat) (f : TileIsl → TileIsl) : (setTileIsl t f s).tmErr = s.tmErr := rfl
@[simp] theorem setTileIsl_ivc (t : Nat) (f : TileIsl → TileIsl) : (setTileIsl t f s).ivc = s.ivc := rfl
@[simp] theorem setTileIsl_dbu (t : Nat) (f : TileIsl → TileIsl) : (setTileIsl t f s).dbu = s.dbu := rfl
@[simp] theorem setTileIsl_slc (t : Nat) (f : TileIsl → TileIsl) : (setTileIsl t f s).slc = s.slc := rfl
@[simp] theorem setTileIsl_cul (t : Nat) (f : TileIsl → TileIsl) : (setTileIsl t f s).cul = s.cul := rfl
@[simp] theorem setTileIsl_vif (t : Nat) (f : TileIsl → TileIsl) : (setTileIsl t f s).vif = s.vif := rfl
@[simp] theorem setTileIsl_prt (t : Nat) (f : TileIsl → TileIsl) : (setTileIsl t f s).prt = s.prt := rfl
@[simp] theorem setTileIsl_answer (t : Nat) (f : TileIsl → TileIsl) : (setTileIsl t f s).answer = s.answer := rfl
@[simp] theorem setTileIsl_cht (t : Nat) (f : TileIsl → TileIsl) : (setTileIsl t f s).cht = s.cht := rfl
@[simp] theorem setTileIsl_drc (t : Nat) (f : TileIsl → TileIsl) : (setTileIsl t f s).drc = s.drc := rfl

@[simp] theorem setVi_pending (v : Nat) (f : Vi → Vi) : (setVi v f s).pending = s.pending := rfl
@[simp] theorem setVi_draws (v : Nat) (f : Vi → Vi) : (setVi v f s).draws = s.draws := rfl
@[simp] theorem setVi_cfg (v : Nat) (f : Vi → Vi) : (setVi v f s).cfg = s.cfg := rfl
@[simp] theorem setVi_nv (v : Nat) (f : Vi → Vi) : (setVi v f s).nv = s.nv := rfl
@[simp] theorem setVi_pwr (v : Nat) (f : Vi → Vi) : (setVi v f s).pwr = s.pwr := rfl
@[simp] theorem setVi_isl (v : Nat) (f : Vi → Vi) : (setVi v f s).isl = s.isl := rfl
@[simp] theorem setVi_wld (v : Nat) (f : Vi → Vi) : (setVi v f s).wld = s.wld := rfl
@[simp] theorem setVi_hlt (v : Nat) (f : Vi → Vi) : (setVi v f s).hlt = s.hlt := rfl
@[simp] theorem setVi_lgb (v : Nat) (f : Vi → Vi) : (setVi v f s).lgb = s.lgb := rfl
@[simp] theorem setVi_mem (v : Nat) (f : Vi → Vi) : (setVi v f s).mem = s.mem := rfl
@[simp] theorem setVi_hperst (v : Nat) (f : Vi → Vi) : (setVi v f s).hperst = s.hperst := rfl
@[simp] theorem setVi_poison (v : Nat) (f : Vi → Vi) : (setVi v f s).poison = s.poison := rfl
@[simp] theorem setVi_keys (v : Nat) (f : Vi → Vi) : (setVi v f s).keys = s.keys := rfl
@[simp] theorem setVi_cores (v : Nat) (f : Vi → Vi) : (setVi v f s).cores = s.cores := rfl
@[simp] theorem setVi_tiles (v : Nat) (f : Vi → Vi) : (setVi v f s).tiles = s.tiles := rfl
@[simp] theorem setVi_tmErr (v : Nat) (f : Vi → Vi) : (setVi v f s).tmErr = s.tmErr := rfl
@[simp] theorem setVi_ivc (v : Nat) (f : Vi → Vi) : (setVi v f s).ivc = s.ivc := rfl
@[simp] theorem setVi_dbu (v : Nat) (f : Vi → Vi) : (setVi v f s).dbu = s.dbu := rfl
@[simp] theorem setVi_slc (v : Nat) (f : Vi → Vi) : (setVi v f s).slc = s.slc := rfl
@[simp] theorem setVi_cul (v : Nat) (f : Vi → Vi) : (setVi v f s).cul = s.cul := rfl
@[simp] theorem setVi_prt (v : Nat) (f : Vi → Vi) : (setVi v f s).prt = s.prt := rfl
@[simp] theorem setVi_answer (v : Nat) (f : Vi → Vi) : (setVi v f s).answer = s.answer := rfl
@[simp] theorem setVi_cht (v : Nat) (f : Vi → Vi) : (setVi v f s).cht = s.cht := rfl
@[simp] theorem setVi_drc (v : Nat) (f : Vi → Vi) : (setVi v f s).drc = s.drc := rfl

@[simp] theorem setPort_pending (p : Nat) (f : Port → Port) : (setPort p f s).pending = s.pending := rfl
@[simp] theorem setPort_draws (p : Nat) (f : Port → Port) : (setPort p f s).draws = s.draws := rfl
@[simp] theorem setPort_cfg (p : Nat) (f : Port → Port) : (setPort p f s).cfg = s.cfg := rfl
@[simp] theorem setPort_nv (p : Nat) (f : Port → Port) : (setPort p f s).nv = s.nv := rfl
@[simp] theorem setPort_pwr (p : Nat) (f : Port → Port) : (setPort p f s).pwr = s.pwr := rfl
@[simp] theorem setPort_isl (p : Nat) (f : Port → Port) : (setPort p f s).isl = s.isl := rfl
@[simp] theorem setPort_wld (p : Nat) (f : Port → Port) : (setPort p f s).wld = s.wld := rfl
@[simp] theorem setPort_hlt (p : Nat) (f : Port → Port) : (setPort p f s).hlt = s.hlt := rfl
@[simp] theorem setPort_lgb (p : Nat) (f : Port → Port) : (setPort p f s).lgb = s.lgb := rfl
@[simp] theorem setPort_mem (p : Nat) (f : Port → Port) : (setPort p f s).mem = s.mem := rfl
@[simp] theorem setPort_hperst (p : Nat) (f : Port → Port) : (setPort p f s).hperst = s.hperst := rfl
@[simp] theorem setPort_poison (p : Nat) (f : Port → Port) : (setPort p f s).poison = s.poison := rfl
@[simp] theorem setPort_keys (p : Nat) (f : Port → Port) : (setPort p f s).keys = s.keys := rfl
@[simp] theorem setPort_cores (p : Nat) (f : Port → Port) : (setPort p f s).cores = s.cores := rfl
@[simp] theorem setPort_tiles (p : Nat) (f : Port → Port) : (setPort p f s).tiles = s.tiles := rfl
@[simp] theorem setPort_tmErr (p : Nat) (f : Port → Port) : (setPort p f s).tmErr = s.tmErr := rfl
@[simp] theorem setPort_ivc (p : Nat) (f : Port → Port) : (setPort p f s).ivc = s.ivc := rfl
@[simp] theorem setPort_dbu (p : Nat) (f : Port → Port) : (setPort p f s).dbu = s.dbu := rfl
@[simp] theorem setPort_slc (p : Nat) (f : Port → Port) : (setPort p f s).slc = s.slc := rfl
@[simp] theorem setPort_cul (p : Nat) (f : Port → Port) : (setPort p f s).cul = s.cul := rfl
@[simp] theorem setPort_vif (p : Nat) (f : Port → Port) : (setPort p f s).vif = s.vif := rfl
@[simp] theorem setPort_answer (p : Nat) (f : Port → Port) : (setPort p f s).answer = s.answer := rfl
@[simp] theorem setPort_cht (p : Nat) (f : Port → Port) : (setPort p f s).cht = s.cht := rfl
@[simp] theorem setPort_drc (p : Nat) (f : Port → Port) : (setPort p f s).drc = s.drc := rfl

@[simp] theorem setQuad_pending (q : Nat) (f : QuadBuf → QuadBuf) : (setQuad q f s).pending = s.pending := rfl
@[simp] theorem setQuad_draws (q : Nat) (f : QuadBuf → QuadBuf) : (setQuad q f s).draws = s.draws := rfl
@[simp] theorem setQuad_cfg (q : Nat) (f : QuadBuf → QuadBuf) : (setQuad q f s).cfg = s.cfg := rfl
@[simp] theorem setQuad_nv (q : Nat) (f : QuadBuf → QuadBuf) : (setQuad q f s).nv = s.nv := rfl
@[simp] theorem setQuad_pwr (q : Nat) (f : QuadBuf → QuadBuf) : (setQuad q f s).pwr = s.pwr := rfl
@[simp] theorem setQuad_isl (q : Nat) (f : QuadBuf → QuadBuf) : (setQuad q f s).isl = s.isl := rfl
@[simp] theorem setQuad_wld (q : Nat) (f : QuadBuf → QuadBuf) : (setQuad q f s).wld = s.wld := rfl
@[simp] theorem setQuad_hlt (q : Nat) (f : QuadBuf → QuadBuf) : (setQuad q f s).hlt = s.hlt := rfl
@[simp] theorem setQuad_lgb (q : Nat) (f : QuadBuf → QuadBuf) : (setQuad q f s).lgb = s.lgb := rfl
@[simp] theorem setQuad_mem (q : Nat) (f : QuadBuf → QuadBuf) : (setQuad q f s).mem = s.mem := rfl
@[simp] theorem setQuad_hperst (q : Nat) (f : QuadBuf → QuadBuf) : (setQuad q f s).hperst = s.hperst := rfl
@[simp] theorem setQuad_poison (q : Nat) (f : QuadBuf → QuadBuf) : (setQuad q f s).poison = s.poison := rfl
@[simp] theorem setQuad_keys (q : Nat) (f : QuadBuf → QuadBuf) : (setQuad q f s).keys = s.keys := rfl
@[simp] theorem setQuad_cores (q : Nat) (f : QuadBuf → QuadBuf) : (setQuad q f s).cores = s.cores := rfl
@[simp] theorem setQuad_tiles (q : Nat) (f : QuadBuf → QuadBuf) : (setQuad q f s).tiles = s.tiles := rfl
@[simp] theorem setQuad_tmErr (q : Nat) (f : QuadBuf → QuadBuf) : (setQuad q f s).tmErr = s.tmErr := rfl
@[simp] theorem setQuad_ivc (q : Nat) (f : QuadBuf → QuadBuf) : (setQuad q f s).ivc = s.ivc := rfl
@[simp] theorem setQuad_dbu (q : Nat) (f : QuadBuf → QuadBuf) : (setQuad q f s).dbu = s.dbu := rfl
@[simp] theorem setQuad_slc (q : Nat) (f : QuadBuf → QuadBuf) : (setQuad q f s).slc = s.slc := rfl
@[simp] theorem setQuad_cul (q : Nat) (f : QuadBuf → QuadBuf) : (setQuad q f s).cul = s.cul := rfl
@[simp] theorem setQuad_vif (q : Nat) (f : QuadBuf → QuadBuf) : (setQuad q f s).vif = s.vif := rfl
@[simp] theorem setQuad_answer (q : Nat) (f : QuadBuf → QuadBuf) : (setQuad q f s).answer = s.answer := rfl
@[simp] theorem setQuad_cht (q : Nat) (f : QuadBuf → QuadBuf) : (setQuad q f s).cht = s.cht := rfl
@[simp] theorem setQuad_drc (q : Nat) (f : QuadBuf → QuadBuf) : (setQuad q f s).drc = s.drc := rfl

@[simp] theorem setGroup_pending (g : Nat) (f : GroupLink → GroupLink) : (setGroup g f s).pending = s.pending := rfl
@[simp] theorem setGroup_draws (g : Nat) (f : GroupLink → GroupLink) : (setGroup g f s).draws = s.draws := rfl
@[simp] theorem setGroup_cfg (g : Nat) (f : GroupLink → GroupLink) : (setGroup g f s).cfg = s.cfg := rfl
@[simp] theorem setGroup_nv (g : Nat) (f : GroupLink → GroupLink) : (setGroup g f s).nv = s.nv := rfl
@[simp] theorem setGroup_pwr (g : Nat) (f : GroupLink → GroupLink) : (setGroup g f s).pwr = s.pwr := rfl
@[simp] theorem setGroup_isl (g : Nat) (f : GroupLink → GroupLink) : (setGroup g f s).isl = s.isl := rfl
@[simp] theorem setGroup_wld (g : Nat) (f : GroupLink → GroupLink) : (setGroup g f s).wld = s.wld := rfl
@[simp] theorem setGroup_hlt (g : Nat) (f : GroupLink → GroupLink) : (setGroup g f s).hlt = s.hlt := rfl
@[simp] theorem setGroup_lgb (g : Nat) (f : GroupLink → GroupLink) : (setGroup g f s).lgb = s.lgb := rfl
@[simp] theorem setGroup_mem (g : Nat) (f : GroupLink → GroupLink) : (setGroup g f s).mem = s.mem := rfl
@[simp] theorem setGroup_hperst (g : Nat) (f : GroupLink → GroupLink) : (setGroup g f s).hperst = s.hperst := rfl
@[simp] theorem setGroup_poison (g : Nat) (f : GroupLink → GroupLink) : (setGroup g f s).poison = s.poison := rfl
@[simp] theorem setGroup_keys (g : Nat) (f : GroupLink → GroupLink) : (setGroup g f s).keys = s.keys := rfl
@[simp] theorem setGroup_cores (g : Nat) (f : GroupLink → GroupLink) : (setGroup g f s).cores = s.cores := rfl
@[simp] theorem setGroup_tiles (g : Nat) (f : GroupLink → GroupLink) : (setGroup g f s).tiles = s.tiles := rfl
@[simp] theorem setGroup_tmErr (g : Nat) (f : GroupLink → GroupLink) : (setGroup g f s).tmErr = s.tmErr := rfl
@[simp] theorem setGroup_ivc (g : Nat) (f : GroupLink → GroupLink) : (setGroup g f s).ivc = s.ivc := rfl
@[simp] theorem setGroup_dbu (g : Nat) (f : GroupLink → GroupLink) : (setGroup g f s).dbu = s.dbu := rfl
@[simp] theorem setGroup_slc (g : Nat) (f : GroupLink → GroupLink) : (setGroup g f s).slc = s.slc := rfl
@[simp] theorem setGroup_cul (g : Nat) (f : GroupLink → GroupLink) : (setGroup g f s).cul = s.cul := rfl
@[simp] theorem setGroup_vif (g : Nat) (f : GroupLink → GroupLink) : (setGroup g f s).vif = s.vif := rfl
@[simp] theorem setGroup_answer (g : Nat) (f : GroupLink → GroupLink) : (setGroup g f s).answer = s.answer := rfl
@[simp] theorem setGroup_cht (g : Nat) (f : GroupLink → GroupLink) : (setGroup g f s).cht = s.cht := rfl
@[simp] theorem setGroup_drc (g : Nat) (f : GroupLink → GroupLink) : (setGroup g f s).drc = s.drc := rfl

@[simp] theorem setSub_pending (u : Nat) (f : SubCh → SubCh) : (setSub u f s).pending = s.pending := rfl
@[simp] theorem setSub_draws (u : Nat) (f : SubCh → SubCh) : (setSub u f s).draws = s.draws := rfl
@[simp] theorem setSub_cfg (u : Nat) (f : SubCh → SubCh) : (setSub u f s).cfg = s.cfg := rfl
@[simp] theorem setSub_nv (u : Nat) (f : SubCh → SubCh) : (setSub u f s).nv = s.nv := rfl
@[simp] theorem setSub_pwr (u : Nat) (f : SubCh → SubCh) : (setSub u f s).pwr = s.pwr := rfl
@[simp] theorem setSub_isl (u : Nat) (f : SubCh → SubCh) : (setSub u f s).isl = s.isl := rfl
@[simp] theorem setSub_wld (u : Nat) (f : SubCh → SubCh) : (setSub u f s).wld = s.wld := rfl
@[simp] theorem setSub_hlt (u : Nat) (f : SubCh → SubCh) : (setSub u f s).hlt = s.hlt := rfl
@[simp] theorem setSub_lgb (u : Nat) (f : SubCh → SubCh) : (setSub u f s).lgb = s.lgb := rfl
@[simp] theorem setSub_mem (u : Nat) (f : SubCh → SubCh) : (setSub u f s).mem = s.mem := rfl
@[simp] theorem setSub_hperst (u : Nat) (f : SubCh → SubCh) : (setSub u f s).hperst = s.hperst := rfl
@[simp] theorem setSub_poison (u : Nat) (f : SubCh → SubCh) : (setSub u f s).poison = s.poison := rfl
@[simp] theorem setSub_keys (u : Nat) (f : SubCh → SubCh) : (setSub u f s).keys = s.keys := rfl
@[simp] theorem setSub_cores (u : Nat) (f : SubCh → SubCh) : (setSub u f s).cores = s.cores := rfl
@[simp] theorem setSub_tiles (u : Nat) (f : SubCh → SubCh) : (setSub u f s).tiles = s.tiles := rfl
@[simp] theorem setSub_tmErr (u : Nat) (f : SubCh → SubCh) : (setSub u f s).tmErr = s.tmErr := rfl
@[simp] theorem setSub_ivc (u : Nat) (f : SubCh → SubCh) : (setSub u f s).ivc = s.ivc := rfl
@[simp] theorem setSub_dbu (u : Nat) (f : SubCh → SubCh) : (setSub u f s).dbu = s.dbu := rfl
@[simp] theorem setSub_slc (u : Nat) (f : SubCh → SubCh) : (setSub u f s).slc = s.slc := rfl
@[simp] theorem setSub_cul (u : Nat) (f : SubCh → SubCh) : (setSub u f s).cul = s.cul := rfl
@[simp] theorem setSub_vif (u : Nat) (f : SubCh → SubCh) : (setSub u f s).vif = s.vif := rfl
@[simp] theorem setSub_prt (u : Nat) (f : SubCh → SubCh) : (setSub u f s).prt = s.prt := rfl
@[simp] theorem setSub_answer (u : Nat) (f : SubCh → SubCh) : (setSub u f s).answer = s.answer := rfl
@[simp] theorem setSub_cht (u : Nat) (f : SubCh → SubCh) : (setSub u f s).cht = s.cht := rfl

@[simp] theorem setChanSt_pending (c : Nat) (f : DChan → DChan) : (setChanSt c f s).pending = s.pending := rfl
@[simp] theorem setChanSt_draws (c : Nat) (f : DChan → DChan) : (setChanSt c f s).draws = s.draws := rfl
@[simp] theorem setChanSt_cfg (c : Nat) (f : DChan → DChan) : (setChanSt c f s).cfg = s.cfg := rfl
@[simp] theorem setChanSt_nv (c : Nat) (f : DChan → DChan) : (setChanSt c f s).nv = s.nv := rfl
@[simp] theorem setChanSt_pwr (c : Nat) (f : DChan → DChan) : (setChanSt c f s).pwr = s.pwr := rfl
@[simp] theorem setChanSt_isl (c : Nat) (f : DChan → DChan) : (setChanSt c f s).isl = s.isl := rfl
@[simp] theorem setChanSt_wld (c : Nat) (f : DChan → DChan) : (setChanSt c f s).wld = s.wld := rfl
@[simp] theorem setChanSt_hlt (c : Nat) (f : DChan → DChan) : (setChanSt c f s).hlt = s.hlt := rfl
@[simp] theorem setChanSt_lgb (c : Nat) (f : DChan → DChan) : (setChanSt c f s).lgb = s.lgb := rfl
@[simp] theorem setChanSt_mem (c : Nat) (f : DChan → DChan) : (setChanSt c f s).mem = s.mem := rfl
@[simp] theorem setChanSt_hperst (c : Nat) (f : DChan → DChan) : (setChanSt c f s).hperst = s.hperst := rfl
@[simp] theorem setChanSt_poison (c : Nat) (f : DChan → DChan) : (setChanSt c f s).poison = s.poison := rfl
@[simp] theorem setChanSt_keys (c : Nat) (f : DChan → DChan) : (setChanSt c f s).keys = s.keys := rfl
@[simp] theorem setChanSt_cores (c : Nat) (f : DChan → DChan) : (setChanSt c f s).cores = s.cores := rfl
@[simp] theorem setChanSt_tiles (c : Nat) (f : DChan → DChan) : (setChanSt c f s).tiles = s.tiles := rfl
@[simp] theorem setChanSt_tmErr (c : Nat) (f : DChan → DChan) : (setChanSt c f s).tmErr = s.tmErr := rfl
@[simp] theorem setChanSt_ivc (c : Nat) (f : DChan → DChan) : (setChanSt c f s).ivc = s.ivc := rfl
@[simp] theorem setChanSt_dbu (c : Nat) (f : DChan → DChan) : (setChanSt c f s).dbu = s.dbu := rfl
@[simp] theorem setChanSt_slc (c : Nat) (f : DChan → DChan) : (setChanSt c f s).slc = s.slc := rfl
@[simp] theorem setChanSt_cul (c : Nat) (f : DChan → DChan) : (setChanSt c f s).cul = s.cul := rfl
@[simp] theorem setChanSt_vif (c : Nat) (f : DChan → DChan) : (setChanSt c f s).vif = s.vif := rfl
@[simp] theorem setChanSt_prt (c : Nat) (f : DChan → DChan) : (setChanSt c f s).prt = s.prt := rfl
@[simp] theorem setChanSt_answer (c : Nat) (f : DChan → DChan) : (setChanSt c f s).answer = s.answer := rfl
@[simp] theorem setChanSt_cht (c : Nat) (f : DChan → DChan) : (setChanSt c f s).cht = s.cht := rfl

@[simp] theorem setCul_pending (c : Nat) (f : Culvert → Culvert) : (setCul c f s).pending = s.pending := rfl
@[simp] theorem setCul_draws (c : Nat) (f : Culvert → Culvert) : (setCul c f s).draws = s.draws := rfl
@[simp] theorem setCul_cfg (c : Nat) (f : Culvert → Culvert) : (setCul c f s).cfg = s.cfg := rfl
@[simp] theorem setCul_nv (c : Nat) (f : Culvert → Culvert) : (setCul c f s).nv = s.nv := rfl
@[simp] theorem setCul_pwr (c : Nat) (f : Culvert → Culvert) : (setCul c f s).pwr = s.pwr := rfl
@[simp] theorem setCul_isl (c : Nat) (f : Culvert → Culvert) : (setCul c f s).isl = s.isl := rfl
@[simp] theorem setCul_wld (c : Nat) (f : Culvert → Culvert) : (setCul c f s).wld = s.wld := rfl
@[simp] theorem setCul_hlt (c : Nat) (f : Culvert → Culvert) : (setCul c f s).hlt = s.hlt := rfl
@[simp] theorem setCul_lgb (c : Nat) (f : Culvert → Culvert) : (setCul c f s).lgb = s.lgb := rfl
@[simp] theorem setCul_mem (c : Nat) (f : Culvert → Culvert) : (setCul c f s).mem = s.mem := rfl
@[simp] theorem setCul_hperst (c : Nat) (f : Culvert → Culvert) : (setCul c f s).hperst = s.hperst := rfl
@[simp] theorem setCul_poison (c : Nat) (f : Culvert → Culvert) : (setCul c f s).poison = s.poison := rfl
@[simp] theorem setCul_keys (c : Nat) (f : Culvert → Culvert) : (setCul c f s).keys = s.keys := rfl
@[simp] theorem setCul_cores (c : Nat) (f : Culvert → Culvert) : (setCul c f s).cores = s.cores := rfl
@[simp] theorem setCul_tiles (c : Nat) (f : Culvert → Culvert) : (setCul c f s).tiles = s.tiles := rfl
@[simp] theorem setCul_tmErr (c : Nat) (f : Culvert → Culvert) : (setCul c f s).tmErr = s.tmErr := rfl
@[simp] theorem setCul_ivc (c : Nat) (f : Culvert → Culvert) : (setCul c f s).ivc = s.ivc := rfl
@[simp] theorem setCul_dbu (c : Nat) (f : Culvert → Culvert) : (setCul c f s).dbu = s.dbu := rfl
@[simp] theorem setCul_slc (c : Nat) (f : Culvert → Culvert) : (setCul c f s).slc = s.slc := rfl
@[simp] theorem setCul_vif (c : Nat) (f : Culvert → Culvert) : (setCul c f s).vif = s.vif := rfl
@[simp] theorem setCul_prt (c : Nat) (f : Culvert → Culvert) : (setCul c f s).prt = s.prt := rfl
@[simp] theorem setCul_answer (c : Nat) (f : Culvert → Culvert) : (setCul c f s).answer = s.answer := rfl
@[simp] theorem setCul_cht (c : Nat) (f : Culvert → Culvert) : (setCul c f s).cht = s.cht := rfl
@[simp] theorem setCul_drc (c : Nat) (f : Culvert → Culvert) : (setCul c f s).drc = s.drc := rfl

@[simp] theorem setQ_pending (q : Nat) (f : QState → QState) : (setQ q f s).pending = s.pending := rfl
@[simp] theorem setQ_draws (q : Nat) (f : QState → QState) : (setQ q f s).draws = s.draws := rfl
@[simp] theorem setQ_cfg (q : Nat) (f : QState → QState) : (setQ q f s).cfg = s.cfg := rfl
@[simp] theorem setQ_nv (q : Nat) (f : QState → QState) : (setQ q f s).nv = s.nv := rfl
@[simp] theorem setQ_pwr (q : Nat) (f : QState → QState) : (setQ q f s).pwr = s.pwr := rfl
@[simp] theorem setQ_isl (q : Nat) (f : QState → QState) : (setQ q f s).isl = s.isl := rfl
@[simp] theorem setQ_wld (q : Nat) (f : QState → QState) : (setQ q f s).wld = s.wld := rfl
@[simp] theorem setQ_hlt (q : Nat) (f : QState → QState) : (setQ q f s).hlt = s.hlt := rfl
@[simp] theorem setQ_lgb (q : Nat) (f : QState → QState) : (setQ q f s).lgb = s.lgb := rfl
@[simp] theorem setQ_mem (q : Nat) (f : QState → QState) : (setQ q f s).mem = s.mem := rfl
@[simp] theorem setQ_hperst (q : Nat) (f : QState → QState) : (setQ q f s).hperst = s.hperst := rfl
@[simp] theorem setQ_poison (q : Nat) (f : QState → QState) : (setQ q f s).poison = s.poison := rfl
@[simp] theorem setQ_keys (q : Nat) (f : QState → QState) : (setQ q f s).keys = s.keys := rfl
@[simp] theorem setQ_cores (q : Nat) (f : QState → QState) : (setQ q f s).cores = s.cores := rfl
@[simp] theorem setQ_tiles (q : Nat) (f : QState → QState) : (setQ q f s).tiles = s.tiles := rfl
@[simp] theorem setQ_tmErr (q : Nat) (f : QState → QState) : (setQ q f s).tmErr = s.tmErr := rfl
@[simp] theorem setQ_ivc (q : Nat) (f : QState → QState) : (setQ q f s).ivc = s.ivc := rfl
@[simp] theorem setQ_dbu (q : Nat) (f : QState → QState) : (setQ q f s).dbu = s.dbu := rfl
@[simp] theorem setQ_cul (q : Nat) (f : QState → QState) : (setQ q f s).cul = s.cul := rfl
@[simp] theorem setQ_vif (q : Nat) (f : QState → QState) : (setQ q f s).vif = s.vif := rfl
@[simp] theorem setQ_prt (q : Nat) (f : QState → QState) : (setQ q f s).prt = s.prt := rfl
@[simp] theorem setQ_answer (q : Nat) (f : QState → QState) : (setQ q f s).answer = s.answer := rfl
@[simp] theorem setQ_cht (q : Nat) (f : QState → QState) : (setQ q f s).cht = s.cht := rfl
@[simp] theorem setQ_drc (q : Nat) (f : QState → QState) : (setQ q f s).drc = s.drc := rfl

@[simp] theorem setDitch_pending (d : Nat) (f : Ditch → Ditch) : (setDitch d f s).pending = s.pending := rfl
@[simp] theorem setDitch_draws (d : Nat) (f : Ditch → Ditch) : (setDitch d f s).draws = s.draws := rfl
@[simp] theorem setDitch_cfg (d : Nat) (f : Ditch → Ditch) : (setDitch d f s).cfg = s.cfg := rfl
@[simp] theorem setDitch_nv (d : Nat) (f : Ditch → Ditch) : (setDitch d f s).nv = s.nv := rfl
@[simp] theorem setDitch_pwr (d : Nat) (f : Ditch → Ditch) : (setDitch d f s).pwr = s.pwr := rfl
@[simp] theorem setDitch_isl (d : Nat) (f : Ditch → Ditch) : (setDitch d f s).isl = s.isl := rfl
@[simp] theorem setDitch_wld (d : Nat) (f : Ditch → Ditch) : (setDitch d f s).wld = s.wld := rfl
@[simp] theorem setDitch_hlt (d : Nat) (f : Ditch → Ditch) : (setDitch d f s).hlt = s.hlt := rfl
@[simp] theorem setDitch_lgb (d : Nat) (f : Ditch → Ditch) : (setDitch d f s).lgb = s.lgb := rfl
@[simp] theorem setDitch_mem (d : Nat) (f : Ditch → Ditch) : (setDitch d f s).mem = s.mem := rfl
@[simp] theorem setDitch_hperst (d : Nat) (f : Ditch → Ditch) : (setDitch d f s).hperst = s.hperst := rfl
@[simp] theorem setDitch_poison (d : Nat) (f : Ditch → Ditch) : (setDitch d f s).poison = s.poison := rfl
@[simp] theorem setDitch_keys (d : Nat) (f : Ditch → Ditch) : (setDitch d f s).keys = s.keys := rfl
@[simp] theorem setDitch_cores (d : Nat) (f : Ditch → Ditch) : (setDitch d f s).cores = s.cores := rfl
@[simp] theorem setDitch_tiles (d : Nat) (f : Ditch → Ditch) : (setDitch d f s).tiles = s.tiles := rfl
@[simp] theorem setDitch_tmErr (d : Nat) (f : Ditch → Ditch) : (setDitch d f s).tmErr = s.tmErr := rfl
@[simp] theorem setDitch_ivc (d : Nat) (f : Ditch → Ditch) : (setDitch d f s).ivc = s.ivc := rfl
@[simp] theorem setDitch_dbu (d : Nat) (f : Ditch → Ditch) : (setDitch d f s).dbu = s.dbu := rfl
@[simp] theorem setDitch_cul (d : Nat) (f : Ditch → Ditch) : (setDitch d f s).cul = s.cul := rfl
@[simp] theorem setDitch_vif (d : Nat) (f : Ditch → Ditch) : (setDitch d f s).vif = s.vif := rfl
@[simp] theorem setDitch_prt (d : Nat) (f : Ditch → Ditch) : (setDitch d f s).prt = s.prt := rfl
@[simp] theorem setDitch_answer (d : Nat) (f : Ditch → Ditch) : (setDitch d f s).answer = s.answer := rfl
@[simp] theorem setDitch_cht (d : Nat) (f : Ditch → Ditch) : (setDitch d f s).cht = s.cht := rfl
@[simp] theorem setDitch_drc (d : Nat) (f : Ditch → Ditch) : (setDitch d f s).drc = s.drc := rfl

@[simp] theorem setSrc_pending (n : Nat) (f : SrcState → SrcState) : (setSrc n f s).pending = s.pending := rfl
@[simp] theorem setSrc_draws (n : Nat) (f : SrcState → SrcState) : (setSrc n f s).draws = s.draws := rfl
@[simp] theorem setSrc_cfg (n : Nat) (f : SrcState → SrcState) : (setSrc n f s).cfg = s.cfg := rfl
@[simp] theorem setSrc_nv (n : Nat) (f : SrcState → SrcState) : (setSrc n f s).nv = s.nv := rfl
@[simp] theorem setSrc_pwr (n : Nat) (f : SrcState → SrcState) : (setSrc n f s).pwr = s.pwr := rfl
@[simp] theorem setSrc_isl (n : Nat) (f : SrcState → SrcState) : (setSrc n f s).isl = s.isl := rfl
@[simp] theorem setSrc_wld (n : Nat) (f : SrcState → SrcState) : (setSrc n f s).wld = s.wld := rfl
@[simp] theorem setSrc_hlt (n : Nat) (f : SrcState → SrcState) : (setSrc n f s).hlt = s.hlt := rfl
@[simp] theorem setSrc_lgb (n : Nat) (f : SrcState → SrcState) : (setSrc n f s).lgb = s.lgb := rfl
@[simp] theorem setSrc_mem (n : Nat) (f : SrcState → SrcState) : (setSrc n f s).mem = s.mem := rfl
@[simp] theorem setSrc_hperst (n : Nat) (f : SrcState → SrcState) : (setSrc n f s).hperst = s.hperst := rfl
@[simp] theorem setSrc_poison (n : Nat) (f : SrcState → SrcState) : (setSrc n f s).poison = s.poison := rfl
@[simp] theorem setSrc_keys (n : Nat) (f : SrcState → SrcState) : (setSrc n f s).keys = s.keys := rfl
@[simp] theorem setSrc_cores (n : Nat) (f : SrcState → SrcState) : (setSrc n f s).cores = s.cores := rfl
@[simp] theorem setSrc_tiles (n : Nat) (f : SrcState → SrcState) : (setSrc n f s).tiles = s.tiles := rfl
@[simp] theorem setSrc_tmErr (n : Nat) (f : SrcState → SrcState) : (setSrc n f s).tmErr = s.tmErr := rfl
@[simp] theorem setSrc_dbu (n : Nat) (f : SrcState → SrcState) : (setSrc n f s).dbu = s.dbu := rfl
@[simp] theorem setSrc_slc (n : Nat) (f : SrcState → SrcState) : (setSrc n f s).slc = s.slc := rfl
@[simp] theorem setSrc_cul (n : Nat) (f : SrcState → SrcState) : (setSrc n f s).cul = s.cul := rfl
@[simp] theorem setSrc_vif (n : Nat) (f : SrcState → SrcState) : (setSrc n f s).vif = s.vif := rfl
@[simp] theorem setSrc_prt (n : Nat) (f : SrcState → SrcState) : (setSrc n f s).prt = s.prt := rfl
@[simp] theorem setSrc_answer (n : Nat) (f : SrcState → SrcState) : (setSrc n f s).answer = s.answer := rfl
@[simp] theorem setSrc_cht (n : Nat) (f : SrcState → SrcState) : (setSrc n f s).cht = s.cht := rfl
@[simp] theorem setSrc_drc (n : Nat) (f : SrcState → SrcState) : (setSrc n f s).drc = s.drc := rfl

@[simp] theorem setCht_pending (f : Chart → Chart) : (setCht f s).pending = s.pending := rfl
@[simp] theorem setCht_draws (f : Chart → Chart) : (setCht f s).draws = s.draws := rfl
@[simp] theorem setCht_cfg (f : Chart → Chart) : (setCht f s).cfg = s.cfg := rfl
@[simp] theorem setCht_nv (f : Chart → Chart) : (setCht f s).nv = s.nv := rfl
@[simp] theorem setCht_pwr (f : Chart → Chart) : (setCht f s).pwr = s.pwr := rfl
@[simp] theorem setCht_isl (f : Chart → Chart) : (setCht f s).isl = s.isl := rfl
@[simp] theorem setCht_wld (f : Chart → Chart) : (setCht f s).wld = s.wld := rfl
@[simp] theorem setCht_hlt (f : Chart → Chart) : (setCht f s).hlt = s.hlt := rfl
@[simp] theorem setCht_lgb (f : Chart → Chart) : (setCht f s).lgb = s.lgb := rfl
@[simp] theorem setCht_mem (f : Chart → Chart) : (setCht f s).mem = s.mem := rfl
@[simp] theorem setCht_hperst (f : Chart → Chart) : (setCht f s).hperst = s.hperst := rfl
@[simp] theorem setCht_poison (f : Chart → Chart) : (setCht f s).poison = s.poison := rfl
@[simp] theorem setCht_keys (f : Chart → Chart) : (setCht f s).keys = s.keys := rfl
@[simp] theorem setCht_cores (f : Chart → Chart) : (setCht f s).cores = s.cores := rfl
@[simp] theorem setCht_tiles (f : Chart → Chart) : (setCht f s).tiles = s.tiles := rfl
@[simp] theorem setCht_tmErr (f : Chart → Chart) : (setCht f s).tmErr = s.tmErr := rfl
@[simp] theorem setCht_ivc (f : Chart → Chart) : (setCht f s).ivc = s.ivc := rfl
@[simp] theorem setCht_dbu (f : Chart → Chart) : (setCht f s).dbu = s.dbu := rfl
@[simp] theorem setCht_slc (f : Chart → Chart) : (setCht f s).slc = s.slc := rfl
@[simp] theorem setCht_cul (f : Chart → Chart) : (setCht f s).cul = s.cul := rfl
@[simp] theorem setCht_vif (f : Chart → Chart) : (setCht f s).vif = s.vif := rfl
@[simp] theorem setCht_prt (f : Chart → Chart) : (setCht f s).prt = s.prt := rfl
@[simp] theorem setCht_answer (f : Chart → Chart) : (setCht f s).answer = s.answer := rfl
@[simp] theorem setCht_drc (f : Chart → Chart) : (setCht f s).drc = s.drc := rfl

@[simp] theorem setDbu_pending (f : DebugUnit → DebugUnit) : (setDbu f s).pending = s.pending := rfl
@[simp] theorem setDbu_draws (f : DebugUnit → DebugUnit) : (setDbu f s).draws = s.draws := rfl
@[simp] theorem setDbu_cfg (f : DebugUnit → DebugUnit) : (setDbu f s).cfg = s.cfg := rfl
@[simp] theorem setDbu_nv (f : DebugUnit → DebugUnit) : (setDbu f s).nv = s.nv := rfl
@[simp] theorem setDbu_pwr (f : DebugUnit → DebugUnit) : (setDbu f s).pwr = s.pwr := rfl
@[simp] theorem setDbu_isl (f : DebugUnit → DebugUnit) : (setDbu f s).isl = s.isl := rfl
@[simp] theorem setDbu_wld (f : DebugUnit → DebugUnit) : (setDbu f s).wld = s.wld := rfl
@[simp] theorem setDbu_hlt (f : DebugUnit → DebugUnit) : (setDbu f s).hlt = s.hlt := rfl
@[simp] theorem setDbu_lgb (f : DebugUnit → DebugUnit) : (setDbu f s).lgb = s.lgb := rfl
@[simp] theorem setDbu_mem (f : DebugUnit → DebugUnit) : (setDbu f s).mem = s.mem := rfl
@[simp] theorem setDbu_hperst (f : DebugUnit → DebugUnit) : (setDbu f s).hperst = s.hperst := rfl
@[simp] theorem setDbu_poison (f : DebugUnit → DebugUnit) : (setDbu f s).poison = s.poison := rfl
@[simp] theorem setDbu_keys (f : DebugUnit → DebugUnit) : (setDbu f s).keys = s.keys := rfl
@[simp] theorem setDbu_cores (f : DebugUnit → DebugUnit) : (setDbu f s).cores = s.cores := rfl
@[simp] theorem setDbu_tiles (f : DebugUnit → DebugUnit) : (setDbu f s).tiles = s.tiles := rfl
@[simp] theorem setDbu_tmErr (f : DebugUnit → DebugUnit) : (setDbu f s).tmErr = s.tmErr := rfl
@[simp] theorem setDbu_ivc (f : DebugUnit → DebugUnit) : (setDbu f s).ivc = s.ivc := rfl
@[simp] theorem setDbu_slc (f : DebugUnit → DebugUnit) : (setDbu f s).slc = s.slc := rfl
@[simp] theorem setDbu_cul (f : DebugUnit → DebugUnit) : (setDbu f s).cul = s.cul := rfl
@[simp] theorem setDbu_vif (f : DebugUnit → DebugUnit) : (setDbu f s).vif = s.vif := rfl
@[simp] theorem setDbu_prt (f : DebugUnit → DebugUnit) : (setDbu f s).prt = s.prt := rfl
@[simp] theorem setDbu_answer (f : DebugUnit → DebugUnit) : (setDbu f s).answer = s.answer := rfl
@[simp] theorem setDbu_cht (f : DebugUnit → DebugUnit) : (setDbu f s).cht = s.cht := rfl
@[simp] theorem setDbu_drc (f : DebugUnit → DebugUnit) : (setDbu f s).drc = s.drc := rfl

@[simp] theorem ringDoorbell_pending (n c : Nat) (b : Bool) : (ringDoorbell n c b s).pending = s.pending := rfl
@[simp] theorem ringDoorbell_draws (n c : Nat) (b : Bool) : (ringDoorbell n c b s).draws = s.draws := rfl
@[simp] theorem ringDoorbell_cfg (n c : Nat) (b : Bool) : (ringDoorbell n c b s).cfg = s.cfg := rfl
@[simp] theorem ringDoorbell_nv (n c : Nat) (b : Bool) : (ringDoorbell n c b s).nv = s.nv := rfl
@[simp] theorem ringDoorbell_pwr (n c : Nat) (b : Bool) : (ringDoorbell n c b s).pwr = s.pwr := rfl
@[simp] theorem ringDoorbell_isl (n c : Nat) (b : Bool) : (ringDoorbell n c b s).isl = s.isl := rfl
@[simp] theorem ringDoorbell_wld (n c : Nat) (b : Bool) : (ringDoorbell n c b s).wld = s.wld := rfl
@[simp] theorem ringDoorbell_hlt (n c : Nat) (b : Bool) : (ringDoorbell n c b s).hlt = s.hlt := rfl
@[simp] theorem ringDoorbell_lgb (n c : Nat) (b : Bool) : (ringDoorbell n c b s).lgb = s.lgb := rfl
@[simp] theorem ringDoorbell_mem (n c : Nat) (b : Bool) : (ringDoorbell n c b s).mem = s.mem := rfl
@[simp] theorem ringDoorbell_hperst (n c : Nat) (b : Bool) : (ringDoorbell n c b s).hperst = s.hperst := rfl
@[simp] theorem ringDoorbell_poison (n c : Nat) (b : Bool) : (ringDoorbell n c b s).poison = s.poison := rfl
@[simp] theorem ringDoorbell_keys (n c : Nat) (b : Bool) : (ringDoorbell n c b s).keys = s.keys := rfl
@[simp] theorem ringDoorbell_cores (n c : Nat) (b : Bool) : (ringDoorbell n c b s).cores = s.cores := rfl
@[simp] theorem ringDoorbell_tiles (n c : Nat) (b : Bool) : (ringDoorbell n c b s).tiles = s.tiles := rfl
@[simp] theorem ringDoorbell_tmErr (n c : Nat) (b : Bool) : (ringDoorbell n c b s).tmErr = s.tmErr := rfl
@[simp] theorem ringDoorbell_dbu (n c : Nat) (b : Bool) : (ringDoorbell n c b s).dbu = s.dbu := rfl
@[simp] theorem ringDoorbell_slc (n c : Nat) (b : Bool) : (ringDoorbell n c b s).slc = s.slc := rfl
@[simp] theorem ringDoorbell_cul (n c : Nat) (b : Bool) : (ringDoorbell n c b s).cul = s.cul := rfl
@[simp] theorem ringDoorbell_vif (n c : Nat) (b : Bool) : (ringDoorbell n c b s).vif = s.vif := rfl
@[simp] theorem ringDoorbell_prt (n c : Nat) (b : Bool) : (ringDoorbell n c b s).prt = s.prt := rfl
@[simp] theorem ringDoorbell_answer (n c : Nat) (b : Bool) : (ringDoorbell n c b s).answer = s.answer := rfl
@[simp] theorem ringDoorbell_cht (n c : Nat) (b : Bool) : (ringDoorbell n c b s).cht = s.cht := rfl
@[simp] theorem ringDoorbell_drc (n c : Nat) (b : Bool) : (ringDoorbell n c b s).drc = s.drc := rfl

@[simp] theorem reachTime_pending (t : Nat) : (reachTime t s).pending = s.pending := rfl
@[simp] theorem reachTime_draws (t : Nat) : (reachTime t s).draws = s.draws := rfl
@[simp] theorem reachTime_cfg (t : Nat) : (reachTime t s).cfg = s.cfg := rfl
@[simp] theorem reachTime_nv (t : Nat) : (reachTime t s).nv = s.nv := rfl
@[simp] theorem reachTime_pwr (t : Nat) : (reachTime t s).pwr = s.pwr := rfl
@[simp] theorem reachTime_wld (t : Nat) : (reachTime t s).wld = s.wld := rfl
@[simp] theorem reachTime_hlt (t : Nat) : (reachTime t s).hlt = s.hlt := rfl
@[simp] theorem reachTime_lgb (t : Nat) : (reachTime t s).lgb = s.lgb := rfl
@[simp] theorem reachTime_mem (t : Nat) : (reachTime t s).mem = s.mem := rfl
@[simp] theorem reachTime_hperst (t : Nat) : (reachTime t s).hperst = s.hperst := rfl
@[simp] theorem reachTime_poison (t : Nat) : (reachTime t s).poison = s.poison := rfl
@[simp] theorem reachTime_keys (t : Nat) : (reachTime t s).keys = s.keys := rfl
@[simp] theorem reachTime_cores (t : Nat) : (reachTime t s).cores = s.cores := rfl
@[simp] theorem reachTime_tiles (t : Nat) : (reachTime t s).tiles = s.tiles := rfl
@[simp] theorem reachTime_tmErr (t : Nat) : (reachTime t s).tmErr = s.tmErr := rfl
@[simp] theorem reachTime_ivc (t : Nat) : (reachTime t s).ivc = s.ivc := rfl
@[simp] theorem reachTime_dbu (t : Nat) : (reachTime t s).dbu = s.dbu := rfl
@[simp] theorem reachTime_slc (t : Nat) : (reachTime t s).slc = s.slc := rfl
@[simp] theorem reachTime_cul (t : Nat) : (reachTime t s).cul = s.cul := rfl
@[simp] theorem reachTime_vif (t : Nat) : (reachTime t s).vif = s.vif := rfl
@[simp] theorem reachTime_prt (t : Nat) : (reachTime t s).prt = s.prt := rfl
@[simp] theorem reachTime_answer (t : Nat) : (reachTime t s).answer = s.answer := rfl
@[simp] theorem reachTime_cht (t : Nat) : (reachTime t s).cht = s.cht := rfl
@[simp] theorem reachTime_drc (t : Nat) : (reachTime t s).drc = s.drc := rfl

@[simp] theorem bindAll_pending (ls : List BLine) : (bindAll ls s).pending = s.pending := rfl
@[simp] theorem bindAll_draws (ls : List BLine) : (bindAll ls s).draws = s.draws := rfl
@[simp] theorem bindAll_cfg (ls : List BLine) : (bindAll ls s).cfg = s.cfg := rfl
@[simp] theorem bindAll_nv (ls : List BLine) : (bindAll ls s).nv = s.nv := rfl
@[simp] theorem bindAll_pwr (ls : List BLine) : (bindAll ls s).pwr = s.pwr := rfl
@[simp] theorem bindAll_isl (ls : List BLine) : (bindAll ls s).isl = s.isl := rfl
@[simp] theorem bindAll_wld (ls : List BLine) : (bindAll ls s).wld = s.wld := rfl
@[simp] theorem bindAll_hlt (ls : List BLine) : (bindAll ls s).hlt = s.hlt := rfl
@[simp] theorem bindAll_lgb (ls : List BLine) : (bindAll ls s).lgb = s.lgb := rfl
@[simp] theorem bindAll_mem (ls : List BLine) : (bindAll ls s).mem = s.mem := rfl
@[simp] theorem bindAll_hperst (ls : List BLine) : (bindAll ls s).hperst = s.hperst := rfl
@[simp] theorem bindAll_poison (ls : List BLine) : (bindAll ls s).poison = s.poison := rfl
@[simp] theorem bindAll_keys (ls : List BLine) : (bindAll ls s).keys = s.keys := rfl
@[simp] theorem bindAll_cores (ls : List BLine) : (bindAll ls s).cores = s.cores := rfl
@[simp] theorem bindAll_tiles (ls : List BLine) : (bindAll ls s).tiles = s.tiles := rfl
@[simp] theorem bindAll_tmErr (ls : List BLine) : (bindAll ls s).tmErr = s.tmErr := rfl
@[simp] theorem bindAll_ivc (ls : List BLine) : (bindAll ls s).ivc = s.ivc := rfl
@[simp] theorem bindAll_dbu (ls : List BLine) : (bindAll ls s).dbu = s.dbu := rfl
@[simp] theorem bindAll_cul (ls : List BLine) : (bindAll ls s).cul = s.cul := rfl
@[simp] theorem bindAll_vif (ls : List BLine) : (bindAll ls s).vif = s.vif := rfl
@[simp] theorem bindAll_prt (ls : List BLine) : (bindAll ls s).prt = s.prt := rfl
@[simp] theorem bindAll_answer (ls : List BLine) : (bindAll ls s).answer = s.answer := rfl
@[simp] theorem bindAll_cht (ls : List BLine) : (bindAll ls s).cht = s.cht := rfl
@[simp] theorem bindAll_drc (ls : List BLine) : (bindAll ls s).drc = s.drc := rfl

@[simp] theorem unbind_pending (c : Cargo) : (unbind c s).pending = s.pending := rfl
@[simp] theorem unbind_draws (c : Cargo) : (unbind c s).draws = s.draws := rfl
@[simp] theorem unbind_cfg (c : Cargo) : (unbind c s).cfg = s.cfg := rfl
@[simp] theorem unbind_nv (c : Cargo) : (unbind c s).nv = s.nv := rfl
@[simp] theorem unbind_pwr (c : Cargo) : (unbind c s).pwr = s.pwr := rfl
@[simp] theorem unbind_isl (c : Cargo) : (unbind c s).isl = s.isl := rfl
@[simp] theorem unbind_wld (c : Cargo) : (unbind c s).wld = s.wld := rfl
@[simp] theorem unbind_hlt (c : Cargo) : (unbind c s).hlt = s.hlt := rfl
@[simp] theorem unbind_lgb (c : Cargo) : (unbind c s).lgb = s.lgb := rfl
@[simp] theorem unbind_mem (c : Cargo) : (unbind c s).mem = s.mem := rfl
@[simp] theorem unbind_hperst (c : Cargo) : (unbind c s).hperst = s.hperst := rfl
@[simp] theorem unbind_poison (c : Cargo) : (unbind c s).poison = s.poison := rfl
@[simp] theorem unbind_keys (c : Cargo) : (unbind c s).keys = s.keys := rfl
@[simp] theorem unbind_cores (c : Cargo) : (unbind c s).cores = s.cores := rfl
@[simp] theorem unbind_tiles (c : Cargo) : (unbind c s).tiles = s.tiles := rfl
@[simp] theorem unbind_tmErr (c : Cargo) : (unbind c s).tmErr = s.tmErr := rfl
@[simp] theorem unbind_ivc (c : Cargo) : (unbind c s).ivc = s.ivc := rfl
@[simp] theorem unbind_dbu (c : Cargo) : (unbind c s).dbu = s.dbu := rfl
@[simp] theorem unbind_cul (c : Cargo) : (unbind c s).cul = s.cul := rfl
@[simp] theorem unbind_vif (c : Cargo) : (unbind c s).vif = s.vif := rfl
@[simp] theorem unbind_prt (c : Cargo) : (unbind c s).prt = s.prt := rfl
@[simp] theorem unbind_answer (c : Cargo) : (unbind c s).answer = s.answer := rfl
@[simp] theorem unbind_cht (c : Cargo) : (unbind c s).cht = s.cht := rfl
@[simp] theorem unbind_drc (c : Cargo) : (unbind c s).drc = s.drc := rfl

@[simp] theorem spend_pending (d : Nat) : (spend d s).pending = s.pending := rfl
@[simp] theorem spend_draws (d : Nat) : (spend d s).draws = s.draws := rfl
@[simp] theorem spend_cfg (d : Nat) : (spend d s).cfg = s.cfg := rfl
@[simp] theorem spend_nv (d : Nat) : (spend d s).nv = s.nv := rfl
@[simp] theorem spend_pwr (d : Nat) : (spend d s).pwr = s.pwr := rfl
@[simp] theorem spend_isl (d : Nat) : (spend d s).isl = s.isl := rfl
@[simp] theorem spend_wld (d : Nat) : (spend d s).wld = s.wld := rfl
@[simp] theorem spend_hlt (d : Nat) : (spend d s).hlt = s.hlt := rfl
@[simp] theorem spend_lgb (d : Nat) : (spend d s).lgb = s.lgb := rfl
@[simp] theorem spend_mem (d : Nat) : (spend d s).mem = s.mem := rfl
@[simp] theorem spend_hperst (d : Nat) : (spend d s).hperst = s.hperst := rfl
@[simp] theorem spend_poison (d : Nat) : (spend d s).poison = s.poison := rfl
@[simp] theorem spend_keys (d : Nat) : (spend d s).keys = s.keys := rfl
@[simp] theorem spend_cores (d : Nat) : (spend d s).cores = s.cores := rfl
@[simp] theorem spend_tiles (d : Nat) : (spend d s).tiles = s.tiles := rfl
@[simp] theorem spend_tmErr (d : Nat) : (spend d s).tmErr = s.tmErr := rfl
@[simp] theorem spend_ivc (d : Nat) : (spend d s).ivc = s.ivc := rfl
@[simp] theorem spend_dbu (d : Nat) : (spend d s).dbu = s.dbu := rfl
@[simp] theorem spend_cul (d : Nat) : (spend d s).cul = s.cul := rfl
@[simp] theorem spend_vif (d : Nat) : (spend d s).vif = s.vif := rfl
@[simp] theorem spend_prt (d : Nat) : (spend d s).prt = s.prt := rfl
@[simp] theorem spend_answer (d : Nat) : (spend d s).answer = s.answer := rfl
@[simp] theorem spend_cht (d : Nat) : (spend d s).cht = s.cht := rfl
@[simp] theorem spend_drc (d : Nat) : (spend d s).drc = s.drc := rfl

@[simp] theorem offered_pending : (offered s).pending = s.pending := rfl
@[simp] theorem offered_draws : (offered s).draws = s.draws := rfl
@[simp] theorem offered_cfg : (offered s).cfg = s.cfg := rfl
@[simp] theorem offered_nv : (offered s).nv = s.nv := rfl
@[simp] theorem offered_pwr : (offered s).pwr = s.pwr := rfl
@[simp] theorem offered_isl : (offered s).isl = s.isl := rfl
@[simp] theorem offered_wld : (offered s).wld = s.wld := rfl
@[simp] theorem offered_hlt : (offered s).hlt = s.hlt := rfl
@[simp] theorem offered_lgb : (offered s).lgb = s.lgb := rfl
@[simp] theorem offered_mem : (offered s).mem = s.mem := rfl
@[simp] theorem offered_hperst : (offered s).hperst = s.hperst := rfl
@[simp] theorem offered_poison : (offered s).poison = s.poison := rfl
@[simp] theorem offered_keys : (offered s).keys = s.keys := rfl
@[simp] theorem offered_cores : (offered s).cores = s.cores := rfl
@[simp] theorem offered_tiles : (offered s).tiles = s.tiles := rfl
@[simp] theorem offered_tmErr : (offered s).tmErr = s.tmErr := rfl
@[simp] theorem offered_ivc : (offered s).ivc = s.ivc := rfl
@[simp] theorem offered_dbu : (offered s).dbu = s.dbu := rfl
@[simp] theorem offered_cul : (offered s).cul = s.cul := rfl
@[simp] theorem offered_vif : (offered s).vif = s.vif := rfl
@[simp] theorem offered_prt : (offered s).prt = s.prt := rfl
@[simp] theorem offered_answer : (offered s).answer = s.answer := rfl
@[simp] theorem offered_cht : (offered s).cht = s.cht := rfl
@[simp] theorem offered_drc : (offered s).drc = s.drc := rfl

@[simp] theorem carried_pending : (carried s).pending = s.pending := rfl
@[simp] theorem carried_draws : (carried s).draws = s.draws := rfl
@[simp] theorem carried_cfg : (carried s).cfg = s.cfg := rfl
@[simp] theorem carried_nv : (carried s).nv = s.nv := rfl
@[simp] theorem carried_pwr : (carried s).pwr = s.pwr := rfl
@[simp] theorem carried_isl : (carried s).isl = s.isl := rfl
@[simp] theorem carried_wld : (carried s).wld = s.wld := rfl
@[simp] theorem carried_hlt : (carried s).hlt = s.hlt := rfl
@[simp] theorem carried_lgb : (carried s).lgb = s.lgb := rfl
@[simp] theorem carried_mem : (carried s).mem = s.mem := rfl
@[simp] theorem carried_hperst : (carried s).hperst = s.hperst := rfl
@[simp] theorem carried_poison : (carried s).poison = s.poison := rfl
@[simp] theorem carried_keys : (carried s).keys = s.keys := rfl
@[simp] theorem carried_cores : (carried s).cores = s.cores := rfl
@[simp] theorem carried_tiles : (carried s).tiles = s.tiles := rfl
@[simp] theorem carried_tmErr : (carried s).tmErr = s.tmErr := rfl
@[simp] theorem carried_ivc : (carried s).ivc = s.ivc := rfl
@[simp] theorem carried_dbu : (carried s).dbu = s.dbu := rfl
@[simp] theorem carried_cul : (carried s).cul = s.cul := rfl
@[simp] theorem carried_vif : (carried s).vif = s.vif := rfl
@[simp] theorem carried_prt : (carried s).prt = s.prt := rfl
@[simp] theorem carried_answer : (carried s).answer = s.answer := rfl
@[simp] theorem carried_cht : (carried s).cht = s.cht := rfl
@[simp] theorem carried_drc : (carried s).drc = s.drc := rfl

@[simp] theorem answerAlso_pending (v : Nat) (a : HostAnswer) : (answerAlso v a s).pending = s.pending := rfl
@[simp] theorem answerAlso_draws (v : Nat) (a : HostAnswer) : (answerAlso v a s).draws = s.draws := rfl
@[simp] theorem answerAlso_cfg (v : Nat) (a : HostAnswer) : (answerAlso v a s).cfg = s.cfg := rfl
@[simp] theorem answerAlso_nv (v : Nat) (a : HostAnswer) : (answerAlso v a s).nv = s.nv := rfl
@[simp] theorem answerAlso_pwr (v : Nat) (a : HostAnswer) : (answerAlso v a s).pwr = s.pwr := rfl
@[simp] theorem answerAlso_isl (v : Nat) (a : HostAnswer) : (answerAlso v a s).isl = s.isl := rfl
@[simp] theorem answerAlso_wld (v : Nat) (a : HostAnswer) : (answerAlso v a s).wld = s.wld := rfl
@[simp] theorem answerAlso_hlt (v : Nat) (a : HostAnswer) : (answerAlso v a s).hlt = s.hlt := rfl
@[simp] theorem answerAlso_lgb (v : Nat) (a : HostAnswer) : (answerAlso v a s).lgb = s.lgb := rfl
@[simp] theorem answerAlso_mem (v : Nat) (a : HostAnswer) : (answerAlso v a s).mem = s.mem := rfl
@[simp] theorem answerAlso_hperst (v : Nat) (a : HostAnswer) : (answerAlso v a s).hperst = s.hperst := rfl
@[simp] theorem answerAlso_poison (v : Nat) (a : HostAnswer) : (answerAlso v a s).poison = s.poison := rfl
@[simp] theorem answerAlso_keys (v : Nat) (a : HostAnswer) : (answerAlso v a s).keys = s.keys := rfl
@[simp] theorem answerAlso_cores (v : Nat) (a : HostAnswer) : (answerAlso v a s).cores = s.cores := rfl
@[simp] theorem answerAlso_tiles (v : Nat) (a : HostAnswer) : (answerAlso v a s).tiles = s.tiles := rfl
@[simp] theorem answerAlso_tmErr (v : Nat) (a : HostAnswer) : (answerAlso v a s).tmErr = s.tmErr := rfl
@[simp] theorem answerAlso_ivc (v : Nat) (a : HostAnswer) : (answerAlso v a s).ivc = s.ivc := rfl
@[simp] theorem answerAlso_dbu (v : Nat) (a : HostAnswer) : (answerAlso v a s).dbu = s.dbu := rfl
@[simp] theorem answerAlso_slc (v : Nat) (a : HostAnswer) : (answerAlso v a s).slc = s.slc := rfl
@[simp] theorem answerAlso_cul (v : Nat) (a : HostAnswer) : (answerAlso v a s).cul = s.cul := rfl
@[simp] theorem answerAlso_prt (v : Nat) (a : HostAnswer) : (answerAlso v a s).prt = s.prt := rfl
@[simp] theorem answerAlso_answer (v : Nat) (a : HostAnswer) : (answerAlso v a s).answer = s.answer := rfl
@[simp] theorem answerAlso_cht (v : Nat) (a : HostAnswer) : (answerAlso v a s).cht = s.cht := rfl
@[simp] theorem answerAlso_drc (v : Nat) (a : HostAnswer) : (answerAlso v a s).drc = s.drc := rfl

@[simp] theorem noAnswers_pending : (noAnswers s).pending = s.pending := rfl
@[simp] theorem noAnswers_draws : (noAnswers s).draws = s.draws := rfl
@[simp] theorem noAnswers_cfg : (noAnswers s).cfg = s.cfg := rfl
@[simp] theorem noAnswers_nv : (noAnswers s).nv = s.nv := rfl
@[simp] theorem noAnswers_pwr : (noAnswers s).pwr = s.pwr := rfl
@[simp] theorem noAnswers_isl : (noAnswers s).isl = s.isl := rfl
@[simp] theorem noAnswers_wld : (noAnswers s).wld = s.wld := rfl
@[simp] theorem noAnswers_hlt : (noAnswers s).hlt = s.hlt := rfl
@[simp] theorem noAnswers_lgb : (noAnswers s).lgb = s.lgb := rfl
@[simp] theorem noAnswers_mem : (noAnswers s).mem = s.mem := rfl
@[simp] theorem noAnswers_hperst : (noAnswers s).hperst = s.hperst := rfl
@[simp] theorem noAnswers_poison : (noAnswers s).poison = s.poison := rfl
@[simp] theorem noAnswers_keys : (noAnswers s).keys = s.keys := rfl
@[simp] theorem noAnswers_cores : (noAnswers s).cores = s.cores := rfl
@[simp] theorem noAnswers_tiles : (noAnswers s).tiles = s.tiles := rfl
@[simp] theorem noAnswers_tmErr : (noAnswers s).tmErr = s.tmErr := rfl
@[simp] theorem noAnswers_ivc : (noAnswers s).ivc = s.ivc := rfl
@[simp] theorem noAnswers_dbu : (noAnswers s).dbu = s.dbu := rfl
@[simp] theorem noAnswers_slc : (noAnswers s).slc = s.slc := rfl
@[simp] theorem noAnswers_cul : (noAnswers s).cul = s.cul := rfl
@[simp] theorem noAnswers_prt : (noAnswers s).prt = s.prt := rfl
@[simp] theorem noAnswers_answer : (noAnswers s).answer = s.answer := rfl
@[simp] theorem noAnswers_cht : (noAnswers s).cht = s.cht := rfl
@[simp] theorem noAnswers_drc : (noAnswers s).drc = s.drc := rfl

@[simp] theorem setHead_pending (c : Nat) (f : Held → Held) : (setHead c f s).pending = s.pending := rfl
@[simp] theorem setHead_draws (c : Nat) (f : Held → Held) : (setHead c f s).draws = s.draws := rfl
@[simp] theorem setHead_cfg (c : Nat) (f : Held → Held) : (setHead c f s).cfg = s.cfg := rfl
@[simp] theorem setHead_nv (c : Nat) (f : Held → Held) : (setHead c f s).nv = s.nv := rfl
@[simp] theorem setHead_pwr (c : Nat) (f : Held → Held) : (setHead c f s).pwr = s.pwr := rfl
@[simp] theorem setHead_isl (c : Nat) (f : Held → Held) : (setHead c f s).isl = s.isl := rfl
@[simp] theorem setHead_wld (c : Nat) (f : Held → Held) : (setHead c f s).wld = s.wld := rfl
@[simp] theorem setHead_hlt (c : Nat) (f : Held → Held) : (setHead c f s).hlt = s.hlt := rfl
@[simp] theorem setHead_lgb (c : Nat) (f : Held → Held) : (setHead c f s).lgb = s.lgb := rfl
@[simp] theorem setHead_mem (c : Nat) (f : Held → Held) : (setHead c f s).mem = s.mem := rfl
@[simp] theorem setHead_hperst (c : Nat) (f : Held → Held) : (setHead c f s).hperst = s.hperst := rfl
@[simp] theorem setHead_poison (c : Nat) (f : Held → Held) : (setHead c f s).poison = s.poison := rfl
@[simp] theorem setHead_keys (c : Nat) (f : Held → Held) : (setHead c f s).keys = s.keys := rfl
@[simp] theorem setHead_cores (c : Nat) (f : Held → Held) : (setHead c f s).cores = s.cores := rfl
@[simp] theorem setHead_tiles (c : Nat) (f : Held → Held) : (setHead c f s).tiles = s.tiles := rfl
@[simp] theorem setHead_tmErr (c : Nat) (f : Held → Held) : (setHead c f s).tmErr = s.tmErr := rfl
@[simp] theorem setHead_ivc (c : Nat) (f : Held → Held) : (setHead c f s).ivc = s.ivc := rfl
@[simp] theorem setHead_dbu (c : Nat) (f : Held → Held) : (setHead c f s).dbu = s.dbu := rfl
@[simp] theorem setHead_slc (c : Nat) (f : Held → Held) : (setHead c f s).slc = s.slc := rfl
@[simp] theorem setHead_vif (c : Nat) (f : Held → Held) : (setHead c f s).vif = s.vif := rfl
@[simp] theorem setHead_prt (c : Nat) (f : Held → Held) : (setHead c f s).prt = s.prt := rfl
@[simp] theorem setHead_answer (c : Nat) (f : Held → Held) : (setHead c f s).answer = s.answer := rfl
@[simp] theorem setHead_cht (c : Nat) (f : Held → Held) : (setHead c f s).cht = s.cht := rfl
@[simp] theorem setHead_drc (c : Nat) (f : Held → Held) : (setHead c f s).drc = s.drc := rfl

@[simp] theorem gotMiss_pending (i id v : Nat) (b : Bool) : (gotMiss i id v b s).pending = s.pending := rfl
@[simp] theorem gotMiss_draws (i id v : Nat) (b : Bool) : (gotMiss i id v b s).draws = s.draws := rfl
@[simp] theorem gotMiss_cfg (i id v : Nat) (b : Bool) : (gotMiss i id v b s).cfg = s.cfg := rfl
@[simp] theorem gotMiss_nv (i id v : Nat) (b : Bool) : (gotMiss i id v b s).nv = s.nv := rfl
@[simp] theorem gotMiss_pwr (i id v : Nat) (b : Bool) : (gotMiss i id v b s).pwr = s.pwr := rfl
@[simp] theorem gotMiss_isl (i id v : Nat) (b : Bool) : (gotMiss i id v b s).isl = s.isl := rfl
@[simp] theorem gotMiss_wld (i id v : Nat) (b : Bool) : (gotMiss i id v b s).wld = s.wld := rfl
@[simp] theorem gotMiss_hlt (i id v : Nat) (b : Bool) : (gotMiss i id v b s).hlt = s.hlt := rfl
@[simp] theorem gotMiss_lgb (i id v : Nat) (b : Bool) : (gotMiss i id v b s).lgb = s.lgb := rfl
@[simp] theorem gotMiss_mem (i id v : Nat) (b : Bool) : (gotMiss i id v b s).mem = s.mem := rfl
@[simp] theorem gotMiss_hperst (i id v : Nat) (b : Bool) : (gotMiss i id v b s).hperst = s.hperst := rfl
@[simp] theorem gotMiss_poison (i id v : Nat) (b : Bool) : (gotMiss i id v b s).poison = s.poison := rfl
@[simp] theorem gotMiss_keys (i id v : Nat) (b : Bool) : (gotMiss i id v b s).keys = s.keys := rfl
@[simp] theorem gotMiss_tiles (i id v : Nat) (b : Bool) : (gotMiss i id v b s).tiles = s.tiles := rfl
@[simp] theorem gotMiss_tmErr (i id v : Nat) (b : Bool) : (gotMiss i id v b s).tmErr = s.tmErr := rfl
@[simp] theorem gotMiss_ivc (i id v : Nat) (b : Bool) : (gotMiss i id v b s).ivc = s.ivc := rfl
@[simp] theorem gotMiss_dbu (i id v : Nat) (b : Bool) : (gotMiss i id v b s).dbu = s.dbu := rfl
@[simp] theorem gotMiss_cul (i id v : Nat) (b : Bool) : (gotMiss i id v b s).cul = s.cul := rfl
@[simp] theorem gotMiss_vif (i id v : Nat) (b : Bool) : (gotMiss i id v b s).vif = s.vif := rfl
@[simp] theorem gotMiss_prt (i id v : Nat) (b : Bool) : (gotMiss i id v b s).prt = s.prt := rfl
@[simp] theorem gotMiss_answer (i id v : Nat) (b : Bool) : (gotMiss i id v b s).answer = s.answer := rfl
@[simp] theorem gotMiss_cht (i id v : Nat) (b : Bool) : (gotMiss i id v b s).cht = s.cht := rfl
@[simp] theorem gotMiss_drc (i id v : Nat) (b : Bool) : (gotMiss i id v b s).drc = s.drc := rfl

@[simp] theorem setFrame_pending (i key : Nat) (f : Option CLine) : (setFrame i key f s).pending = s.pending := rfl
@[simp] theorem setFrame_draws (i key : Nat) (f : Option CLine) : (setFrame i key f s).draws = s.draws := rfl
@[simp] theorem setFrame_cfg (i key : Nat) (f : Option CLine) : (setFrame i key f s).cfg = s.cfg := rfl
@[simp] theorem setFrame_nv (i key : Nat) (f : Option CLine) : (setFrame i key f s).nv = s.nv := rfl
@[simp] theorem setFrame_pwr (i key : Nat) (f : Option CLine) : (setFrame i key f s).pwr = s.pwr := rfl
@[simp] theorem setFrame_isl (i key : Nat) (f : Option CLine) : (setFrame i key f s).isl = s.isl := rfl
@[simp] theorem setFrame_wld (i key : Nat) (f : Option CLine) : (setFrame i key f s).wld = s.wld := rfl
@[simp] theorem setFrame_hlt (i key : Nat) (f : Option CLine) : (setFrame i key f s).hlt = s.hlt := rfl
@[simp] theorem setFrame_lgb (i key : Nat) (f : Option CLine) : (setFrame i key f s).lgb = s.lgb := rfl
@[simp] theorem setFrame_mem (i key : Nat) (f : Option CLine) : (setFrame i key f s).mem = s.mem := rfl
@[simp] theorem setFrame_hperst (i key : Nat) (f : Option CLine) : (setFrame i key f s).hperst = s.hperst := rfl
@[simp] theorem setFrame_poison (i key : Nat) (f : Option CLine) : (setFrame i key f s).poison = s.poison := rfl
@[simp] theorem setFrame_keys (i key : Nat) (f : Option CLine) : (setFrame i key f s).keys = s.keys := rfl
@[simp] theorem setFrame_tiles (i key : Nat) (f : Option CLine) : (setFrame i key f s).tiles = s.tiles := rfl
@[simp] theorem setFrame_tmErr (i key : Nat) (f : Option CLine) : (setFrame i key f s).tmErr = s.tmErr := rfl
@[simp] theorem setFrame_ivc (i key : Nat) (f : Option CLine) : (setFrame i key f s).ivc = s.ivc := rfl
@[simp] theorem setFrame_dbu (i key : Nat) (f : Option CLine) : (setFrame i key f s).dbu = s.dbu := rfl
@[simp] theorem setFrame_slc (i key : Nat) (f : Option CLine) : (setFrame i key f s).slc = s.slc := rfl
@[simp] theorem setFrame_cul (i key : Nat) (f : Option CLine) : (setFrame i key f s).cul = s.cul := rfl
@[simp] theorem setFrame_vif (i key : Nat) (f : Option CLine) : (setFrame i key f s).vif = s.vif := rfl
@[simp] theorem setFrame_prt (i key : Nat) (f : Option CLine) : (setFrame i key f s).prt = s.prt := rfl
@[simp] theorem setFrame_answer (i key : Nat) (f : Option CLine) : (setFrame i key f s).answer = s.answer := rfl
@[simp] theorem setFrame_cht (i key : Nat) (f : Option CLine) : (setFrame i key f s).cht = s.cht := rfl
@[simp] theorem setFrame_drc (i key : Nat) (f : Option CLine) : (setFrame i key f s).drc = s.drc := rfl

@[simp] theorem putLine_pending (l v : Nat) : (putLine l v s).pending = s.pending := by unfold putLine; rfl
@[simp] theorem putLine_draws (l v : Nat) : (putLine l v s).draws = s.draws := by unfold putLine; rfl
@[simp] theorem putLine_cfg (l v : Nat) : (putLine l v s).cfg = s.cfg := by unfold putLine; rfl
@[simp] theorem putLine_nv (l v : Nat) : (putLine l v s).nv = s.nv := by unfold putLine; rfl
@[simp] theorem putLine_pwr (l v : Nat) : (putLine l v s).pwr = s.pwr := by unfold putLine; rfl
@[simp] theorem putLine_isl (l v : Nat) : (putLine l v s).isl = s.isl := by unfold putLine; rfl
@[simp] theorem putLine_wld (l v : Nat) : (putLine l v s).wld = s.wld := by unfold putLine; rfl
@[simp] theorem putLine_hlt (l v : Nat) : (putLine l v s).hlt = s.hlt := by unfold putLine; rfl
@[simp] theorem putLine_lgb (l v : Nat) : (putLine l v s).lgb = s.lgb := by unfold putLine; rfl
@[simp] theorem putLine_hperst (l v : Nat) : (putLine l v s).hperst = s.hperst := by unfold putLine; rfl
@[simp] theorem putLine_poison (l v : Nat) : (putLine l v s).poison = s.poison := by unfold putLine; rfl
@[simp] theorem putLine_keys (l v : Nat) : (putLine l v s).keys = s.keys := by unfold putLine; rfl
@[simp] theorem putLine_cores (l v : Nat) : (putLine l v s).cores = s.cores := by unfold putLine; rfl
@[simp] theorem putLine_tiles (l v : Nat) : (putLine l v s).tiles = s.tiles := by unfold putLine; rfl
@[simp] theorem putLine_tmErr (l v : Nat) : (putLine l v s).tmErr = s.tmErr := by unfold putLine; rfl
@[simp] theorem putLine_ivc (l v : Nat) : (putLine l v s).ivc = s.ivc := by unfold putLine; rfl
@[simp] theorem putLine_dbu (l v : Nat) : (putLine l v s).dbu = s.dbu := by unfold putLine; rfl
@[simp] theorem putLine_slc (l v : Nat) : (putLine l v s).slc = s.slc := by unfold putLine; rfl
@[simp] theorem putLine_cul (l v : Nat) : (putLine l v s).cul = s.cul := by unfold putLine; rfl
@[simp] theorem putLine_vif (l v : Nat) : (putLine l v s).vif = s.vif := by unfold putLine; rfl
@[simp] theorem putLine_prt (l v : Nat) : (putLine l v s).prt = s.prt := by unfold putLine; rfl
@[simp] theorem putLine_answer (l v : Nat) : (putLine l v s).answer = s.answer := by unfold putLine; rfl
@[simp] theorem putLine_cht (l v : Nat) : (putLine l v s).cht = s.cht := by unfold putLine; rfl
@[simp] theorem putLine_drc (l v : Nat) : (putLine l v s).drc = s.drc := by unfold putLine; rfl

@[simp] theorem report_pending (r : Report) : (report r s).pending = s.pending := by unfold report; dsimp only; split <;> rfl
@[simp] theorem report_draws (r : Report) : (report r s).draws = s.draws := by unfold report; dsimp only; split <;> rfl
@[simp] theorem report_cfg (r : Report) : (report r s).cfg = s.cfg := by unfold report; dsimp only; split <;> rfl
@[simp] theorem report_nv (r : Report) : (report r s).nv = s.nv := by unfold report; dsimp only; split <;> rfl
@[simp] theorem report_pwr (r : Report) : (report r s).pwr = s.pwr := by unfold report; dsimp only; split <;> rfl
@[simp] theorem report_isl (r : Report) : (report r s).isl = s.isl := by unfold report; dsimp only; split <;> rfl
@[simp] theorem report_lgb (r : Report) : (report r s).lgb = s.lgb := by unfold report; dsimp only; split <;> rfl
@[simp] theorem report_mem (r : Report) : (report r s).mem = s.mem := by unfold report; dsimp only; split <;> rfl
@[simp] theorem report_hperst (r : Report) : (report r s).hperst = s.hperst := by unfold report; dsimp only; split <;> rfl
@[simp] theorem report_poison (r : Report) : (report r s).poison = s.poison := by unfold report; dsimp only; split <;> rfl
@[simp] theorem report_keys (r : Report) : (report r s).keys = s.keys := by unfold report; dsimp only; split <;> rfl
@[simp] theorem report_cores (r : Report) : (report r s).cores = s.cores := by unfold report; dsimp only; split <;> rfl
@[simp] theorem report_tiles (r : Report) : (report r s).tiles = s.tiles := by unfold report; dsimp only; split <;> rfl
@[simp] theorem report_tmErr (r : Report) : (report r s).tmErr = s.tmErr := by unfold report; dsimp only; split <;> rfl
@[simp] theorem report_ivc (r : Report) : (report r s).ivc = s.ivc := by unfold report; dsimp only; split <;> rfl
@[simp] theorem report_dbu (r : Report) : (report r s).dbu = s.dbu := by unfold report; dsimp only; split <;> rfl
@[simp] theorem report_slc (r : Report) : (report r s).slc = s.slc := by unfold report; dsimp only; split <;> rfl
@[simp] theorem report_cul (r : Report) : (report r s).cul = s.cul := by unfold report; dsimp only; split <;> rfl
@[simp] theorem report_vif (r : Report) : (report r s).vif = s.vif := by unfold report; dsimp only; split <;> rfl
@[simp] theorem report_prt (r : Report) : (report r s).prt = s.prt := by unfold report; dsimp only; split <;> rfl
@[simp] theorem report_answer (r : Report) : (report r s).answer = s.answer := by unfold report; dsimp only; split <;> rfl
@[simp] theorem report_cht (r : Report) : (report r s).cht = s.cht := by unfold report; dsimp only; split <;> rfl
@[simp] theorem report_drc (r : Report) : (report r s).drc = s.drc := by unfold report; dsimp only; split <;> rfl

end Sys2Proof.Machine
end

