-- ==== Sys2Proof/Laws/Access.lean ====
section
/-! SUPPORT. Access.lean: what the shared operations of accesses do: a report, a register write under the world rules, a
core's access that reaches its target, and a clean read of tile memory. -/

namespace Sys2Proof.Machine

/-- A report of a unit that holds fewer than 8 joins those that wait (R455). -/
theorem report_room {r : Report} {s : State} (h : (s.hlt.waiting.filter (sameUnit r)).length < 8) :
    (report r s).hlt = { s.hlt with waiting := s.hlt.waiting ++ [r] } := by
  unfold report
  dsimp only
  rw [if_pos h]

/-- A report of a unit that holds 8 is discarded and counted (R455). -/
theorem report_full {r : Report} {s : State} (h : 8 ≤ (s.hlt.waiting.filter (sameUnit r)).length) :
    (report r s).hlt =
      { s.hlt with lost := satW 36 (s.hlt.lost + 1), lostPend := satW 18 (s.hlt.lostPend + 1) } := by
  unfold report
  dsimp only
  rw [if_neg (by omega)]

/-- A report depends on the health unit alone. -/
theorem report_hlt {r : Report} {s t : State} (h : s.hlt = t.hlt) : (report r s).hlt = (report r t).hlt := by
  unfold report
  dsimp only
  rw [h]
  split <;> rfl

/-- A register write by the owner's world is performed (R237). -/
theorem ownedWrite_owner {win off : Nat} {own : Bool} {rq : Req} {v : Nat} {act : State → State} {s : State}
    (h : reach rq s = true) (ho : rq.sec = own) : ownedWrite win off own rq v act s = act s := by
  simp [ownedWrite, h, mayWrite, ho]

/-- A register write by the other world is reported and not performed (R237). -/
theorem ownedWrite_other {win off : Nat} {own : Bool} {rq : Req} {v : Nat} {act : State → State} {s : State}
    (h : reach rq s = true) (ho : rq.sec ≠ own) (hc : rq.code ≠ smbCode) :
    ownedWrite win off own rq v act s = report (ownerRefused win off rq false v) s := by
  simp [ownedWrite, h, mayWrite, ho, hc]

/-- Register accesses outside their states do nothing (R231, R428). -/
theorem ownedWrite_early {win off : Nat} {own : Bool} {rq : Req} {v : Nat} {act : State → State} {s : State}
    (h : reach rq s = false) : ownedWrite win off own rq v act s = s := by
  simp [ownedWrite, h]

/-- An access of a core that reaches its target acts there. -/
theorem dataAccess_reaches {i va n : Nat} {need : Need} {side store watched : Bool} {s s1 : State} {pa mt : Nat}
    {oct : Bool} {act : Nat → Nat → Bool → State → State} (h : Reaches i va n need side store watched s s1 pa mt oct) :
    dataAccess i va n need store side act (if watched then watchAccess i va n store s else s) = act pa mt oct s1 := by
  obtain ⟨h1, h2, h3, h4, h5, h6⟩ := h
  generalize (if watched then watchAccess i va n store s else s) = w at h1 h3
  subst h3
  unfold dataAccess
  simp only [h1, h2, h4, ne_eq, not_true_eq_false, if_false, Bool.false_eq_true]
  rw [if_neg, if_neg]
  · rcases h6 with h | h <;> simp [h]
  · cases side <;> simp_all

/-- Words without a mark are read as they are stored (R224). -/
theorem readWords_clean {t line req : Nat} {l : List Nat} {s : State} (hl : ∀ j ∈ l, j < 16)
    (h : ∀ j < 16, mget 0 s.tmErr (16 * line + j) = 0) : readWords t line req l s = (s, lineBits s line, false) := by
  unfold readWords
  generalize lineBits s line = v
  induction l with
  | nil => rfl
  | cons a l ih =>
    have ha : readWordMark t line a req s = (s, false) := by
      unfold readWordMark
      simp only [h a (hl a (by simp))]
    simp only [List.foldl_cons, ha, Bool.false_eq_true, if_false, Bool.or_false]
    exact ih (fun j hj => hl j (by simp [hj]))

/-- A read of tile memory without marked words gives the stored bits and changes nothing (R224). -/
theorem readTileBits_clean {t line lo w req : Nat} {s : State} (h : ∀ j < 16, mget 0 s.tmErr (16 * line + j) = 0) :
    readTileBits t line lo w req s = (s, field (lineBits s line) lo w, false) := by
  unfold readTileBits
  rw [readWords_clean (fun j hj => by simp [wordsOf] at hj; exact hj.1) h]

/-- A core without stores to a clean line on their way sees the line as it is stored. -/
theorem ownView_clean {s : State} {line : Nat} {ps : List PendStore} (he : ∀ j < 16, mget 0 s.tmErr (16 * line + j) ≠ 255)
    (h : ∀ q ∈ ps, q.line ≠ line) : ownView s line ps = lineBits s line := by
  have hb : (List.range 16).filter (fun j => mget 0 s.tmErr (16 * line + j) == 255) = [] := by
    simp only [List.filter_eq_nil_iff, List.mem_range]
    intro j hj
    simpa using he j hj
  unfold ownView
  simp only [hb]
  have step : ∀ l : List PendStore, (∀ q ∈ l, q.line ≠ line) → ∀ b : Nat,
      l.foldl (fun (acc : Nat × List Nat) p =>
        if p.line ≠ line ∨ ((wordsOf p.lo p.width).filter acc.2.contains).any
          (fun j => decide (36 * j < p.lo) || decide (p.lo + p.width < 36 * j + 36)) then acc
        else (setField acc.1 p.lo p.width p.val,
          acc.2.filter fun j => !((wordsOf p.lo p.width).filter acc.2.contains).contains j)) (b, []) = (b, []) := by
    intro l
    induction l with
    | nil => intro _ b; rfl
    | cons a l ih =>
      intro hl b
      rw [List.foldl_cons, if_pos (Or.inl (hl a (by simp)))]
      exact ih (fun q hq => hl q (by simp [hq])) b
  have := step ps h (lineBits s line)
  simp only [ne_eq] at this ⊢
  rw [this]
  rfl

/-- The bits of a field that was set in an empty number. -/
theorem field_setField_zero (lo w v : Nat) : field (setField 0 lo w v) lo w = v % 2 ^ w := by
  simp [field, setField, Nat.shiftRight_eq_div_pow]

end Sys2Proof.Machine
end

