-- ==== Sys2Proof/Laws/Decode.lean ====
section
/-! SUPPORT. Laws/Decode.lean: the forms that a syllable's word is read in lose no bit of it. -/

namespace Sys2Proof.Machine

/-- The register form and the opcode of a word are all of the word. -/
theorem regWord_regForm (w : Word) : regWord (w.toNat / 2 ^ 27) (regForm w) = w.toNat := by
  have := w.isLt
  simp [regWord, regForm, packFields, Nat.shiftRight_eq_div_pow]
  omega

/-- The immediate form and the opcode of a word are all of the word. -/
theorem immWord_immForm (w : Word) : immWord (w.toNat / 2 ^ 27) (immForm w) = w.toNat := by
  have := w.isLt
  simp [immWord, immForm, packFields, Nat.shiftRight_eq_div_pow]
  omega

end Sys2Proof.Machine
end

