-- ==== Sys2Proof/Laws/Dram.lean ====
section
/-! SUPPORT. Dram.lean: what asking for a DRAM read, its place in the queue and its outcome can change (R384): the DRAM
controller alone. -/

namespace Sys2Proof.Machine

/-- Everything but the DRAM controller is as before. -/
def SameButDrc (s t : State) : Prop := ∃ d, t = { s with drc := d }

theorem SameButDrc.refl (s : State) : SameButDrc s s := ⟨s.drc, rfl⟩
theorem SameButDrc.trans {s t u : State} : SameButDrc s t → SameButDrc t u → SameButDrc s u := by
  rintro ⟨d, rfl⟩ ⟨e, rfl⟩; exact ⟨e, rfl⟩

theorem setSub_same (u : Nat) (f : SubCh → SubCh) (s : State) : SameButDrc s (setSub u f s) := ⟨_, rfl⟩
theorem setChanSt_same (c : Nat) (f : DChan → DChan) (s : State) : SameButDrc s (setChanSt c f s) := ⟨_, rfl⟩

theorem startExit_same (u : Nat) (s : State) : SameButDrc s (startExit u s) := by
  unfold startExit; split
  · exact setChanSt_same ..
  · exact .refl s

theorem wakeLine_same (l : Nat) (s : State) : SameButDrc s (wakeLine l s) := by
  unfold wakeLine; split
  · exact startExit_same ..
  · exact .refl s

theorem queueRead_same (who : Option Asker) (merge : Bool) (rq : Req) (l : Nat) (s : State) :
    SameButDrc s (queueRead who merge rq l s) :=
  (SameButDrc.trans ⟨_, rfl⟩ (startExit_same (subOf l) { s with drc := { s.drc with order := s.drc.order + 1 } })).trans
    (setSub_same ..)

theorem askRead_same (who : Asker) (merge : Bool) (rq : Req) (l : Nat) (s : State) :
    SameButDrc s (askRead who merge rq l s) := by
  unfold askRead; split
  · exact startExit_same ..
  · exact queueRead_same ..

theorem askWrite_same (who : Asker) (rq : Req) (l w : Nat) (s : State) : SameButDrc s (askWrite who rq l w s) := by
  unfold askWrite; split
  · exact askRead_same ..
  · exact wakeLine_same ..

theorem claim_same (who : Asker) (l : Nat) (s : State) : SameButDrc s (claim who l s) := by
  unfold claim; split
  · exact .refl s
  · exact ⟨_, rfl⟩

theorem unclaim_same (s : State) : SameButDrc s (unclaim s) := ⟨_, rfl⟩

theorem bring_same (who : Asker) (l v : Nat) (bad : Bool) (s : State) : SameButDrc s (bring who l v bad s) := by
  unfold bring; split
  · exact ⟨_, rfl⟩
  · exact .refl s

/-- A requester that asked for nothing is served from the line itself. -/
theorem withOutcome_none {who : Asker} {l : Nat} {s : State} (act : State → State) (h : outcome s who l = none) :
    withOutcome who l act s = act s := by
  simp [withOutcome, h]

/-- An outcome that a requester takes is gone. -/
theorem outcome_claim (who : Asker) (l : Nat) (s : State) : outcome (claim who l s) who l = none := by
  unfold claim; split
  · assumption
  · simp only [outcome, Option.map_eq_none_iff, List.find?_eq_none, List.mem_filter]
    intro e he h
    have := he.2
    simp_all

/-- A claimed outcome is what the next read of the line by its requester delivers. -/
theorem dramGet_claim {who : Asker} {l : Nat} {s : State} {v : Nat × Bool} (rq : Req) (h : outcome s who l = some v) :
    dramGet rq l (claim who l s) = (unclaim (claim who l s), v) := by
  have t : takenOf (claim who l s) l = some v := by simp [takenOf, claim, h, Option.filter]
  simp [dramGet, t]

end Sys2Proof.Machine
end

