-- ==== Sys2Proof/Laws/Syllable.lean ====
section
/-! SUPPORT. Laws/Syllable.lean: what the shared issue of a syllable does, said once. -/

namespace Sys2Proof.Machine

/-- A syllable that may issue runs on the opened state and then ends. -/
theorem syllable_issues {x : Issue} {s : State} (h : MayIssue x s) (word ill long dest act post) :
    syllable x word ill long dest act post s =
      closeSyllable x long post (runSyllable x word ill dest act (opened x s)) := by
  unfold MayIssue at h
  simp [syllable, h, opened]

/-- A syllable that may not issue changes only what the settling of the boundary changes. -/
theorem syllable_waits {x : Issue} {s : State} (h : ¬ MayIssue x s) (word ill long dest act post) :
    syllable x word ill long dest act post s = opened x s := by
  unfold MayIssue at h
  simp [syllable, h, opened]

/-- A syllable with no ILLEGAL cause and no division in its way acts. -/
theorem runSyllable_acts {x : Issue} {word dest : Nat} {ill : Core → Option Nat} {s : State}
    (act : Nat → State → State) (h : ill (coreAt s (issueIx x)) = none)
    (h2 : x.slot = 2 → (coreAt s (issueIx x)).s2Busy = false) :
    runSyllable x word ill dest act s = act (issueIx x) s := by
  simp only [runSyllable, h]
  refine if_neg fun c => ?_
  have := h2 c.1
  simp [c.2.1] at this

/-- A syllable with an ILLEGAL cause adds it and does nothing else. -/
theorem runSyllable_illegal {x : Issue} {word dest c : Nat} {ill : Core → Option Nat} {s : State}
    (act : Nat → State → State) (h : ill (coreAt s (issueIx x)) = some c) :
    runSyllable x word ill dest act s = addCause (issueIx x) ⟨2, x.slot.val, 0, c, word⟩ s := by
  simp only [runSyllable, h]

/-- The operation width of the model is that of the claims. -/
theorem alu_eq_atWidth (wd : Width) (g : (n : Nat) → BitVec n → BitVec n → BitVec n) (a b : Double) :
    alu wd g a b = atWidth wd g a b := by
  cases wd <;> rfl

end Sys2Proof.Machine
end

