-- ==== Sys2Proof/WellFormed.lean ====
section
/-! DEFINITION. WellFormed.lean: the operands that a command can carry: a requester that R17 issues, a last slot that ends
its bundle, spans inside their windows, and lists without repeats. The meanings are total and do not rely on it. -/

namespace Sys2Proof

/-- The requester codes that are issued (R17). -/
def Req.wf (r : Req) : Bool :=
  let c := r.code.toNat
  decide (c < 0o640) || (decide (0o700 ≤ c) && decide (c ≤ 0o704))

/-- The syllable of slot 3 ends its bundle (R104). -/
def Issue.wf (x : Issue) : Bool := decide (x.slot.val < 3) || x.last

/-- No element stands twice in a list. -/
def distinct {α : Type} [DecidableEq α] (l : List α) : Bool := decide l.Nodup

/-- A host access of some octets lies within the personality window of 16 KiB (R338). -/
def spanOk (off n : Nat) : Bool := decide (0 < n) && decide (off + n ≤ 16384)

/-- An SMBus block write carries 1 to 255 octets (R411). -/
def blockOk (os : List (BitVec 8)) : Bool := decide (0 < os.length) && decide (os.length ≤ 255)

/-- The span of a host read. -/
def HostReqKind.wf (k : HostReqKind) : Bool := match k with
  | .config _ => true
  | .nonPosted _ off len => spanOk off.val len.val
  | .atomic => true
  | .posted => true

/-- The operands of a command are ones that it can carry. -/
def Instr.wf (i : Instr) : Bool :=
  match i with
  | .mainsLoss _ => true
  | .mainsValidAgain _ => true
  | .pwrLineChange _ => true
  | .pwrInputRange _ => true
  | .chargeComplete => true
  | .chargeTimeout _ => true
  | .probeMeasurement _ _ _ _ => true
  | .loadEntry => true
  | .imageSelectVerify => true
  | .testComplete failed => distinct (failed.map fun e => e.1)
  | .lockSequence badTrain r => distinct badTrain && distinct r.badSets && r.badSets.all fun e => decide (e.2.val ≠ 0)
  | .rideTimeExpiry => true
  | .vaultRegionStop _ => true
  | .vaultClosingRecord => true
  | .vaultDarkTimer => true
  | .reprobe rq _ => rq.wf
  | .reprobeComplete _ _ => true
  | .reprobePeriodExpiry => true
  | .vaultDiscard rq _ => rq.wf
  | .pwrSurge _ => true
  | .inputOvercurrent _ => true
  | .railOvercurrent _ _ => true
  | .pwrStageHot _ => true
  | .pwrThermThrottle _ _ => true
  | .throttleRelease _ => true
  | .pwrThermTrip _ _ => true
  | .vaultHubOverheat _ => true
  | .pwrThermHigh _ _ => true
  | .rsvHot _ => true
  | .reservoirCooled _ => true
  | .pwrCoolant _ _ _ => true
  | .cfgAltWrite rq _ => rq.wf
  | .cfgUpdErase rq _ => rq.wf
  | .cfgUpdWriteLine rq _ _ => rq.wf
  | .cfgUpdVerify rq _ => rq.wf
  | .cfgUpdComplete => true
  | .hostConfigRequest _ kind _ => kind.wf
  | .tilePstateRequest rq _ _ => rq.wf
  | .tileStepRequest rq _ _ => rq.wf
  | .stepChangeComplete _ => true
  | .supplyDroopStretch _ _ _ => true
  | .junctionSample _ _ => true
  | .tempHoldStepDown _ => true
  | .tempHoldRelease _ => true
  | .crossingItemArrival _ _ => true
  | .chronometerSync diffs => distinct (diffs.map fun e => e.1)
  | .napEntry _ => true
  | .napExit _ => true
  | .darkEntry _ => true
  | .darkExit _ => true
  | .nop x => x.wf
  | .add x _ _ => x.wf
  | .sub x _ _ => x.wf
  | .and x _ _ => x.wf
  | .or x _ _ => x.wf
  | .xor x _ _ => x.wf
  | .andn x _ _ => x.wf
  | .shl x _ _ => x.wf
  | .shr x _ _ => x.wf
  | .sar x _ _ => x.wf
  | .rol x _ _ => x.wf
  | .cmpeq x _ _ => x.wf
  | .cmplt x _ _ => x.wf
  | .cmpltu x _ _ => x.wf
  | .min x _ _ => x.wf
  | .max x _ _ => x.wf
  | .par x _ _ => x.wf
  | .brevO x _ => x.wf
  | .brevW x _ => x.wf
  | .crc x _ => x.wf
  | .clz x _ _ => x.wf
  | .ctz x _ _ => x.wf
  | .popc x _ _ => x.wf
  | .addi x _ _ => x.wf
  | .subi x _ _ => x.wf
  | .andi x _ _ => x.wf
  | .ori x _ _ => x.wf
  | .xori x _ _ => x.wf
  | .andni x _ _ => x.wf
  | .shli x _ _ => x.wf
  | .shri x _ _ => x.wf
  | .sari x _ _ => x.wf
  | .roli x _ _ => x.wf
  | .cmpeqi x _ _ => x.wf
  | .cmplti x _ _ => x.wf
  | .cmpltui x _ _ => x.wf
  | .mini x _ _ => x.wf
  | .maxi x _ _ => x.wf
  | .mul x _ _ => x.wf
  | .mulh x _ _ => x.wf
  | .mulhu x _ _ => x.wf
  | .div x _ _ => x.wf
  | .divu x _ _ => x.wf
  | .rem x _ _ => x.wf
  | .remu x _ _ => x.wf
  | .fadd x _ _ => x.wf
  | .fsub x _ _ => x.wf
  | .fmul x _ _ => x.wf
  | .fma x _ _ => x.wf
  | .fnma x _ _ => x.wf
  | .fdiv x _ _ => x.wf
  | .fmin x _ _ => x.wf
  | .fmax x _ _ => x.wf
  | .fcmpeq x _ _ => x.wf
  | .fcmplt x _ _ => x.wf
  | .fcmple x _ _ => x.wf
  | .fcvtDW x _ => x.wf
  | .fcvtWD x _ => x.wf
  | .ftoi x _ _ => x.wf
  | .itof x _ _ => x.wf
  | .ldq x _ => x.wf
  | .ldqs x _ => x.wf
  | .ldh x _ => x.wf
  | .ldhs x _ => x.wf
  | .ldw x _ => x.wf
  | .ldwu x _ => x.wf
  | .ldd x _ => x.wf
  | .ldqx x _ => x.wf
  | .ldqsx x _ => x.wf
  | .ldhx x _ => x.wf
  | .ldhsx x _ => x.wf
  | .ldwx x _ => x.wf
  | .ldwux x _ => x.wf
  | .lddx x _ => x.wf
  | .ldsf x _ => x.wf
  | .dclean x _ => x.wf
  | .dflush x _ => x.wf
  | .dinv x _ => x.wf
  | .dfillk x _ => x.wf
  | .iinv x _ => x.wf
  | .rnginv x _ => x.wf
  | .rangeEnginePass _ => true
  | .tlbi x _ => x.wf
  | .stq x _ => x.wf
  | .sth x _ => x.wf
  | .stw x _ => x.wf
  | .std x _ => x.wf
  | .stqx x _ => x.wf
  | .sthx x _ => x.wf
  | .stwx x _ => x.wf
  | .stdx x _ => x.wf
  | .stsf x _ => x.wf
  | .storeVisible _ => true
  | .br x _ => x.wf
  | .bz x _ _ => x.wf
  | .bnz x _ _ => x.wf
  | .bltz x _ _ => x.wf
  | .bgez x _ _ => x.wf
  | .call x _ => x.wf
  | .jr x _ => x.wf
  | .callr x _ => x.wf
  | .ret x _ => x.wf
  | .lapc x _ => x.wf
  | .mfs x _ => x.wf
  | .mts x _ => x.wf
  | .sysc x _ => x.wf
  | .eret x _ => x.wf
  | .wcall x _ => x.wf
  | .wret x _ => x.wf
  | .lck x _ => x.wf
  | .ulk x _ => x.wf
  | .lockedSequenceTimeout _ => true
  | .doze x _ => x.wf
  | .waitm x _ => x.wf
  | .waitmLimitExpiry _ => true
  | .fbar x _ => x.wf
  | .brk x _ => x.wf
  | .idone x _ => x.wf
  | .mfence x _ => x.wf
  | .mfenceComplete _ => true
  | .resultLanding _ => true
  | .safePointDrought _ => true
  | .trapEntry _ => true
  | .missFillComplete _ _ => true
  | .tlbWalkComplete _ => true
  | .evictionWritebackComplete _ => true
  | .tileAfsetWrite rq _ _ => rq.wf
  | .ivcRingWrite rq _ => rq.wf
  | .doorbellAccept => true
  | .windowTimeFire _ => true
  | .ivcRouteWrite rq _ _ => rq.wf
  | .interruptDeliveryLaunch _ => true
  | .interruptDeliveryOffer _ => true
  | .interruptEntry _ => true
  | .stackFaultEntry _ => true
  | .watchdogExpiry _ => true
  | .watchdogKick rq _ _ => rq.wf
  | .watchdogCtlWrite rq _ _ => rq.wf
  | .slotGrant _ => true
  | .slotTransfer _ => true
  | .slotRefresh _ => true
  | .mgmtSlot _ => true
  | .deliveryCommit _ => true
  | .slcDeliveryStalled _ => true
  | .slcPost rq _ _ => rq.wf
  | .slcRelease rq _ _ => rq.wf
  | .queueStop rq _ _ => rq.wf
  | .tideBoundary => true
  | .culvertDescriptor _ => true
  | .descriptorStart _ => true
  | .hostCompletion _ x error => decide (x.octets ≠ []) || error.isSome
  | .culvertCompletionPoint _ => true
  | .completionRecordWrite _ => true
  | .culvertAbort rq _ _ => rq.wf
  | .keyLoad rq _ _ => rq.wf
  | .keyEmpty rq _ => rq.wf
  | .completionTimeout _ _ => true
  | .chartKeyAccept => true
  | .lookupDecision _ => true
  | .resultElementWrite _ => true
  | .chartLookup rq _ _ => rq.wf
  | .chartInsert rq _ _ => rq.wf
  | .chartUpdate rq _ => rq.wf
  | .chartDelete rq _ _ => rq.wf
  | .chartAge rq _ _ => rq.wf
  | .chartRead rq _ _ => rq.wf
  | .chartCommandCommit => true
  | .chartWriteThrough => true
  | .viDoorbellWrite _ off octets => spanOk off.val octets.length
  | .dbpendRead rq _ _ => rq.wf
  | .shadowWrite _ off octets => spanOk off.val octets.length
  | .shadowRead _ off len => spanOk off.val len.val
  | .vifSyncTimeout _ => true
  | .vifSackWrite rq _ => rq.wf
  | .vifEpostWrite rq _ => rq.wf
  | .msixSignal rq _ => rq.wf
  | .msixWindowTimeFire _ _ => true
  | .msixSend _ _ => true
  | .hostControlWindowWrite _ _ _ => true
  | .flrAccept _ => true
  | .vfEnableClear _ _ _ _ => true
  | .vifRdoneWrite rq _ => rq.wf
  | .viResetComplete _ => true
  | .vifFlrLate _ => true
  | .hperstFall _ => true
  | .hperstRise _ => true
  | .prtLinkUp _ width rate => decide (width.toNat ≤ 5) && decide (rate.toNat ≤ 7)
  | .prtLinkNoflit _ => true
  | .prtLinkDown _ => true
  | .prtLaneFault _ _ => true
  | .prtFecHigh _ _ _ => true
  | .frameReceive _ octets _ => decide (octets ≠ [])
  | .pfcRefresh _ => true
  | .pfcFrameReceive _ _ _ => true
  | .pauseExpiry _ _ => true
  | .prtTxPausedLong _ _ => true
  | .frameTransmit _ => true
  | .dramReadAccept rq _ => rq.wf
  | .dramWriteAccept rq _ lo width _ => rq.wf && decide (0 < width.val) && decide (lo.val + width.val ≤ 576)
  | .dramCommandIssue _ _ => true
  | .dramReadData _ errs => distinct (errs.map fun e => e.1) && errs.all fun e => decide (e.2 ≠ 0)
  | .rowIdleClose _ _ => true
  | .refreshTimer _ => true
  | .mr4Poll _ => true
  | .selfRefreshIdleEntry _ => true
  | .drcSrctlWrite rq _ => rq.wf
  | .selfRefreshExit _ => true
  | .drcFreqWrite rq _ => rq.wf
  | .frequencyStepComplete _ _ => true
  | .drcDevfailCommand rq _ => rq.wf
  | .reportAccept => true
  | .logCommit => true
  | .healthSignalPost => true
  | .opsecTick => true
  | .lgbRidxWrite rq _ => rq.wf
  | .traceDrainLine _ => true
  | .wktLoss _ => true
  | .tileWctlWrite rq _ _ => rq.wf
  | .traceBufferEmpty rq _ _ => rq.wf
  | .wktRdptrWrite rq _ _ => rq.wf
  | .tileWdataRead rq _ => rq.wf
  | .debugHaltRequest rq _ _ => rq.wf
  | .debugStep rq _ _ => rq.wf
  | .debugRelease rq _ _ => rq.wf
  | .dbgHalt _ => true
  | .channelPulse => true
  | .xtrigInEdge => true
  | .dbgXpulseWrite rq _ => rq.wf
  | .xtrigOutEnd => true
  | .debugFrameRead _ _ _ _ => true
  | .debugFrameWrite _ _ _ _ _ => true
  | .debugBreak => true
  | .dctlAbort _ => true
  | .dctlClear _ => true
  | .debugPhysicalAccess => true
  | .debugCoreAccess => true
  | .debugL1Read => true
  | .debugAccessComplete => true
  | .registerWrite rq _ _ _ _ => rq.wf
  | .smbReadIdent => true
  | .smbReadAssetTag => true
  | .smbReadStartState => true
  | .smbReadTileMap => true
  | .smbReadLogCounts => true
  | .smbLatchRecord octets _ => blockOk octets
  | .smbReadRecord => true
  | .smbRegisterSelect octets _ => blockOk octets
  | .smbRegisterRead => true
  | .smbRegisterWrite octets _ => blockOk octets
  | .smbReadAlertSequence => true
  | .smbAlertResponse => true
  | .hotReset _ => true
  | .unlistedOpcode x _ => x.wf
  | .fetchFault _ => true

end Sys2Proof
end

