-- ==== Sys2Proof/Tests/Slice0.lean ====
section
/-! SUPPORT. Slice0.lean: the model's own tests: operands that a command cannot carry, for each statement a concrete state
and operands that meet its hypotheses (clause by clause), and single steps against the manual's worked examples. -/

open Sys2Proof Sys2Proof.Machine

namespace Sys2Proof.Tests

set_option Elab.async false

/-- A requester of the secure world, and one of the normal world, with a core's code. -/
def rqS : Req := ⟨0, true⟩
def rqN : Req := ⟨0, false⟩

/-- The syllable of slot `n` of core 0 on tile 0, alone in its bundle. -/
def syl (n : Fin 4) : Issue := ⟨0, 0, n, true, 0⟩

/-- A machine in service on tile 0 with core 0 as given, whose first instruction line has come; a secure core has its memory
there. -/
def served (k : Core) : State :=
  { cfg := { phase := .run, lmap := [(0, some 0)] }
    wld := { locked := true, dwm := if k.sec then 1 else 0 }
    isl := { tiles := [(0, { state := .run })] }
    cores := [(0, { k with on := true, served := some 0 })] }

/-- What a command does to core 0: a question about the core after it. -/
def after (c : Instr) (s : State) (p : State → Bool) : Bool :=
  match exec c s with
  | .next t => p t
  | _ => false

/-! The operands that a command can carry: each check refuses one. -/

theorem test_wf_requester : (Instr.reportAccept).wf = true ∧ (Instr.slcPost ⟨0o577, false⟩ 0 1).wf = true ∧
    (Instr.slcPost ⟨0o704, false⟩ 0 1).wf = true ∧ (Instr.slcPost ⟨0o640, false⟩ 0 1).wf = false ∧
    (Instr.slcPost ⟨0o705, false⟩ 0 1).wf = false := by decide
theorem test_wf_last_slot : (Instr.nop (syl 3)).wf = true ∧ (Instr.nop ⟨0, 0, 3, false, 0⟩).wf = false ∧
    (Instr.nop ⟨0, 0, 2, false, 0⟩).wf = true := by decide
theorem test_wf_failed_tiles : (Instr.testComplete [(3, 0), (4, 0)]).wf = true ∧
    (Instr.testComplete [(3, 0), (3, 1)]).wf = false := by decide
theorem test_wf_training : (Instr.lockSequence [1] ⟨[(1, 2)], true⟩).wf = true ∧ (Instr.lockSequence [1, 1] ⟨[], true⟩).wf = false ∧
    (Instr.lockSequence [] ⟨[(1, 2), (1, 2)], true⟩).wf = false ∧ (Instr.lockSequence [] ⟨[(1, 0)], false⟩).wf = false := by decide
theorem test_wf_copies : (Instr.chronometerSync [(0, 1), (1, 1)]).wf = true ∧
    (Instr.chronometerSync [(0, 1), (0, 2)]).wf = false := by decide
theorem test_wf_spans : (Instr.viDoorbellWrite 0 16383 [some 1]).wf = true ∧ (Instr.viDoorbellWrite 0 16383 [some 1, none]).wf = false ∧
    (Instr.shadowWrite 0 0 []).wf = false ∧ (Instr.shadowRead 0 0 0).wf = false ∧
    (Instr.shadowRead 0 12288 4096).wf = true ∧ (Instr.shadowRead 0 12289 4096).wf = false ∧
    (Instr.hostConfigRequest 0 (.nonPosted false 16383 2) 0).wf = false ∧
    (Instr.hostConfigRequest 0 (.nonPosted false 16383 1) 0).wf = true := by decide
theorem test_wf_octets : (Instr.hostCompletion 0 ⟨0, []⟩ none).wf = false ∧ (Instr.hostCompletion 0 ⟨0, []⟩ (some 0)).wf = true ∧
    (Instr.frameReceive 0 [] false).wf = false ∧ (Instr.frameReceive 0 [1] false).wf = true := by decide
theorem test_wf_link : (Instr.prtLinkUp (.group 0) 5 7).wf = true ∧ (Instr.prtLinkUp (.group 0) 6 7).wf = false ∧
    (Instr.prtLinkUp (.group 0) 5 8).wf = false := by decide
theorem test_wf_dram : (Instr.dramWriteAccept rqN 0 0 576 0).wf = true ∧ (Instr.dramWriteAccept rqN 0 0 0 0).wf = false ∧
    (Instr.dramWriteAccept rqN 0 575 2 0).wf = false ∧ (Instr.dramReadData 0 [(1, 1)]).wf = true ∧
    (Instr.dramReadData 0 [(1, 0)]).wf = false ∧ (Instr.dramReadData 0 [(1, 1), (1, 2)]).wf = false := by decide
theorem test_wf_smbus_block : (Instr.smbLatchRecord [] none).wf = false ∧ (Instr.smbRegisterSelect [1] (some 0)).wf = true ∧
    (Instr.smbRegisterWrite (List.replicate 256 0) none).wf = false ∧
    (Instr.smbRegisterWrite (List.replicate 255 0) none).wf = true := by decide +kernel
theorem test_no_word_spells_a_command : decodeTableWord 36 0 = none ∧ State.reset.withFetchWord 36 0 = State.reset := ⟨rfl, rfl⟩

/-! Witnesses for the statements about the syllables of a core: concrete states and operands that meet the hypotheses. -/

theorem witness_IntegerForms : MayIssue (syl 0) (served {}) ∧ MayIssue ⟨0, 0, 1, false, 5⟩ (served { slot := 1 }) := by
  unfold MayIssue; decide +kernel
theorem witness_CountsReversalsAndCrc : MayIssue (syl 0) (served {}) ∧
    (⟨3, 1, 0, 0⟩ : RegForm).func = 0 ∧ (⟨3, 1, 0, 0⟩ : RegForm).b = 0 ∧
    ∀ f ∈ [(0 : BitVec 9), 1, 2, 4, 5, 6], f.toNat < 8 ∧ f.toNat % 4 ≠ 3 := by unfold MayIssue; decide +kernel
theorem witness_MultiplyForms : MayIssue (syl 2) (served {}) ∧ S2Free (syl 2) (served {}) := by
  unfold MayIssue S2Free; decide +kernel
theorem witness_DivideForms : MayIssue ⟨0, 0, 2, true, 0⟩ (served { regs := [(1, 7), (2, 0)] }) ∧
    S2Free ⟨0, 0, 2, true, 0⟩ (served { regs := [(1, 7), (2, 0)] }) := by unfold MayIssue S2Free; decide +kernel
theorem witness_FloatingPointForms : MayIssue (syl 2) (served { fs := 0o140000 }) ∧
    S2Free (syl 2) (served { fs := 0o140000 }) := by unfold MayIssue S2Free; decide +kernel
theorem witness_IllegalSyllables : (∀ n : Fin 4, MayIssue (syl n) (served {})) ∧ opcodeListed 0o777 = false ∧
    opcodeListed 0 = true ∧
    (MayIssue (syl 3) (served { dly := 2 }) ∧ (openedCore (syl 3) (served { dly := 2 })).dly ≠ 0) := by
  unfold MayIssue; decide +kernel

/-- A core whose g1 points at its own tile memory; `page` gives it one translated page there, and one of its code. -/
def pointer : Core := { regs := [(1, 2 ^ 42)] }
def page (oct : Bool) (k : Core) : Core :=
  { k with
      norB := { tctl := true }
      tlb1 := [⟨false, 0, true, 3, 2 ^ 30, 2 ^ 30, 0, oct, true, true, true, true⟩,
        ⟨false, 0, true, 3, 0, 0, 0, false, true, true, true, true⟩] }

theorem witness_LoadsFromOwnTileMemory :
    (∀ r ∈ [0, 1], (⟨3, 1, r, 0⟩ : RegForm).func = 0) ∧ MayIssue (syl 3) (served pointer) ∧
    Reaches 0 (2 ^ 42) 8 .load false false true (opened (syl 3) (served pointer)) (opened (syl 3) (served pointer)) (2 ^ 42) 0
      false ∧
    routeOf (opened (syl 3) (served pointer)) 0 (2 ^ 42) 0 = .own ∧
    (coreAt (opened (syl 3) (served pointer)) 0).stores = [] ∧ (opened (syl 3) (served pointer)).tmErr = [] ∧
    (coreAt (opened (syl 3) (served pointer)) 0).seq = none :=
  ⟨by decide +kernel, by unfold MayIssue; decide +kernel, ⟨by decide +kernel, by decide +kernel, by decide +kernel, by decide +kernel, by decide +kernel, by decide +kernel⟩, by decide +kernel,
    by decide +kernel, by decide +kernel, by decide +kernel⟩
theorem witness_LoadsFromOwnTileMemory_side :
    MayIssue (syl 3) (served (page true pointer)) ∧
    Reaches 0 (2 ^ 42) 1 .load true false true (opened (syl 3) (served (page true pointer)))
      (opened (syl 3) (served (page true pointer))) (2 ^ 42) 0 true ∧
    routeOf (opened (syl 3) (served (page true pointer))) 0 (2 ^ 42) 0 = .own :=
  ⟨by unfold MayIssue; decide +kernel, ⟨by decide +kernel, by decide +kernel, by decide +kernel, by decide +kernel, by decide +kernel, by decide +kernel⟩, by decide +kernel⟩
theorem witness_StoresToOwnTileMemory :
    MayIssue (syl 3) (served pointer) ∧ Reaches 0 (2 ^ 42) 8 .store false true true (opened (syl 3) (served pointer))
      (opened (syl 3) (served pointer)) (2 ^ 42) 0 false ∧
    routeOf (opened (syl 3) (served pointer)) 0 (2 ^ 42) 0 = .own ∧ (coreAt (opened (syl 3) (served pointer)) 0).seq = none :=
  ⟨by unfold MayIssue; decide +kernel, ⟨by decide +kernel, by decide +kernel, by decide +kernel, by decide +kernel, by decide +kernel, by decide +kernel⟩, by decide +kernel, by decide +kernel⟩
theorem witness_StoresToOwnTileMemory_locked :
    let s := served { page true pointer with seq := some ⟨0, false, [2 ^ 36], []⟩ }
    MayIssue (syl 3) s ∧ Reaches 0 (2 ^ 42) 1 .store true true true (opened (syl 3) s) (opened (syl 3) s) (2 ^ 42) 0 true ∧
    routeOf (opened (syl 3) s) 0 (2 ^ 42) 0 = .own ∧ (coreAt (opened (syl 3) s) 0).seq = some ⟨0, false, [2 ^ 36], []⟩ :=
  ⟨by unfold MayIssue; decide +kernel, ⟨by decide +kernel, by decide +kernel, by decide +kernel, by decide +kernel, by decide +kernel, by decide +kernel⟩, by decide +kernel, by decide +kernel⟩
theorem witness_StoresToOwnTileMemory_visible :
    let p : PendStore := { line := 2 ^ 36, lo := 567, width := 9, val := 511 }
    let s := served { stores := [p] }
    (coreAt s (coreIx ⟨0, 0⟩)).stores = [p] ∧ p.cached = false ∧ p.lo + p.width ≤ 576 ∧ Memory.wf s.mem = true ∧
      mwf {} s.cores = true ∧ ∀ j < 16, mget 0 s.tmErr (16 * p.line + j) ≠ 255 := by decide +kernel

/-- A core whose g1 is 64, the address of a line of DRAM; `frame` is that line in set 1, way 0. -/
def nearLine : Core := { regs := [(1, 64)] }
def frame (dirty : Bool) : CLine := { line := 1, bits := 5, dirty := dirty }

theorem witness_CacheOperations_clean :
    let s := served { nearLine with dcache := [(8, some (frame true))], evict := [{ line := 1, bits := 5, dirty := true }] }
    let o := opened (syl 3) s
    MayIssue (syl 3) s ∧ Reaches 0 64 1 .load false false false o o 64 0 false ∧ routeOf o 0 64 0 = .cached ∧
    dFrame o 0 1 = some (8, frame true) ∧ missOn (coreAt o 0) 1 = none ∧ (frame true).bad = 0 ∧
    lockedKey (coreAt o 0) 8 = false :=
  ⟨by unfold MayIssue; decide +kernel, ⟨by decide +kernel, by decide +kernel, by decide +kernel, by decide +kernel, by decide +kernel, by decide +kernel⟩, by decide +kernel,
    by decide +kernel, by decide +kernel, by decide +kernel, by decide +kernel⟩
theorem witness_CacheOperations_invalidate :
    let s := served { nearLine with dcache := [(8, some (frame true))], stores := [{ line := 1, lo := 0, width := 9, val := 3, cached := true }] }
    let o := opened (syl 3) s
    let s2 := unserve 0 1 (setCore 0 (fun k => { k with stores := k.stores.filter fun p => !(p.cached && p.line == 1) }) o)
    Reaches 0 64 1 .load false true false o o 64 0 false ∧ (openedCore (syl 3) s).kernel = true ∧
    dFrame s2 0 1 = some (8, frame true) ∧ (frame true).bad = 0 ∧
    missOn (coreAt s2 0) 1 = none ∧ lockedKey (coreAt (setFrame 0 8 none s2) 0) 8 = false :=
  ⟨⟨by decide +kernel, by decide +kernel, by decide +kernel, by decide +kernel, by decide +kernel, by decide +kernel⟩, by decide +kernel, by decide +kernel, by decide +kernel, by decide +kernel, by decide +kernel⟩
theorem witness_CacheOperations_lock :
    let o := opened (syl 3) (served { nearLine with dway := 1 })
    Reaches 0 64 1 .load false false false o o 64 0 false ∧ dFrame o 0 1 = none ∧ (coreAt o 0).fatal = false ∧
    (emptyLocked (coreAt o 0) 1).isSome = true ∧ evictFind (coreAt o 0) 1 = none ∧ missOn (coreAt o 0) 1 = none :=
  ⟨⟨by decide +kernel, by decide +kernel, by decide +kernel, by decide +kernel, by decide +kernel, by decide +kernel⟩, by decide +kernel, by decide +kernel, by decide +kernel, by decide +kernel,
    by decide +kernel⟩
theorem witness_CacheOperations_instructions :
    let s := served { nearLine with icache := [(15, some (frame false))] }
    let o := opened (syl 3) s
    Reaches 0 64 1 .fetch false false false o o 64 0 false ∧ findWay (coreAt o 0).icache (coreAt o 0).iway 1 = some 7 ∧
    (mget none (coreAt o 0).icache (frameKey 1 7)).map (fun f => f.bad) = some 0 ∧ wayMode (coreAt o 0).iway 7 = 0 ∧
    mwf {} o.cores = true :=
  ⟨⟨by decide +kernel, by decide +kernel, by decide +kernel, by decide +kernel, by decide +kernel, by decide +kernel⟩, by decide +kernel, by decide +kernel, by decide +kernel, by decide +kernel⟩
theorem witness_CacheOperations_ranges :
    let s := served { regs := [(1, 2 ^ 45 - 64), (2, 1)], ranges := List.replicate 7 (0, 1, false) }
    let k := openedCore (syl 3) s
    MayIssue (syl 3) s ∧ k.kernel = true ∧ stopped (opened (syl 3) s) 0 = false ∧ (⟨0, 1, 2, 0⟩ : RegForm).func = 0 ∧
    k.ranges.length < 8 ∧ (k.read 1).toNat < 2 ^ 45 ∧ (k.read 2).toNat ≠ 0 := by unfold MayIssue; decide +kernel
theorem witness_BranchesNameTheirTargets :
    let s := served { seq := some ⟨0, false, [], []⟩ }
    MayIssue (syl 3) s ∧ (openedCore (syl 3) s).dly = 0 ∧ stopped (opened (syl 3) s) (issueIx (syl 3)) = false ∧
    (⟨0, 1, 0, 0⟩ : RegForm).dest = 0 ∧ (⟨0, 0, 0, 0⟩ : RegForm).a = 0 ∧ (⟨5, 0, 1⟩ : ImmForm).a = 0 := by
  unfold MayIssue; decide +kernel
theorem witness_SpecialRegisterAccess :
    (∀ k ∈ [({} : Core), { sec := true }, page false { kernel := false }],
      MayIssue (syl 3) (served k) ∧ stopped (opened (syl 3) (served k)) (issueIx (syl 3)) = false) ∧
    (openedCore (syl 3) (served {})).kernel = true ∧ (openedCore (syl 3) (served { sec := true })).kernel = true ∧
    (openedCore (syl 3) (served { sec := true })).sec = true ∧ (openedCore (syl 3) (served (page false { kernel := false }))).kernel = false ∧
    (openedCore (syl 3) (served {})).sec = tileSec (opened (syl 3) (served {})) 0 ∧
    (openedCore (syl 3) (served { sec := true })).sec ≠ tileSec (opened (syl 3) (served { sec := true })) 0 := by
  unfold MayIssue; decide +kernel
theorem witness_SystemSyllables :
    (∀ n : Fin 4, MayIssue (syl n) (served {})) ∧ stopped (opened (syl 3) (served {})) 0 = false ∧
    (openedCore (syl 3) (served {})).seq = none ∧ (openedCore (syl 3) (served {})).kernel = true ∧
    (∀ b : Bool, MayIssue (syl 3) (served { seq := some ⟨0, b, [], []⟩ }) ∧
      (openedCore (syl 3) (served { seq := some ⟨0, b, [], []⟩ })).seq = some ⟨0, b, [], []⟩) ∧
    MayIssue (syl 3) (served { brkH := true }) := by unfold MayIssue; decide +kernel
theorem witness_WaitsAndDozeFreeze :
    mwf {} (served { flags := 0x8000 }).cores = true ∧ (coreAt (served { flags := 0x8000 }) 0).flags.getLsbD (15 % 16) = true ∧
    (coreAt (served { flags := 0x8000 }) 0).flags.getLsbD (14 % 16) = false ∧
    ∀ q ∈ (coreAt (served { offers := [⟨0, 3, 1, 0⟩], stack := [⟨some 3, false, 0, true, true, 0, 0, false, none⟩] }) 0).offers,
      aboveLevel (coreAt (served { stack := [⟨some 3, false, 0, true, true, 0, 0, false, none⟩] }) 0) q.level = false := by
  decide +kernel
theorem witness_ExceptionEntrySavesAndVectors :
    mwf {} (served {}).cores = true ∧ (coreAt (served {}) 0).ex = false ∧ (coreAt (served {}) 0).held = [] ∧
    (31 < 32 ∧ 3 < 4 ∧ 32767 < 2 ^ 15) ∧ (coreAt (served { ex := true }) 0).ex = true := by decide +kernel
/-- A result due at once. -/
def due (id reg slot : Nat) : Landing := { id := id, reg := reg, slot := slot, due := 0, val := 9 }

theorem witness_ReturnsAndWorldCalls :
    (MayIssue (syl 3) (served {}) ∧ (openedCore (syl 3) (served {})).dly = 0 ∧
      (openedCore (syl 3) (served {})).kernel = true ∧ (openedCore (syl 3) (served {})).sec = false ∧
      hasSecureImage (served {}) 0 = true) ∧
    (MayIssue (syl 3) (served { sec := true }) ∧ (openedCore (syl 3) (served { sec := true })).sec = true ∧
      tileSec (served { sec := true }) 0 = false) ∧
    (coreAt (served {}) 0).flight = [] ∧ (coreAt (served {}) 0).statDue = none := by unfold MayIssue; decide +kernel
theorem witness_ReturnsAndWorldCalls_flights : ∀ held ∈ [[], [due 0 9 0]],
    let k := coreAt (served { flight := [{ due 1 5 2 with due := 3 }], held := held }) 0
    k.statDue = none ∧ (∀ l ∈ k.flight, k.cyc < l.due) ∧ k.flight ≠ [] := by decide +kernel
theorem witness_ReturnsAndWorldCalls_completions :
    let f : Frame := ⟨some 3, false, 64, false, true, 5, 1, false, some 7⟩
    let g : Frame := { f with fault := true, level := none }
    goodCompletion (served { stack := [f] }) 0 3 = true ∧ goodCompletion (served { stack := [f] }) 0 4 = false ∧
    goodCompletion (served { stack := [g, f] }) 0 4 = true ∧ goodCompletion (served { stack := [f], ex := true }) 0 3 = false ∧
    (∀ x ∈ (coreAt (served { stack := [f] }) 0).stack, x.fault = false) ∧
    ∃ x ∈ (coreAt (served { stack := [g, f] }) 0).stack, x.fault = true := by decide +kernel
theorem witness_BundlesEndAndResultsLand_ends :
    mwf {} (served {}).cores = true ∧ (coreAt (served {}) 0).taken = none ∧ (coreAt (served {}) 0).dly = 0 ∧
    (coreAt (served { dly := 2 }) 0).dly = 2 ∧ (coreAt (served { dly := 1 }) 0).dly = 1 ∧
    (coreAt (served { taken := some 32 }) 0).taken = some 32 ∧
    ((coreAt (served { ie := true }) 0).ie = true ∧ (coreAt (served { ie := true }) 0).ex = false) ∧
    (coreAt (served {}) 0).ie = false := by decide +kernel

theorem witness_BundlesEndAndResultsLand_lands :
    (∀ r ∈ [0, 1, 63, 64], atBoundary (served { flight := [due 0 r 0] }) 0 = true ∧
      (coreAt (served { flight := [due 0 r 0] }) 0).statDue = none ∧
      (coreAt (served { flight := [due 0 r 0] }) 0).stalled = false ∧
      (coreAt (served { flight := [due 0 r 0] }) 0).flight.filter (fun l => decide (l.due ≤ 0) && l.miss.isNone) = [due 0 r 0]) ∧
    (coreAt (served { flight := [due 0 63 1, due 1 63 3] }) 0).flight.filter (fun l => decide (l.due ≤ 0) && l.miss.isNone) =
      [due 0 63 1, due 1 63 3] := by decide +kernel
theorem witness_CoreEventsTakeEffect :
    (atBoundary (served { seq := some ⟨0, false, [], []⟩, cyc := 9 }) 0 = true ∧ 0 + 8 < 9) ∧
    (coreAt (served { wait := some ⟨3, true, some 64, 5, true⟩ }) 0).wait = some ⟨3, true, some 64, 5, true⟩ ∧
    (let m : Miss := { id := 0, cyc := 0, kind := .line, addr := 64, size := 8, oct := false, side := false, sec := false
                       accs := [{ store := false, lo := 0, width := 72 }] }
     let k := coreAt (served { fence := true, misses := [m] }) 0
     k.fence = true ∧ k.stores = [] ∧ k.ranges = [] ∧ (∀ e ∈ k.evict, e.dirty = false) ∧
       ∀ m ∈ k.misses, ∀ a ∈ m.accs, a.store = false ∧ a.op ≠ some .clean ∧ a.op ≠ some .flush) ∧
    (atBoundary (served { dueAt := some ⟨32, false, false, true, false⟩ }) 0 = true ∧
      (coreAt (served { dueAt := some ⟨32, false, false, true, false⟩ }) 0).dueAt = some ⟨32, false, false, true, false⟩) ∧
    (let f : CLine := { line := 1, bits := 5, dirty := true }
     let k := coreAt (served { ranges := [(1, 1, false)], dcache := [(8, some f)], icache := [(15, some f)] }) 0
     k.ranges = [(1, 1, false)] ∧ mwf none k.dcache = true ∧ mwf none k.icache = true ∧
       (∀ e ∈ k.dcache ++ k.icache, ∀ f, e.2 = some f → f.bad = 0) ∧ mget none k.dcache 8 = some f) ∧
    (let e : EvLine := { line := 2, bits := 5, dirty := true, crossed := true }
     (coreAt (served { evict := [{ line := 1, bits := 5, dirty := false }, e] }) 0).evict.find? (fun e => e.dirty) = some e ∧
       e.later = none ∧ ∀ y ∈ (coreAt (served { evict := [e] }) 0).evict, y.kept = false) ∧
    (reach rqN (served {}) = true ∧ available (served {}) 0 = true ∧ rqN.sec = tileSec (served {}) 0) := by decide +kernel
theorem test_watchdog_control :
    let wd := fun (k : Core) (v : Word) => match exec (.watchdogCtlWrite rqN ⟨0, 0⟩ v) (served k) with
      | .next u => ((coreAt u 0).wd.en, (coreAt u 0).wd.period, (coreAt u 0).wd.remain, (coreAt u 0).wd.state, u.hlt.waiting.length)
      | _ => (false, 0, 0, 9, 0)
    wd {} (2 ^ 20 + 9) = (true, 9, 9, 1, 0) ∧ wd { wd := { period := 5 } } (2 ^ 20) = (true, 5, 5, 1, 1) ∧
    wd { wd := { en := true, period := 5, remain := 3, state := 1 } } 8 = (false, 8, 3, 0, 0) := by decide +kernel
theorem witness_TrapsAndFetchFaultsEnter_traps :
    (let s := served { fpPend := [⟨1, false, 0⟩] }
     boundaryFree s 0 = true ∧ (coreAt (settle 0 s) 0).trapDue = true ∧ (coreAt (settle 0 s) 0).fpDue = true) ∧
    (let s := served { ctPend := [(1, false)] }
     boundaryFree s 0 = true ∧ (coreAt (settle 0 s) 0).trapDue = true ∧ (coreAt (settle 0 s) 0).fpDue = false) ∧
    (let w : WaitM := ⟨3, true, none, 5, true⟩
     let s := served { fpPend := [⟨1, false, 0⟩], wait := some w, ie := true, offers := [⟨5, 3, 2, 0⟩] }
     let t := settle 0 (setCore 0 (fun k => { k with statDue := none, wait := none }) s)
     boundaryFree s 0 = true ∧ (coreAt s 0).wait = some w ∧ (coreAt t 0).trapDue = true ∧ interruptDue t 0 = true) := by
  decide +kernel
theorem witness_TrapsAndFetchFaultsEnter_enters :
    (let k := coreAt (settle 0 (served { fpPend := [⟨1, false, 0⟩], ctPend := [(1, false)] })) 0
     k.ex = false ∧ k.held = [] ∧ ∃ p ∈ k.fpPend, p.sec = k.sec) ∧
    ∀ n ∈ [1, 2], let k := coreAt (settle 0 (served { ctPend := [(n, false)], fpPend := [⟨1, true, 0⟩] })) 0
      k.ex = false ∧ k.held = [] ∧ (∀ p ∈ k.fpPend, p.sec ≠ k.sec) ∧ ((1, k.sec) ∈ k.ctPend ↔ n = 1) := by decide +kernel
theorem witness_TrapsAndFetchFaultsEnter_fetches :
    (let s := served { norB := { tctl := true } }
     atBoundary s 0 = true ∧ mayOpen (settle 0 s) 0 = true ∧ translate (coreAt (settle 0 s) 0) 0 0 .fetch = .miss) ∧
    (let s := served { kernel := false }
     mayOpen (settle 0 s) 0 = true ∧ translate (coreAt (settle 0 s) 0) 0 0 .fetch = .fault 3 0) ∧
    (let s := { served { sec := true } with wld := { locked := true } }
     mayOpen (settle 0 s) 0 = true ∧ translate (coreAt (settle 0 s) 0) 0 0 .fetch = .ok 0 0 false ∧
       memSecure (settle 0 s) 0 ≠ true) := by decide +kernel

/-- A walk for a load of address 4,096, and a one-level table at address 0 whose entry 1 of level 3 permits it. -/
def loadWalk (k : Core) : Core := { k with walk := some ⟨4096, false, false, 0, 3, false, 0, 0⟩ }

theorem witness_TrapsAndFetchFaultsEnter_walks : ∀ h ∈ [none, some ({ cause := 1 } : HaltInfo)],
    let s := served (loadWalk { halt := h })
    (coreAt s 0).walk = some ⟨4096, false, false, 0, 3, false, 0, 0⟩ ∧ (coreAt s 0).halt = h ∧
    (walkTable 0 ⟨4096, false, false, 0, 3, false, 0, 0⟩ [0, 1, 2, 3] 0 (setCore 0 (fun k => { k with walk := none }) s)).2 =
      .stop 1 0 ∧
    (coreAt s 0).fatal = false ∧ (coreAt s 0).on = true ∧
    (walkTable 0 ⟨4096, false, false, 0, 3, false, 0, 0⟩ [0, 1, 2, 3] 0
      (setCore 0 (fun k => { k with walk := none }) { s with drc := { chans := [(0, { sr := true })] } })).2 = .held 0 := by
  decide +kernel

/-- Tables of level 0 at address 0 and of level 1 at 4,096, whose leaf maps the first 2^30 units. -/
def tables : List Host.Cell := [(0, 3), (1, 16), (4608, 0x3d)]

theorem witness_TrapsAndFetchFaultsEnter_leaves :
    let s := { served (loadWalk {}) with mem := tables }
    let r := walkTable 0 ⟨4096, false, false, 0, 3, false, 0, 0⟩ [0, 1, 2, 3] 0 (setCore 0 (fun k => { k with walk := none }) s)
    let e : TlbEntry := ⟨false, 0, false, 1, 0, 0, 0, false, true, true, true, true⟩
    r.2 = .leaf e ∧ checkEntry (coreAt r.1 0) 0 e .load 1 4096 = .ok 4096 0 false := by decide +kernel

/-- A miss of one access, of line 1 or as given, which the crossbar has brought `got`. -/
def lineMiss (kind : MissKind) (store : Bool) (got : Option (Nat × Bool)) (addr : Nat) : Miss :=
  { id := 0, cyc := 0, kind := kind, addr := addr, size := 8, oct := false, side := false, sec := false, got := got
    accs := if kind = .fetch ∨ kind = .fillLocked then [] else [{ store := store, lo := 0, width := 72 }] }

theorem witness_MissesComplete_uncached :
    (let m := lineMiss .uncached false (some (7, false)) 64
     let s := served { misses := [m] }
     mwf none (coreAt s 0).dcache = true ∧ (coreAt s 0).misses[(0 : Fin 16).val]? = some m ∧
       (coreAt s 0).misses.find? (fun x => x.id == m.id) = some m ∧ serving s = true ∧ uncachedReady s 0 m = true ∧
       m.got = some (7, false)) ∧
    (let m := lineMiss .fetch false (some (7, false)) 64
     let s := served { misses := [m] }
     targetOf s m.addr = .dram ∧ m.got = some (7, false) ∧ replyReady s 0 m.id = true) := by decide +kernel
theorem witness_MissesComplete_registers : ∀ store ∈ [false, true],
    let m := lineMiss .uncached store none (2 ^ 44 + 2 * 2 ^ 24 + 4)
    let s := served { misses := [m] }
    let u := if store then (writeReg ⟨0, false⟩ 2 4 72 0 s).1 else (physRead ⟨0, false⟩ false m.addr 8 false false s).1
    m.accs = [{ store := store, lo := 0, width := 72 }] ∧ targetOf s m.addr = .control 2 4 ∧ (coreAt s 0).misses = [m] ∧
    (∀ j ∈ List.range 8, j ≠ 0 → (coreAt s j).misses = []) ∧ (coreAt u 0).misses = [m] ∧ u.slc.xing = [] := by decide +kernel

/-- A machine whose core 0 awaits line 1 as given, and whose core 1 is as given. -/
def filling (k other : Core) : State :=
  let s := served k
  { s with cores := s.cores ++ [(1, other)] }

theorem witness_MissesComplete_sources :
    let m := lineMiss .line false (some (7, false)) 64
    let k : Core := { misses := [m] }
    let f : CLine := { line := 1, bits := 5, dirty := true }
    let e : EvLine := { line := 1, bits := 5, dirty := true }
    let alone := fun (s : State) => ∀ j ∈ siblings 0, dFrame s j 1 = none ∧ evictFind (coreAt s j) 1 = none
    (coreAt (filling k {}) 0).waiting 1 = [] ∧ (∀ j ∈ siblings 0, missOn (coreAt (filling k {}) j) 1 = none) ∧ (∀ a ∈ m.accs, a.op = none ∧ a.olds = []) ∧
    (let s := filling k { dcache := [(8, some f)] }
     1 ∈ siblings 0 ∧ dFrame s 1 1 = some (8, f) ∧ f.bad = 0 ∧ (coreAt s 1).waiting 1 = [] ∧
       ∀ j ∈ siblings 0, j ≠ 1 → dFrame s j 1 = none ∧ evictFind (coreAt s j) 1 = none) ∧
    (let s := filling { k with evict := [e] } {}
     alone s ∧ e ∈ (coreAt s 0).evict ∧ e.dirty = true ∧ e.crossed = false ∧ m.kind ≠ .uncached ∧ ∀ j ∈ 0 :: siblings 0, ∀ x ∈ (coreAt s j).evict, x = e) ∧
    (let s := filling k {}
     alone s ∧ (∀ j ∈ 0 :: siblings 0, (coreAt s j).evict = []) ∧ m.got = some (7, false) ∧ replyReady s 0 m.id = true) := by
  decide +kernel
theorem witness_MissesComplete_frames :
    let m := lineMiss .line false (some (7, false)) 64
    let f : CLine := { line := 65, bits := 5, dirty := true }
    let full : SMap (Option CLine) := (List.range 8).map fun w => (8 + w, some { f with line := 65 + 64 * w })
    let e : EvLine := { line := 2, bits := 5, dirty := true }
    (frameKey 1 0 = 8 ∧ wayMode 1 0 = 1 ∧ mget none (coreAt (served { misses := [m], dway := 1 }) 0).dcache 8 = none) ∧
    (let k := coreAt (served { misses := [m], dway := 1, relock := [(1, 9)] }) 0
     mget 0 k.relock 1 = 8 + 1 ∧ wayMode k.dway (8 % 8) = 1 ∧ mget none k.dcache 8 = none) ∧
    ∀ n ∈ [0, 4], let k := coreAt (served { misses := [m], dcache := full, evict := List.replicate n e }) 0
      mwf none k.dcache = true ∧ mget 0 k.relock 1 = 0 ∧ victimWay k.dcache k.dway 1 = some 0 ∧ mget none k.dcache 8 = some f ∧
        f.bad = 0 ∧ k.waiting 65 = [] ∧ (k.evict.filter fun e => e.victim).length = n := by decide +kernel
theorem witness_MissesComplete_bad :
    let m := lineMiss .line false (some (7, true)) 64
    let r := fillSource 0 m (served { misses := [m] })
    r.2 = some (7, true) ∧ (coreAt r.1 0).fatal = false ∧ ∀ a ∈ m.accs, a.store = false ∧ a.op = none := by decide +kernel

/-! Witnesses for power, start, configuration and islands. -/

/-- A module in a state of R54, with nothing else about it. -/
def inPhase (p : Phase) : State := { cfg := { phase := p } }

theorem witness_LossBeforeServiceEndsInDark :
    State.reset.cfg.phase ∈ [Phase.dark, .charge, .probe, .load, .test, .lock] ∧
    (inPhase .lock).cfg.phase ∈ [Phase.dark, .charge, .probe, .load, .test, .lock] ∧
    criterionApplies 0 (inPhase .lock) = true ∧ criterionApplies 3 { inPhase .lock with pwr := { dcIn := true } } = true := by decide +kernel
theorem witness_RideAndReturn :
    (inPhase .run).cfg.phase = .run ∧ (inPhase .helm).cfg.phase = .helm ∧ (inPhase .ride).cfg.phase = .ride ∧
    (inPhase .ride).isl.chron < (inPhase .ride).pwr.rideFrom + rideTime (inPhase .ride) ∧
    (let s := { inPhase .ride with isl := { chron := rideTime (inPhase .ride) } }
     s.pwr.rideFrom + rideTime s ≤ s.isl.chron) ∧ (inPhase .dark).cfg.phase = .dark ∧ criterionApplies 2 (inPhase .run) = true ∧
    (∀ p ∈ [Phase.dark, .ride], validAgain ⟨false, 80, 180, 0⟩ (inPhase p) = true) := by decide +kernel
theorem witness_InputConditionsAreReported :
    (let s := { inPhase .run with pwr := { line := 1 } }
     s.pwr.line = 1 ∧ (⟨true, 250, 0, 0⟩ : MainsInput).dc = true ∧ (⟨false, 184, 200, 0⟩ : MainsInput).dc = false ∧
       184 ≤ (⟨false, 184, 200, 0⟩ : MainsInput).vin.toNat) ∧
    ({ inPhase .helm with pwr := { line := 3 } }).pwr.line ≠ 1 ∧ (⟨false, 175, 200, 0⟩ : MainsInput).vin.toNat < 176 ∧
    (inPhase .charge).pwr.loss = false ∧ excursion ⟨false, 84, 180, 0⟩ = true ∧ inRange ⟨false, 85, 188, 0⟩ = true ∧
    145 ≤ (145 : BitVec 8).toNat ∧ 115 ≤ (115 : BitVec 8).toNat ∧ (109 : BitVec 8).toNat < 110 := by decide +kernel
theorem witness_StartRunsThroughItsStates :
    (inPhase .charge).cfg.phase = .charge ∧ (inPhase .charge).pwr.chargeOff = false ∧ (inPhase .probe).pwr.tmoVolt = none ∧
    ({ inPhase .probe with pwr := { tmoVolt := some 4700 } }).pwr.tmoVolt ≠ none ∧ (inPhase .load).cfg.loadIn = false ∧
    (let s : State := { cfg := { phase := .load, loadIn := true } }
     s.cfg.held = false ∧ (copyFault (flashCopy s false)).isSome = true ∧ (copyFault (flashCopy s true)).isSome = true) ∧
    (inPhase .test).cfg.phase = .test ∧ (inPhase .lock).cfg.phase = .lock := by decide +kernel
theorem witness_VaultAndReservoirCommands :
    (let s := { inPhase .vault with pwr := { vault := .stopped } }
     s.cfg.phase = .vault ∧ s.pwr.vaultStop = none ∧ s.nv.newest ≠ some false ∧ ({ s with nv := { newest := some false } }).nv.newest = some false) ∧
    ({ inPhase .vault with pwr := { vault := .closed } }).pwr.vault = .closed ∧
    (reach rqN (served {}) = true ∧ rqN.sec = blockSec (served {}) Unit.pwr ∧
      (1 : Word).getLsbD 1 = false ∧ (1 : Word).getLsbD 0 = true ∧
      (let v : Word := 0o123321000002
       v.getLsbD 1 = true ∧ v.toNat / 2 ^ 18 = 0o123321 ∧ v.getLsbD 0 = false)) ∧
    ({ served {} with pwr := { reprobing := true } }).pwr.reprobing = true ∧ (served {}).pwr.chargeOff = false ∧
    (let s : State := { cfg := { phase := .helm, hwait := true } }
     s.cfg.phase = .helm ∧ s.cfg.hwait = true) := by decide +kernel
theorem witness_ProtectionActions :
    (∀ r ∈ [(0 : Fin 78), 51, 53, 76], r.val ≠ 52 ∧ r.val ≠ 77) ∧ ((77 : Fin 78).val = 52 ∨ (77 : Fin 78).val = 77) ∧
    4801 ≤ (4801 : BitVec 16).toNat ∧ (4800 : BitVec 16).toNat < 4801 ∧ (1049 : BitVec 16).toNat < 1050 ∧
    145 ≤ (155 : BitVec 8).toNat ∧ (144 : BitVec 8).toNat < 145 ∧ logicalOf (served {}) 1 = none ∧
    (0 : IslandId).val ≠ 52 ∧ 165 ≤ (165 : BitVec 8).toNat ∧ tjOf (served {}) (0 : PTileId).val < 135 ∧ (52 : IslandId).val = 52 ∧ (inPhase .ride).cfg.phase ∈ [Phase.run, .helm, .ride] ∧
    logicalOf (served {}) (0 : PTileId).val = some 0 ∧ (inPhase .vault).cfg.phase = .vault := by decide +kernel

/-- A Bearing image copy that holds one section, given by its number and the octets at its start. -/
def oneSection (id : Nat) (fields : List (Nat × Nat)) : FlashCopy :=
  [(24, 1), (25, 0), (26, 0), (27, 0), (192, id), (193, 0), (194, 0), (195, 0), (200, 0), (201, 1), (202, 0), (203, 0)] ++
    fields.map fun e => (256 + e.1, e.2)

/-- The machine in service with that copy in use. -/
def withImage (id : Nat) (fields : List (Nat × Nat)) (k : Core) : State :=
  { served k with
      cfg := { (served k).cfg with copy := 1 }
      nv := { copyA := oneSection id fields } }

theorem witness_IllegalSyllables_modes :
    (let s := withImage 12 [(36, 0), (37, 0), (38, 0), (39, 0)] {}
     MayIssue (syl 3) s ∧ (openedCore (syl 3) s).dly = 0 ∧ hasSecureImage s 0 = false) ∧
    (let s := served (page false { kernel := false })
     MayIssue (syl 3) s ∧ (openedCore (syl 3) s).sec = false ∧ (openedCore (syl 3) s).kernel = false ∧
       hasSecureImage s 0 = true ∧ tileSec s 0 = false) ∧
    (let s := { served { sec := true } with wld := { locked := true, dwm := 1, tiles := 1 } }
     MayIssue (syl 3) s ∧ (openedCore (syl 3) s).dly = 0 ∧ (openedCore (syl 3) s).sec = true ∧ tileSec s 0 = true) := by
  unfold MayIssue; decide +kernel

theorem witness_ConfigurationWrites_alternates :
    let t := withImage 5 ([(0, 2), (1, 0), (2, 0), (3, 0)] ++ (List.range 8).map fun i => (96 + i, if i = 0 then 1 else 0)) {}
    let s := { t with cfg := { t.cfg with nalt := 2 } }
    (9 : Word).getLsbD 3 = true ∧ s.cfg.phase = .run ∧ (9 : Word).toNat % 8 ≠ s.cfg.cur ∧ (9 : Word).toNat % 8 < s.cfg.nalt ∧
    altMatches s ((9 : Word).toNat % 8) = true ∧ s.cfg.noAlt = false ∧
    altMatches { s with cfg := { s.cfg with phase := .helm } } 1 = true := by decide +kernel
theorem witness_ConfigurationWrites :
    (let s := served {}
     rqN.sec = blockSec s Unit.cfg ∧ reach rqN s = true ∧ (8 : Word).getLsbD 3 = true ∧ (8 : Word).toNat % 8 = s.cfg.cur ∧
       s.cfg.held = false ∧ s.cfg.updBusy = false ∧ ∀ b : Bool, s.cfg.copy ≠ (if b then 2 else 1)) ∧
    (withImage 5 [] {}).cfg.copy = (if false then 2 else 1) ∧
    (∀ n ∈ [1, 2, 3], ({ served {} with cfg := { updBusy := true, updOp := n } }).cfg.updOp = n) := by decide +kernel

theorem witness_StepRules :
    (tileRunning (served {}) 0 = true ∧ (tileIsl (served {}) 0).target = (tileIsl (served {}) 0).step ∧
      mwf {} (served {}).isl.tiles = true ∧ runningNbrs (served {}) 0 = []) ∧
    ∀ low ∈ [false, true],
      let x : TileIsl := { state := .run, ceil := if low then 0 else 15, step := 5, target := 5, req := 5 }
      let y : TileIsl := { state := .run, ceil := 15, step := 12, target := 12, req := 12 }
      let s : State := { served {} with cfg := { phase := .run, lmap := [(0, some 0), (1, some 1)] }, isl := { tiles := [(0, x), (1, y)] } }
      mwf {} s.isl.tiles = true ∧ tileRunning s 0 = true ∧ tileIsl s 0 = x ∧ tileIsl s 1 = y ∧ runningNbrs s 0 = [1] ∧
      runningNbrs s 1 = [0] ∧ 12 = min (upperBound s 1) y.req ∧ 11 - secX s 3 0 1 0 = 11 ∧ 12 ≤ x.step + 11 ∧
      (low = false → 12 ≤ min x.ceil 15 + 11) ∧ (low = true → x.ceil + 11 < 12) := by decide +kernel
theorem witness_StepsAndTemperatureHolds :
    let isl := fun (x : TileIsl) => ({ served {} with isl := { tiles := [(0, { x with state := .run })], tj := [(0, 200)] } } : State)
    (let s := isl {}
     mwf {} s.isl.tiles = true ∧ reach rqN s = true ∧ rqN.sec = tileSec s 0 ∧ inMask s 0 = true ∧
       (7 : Word).toNat / 16 % 8 = 0 ∧ (tileIsl s 0).state = .run ∧ tileRunning s 0 = true ∧ runningNbrs s 0 = [] ∧
       mwf 0 s.isl.tj = true ∧ logicalOf s 0 = some 0 ∧ islOf s 0 = 0 ∧ (tileIsl s 0).tempBy = [] ∧
       (tileIsl s 0).tempOn = false ∧ tjOf s 52 + tempLimit s < 200) ∧
    (let s : State := { served {} with
        cfg := { phase := .run, lmap := [(0, some 0), (1, some 1)] }
        isl := { tiles := [(0, { state := .run }), (1, { state := .run, step := 15 })] } }
     adjacent s 0 = (none, some 1) ∧ tileRunning s 1 = true ∧ (tileIsl s 1).stretch = [] ∧
       200 * stepMHz 0 < stepMHz 15 * (100 + (1 : Fin 101).val)) ∧
    (tileIsl (isl { changing := true }) 0).changing = true ∧
    ((tileIsl (isl { tempOn := true }) 0).tempOn = true ∧
      (hotterThan (isl { tempOn := true }) 0 (tempLimit (isl { tempOn := true }))).isSome = true) ∧
    (let s : State := { isl { tempOn := true, tempHold := 5, ceil := 15 } with isl := { tiles := [(0, { tempOn := true, tempHold := 5, ceil := 15, state := .run })] } }
     hotterThan s 0 (tempLimit s - 5) = none ∧ (tileIsl s 0).tempHold + 1 < min (tileIsl s 0).req (tileIsl s 0).ceil) ∧
    (let s : State := { served {} with isl := { tiles := [(0, { state := .run, tempOn := true, tempHold := 14, ceil := 15, tempBy := [52] })] } }
     hotterThan s 0 (tempLimit s - 5) = none ∧
       min (tileIsl s 0).req (tileIsl s 0).ceil ≤ (tileIsl s 0).tempHold + 1 ∧ (tileIsl s 0).tempBy = [52]) := by decide +kernel
theorem witness_TilePowerStates_requests :
    (16 : Word).toNat / 16 % 8 ∈ [1, 2, 3] ∧ (48 : Word).toNat / 16 % 8 = 3 ∧ cannotReload (served {}) 0 = false ∧
    (32 : Word).toNat / 16 % 8 = 2 ∧ (tileIsl (served {}) 0).state = .run ∧ 3 < (64 : Word).toNat / 16 % 8 ∧ 3 < (0o177 : Word).toNat / 16 % 8 ∧
    reach rqN (served {}) = true ∧ rqN.sec = tileSec (served {}) 0 ∧ inMask (served {}) 0 = true := by decide +kernel
theorem witness_TilePowerStates_entries :
    let asleep : SMap Core := (List.range 8).map fun i => (i, { on := true, dozing := true })
    let s := fun (x : TileIsl) => ({ served {} with cores := asleep, isl := { tiles := [(0, x)] } } : State)
    (∀ n ∈ [1, 2, 3], entryBegun (s { state := .run, pend := n }) 0 = true ∧ tileRunning (s { state := .run, pend := n }) 0 = true ∧
      available (s { state := .run, pend := n }) 0 = true ∧ (tileIsl (s { state := .run, pend := n }) 0).pend = n ∧
      quiet (s { state := .run, pend := n }) 0 = true ∧ serving (s { state := .run, pend := n }) = true) ∧
    tileClean (flushTile 0 (s { state := .run, pend := 2 })) 0 = true ∧
    (let d : Core := { dcache := [(8, some { line := 1, bits := 5, dirty := true })] }
     tileClean (flushTile 0 { served d with isl := { tiles := [(0, { state := .run, pend := 2 })] } }) 0 = false) ∧
    ((tileIsl (s { state := .nap, exiting := true }) 0).state = .nap ∧ (tileIsl (s { state := .nap, exiting := true }) 0).exiting = true ∧
      (tileIsl (s { state := .nap, exiting := true }) 0).pend = 0) ∧
    (let k : Core := { on := true, dozing := true, stores := [{ line := 1, lo := 0, width := 9, val := 3, cached := true }] }
     let u := { s { state := .run, pend := 3 } with cores := (0, k) :: asleep.drop 1, drc := { chans := [(0, { sr := true })] } }
     entryBegun u 0 = true ∧ quiet u 0 = true ∧ (heldStores u 0).isEmpty = false) ∧
    ((tileIsl (s { state := .darkKeep, closing := true }) 0).closing = true ∧ mwf {} (s {}).cores = true) ∧
    ((tileIsl (s { state := .nap }) 0).state = .nap ∧ inMask (s { state := .nap }) 0 = true) ∧
    ({ s { state := .nap } with slc := { xing := [{ tile := 0, intr := some 5 }] } }).slc.xing[0]? = some { tile := 0, intr := some 5 } ∧
    ∀ x ∈ [TileState.darkKeep, .darkLose], (tileIsl (s { state := x, exiting := true }) 0).exiting = true ∧
      inMask (s { state := x, exiting := true }) 0 = true ∧ serving (s { state := x, exiting := true }) = true ∧
      reloadHeld (s { state := x, exiting := true }) 0 = none := by decide +kernel
theorem witness_TilePowerStates_reloads :
    let fields := (List.range 40).map fun i => (i, if i = 4 then 72 else if i = 13 then 4 else if i = 24 then 64 else 0)
    let s := { withImage 12 fields {} with isl := { tiles := [(0, { exiting := true })] }, drc := { chans := [(0, { sr := true })] } }
    available s 0 = true ∧ inMask s 0 = true ∧ serving s = true ∧ (tileIsl s 0).state = .darkLose ∧
    (tileIsl s 0).exiting = true ∧ reloadHeld (removePower 0 s) 0 = some 1 := by decide +kernel
theorem witness_TilePowerStates_crossings :
    let y : XItem := { tile := 0, line := 2 ^ 36, parts := [(0, 36, 5)], rq := rqN, flag := some (0, 3) }
    let s := { served {} with slc := { xing := [y] } }
    s.slc.xing[0]? = some y ∧ (s.slc.xing.take 0).all (fun z => z.tile != y.tile) = true ∧ (9 : BitVec 18).toNat ≤ 9 ∧
    available s y.tile = true ∧ (tileIsl s y.tile).state = .run ∧
    (let b : BLine := ⟨0, portOfLine 3, 0, .back 0 0 3⟩
     let u := { served {} with slc := { bound := [b], toHub := [b] } }
     (hubBound u)[0]? = some b ∧ ((hubBound u).takeWhile fun z => z != b) = []) := by decide +kernel
theorem witness_CoreStartState : mwf {} (served {}).cores = true ∧ (runImage (served {}) (0 / 8) true).len ≠ 0 ∧
    (runImage (served {}) (0 / 8) false).len ≠ 0 := by decide +kernel
theorem witness_DoorbellsCountAndFire :
    (let s := { served {} with wld := { locked := true, iwm := 8 }, ivc := { bells := [⟨7, 0, false⟩] } }
     (7 < s.wld.iwm) ∧ reach rqN s = true) ∧
    (let r : Router := { routes := [(8, { routed := true, en := true, ctime := 3 })], srcs := [(8, { timer := true, cnt := 254 })] }
     let s := { served {} with ivc := r }
     s.wld.iwm ≤ 9 ∧ (routeAt s 9).routed = false ∧ (routeAt s 8).routed = true ∧ (srcAt s 8).cnt < 255 ∧
       (srcAt s 8).timer = true ∧ (routeAt s 8).ctime ≠ 0 ∧ (routeAt s 8).en = true ∧
       (2 ^ 24 : BitVec 72).toNat / 2 ^ 24 % 256 ≠ 0) := by decide +kernel

/-- A core with a delivery of level 3 offered, and a router that holds source 5 for it. -/
def offered : Core := { ie := true, offers := [⟨5, 3, 2, 0⟩] }
def router : Router := { routes := [(5, { routed := true, en := true, level := 3, vec := 2 })], wait := [5], flying := [5] }

theorem witness_DeliveriesReachTheCore :
    let s := { served offered with ivc := router }
    s.ivc.wait.find? (fun q => (routeAt s q).tile == 0) = some 5 ∧ deliverable s 0 = true ∧ (tileIsl s 0).state = .run ∧
    s.ivc.flying.find? (fun q => (routeAt s q).tile == 0) = some 5 ∧ (coreAt s 0).dozing = false ∧ tileRunning s 0 = true ∧
    (s.slc.xing.any fun x => x.tile == 0 && x.bell == some 5) = false ∧
    ∀ t ∈ [s, { served { offered with wait := some ⟨3, true, none, 5, true⟩ } with ivc := router }],
      let u := (entryBoundary 0 t).1
      boundaryFree t 0 = true ∧ interruptDue u 0 = true ∧ stackFaultDue u 0 = false ∧ (coreAt u 0).trapDue = false ∧
        bestOffer (coreAt u 0) = some ⟨5, 3, 2, 0⟩ := by decide +kernel
theorem witness_StackFaultsAndWatchdogs :
    (let s := served { fpend := some 7 }
     let t := (entryBoundary 0 s).1
     boundaryFree s 0 = true ∧ (coreAt t 0).fpend = some 7 ∧ stackFaultDue t 0 = true ∧ (coreAt t 0).trapDue = false) ∧
    (∀ n ∈ [1, 2], let k := coreAt (served { wd := { en := true, state := n } }) 0
      k.on = true ∧ k.halt = none ∧ k.fatal = false ∧ k.wd.en = true ∧ k.wd.state = n) := by decide +kernel

/-- A machine with queue 3 as given: a ring of 16 elements. -/
def queued (r : QRec) (q : QState) : State :=
  { served {} with slc := { qrecs := [(3, some r)], queues := [(3, q)] } }

theorem witness_QueueRegisterWrites :
    (qrec (served {}) 3 = none ∧ reach rqN (served {}) = true ∧ (queueSec (served {}) 3 = true → rqN.sec = true)) ∧
    (let s := queued {} { head := 131071, tail := 14, dcount := 5, rcount := 131070 }
     mwf {} s.slc.queues = true ∧ qrec s 3 = some {} ∧ (queueSec s 3 = true → rqN.sec = true) ∧
       (14 + 2 ^ 17 - 131071) % 2 ^ 17 + 1 ≤ 2 ^ (0 + 4) ∧ 2 ^ (0 + 4) < (14 + 2 ^ 17 - 131071) % 2 ^ 17 + 2 ∧
       (5 + 2 ^ 17 - 131070) % 2 ^ 17 ≤ (5 + 2 ^ 17 - 131070) % 2 ^ 17 ∧
       (5 + 2 ^ 17 - 131070) % 2 ^ 17 < (6 + 2 ^ 17 - 131070) % 2 ^ 17) := by decide +kernel

/-! Witnesses for the sluice engine, the culverts and the chart engine. -/

/-- An almanac whose slots 0 and 65,535 are of kind 0, 1 or 2, and an engine that runs it. -/
def almanac (kind : Nat) (next : Nat) : State :=
  { withImage 5 [(72, 128), (73, 0), (74, 0), (75, 0), (132, 4 * kind), (128 + 294911, 0x3f + 64 * kind)] {} with
      slc := { mode := 1, next := next } }

theorem witness_SlotsRunTheSchedule_almanac : serving (almanac 0 0) = true ∧ (almanac 0 0).slc.mode = 1 ∧
    slotEntry (almanac 0 0) 0 0 / 2 ^ 34 % 4 = 0 ∧ slotEntry (almanac 1 0) 0 0 / 2 ^ 34 % 4 = 1 ∧
    slotEntry (almanac 2 0) 0 0 / 2 ^ 34 % 4 = 2 ∧ slotEntry (almanac 0 65535) 0 65535 / 2 ^ 34 % 4 = 0 ∧
    slotEntry (almanac 1 65535) 0 65535 / 2 ^ 34 % 4 = 1 ∧ slotEntry (almanac 2 65535) 0 65535 / 2 ^ 34 % 4 = 2 := by
  decide +kernel
theorem witness_SlotsRunTheSchedule_management :
    let s : State := { served {} with slc := { mode := 2 }, cfg := { phase := .helm } }
    serving s = true ∧ (mgmtDitches (mgmtPattern s)).all (fun d => !ditchEligible (mgmtPattern s) d) = true ∧
    s.cfg.phase ≠ .vault ∧ leavesHelm s = false ∧ s.cfg.pend = false := by decide +kernel

/-- A machine in which ditch 5 serves queue 3, with one element in the ring: of a tile, or of a culvert. -/
def granting (culv : Bool) : State :=
  { served {} with slc := { mode := 2, qrecs := [(3, some { culv := culv })], queues := [(3, { tail := 1 })]
                            ditches := [(5, { qfirst := 3, nq := 1, burst := 1 })] } }

theorem witness_SlotsRunTheSchedule_grants : ∀ culv ∈ [false, true],
    let s := granting culv
    serving s = true ∧ mwf {} s.slc.queues = true ∧ mwf {} s.slc.ditches = true ∧ mwf none s.slc.delivs = true ∧
    qrec s 3 = some { culv := culv } ∧ eligible s 3 = true ∧ pickQueue s (ditchAt s 5) = some 0 ∧ available s 0 = true ∧
    (let m := mgmtPattern (granting true)
     (mgmtDitches m).find? (ditchEligible m) = some 5) := by decide +kernel
theorem witness_SlotsRunTheSchedule_donates :
    let img := withImage 5 [(82, 1), (83, 0), (84, 128), (85, 0), (86, 0), (87, 0), (128, 1), (160, 5), (161, 0)] {}
    let s := { img with slc := (granting false).slc }
    0 < altNring s s.cfg.cur ∧ ringMembers s s.cfg.cur 0 = [5] ∧ ditchEligible s 5 = true ∧
    ditchEligible { s with slc := {} } 5 = false ∧ altNring s s.cfg.cur ≤ 1 := by decide +kernel
theorem witness_SlotsRunTheSchedule_patterns : ∀ src ∈ [0o60, 0o61],
    let b : BLine := ⟨src, 0, 0, .elem 3 0 0 hubLine0⟩
    let img := withImage 5 [(76, 192), (77, 0), (78, 0), (79, 0), (192, 0o60), (193, 0)] {}
    let s := { img with slc := { qrecs := [(3, some {})], bound := [b] } }
    let s' := newCycle (some (0, 0)) s
    s.slc.headers = [] ∧ b.src ≠ unconnected ∧ patSource s' 0 0 b.dst = 0o60 ∧ holds s' b = true ∧
    canLeave (Sys2Proof.Machine.offered (spend b.dst s')) b = true := by decide +kernel
theorem witness_DeliveriesCommit : ∀ b ∈ [true, false],
    let x : Deliv := ⟨2, 0, 2, 0, 2, false⟩
    let s : State := { served {} with slc := {
        qrecs := [(3, some { culv := b, dbe := b })], queues := [(3, { head := 131071, busy := true })], delivs := [(3, some x)]
        bound := [⟨0, 0, 5, .elem 3 0 0 0⟩] } }
    mwf {} s.slc.queues = true ∧ mwf none s.slc.delivs = true ∧ mget none s.slc.delivs 3 = some x ∧
    qrec s 3 = some { culv := b, dbe := b } ∧ x.hdr = 2 ∧ firstBound s 3 = some ⟨0, 0, 5, .elem 3 0 0 0⟩ ∧
    x.stalled = false ∧
    mget none { s.slc with delivs := [(3, some { x with stalled := true })] }.delivs 3 = some { x with stalled := true } := by
  decide +kernel

/-- A descriptor of 64 octets from DRAM address 0 to DRAM address 128, and one of a source kind, from `a`. -/
def copying (sk : Nat) (a : Nat) : Desc :=
  { l0 := sk * 2 ^ 33 + 64 * 2 ^ 36 + a * 2 ^ 108 + 128 * 2 ^ 180, l1 := 0, elines := 1, queue := 3, sec := false }

/-- A machine whose culvert 0 is as given. -/
def flowing (k : Culvert) : State := { served {} with cul := { culs := [(0, k)] } }

theorem witness_CulvertTransfersRun_descriptors :
    (culAt (flowing { queued := [copying 0 0] }) 0).queued = [copying 0 0] ∧
    (copying 0 0).cut = false ∧ badFormat (flowing {}) (copying 0 0) = false ∧ badFormat (flowing {}) (copying 6 0) = true := by decide +kernel
theorem witness_CulvertTransfersRun_starts :
    let s := flowing { held := [{ desc := copying 0 0 }] }
    let w := { s with wld := { locked := true, dwm := 1 } }
    let d := copying 0 0
    lineFault s (culReq 0 false) d.sk false (endLines d.sk d.saddr d.lines) = none ∧
    lineFault s (culReq 0 false) d.dk true (endLines d.dk d.daddr d.lines) = none ∧ d.ciph = 0 ∧ d.sk < 3 ∧ d.dk ≠ 3 ∧
    (lineFault w (culReq 0 false) d.sk false (endLines d.sk d.saddr d.lines)).isSome = true ∧
    (let e := copying 0 (2 ^ 21)
     lineFault w (culReq 0 false) e.sk false (endLines e.sk e.saddr e.lines) = none ∧
       (lineFault w (culReq 0 false) e.dk true (endLines e.dk e.daddr e.lines)).isSome = true) := by decide +kernel
theorem witness_CulvertTransfersRun_hosts :
    let h : Held := { desc := copying 3 100, stage := .moving, octets := [(0, List.replicate 8 7)] }
    (let s := flowing { held := [{ h with reqs := [(100, 64, 0)] }] }
     s.cul.late = [] ∧ (∀ h' ∈ (culAt s 0).held, h'.unasked = []) ∧
       (requestAt s 0 109).isSome = true ∧ (requestAt s 0 100).isSome = true ∧ (leastTimeout s h.desc.vi).isSome = true) ∧
    h.stage = .moving ∧ h.desc.sk = 3 ∧ h.ready = false ∧ h.fail = none ∧ 0 < h.desc.len ∧ (109 : BitVec 64).toNat < h.desc.saddr + h.desc.len ∧
    (hostRun h.octets (h.octets.length + 1) 0).length + h.desc.saddr < (109 : BitVec 64).toNat ∧
    (100 : BitVec 64).toNat = h.desc.saddr ∧ h.desc.ciph = 0 := by decide +kernel
theorem witness_CulvertTransfersRun_points :
    let o : OutItem := { kind := .mem 0 [], octets := 64 }
    let h : Held := { desc := copying 0 0, stage := .moving, last := true, outs := [o] }
    let s := flowing { held := [h] }
    (culAt s 0).held = [h] ∧ outTakes s 0 o = true ∧ outTakes { s with drc := { chans := [(0, { sr := true })] } } 0 o = false := by
  decide +kernel
theorem witness_CulvertTransfersRun_ends :
    let d := { copying 0 0 with l0 := (copying 0 0).l0 + 2 ^ 20 + 3 * 2 ^ 252 }
    let s := { queued {} {} with cul := { culs := [(0, { held := [{ desc := d, stage := .pointed }] })] } }
    writesVisible s 0 = true ∧ elementDue { desc := d, stage := .pointed } = false ∧ d.cqv = true ∧
    (qrec s d.cq).isSome = true ∧ queueSec s d.cq = d.sec ∧ ringRoom s d.cq = true ∧ elementHeld s d.cq = false := by decide +kernel
theorem witness_CulvertAbortsAndKeys :
    (let s := flowing { held := [{ desc := copying 0 0 }] }
     mwf {} s.cul.culs = true ∧ reach rqN s = true ∧ (copying 0 0).tag = (0 : Word).toNat ∧ (copying 0 0).sec = false ∧
       (∀ h ∈ (culAt s 0).held, h.desc.tag ≠ (1 : Word).toNat) ∧ (culAt s 0).queued = [] ∧ coming s 0 = []) ∧
    (let s := { flowing {} with wld := { locked := true, kwm := 256 } }
     decide ((256 : BitVec 16).toNat < s.wld.kwm) = rqN.sec ∧ decide ((255 : BitVec 16).toNat < s.wld.kwm) = rqS.sec ∧
       decide ((255 : BitVec 16).toNat < s.wld.kwm) ≠ rqN.sec) ∧ 1 ≤ (4 : BitVec 3).toNat ∧ (4 : BitVec 3).toNat ≤ 4 := by
  decide +kernel

/-- A chart of stash entries only, 960 secure and 64 normal, with keys of one word, whose normal channel 5 is as given. -/
def charted (c : Chan) : State :=
  { withImage 7 [(2, 15), (3, 5), (73, 1)] {} with cht := { chans := [(5, c)], queue := [5], stash := [(2 ^ 27, makeEntry 9 3)] } }

theorem witness_ChartCommandsAreAccepted :
    reach rqN (charted {}) = true ∧ rqN.sec = decide (5 < schan (charted {})) ∧ rqS.sec = decide (4 < schan (charted {})) ∧
    (chanAt (charted {}) 5).busy = false ∧ (chanAt (charted { busy := true }) 5).busy = true := by decide +kernel
theorem witness_ChartBadKeysChangeNothing :
    let s := charted { busy := true, cmd := 2 ^ 33, buf := [(1, 1)] }
    mwf {} s.cht.chans = true ∧ s.cht.queue = [5] ∧ badKey s false (bufWords (chanAt s 5) 0 4) = true ∧
    (chanAt s 5).cmd / 2 ^ 33 % 8 ∈ [1, 2, 3, 4] := by decide +kernel
theorem witness_ChartCommandsCommit : ∀ n ∈ [9, 8],
    let s := charted { busy := true, cmd := 2 ^ 33, buf := [(0, n)] }
    let es := (examine false (keyPositions s false n) s).2
    s.cht.queue = [5] ∧ decide (5 < schan s) = false ∧ bufWords (chanAt s 5) 0 4 = n ∧ badKey s false n = false ∧
    missingLines es = [] ∧ anyError es = false ∧ presentAt n es = (if n = 9 then some (0, makeEntry 9 3) else none) := by
  decide +kernel
theorem witness_ChartCommandsCommit_missing :
    let s := { withImage 7 [(2, 15), (3, 5), (72, 1), (73, 1)] {} with
      cht := { chans := [(5, { busy := true, cmd := 2 ^ 33, buf := [(0, 9)] })], queue := [5] } }
    badKey s false 9 = false ∧ (missingLines (examine false (keyPositions s false 9) s).2).isEmpty = false := by decide +kernel
theorem witness_ChartCommandsCommit_inserts : ∀ share ∈ [15, 16],
    let s := { withImage 7 [(2, share), (3, 5), (73, 1)] {} with
      cht := { chans := [(5, { busy := true, cmd := 2 * 2 ^ 33, buf := [(0, 8)] })], queue := [5] } }
    let es := (examine false (keyPositions s false 8) s).2
    badKey s false 8 = false ∧ missingLines es = [] ∧ anyError es = false ∧ presentAt 8 es = none ∧ chartNb s false = 0 ∧
    (((List.range (stashShare s false)).filter fun p => es.any fun x => x.1 == p && isFree x).head? =
      if share = 15 then some 0 else none) := by decide +kernel
theorem witness_ChartCommandsCommit_scans :
    let s := charted { cmd := 5 * 2 ^ 33 }
    let marked := setPlaneBit true false 0 true s
    (chartEntry false 0 s).2 = .bits (makeEntry 9 3) ∧ entryValid (makeEntry 9 3) = true ∧ entryValid 0 = false ∧
    entryIdle (planesAccess false 0 s) false 0 = true ∧ entryIdle (planesAccess false 0 marked) false 0 = false ∧
    chartEnd s false = 64 := by decide +kernel
theorem witness_ChartCommandsCommit_positions : let s := charted { cmd := 6 * 2 ^ 33 + 64 }
    (chanAt s 5).cmd / 2 ^ 33 % 8 = 6 ∧ chartEnd s false ≤ (chanAt s 5).cmd % 2 ^ 26 ∧ 63 < chartEnd s false ∧
    (chartEntry false 63 s).2 = .bits 0 ∧
    (match (ageScan false 16384 0 s).2 with
      | .code _ _ _ => true
      | .fetch _ => false) = true := by decide +kernel
theorem witness_ChartLookupsReachTheirRings :
    (let x : Lookup := ⟨0, false, 9, 0⟩
     let s := { charted {} with
       cul := { lane := [x] }, cht := { (charted {}).cht with waits := [x], writes := [(4, 5)] }
       slc := { joined := [(portChart, 0o104)] } }
     s.cul.lane = [x] ∧ s.cht.waits.find? (fun x => x.cul == 0) = some x ∧
       missingLines (examine false (keyPositions s false 9) s).2 = [] ∧ s.cht.writes = [(4, 5)] ∧
       connected s portChart (portOfLine 4) = true ∧ s.slc.spent.contains (portOfLine 4) = false ∧ lineTakes s 4 = true ∧
       s.slc.touched.contains 4 = false) ∧
    (let h : Held := { desc := copying 0 0, stage := .pointed, key := some 9, look := some ⟨true, true, false, 0, 3⟩ }
     let s := { queued {} {} with cul := { culs := [(0, { held := [h] })] } }
     writesVisible s 0 = true ∧ elementDue h = true ∧ elementQueue s false (3 % 2 ^ 20) = true ∧ ringRoom s 3 = true ∧
       elementHeld s 3 = false) := by
  decide +kernel

/-! Witnesses for the virtual interfaces. -/

/-- VI 0 alone, shadowed (1) or mirrored (0), synchronous or not, a PF (0) or VF 1 of group 0, in a group that is up. -/
def hosted (shadow sync vf : Nat) (x : Vi) : State :=
  { withImage 8 [(0, 1), (1, 0), (1088, 0), (1089, 0), (1090, vf), (1091, 0), (1092, shadow), (1094, sync), (1096, 4), (1097, 0),
      (1112, 3), (1113, 0), (1114, 0), (1115, 0), (1116, 0), (1117, 0), (1118, 0), (1119, 0)] {} with
      vif := { vis := [(0, x)], pfs := [(0, { enable := true, numVfs := 1 })] }
      prt := { groups := [(0, { width := 3, rate := 1 })] } }

theorem witness_HostWritesReachTheInterface_mirrored :
    let s := hosted 0 0 0 { bme := true }
    mwf {} s.vif.vis = true ∧ mwf 0 (viAt s 0).dbval = true ∧ mwf {} (viAt s 0).errs = true ∧ windowState s 0 = 1 ∧
    12 + 4 ≤ bar0Size s 0 ∧ bar0Size s 0 < 4093 + 4 ∧ viShadowed s 0 = false ∧ 12 % 4 = 0 ∧ 12 / 4 < viNq s 0 ∧ viNq s 0 ≤ 16 / 4 ∧
    0o3774 % 4 = 0 ∧ (0o2374 - 0o2000) / 16 < viNvec s 0 := by decide +kernel
theorem witness_HostWritesReachTheInterface_shadowed :
    let s := hosted 1 0 0 { bme := true }
    let t := { s with slc := { qrecs := [(3, some {})] } }
    windowState s 0 = 1 ∧ 4088 + 8 ≤ bar0Size s 0 ∧ viShadowed s 0 = true ∧ 4088 % 8 = 0 ∧ ringRoom t (viSwq t 0) = true ∧
    ringRoom s (viSwq s 0) = false := by decide +kernel
theorem witness_HostWritesReachTheInterface_helm :
    let s := { hosted 0 0 0 {} with cfg := { phase := .helm, copy := 1 } }
    windowState s 0 = 2 ∧ windowState (hosted 0 0 0 { d3 := true }) 0 = 3 ∧ viReachable (hosted 0 0 0 { d3 := true }) 0 = true ∧
    viVf (hosted 0 0 0 { d3 := true }) 0 = 0 ∧ windowState (hosted 0 0 0 { reset := true }) 0 = 3 ∧
    (let u := { hosted 0 0 0 {} with prt := {} }
     windowState u 0 = 0 ∧ serving u = true) := by decide +kernel
theorem witness_HostReadsAndServiceWrites_reads :
    windowState (hosted 1 0 0 {}) 0 = 1 ∧ 4032 + 64 ≤ bar0Size (hosted 1 0 0 {}) 0 ∧ ¬4033 + 64 ≤ bar0Size (hosted 1 0 0 {}) 0 ∧
    viShadowed (hosted 1 0 0 {}) 0 = true ∧ serving (hosted 1 0 0 {}) = true ∧ 0 < nvi (hosted 1 0 0 {}) ∧
    viGroup (hosted 1 0 0 {}) 0 < 8 ∧ groupUp (hosted 1 0 0 {}) 0 = true ∧ viSync (hosted 1 0 0 {}) 0 = false ∧
    viSync (hosted 1 1 0 { spost := 1 }) 0 = true ∧ (viAt (hosted 1 1 0 { spost := 1 }) 0).sack ≠ 1 ∧
    windowState { hosted 1 0 0 {} with cfg := { phase := .helm, copy := 1 } } 0 = 2 ∧
    windowState (hosted 1 0 0 { reset := true }) 0 = 3 ∧ windowState { hosted 1 0 0 {} with prt := {} } 0 = 0 ∧
    (let s := { hosted 1 0 0 {} with cfg := { phase := .load, copy := 1 } }
     windowState s 0 = 0 ∧ groupUp s 0 = true ∧ serving s = false ∧ s.cfg.early = false) ∧
    (let r : PageRead := { num := 0, off := 60, len := 4, got := [] }
     (viAt (hosted 1 0 0 { reads := [r] }) 0).reads.find? (fun y => y.num == 0) = some r ∧
       r.off / 64 = (r.off + max r.len 1 - 1) / 64 ∧ hubBad (hosted 1 0 0 {}) hubLine0 = false) ∧
    (viAt (hosted 1 1 0 { waits := [⟨0, 4, 1, 0⟩] }) 0).waits = [⟨0, 4, 1, 0⟩] := by decide +kernel
theorem witness_HostReadsAndServiceWrites_service :
    let s := hosted 1 1 0 { bme := true }
    reach rqN s = true ∧ rqN.sec = blockSec s Unit.vif ∧ (4096 : Word).toNat % 2 ^ 12 = 0 ∧ 0 < nvi s ∧ viShadowed s 0 = true ∧
    viState s 0 ≠ 0 ∧ 0o100000 ≤ (0o1000000000 : Word).toNat / 2 ^ 12 % 2 ^ 16 := by decide +kernel
theorem witness_CulvertTransfersRun_hostReads :
    let s := { hosted 0 0 0 { bme := true } with cul := { culs := [(0, { held := [{ desc := copying 3 0 }] })] } }
    let d := copying 3 0
    lineFault s (culReq 0 false) d.sk false (endLines d.sk d.saddr d.lines) = none ∧
    lineFault s (culReq 0 false) d.dk true (endLines d.dk d.daddr d.lines) = none ∧ d.ciph = 0 ∧ d.sk = 3 ∧
    hostOpen s d.vi = true ∧ (hostReads s d.vi d.saddr d.len).length ≤ 768 ∧ s.cul.culs.length = 1 := by decide +kernel
theorem witness_VectorsCoalesceAndSend :
    let s := hosted 0 0 0 { vecs := [(15, { timer := true, ctime := 3, pend := true, mask := false })], msixEn := true, bme := true }
    mwf {} s.vif.vis = true ∧ mwf {} (viAt s 0).vecs = true ∧ reach rqN s = true ∧ rqN.sec = blockSec s Unit.vif ∧
    (0o170000 : Word).toNat % 2 ^ 12 = 0 ∧ (0o170000 : Word).toNat / 2 ^ 12 % 2 ^ 6 = 15 ∧ 0 < nvi s ∧ 15 < viNvec s 0 ∧
    viNvec s 0 ≤ 16 ∧ viState s 0 = 1 ∧ (vecAt s 0 15).timer = true ∧ (vecAt s 0 15).ctime ≠ 0 ∧ (vecAt s 0 15).pend = true ∧
    (viAt s 0).msixEn = true ∧ (viAt s 0).fmask = false ∧ (vecAt s 0 15).mask = false ∧ (viAt s 0).bme = true ∧
    (vecAt s 0 14).pend = false := by decide +kernel
theorem witness_InterfacesReset :
    (let s := hosted 0 0 1 { bme := true }
     mwf {} s.vif.vis = true ∧ viReachable s 0 = true ∧ viVf s 0 ≠ 0 ∧ serving s = true ∧ groupUp s 0 = true ∧
       (mget {} s.vif.pfs 0).enable = true ∧ viVf s 0 ≤ (mget {} s.vif.pfs 0).numVfs ∧ perstHigh s 0 = true ∧
       groupPresent s 0 = true ∧ (viAt s 0).reset = false ∧ viGroup s 0 = 0 ∧ pfVi (hosted 0 0 0 {}) 0 0 = some 0 ∧ reach rqN s = true ∧ rqN.sec = blockSec s Unit.vif ∧ 0 < nvi s ∧ nvi s ≤ 1 ∧
       nvi s ≤ 1) ∧
    (let s := hosted 0 0 1 { reset := true, rdone := true }
     (viAt s 0).reset = true ∧ (viAt s 0).rdone = true ∧ culvertsOf s 0 = 0 ∧ (viAt s 0).late = false ∧ groupUp s 0 = true ∧
       viGroup s 0 = 0) ∧
    (let s := { hosted 0 0 0 {} with cfg := { phase := .load, copy := 1 } }
     groupUp s 0 = true ∧ serving s = false) ∧
    (let s := hosted 0 0 0 {}
     serving s = true ∧ groupUp s 0 = true ∧ mwf {} s.vif.aers = true ∧ viReachable s 0 = true ∧ viVf s 0 = 0 ∧ viGroup s 0 = 0 ∧
       (viAt s 0).reset = false ∧ viReachable s 1 = false) := by decide +kernel

/-! Witnesses for the ports, the DRAM controller, the logbook, the trace and the debug unit. -/

/-- Group 0 on quad 0, one quad of generation 5, and network port 0 on quad 1, one lane, with its PFC classes. -/
def linked (pfc : Nat) (g : GroupLink) (p : Port) (q : QuadBuf) : State :=
  { withImage 4 [(32, 0), (33, 1), (34, 5), (128, 1), (129, 4), (130, 1), (131, 1), (133, pfc)] {} with
      prt := { groups := [(0, g)], ports := [(0, p)], quads := [(1, q)] } }

theorem witness_LinksComeUpAndGoDown_groups :
    (let s := { linked 0 { noflit := true } { xoff := true } { los := 2 } with hperst := 254 }
     mwf {} s.prt.groups = true ∧ mwf {} s.prt.ports = true ∧ mwf {} s.prt.quads = true ∧ perstHigh s 0 = false) ∧
    (let s := linked 0 { width := 3, rate := 1 } { xoff := true } { los := 2 }
     (groupAt s 0).width ≠ 0 ∧ perstHigh s 0 = true ∧ groupPresent s 0 = true ∧ (groupAt s 0).width ≠ (2 : BitVec 4).toNat) ∧
    (let s := { linked 0 {} {} {} with prt := {} }
     lanesOn s = true ∧ groupPresent s 0 = true ∧ perstHigh s 0 = true ∧ (groupAt s 0).noflit = false ∧
       (groupAt s 0).width = 0 ∧ (∀ q ∈ groupQuads s 0, quadGone s q = false) ∧ 1 ≤ (3 : BitVec 4).toNat ∧
       (3 : BitVec 4).toNat ≤ fullWidth s 0 ∧ (5 : BitVec 4).toNat ≤ maxGen s 0 ∧ s.prt.limits = []) := by decide +kernel
theorem witness_LinksComeUpAndGoDown_ports :
    (let s := { linked 0 {} {} {} with prt := {} }
     portPresent s 0 = true ∧ (portAt s 0).up = false ∧ (∀ q ∈ portQuads s 0, quadGone s q = false) ∧ pfcen s 0 = 0 ∧
       portSpeed s 0 * 10 ^ 9 < (2000 : BitVec 18).toNat * 5120 * 10 ^ 4 ∧ secX s 4 132 1 0 = 0 ∧
       secX (withImage 4 [(128, 1), (132, 1)] {}) 4 132 1 0 = 1) ∧
    (let s := linked 1 {} {} { ingress := List.replicate 384 0 }
     pfcen s 0 ≠ 0 ∧ (portAt s 0).xoff = false ∧ (portAt s 0).up = false ∧ xoffLine s 0 ≤ occupancy s 0) ∧
    (let s := linked 0 { noflit := true } { up := true, tx := some (64, 5) } { lock := 1, los := 14 }
     (portAt s 0).up = true ∧ laneUsed s 7 = false ∧ laneUsed s 4 = true ∧ s.isl.chron < 5 ∧ (quadAt s 1).los &&& 1 = 0 ∧
       (quadAt s 1).lock &&& 1 ≠ 0) := by
  decide +kernel
theorem witness_FramesAreStoredAndSent_received :
    let s := linked 1 { noflit := true } { up := true } { ingress := List.replicate 383 0 }
    mwf {} s.prt.ports = true ∧ mwf {} s.prt.quads = true ∧ lanesOn s = true ∧ (portAt s 0).up = true ∧
    portPresent s 0 = true ∧ isPfc (List.replicate 64 0) = false ∧ helmServing s = false ∧ 64 + 4 ≤ maxfrm s 0 ∧
    occupancy s 0 + 1 ≤ portShare s 0 ∧ (quadAt s 1).ingress.length + 1 ≤ 4096 ∧ pfcen s 0 ≠ 0 ∧ (portAt s 0).xoff = false ∧ xoffLine s 0 ≤ occupancy s 0 + 1 ∧
    helmServing { s with cfg := { phase := .helm, copy := 1 } } = true := by decide +kernel
theorem witness_FramesAreStoredAndSent_full :
    let s := linked 1 { noflit := true } { up := true, xoff := true } { ingress := List.replicate 1024 0 }
    portShare s 0 < occupancy s 0 + 1 ∧ (portAt s 0).up = true ∧ helmServing s = false ∧ (portAt s 0).xoff = true ∧ xonLine s 0 < occupancy s 0 := by decide +kernel
theorem witness_FramesAreStoredAndSent_sent :
    let f : EFrame := ⟨0, 0, 60, [0], 0, 0, 0⟩
    let s := linked 1 {} { up := true, tx := some (64, 5) } { egress := [f] }
    lanesOn s = true ∧ (portAt s 0).up = true ∧ nextFrame s 0 = some (1, f) ∧ (portAt s 0).tx = some (64, 5) := by decide +kernel
theorem witness_PausesBeginAndEnd :
    let s := linked 128 { noflit := true } { up := true, paused := 128, pause := [(7, 1000000005), (15, 5)] } { los := 1 }
    mwf {} s.prt.ports = true ∧ mwf 0 (portAt s 0).pause = true ∧ lanesOn s = true ∧ pfcen s 0 ≠ 0 ∧
    (128 : BitVec 8).getLsbD 7 = true ∧ (pfcen s 0).testBit 7 = true ∧ (portAt s 0).paused.getLsbD 7 = true ∧
    (portAt s 0).long'.getLsbD 7 = false ∧ mget 0 (portAt s 0).pause 15 + 1000000000 ≤ mget 0 (portAt s 0).pause 7 ∧
    helmServing s = false ∧ helmServing { s with cfg := { phase := .helm, copy := 1 } } = true := by decide +kernel

/-- A machine whose subchannel 31 and channel 15 are as given. -/
def dram (x : SubCh) (c : DChan) : State := { served {} with drc := { subs := [(31, x)], chans := [(15, c)] } }
def aRead : DReq := { line := 31, write := false, code := 0, sec := false, order := 0 }
def aWrite : DReq := { aRead with write := true, order := 1 }

theorem witness_DramRequestsAreServed_accepts :
    (let s := dram { wphase := true } { idle := 1 }
     Memory.wf s.mem = true ∧ mwf {} s.drc.subs = true ∧ mwf {} s.drc.chans = true ∧ mwf [] s.drc.marks = true ∧ live s = true ∧
       subDown s (31 % 32) = false ∧ writeQueued s 31 = false ∧ tableLine s 31 = false ∧ (chanSt s (31 / 2)).step = false ∧
       (chanSt s (31 / 2)).sr = false ∧ (subAt s 31).writes.length < 64 ∧ (subAt s 31).reads.length < 64 ∧ (subAt s 31).waits = []) ∧
    64 ≤ (subAt (dram { writes := List.replicate 64 aWrite } {}) 31).writes.length ∧
    writeQueued (dram { writes := [aWrite] } {}) 31 = true ∧
    subDown { dram {} {} with drc := { down := 0x80000000 } } (31 % 32) = true := by decide +kernel
theorem witness_DramRequestsAreServed_issues :
    let s := dram { reads := [aRead], writes := [aWrite] } {}
    (chanSt s (31 / 2)).sr = false ∧ (subAt s 31).waits = [] ∧ (subAt s 31).postp = 0 ∧
    nextRequest s 31 1 = some aRead ∧ drcPolicy s = 0 ∧ (subAt s 31).wphase = false ∧
    nextRequest (dram { writes := [aWrite] } {}) 31 1 = some aWrite ∧
    (let t := dram { issued := [aRead], rows := [(0, 1)] } {}
     (subAt t 31).issued = [aRead] ∧ subDown t 31 = false ∧ subOf aRead.line = 31 ∧ mget [] t.drc.marks aRead.line = [] ∧
       poisoned t aRead.line = false ∧ aRead.kept = none ∧ aRead.asker = none ∧ aRead.merge = false ∧ drcDevfail t ≠ 1 ∧ writeQueued t 31 = false ∧ (subAt t 31).writes.length < 64 ∧
       (openRow (subAt t 31) 0).isSome = true) ∧
    (let r : DReq := { aRead with kept := some (7, []), asker := some (.store 0) }
     (subAt (dram { issued := [r] } {}) 31).issued = [r] ∧ asks (dram { issued := [r] } {}) (.store 0) = true) := by decide +kernel

/-- A read of core 0 behind a queued one waits in the queue, and DRAM_READ_DATA brings its outcome (R384). -/
theorem test_asked_reads_queue :
    let s := dram { reads := [aRead] } {}
    let b : BLine := ⟨0o137, 0, 0, .miss 0 0 63⟩
    let t := askRead (.bound b) false ⟨0, false⟩ 63 s
    heldFor s (.bound b) 63 = true ∧ (subAt t 31).reads.map (fun r => r.line) = [31, 63] ∧ askRead (.bound b) false ⟨0, false⟩ 63 t = t := by
  decide +kernel

/-- The decoder on one wrong symbol, on a poisoned line, and on a poisoned line with a further wrong symbol. -/
theorem witness_DramRequestsAreServed_decodes :
    let e := fun (k w : Nat) (p : Bool) =>
      ({ served {} with drc := { marks := [(31, [(k, w)])] }, poison := if p then [(31, true)] else [], mem := [(72 * 31, 7)] } : State)
    decoded (e 3 5 false) 31 = .single 3 5 ∧ decoded { e 3 5 true with drc := {} } 31 = .poison ∧ decoded (e 0 9 true) 31 = .bad := by
  decide +kernel
theorem witness_DramControlCommands_refresh :
    (let s := dram { reads := [aRead], postp := 3 } {}
     mwf {} s.drc.subs = true ∧ live s = true ∧ pastTb { s with cfg := { phase := .vault }, pwr := { vault := .stopped } } = true ∧
       ctlRefresh s 31 = true ∧ (chanSt s (31 / 2)).sr = false ∧
       (chanSt s (31 / 2)).step = false ∧ subDown s 31 = false) ∧
    (let s : State := { withImage 10 [(12, 1), (13, 0)] {} with drc := { chans := [(15, { idle := 1 })] } }
     mwf {} s.drc.chans = true ∧ mayRest s 15 = true ∧ (chanSt s 15).srReq = false ∧ drcSridle s ≠ 0 ∧
       reach rqN s = true ∧ rqN.sec = blockSec s Unit.drc ∧ s.cfg.phase ≠ .vault ∧ (0x8000 : Word).toNat = 2 ^ 15) ∧
    chanEmpty (dram { reads := [aRead] } {}) 15 = false ∧
    (chanSt (dram {} { sr := true, exit' := true }) 15).exit' = true := by decide +kernel
theorem witness_DramControlCommands_steps :
    let s : State := { withImage 10 [(1, 3)] {} with drc := { chans := [(15, { step := true })], unus := 4 } }
    (7 : Word).getLsbD 2 = true ∧ (7 : Word).toNat % 4 = 3 ∧ 3 ≠ s.drc.cur ∧ runOrHelm s = true ∧ s.drc.busy = false ∧
    3 ≤ drcNshadow s ∧ s.drc.unus.getLsbD 3 = false ∧ (4 : Word).toNat % 4 = s.drc.cur ∧ s.drc.unus.getLsbD 2 = true ∧
    (chanSt s 15).step = true ∧ (∀ k < 16, k ≠ 15 → (chanSt s k).step = false) ∧
    (512 + 32 * 9 + 31 : Word).getLsbD 9 = true ∧ (512 + 32 * 9 + 31 : Word).toNat / 32 % 16 ≤ 9 ∧
    (32 * 10 + 31 : Word).getLsbD 9 = false ∧ 9 < (32 * 10 + 31 : Word).toNat / 32 % 16 ∧
    mget 0 s.nv.failDev 31 = 0 ∧ 9 < (512 + 32 * 10 + 31 : Word).toNat / 32 % 16 := by decide +kernel

/-- A report of a core, its log entry, and a signal of it. -/
def aReport : Report := ⟨0o30, 1, 7, 0, 0⟩
theorem witness_LogbookAndManagementPort :
    (let h : Health := { waiting := [aReport], logq := [⟨aReport, 1, 0, 1, false⟩], signals := [⟨0, 3, aReport, none, 0, false⟩] }
     let s : State := { queued {} {} with hlt := h }
     mwf {} s.nv.records = true ∧ mwf 0 s.hlt.cnt = true ∧ s.hlt.waiting = [aReport] ∧ s.hlt.logq.length < 64 ∧
       s.hlt.lostPend = 0 ∧ serving s = true ∧ ringRoom s 3 = true ∧ elementHeld s 3 = false ∧ ringRoom s 4 = false ∧ sigLost s 0 = 0 ∧
       reach rqN s = true ∧ rqN.sec = blockSec s Unit.lgb ∧ smbResponds s = true ∧ s.lgb.selOk = false ∧ s.lgb.alert = false ∧
       sigLost (setSigLost 0 1 s) 0 ≠ 0) ∧
    (let s : State := { served {} with lgb := { selOk := true, selWin := Unit.cfg, selOff := 0o174, alert := true } }
     s.lgb.selOk = true ∧ updRegister s.lgb.selWin s.lgb.selOff = true ∧ s.lgb.alert = true ∧
       (0 : BitVec 8).toNat ≠ pecOf ([2 * s.lgb.addr, 0o42, 5] ++ [1, 2, 3, 4, 5])) ∧
    (let s := dram {} {}
     let q := { s with slc := { qrecs := [(3, some { rdram := true, rbase := 31 })] } }
     let r := { q with drc := { q.drc with chans := [(15, { sr := true })] } }
     ringRoom r 3 = true ∧ elementHeld r 3 = true) ∧
    ([] : List (BitVec 8)).length ≠ 10 ∧ 64 ≤ (List.replicate 64 (⟨aReport, 1, 0, 1, true⟩ : LogEntry)).length := by decide +kernel

/-- A machine whose trace unit of tile 0 and debug unit are as given, with the trace of tile 0 streaming. -/
def traced (x : Tile) (k : Core) (d : DebugUnit) : State :=
  { withImage 13 [(64, 1)] k with tiles := [(0, x)], dbu := d }

theorem witness_TraceAndRunControl_trace :
    (let m := traced { used := 16, unrep := 1, wptr := 64, rdptr := 1 } {} {}
     let s := { m with slc := { m.slc with joined := [(0, 0o140)], bound := [⟨0, 0o140, 0, .drain 0 0 0⟩] } }
     mwf {} s.cores = true ∧ mwf {} s.tiles = true ∧ reach rqN s = true ∧ serving s = true ∧ wakeSettle 0 s = s ∧ drainReady s 0 = true ∧
       connected s 0 (portCulvert (traceCul s 0)) = true ∧ portCulvert (traceCul s 0) ∉ s.slc.spent ∧
       (∀ b ∈ s.slc.bound, b.src = 0 → b.dst = 0o140 → b.cargo = .drain 0 0 0) ∧ (tileAt s 0).unrep ≠ 0 ∧
       available s 0 = true ∧ s.cfg.phase ≠ .dark ∧ rqN.sec = tileSec s 0 ∧ (0o4001 : Word).toNat / 2 ^ 8 % 16 ≤ 8 ∧
       ((tileAt s 0).wptr + 2 ^ 36 - 0) % 2 ^ 36 ≤ traceSize s 0 ∧ traceSize s 0 < ((tileAt s 0).wptr + 2 ^ 36 - (2 ^ 36 - 1)) % 2 ^ 36) ∧
    (∀ n ∈ [0, 3], let m := traced { used := 16, lostBuf := n } { trace := { full := true } } {}
     (tileAt m 0).lostBuf = n ∧ wakeSettle 0 m = m ∧ (tileAt m 0).used ≤ 8192 ∧ (coreAt m 0).trace.full = true) ∧
    (let s := traced { full := true, bufBad := [(1, true)] } {} {}
     (tileAt s 0).full = true ∧ mget false (tileAt s 0).bufBad 1 = true ∧ mget false (tileAt s 0).bufBad 0 = false) := by
  decide +kernel
theorem witness_TraceAndRunControl_runs :
    (let s := traced {} {} {}
     (1 : Word).toNat % 8 = 1 ∧ (coreAt s 0).halted = false ∧ tileRunning s 0 = true ∧ available s 0 = true ∧
       haltWaits s 0 = false ∧ (tileIsl { s with isl := { tiles := [(0, { state := .nap })] } } 0).state = .nap) ∧
    (let s := traced {} { halt := some { cause := 1 } } {}
     (coreAt s 0).fatal = false ∧ (coreAt s 0).halt = some { cause := 1 }) ∧
    (coreAt (traced {} { fatal := true } {}) 0).fatal = true ∧
    (let s := traced {} { haltReq := some 1, hout := 1, hin := 1 } { pulses := [(1, 48)], inch := 1, outch := 1, xout := true }
     atBoundary s 0 = true ∧ haltWaits s 0 = false ∧ drought 0 (seqTimeout 0 (landNow 0 s)) = s ∧
       portActive s = true ∧ s.dbu.inch ≠ 0 ∧ rqN.sec = blockSec s Unit.dbg ∧ (coreAt s 0).hin &&& 1 ≠ 0 ∧
       s.dbu.outch &&& 1 ≠ 0 ∧ s.dbu.xout = true ∧ tileSec s 0 = false) := by decide +kernel

/-- The data of a frame: four quarters of zeros with their odd parity. -/
def zeroData : BitVec 40 := 0b1000000000100000000010000000001000000000

theorem witness_DebugPortAccesses_frames :
    (let s := traced {} {} { desync := false }
     portActive s = true ∧ s.dbu.desync = false ∧ s.dbu.fault = false ∧ s.dbu.access = none ∧
       headerOk true 0 false true true = true ∧ headerOk true 7 false true true = false ∧
       headerOk false 8 false true true = true ∧ dataWord zeroData.toNat = some 0 ∧ dataWord 0 = none ∧ s.dbu.hasSeq = false) ∧
    (let s := traced {} {} { desync := false, hasSeq := true, keptReg := 8 }
     s.dbu.lseq = false ∧ s.dbu.keptReg = 8 ∧ s.dbu.keptData = 0) := by decide +kernel
theorem witness_DebugPortAccesses_memory :
    let s := { traced {} {} { access := some { cmd := 0o60 }, addr := 2 ^ 43 + 8 } with wld := { locked := true, hwm := 0 } }
    s.dbu.access = some { cmd := 0o60 } ∧ 0o60 % 8 = 0 ∧ targetOf s s.dbu.addr = .hub ∧ s.dbu.addr % 8 = 0 ∧
    worldMay s false s.dbu.addr = true ∧ debugWaits s s.dbu.addr = false ∧ hubWordBad s (s.dbu.addr / 64) 72 72 = false ∧ physHeld s false s.dbu.addr = false ∧
    spolOpen s = false ∧ spolOpen (withImage 14 [(0, 1)] {}) = true := by decide +kernel
theorem witness_DebugPortAccesses_cores :
    (let s := traced {} { halt := some { cause := 1 } } { access := some { cmd := 0o61 }, addr := 63 }
     s.dbu.addr / 2 ^ 11 % 64 = 0 ∧ available s 0 = true ∧ (coreAt s 0).halted = true ∧ (coreAt s 0).sec = false ∧
       s.dbu.addr / 64 % 4 = 0 ∧ 192 / 64 % 4 = 3 ∧ mwf 0 (coreAt s 0).regs = true ∧ 0o61 / 16 % 4 = 3) ∧
    (let s := traced {} { halt := some { cause := 1 }, dcache := [(8, some (frame true))] }
       { access := some { cmd := 0o62 }, addr := 32 }
     (coreAt s 0).halted = true ∧ s.dbu.addr.testBit 4 = false ∧ wayMode (coreAt s 0).dway 0 ≠ 2 ∧
       mget none (coreAt s 0).dcache (8 * (s.dbu.addr / 32 % 64) + 0) = some (frame true) ∧
       memSecure s (64 * (frame true).line) = false) ∧
    (∀ r ∈ [0, 4], (traced {} {} { access := some { cmd := 0, done := true, reason := r } }).dbu.access =
      some { cmd := 0, done := true, reason := r }) := by decide +kernel
theorem witness_DebugPortAccesses_registers :
    let s := served {}
    reach rqN s = true ∧ targetOf s (2 ^ 44 + 4 * 2 ^ 24) = .control 4 0 ∧ targetOf s (2 ^ 44 + 2 * 2 ^ 24 + 4) = .control 2 4 ∧
    (regView s false 2 0).isSome = true ∧ (regView s false 4 (2 ^ 24 - 4)).isNone = true := by decide +kernel
theorem witness_EveryStepKeepsMemoryCanonical : Memory.wf ({ served {} with mem := [(0, 1), (72, 5)] }).mem = true ∧
    Memory.wf [((0 : Nat), (0 : BitVec 8))] = false ∧ Memory.wf [((1 : Nat), (1 : BitVec 8)), (0, 1)] = false := by decide +kernel
theorem witness_EveryStepKeepsTheTablesCanonical : Canonical (served {}) := by
  unfold Canonical
  repeat' apply And.intro
  all_goals first
    | decide
    | exact fun _ => rfl
    | exact fun _ => ⟨rfl, rfl, rfl⟩
    | (intro i; simp only [coreAt, served, mget]; split; · rfl
       split <;> rfl)
theorem witness_WorldsChangeOnlyByTheirRules :
    let t := { served {} with pending := [.wcall (syl 3) ⟨0, 0, 0⟩] }
    (coreAt t 0).on = true ∧ (coreAt t 0).sec = false ∧ hasSecureImage t 0 = true ∧ issueIx (syl 3) = 0 ∧
    (match step t with
      | .next u => (coreAt u 0).on && (coreAt u 0).sec
      | _ => false) = true := by decide +kernel
theorem witness_QueueCountsStayInOrder :
    let s := granting false
    let x := qst s 3
    qrec s 3 = some { culv := false } ∧ (x.head, x.tail, x.dcount, x.rcount) = (0, 1, 0, 0) ∧
    (mget none (grant 5 false s).slc.delivs 3).map Deliv.n = some 1 := by decide +kernel

/-! Single steps and shared operations against the manual's worked examples and the standards it names. -/

/-- The reservoir of chapter 02's example: 2.174 F, 11.9 milliohms, 1,782 J. -/
theorem test_probe_example :
    let m := measure ⟨48000000, 47880000, 47835000, 47375000⟩ 71
    m.usable = 1782 ∧ m.pstat = 1 := by decide +kernel

/-- The required energy of that example: 640 Mi lines at high line need 518 J. -/
theorem test_required_example :
    requiredEnergy (withImage 2 ((2, 2) :: (List.range 32).map fun i => (16 + i, if i = 11 ∨ i = 19 ∨ i = 27 then 20 else 0)) {}) 2 =
      518 := by decide +kernel

/-- CFG_TILES2 of chapter 03's example: tiles 4 and 9 of die 2 retired. -/
theorem test_tiles_example :
    let s : State := { cfg := { tileSt := [(30, 2), (35, 2)], lmap := [(24, some 26), (25, some 27), (26, some 28), (27, some 29),
      (28, some 31), (29, some 32), (30, some 33), (31, some 34), (32, some 36), (33, some 37), (34, some 38)] } }
    cfgTilesWord s 2 = 0o005402001000 := by decide +kernel

/-- Chapter 04's supply hold: beside a tile at step 15 a request for step 2 goes to step 4, held by the neighbour. -/
theorem test_supply_hold_example :
    let x : TileIsl := { state := .run, ceil := 15, step := 15, target := 15, supplyBy := [] }
    let s : State := { cfg := { phase := .run, lmap := [(5, some 5), (6, some 6)] }, wld := { locked := true }
                       isl := { tiles := [(5, x), (6, { x with req := 15 })] } }
    after (.tileStepRequest rqN 6 2) s (fun t => (tileIsl t 6).target == 4 && bitOf (limBits t 6) 2) = true := by
  decide +kernel

/-- The syllable words of chapter 05 and of R191's example. -/
theorem test_syllable_words : regWord 0o003 ⟨1, 40, 0, 0⟩ = 0o003015000000 ∧ immWord 0o103 ⟨3, 3, 7⟩ = 0o103030300007 ∧
    regWord 0o046 ⟨9, 9, 10, 4⟩ = 0o046111112004 := by decide +kernel

/-- ADDI with -1 lands all ones one contract cycle later and the core goes on to the next bundle. -/
theorem test_addi_minus_one : after (.addi (syl 0) .d ⟨9, 0, 0o77777⟩) (served {}) (fun t =>
    (coreAt t 0).flight.map (fun l => (l.reg, l.val, l.due)) == [(9, BitVec.allOnes 72, 1)] && (coreAt t 0).pc == 16) = true := by
  decide +kernel

/-- The CRC32C of 32 zero octets, chapter 07 (iSCSI): 0x756EC955 before the final exclusive or. -/
theorem test_crc32c_example : crcOctets polyCrc32c (List.replicate 32 0) 0xFFFFFFFF = 0x756EC955 ∧
    crc32c (List.replicate 32 0) = 0x8A9136AA := by decide +kernel

/-- Tininess after rounding, chapter 07's table for FMA.W in the four modes. -/
theorem test_tininess_example :
    let f := fun rm => fFma binary36 rm (decodeF binary36 0o400000000001) (decodeF binary36 0o175000000000)
      (decodeF binary36 0o001000000000)
    f (rndOf 4) = (0o001000000000, flNX) ∧ f (rndOf 5) = (0o000777777777, flUF + flNX) ∧
    f (rndOf 6) = (0o001000000000, flNX) ∧ f (rndOf 7) = (0o000777777777, flUF + flNX) := by decide +kernel

/-- Chapter 08's walk: index 3 of level 2 maps a 2 Mi-unit page in octet view with R and W. -/
theorem test_walk_example :
    let put := fun (a v : Nat) => putBits (a / 64) (9 * (a % 64)) 72 v
    let s := put 0o200000000010010 0o000000000200000000020003 (put 0o200000000020020 0o000000000200000000030003
      (put 0o200000000030030 0o000000000000003400000215 (served {})))
    (walkTable 0 ⟨0o10020030001000, false, false, 0, 3, false, 0, 0o200000000010000⟩ [0, 1, 2, 3] 0o200000000010000 s).2 =
      .leaf ⟨false, 0, false, 2, 0o10020030001000 / 2 ^ 21, 0o3400000000 / 2 ^ 21, 0, true, false, false, true, true⟩ := by
  decide +kernel

/-- Chapter 10's entry: level 5, VEC 3, VBASE o40_000 goes to o44_300, and ISRC shows source 70,000 with NMSG 3. -/
theorem test_interrupt_entry_example :
    let s := { served { ie := true, norB := { vbase := 0o40000 }, offers := [⟨70000, 5, 3, 0⟩] } with
      ivc := { routes := [(70000, { level := 5, vec := 3, core := 0, routed := true })], srcs := [(70000, { fired := true, nfired := 3 })] } }
    after (.interruptEntry ⟨0, 0⟩) s (fun t => (coreAt t 0).pc == 0o44300 && isrcWord (coreAt t 0) == 0o002403210560) = true := by
  decide +kernel

/-- Chapter 11's entry: a grant of ditch 517 with donation ring 3 and pattern 12. -/
theorem test_slot_entry_example : entKind 0o000300141005 = 0 ∧ entPat 0o000300141005 = 12 ∧ entRing 0o000300141005 = 3 ∧
    entDitch 0o000300141005 = 517 := by decide +kernel

/-- Chapter 12's descriptor A and word 0 of its record. -/
theorem test_descriptor_example :
    let d : Desc := { l0 := 0o320002520454, l1 := 0, elines := 1, queue := 900, sec := true }
    d.sk = 3 ∧ d.dk = 2 ∧ d.afv = true ∧ d.aflag = 5 ∧ d.acore = 2 ∧ d.vi = 0o454 ∧ d.cqv = false := by decide +kernel

/-- The AES-128 example of FIPS 197, appendix C.1. -/
theorem test_aes_example :
    let k := Aes.roundKeys (List.range 16)
    let p := (List.range 16).map fun i => 17 * i
    let c := [0x69, 0xc4, 0xe0, 0xd8, 0x6a, 0x7b, 0x04, 0x30, 0xd8, 0xcd, 0xb7, 0x80, 0x70, 0xb4, 0xc5, 0x5a]
    Aes.encrypt k p = c := by decide +kernel

/-- The first words of chapter 17's trace: SYNC and TIME of core 3, and the TARGET of its return. -/
theorem test_trace_example :
    pktSync 3 0 0o40000 = [0o314000000000, 0o000000002000] ∧ pktTime 3 1000000 = [0o324000000000, 0o000003641100] ∧
    (let x : CoreTrace := { acc := [true, true, false], base := some 0o40000 }
     (emitTarget 3 2 0o40100 0o10060 0 x).fifo =
       [[0o304300000003], [0o312000000000, 0o777777776403]]) := by decide +kernel

/-- Chapter 18's frames and address: the command quarters, the data of DADDR0, and VIF_DBPEND5_0. -/
theorem test_debug_frames_example :
    headerOk true 0 false true true = true ∧ headerOk false 5 true true true = true ∧ headerOk true 6 false true true = true ∧
    dataWord (0b1000000000 + 0b0 + 0o240 + 2 ^ 10 * (0b1000000000 + 0) + 2 ^ 20 * (0b1000000000 + 0o101) + 2 ^ 30 * 0o001) =
      some 0o001101000240 ∧
    targetOf (served {}) 0o400001101000240 = .control Unit.vif 0o1000240 := by decide +kernel

/-- Chapter 19's report word of L1_PARITY_DIRTY. -/
theorem test_report_word_example : reportWord ⟨Unit.tile, 2, Code.l1ParityDirty, 101, 0⟩ = 0o404401400145 := by decide +kernel

/-- One command is taken from the queue, and an empty queue lets one nanosecond pass. -/
theorem test_step_takes_the_front :
    step { served {} with pending := [.nop (syl 3), .reportAccept] } =
      exec (.nop (syl 3)) { served {} with pending := [.reportAccept] } ∧
    (match step (served {}) with
      | .next t => t.isl.chron == 1
      | _ => false) = true := ⟨rfl, by decide +kernel⟩
/-- An EVENT too far from the base gives a SYNC of its bundle, its TIME, and then the EVENT (R417). -/
theorem test_trace_far_event : (emitEvent 0 0 7 (2 ^ 47) (2 ^ 47) (2 ^ 47 + 64) 9 { base := some 0 }).fifo =
    [pktSync 0 5 (2 ^ 47), pktTime 0 9, [pktHead 0 4 (7 * 2 ^ 18), 0, 4]] := by decide +kernel
/-- A return before the first SYNC waits for it; with a base its TARGET comes at once (R418). -/
theorem test_trace_return_without_base :
    let x := emitReturn 0 320 { owed := some 3 }
    x.fifo = [] ∧ (emitSync 0 3 320 9 x).fifo = [pktSync 0 3 320, pktTime 0 9, [pktHead 0 2 (3 * 2 ^ 27), 0]] ∧
      (emitReturn 0 320 { base := some 64 }).fifo = [[pktHead 0 2 (3 * 2 ^ 27), 16]] := by decide +kernel

/-- Chapter 5's words of the opcode map name their commands, and exactly the listed opcodes name one (R104, R109). -/
theorem test_syllable_decodes :
    decodeSyllable (syl 0) 0o003015000000 = some (.add (syl 0) .d ⟨1, 0o50, 0, 0⟩) ∧
    decodeSyllable (syl 0) 0o103030300007 = some (.addi (syl 0) .d ⟨3, 3, 7⟩) ∧
    decodeSyllable (syl 3) 0o610000000400 = some (.call (syl 3) 0o400) ∧
    decodeSyllable (syl 3) 0o622000000000 = some (.ret (syl 3) ⟨0, 0, 0, 0⟩) ∧
    (List.range 512).all (fun n =>
      (decodeSyllable (syl 3) (BitVec.ofNat 36 (n * 2 ^ 27))).isSome == opcodeListed n) = true := by decide +kernel

end Sys2Proof.Tests
end

section
/-! What every command keeps: the queue of the commands that wait, and the canonical form of memory and of every table.
One lemma for each operation of the model says that it keeps them, and the step that runs a command inherits it. -/

namespace Sys2Proof.Machine

/-- The table of cores is canonical, and so are the registers of each core. -/
def CoresWf (s : State) : Prop := mwf {} s.cores = true ∧ ∀ i, mwf 0 (coreAt s i).regs = true

/-- The table of ports is canonical, and so are the pauses of each port. -/
def PortsWf (s : State) : Prop := mwf {} s.prt.ports = true ∧ ∀ p, mwf 0 (portAt s p).pause = true

/-- The tables of a virtual interface are canonical. -/
def ViWf (x : Vi) : Prop := mwf 0 x.dbval = true ∧ mwf {} x.errs = true ∧ mwf {} x.vecs = true

/-- The table of virtual interfaces is canonical, and so are the tables of each. -/
def VisWf (s : State) : Prop := mwf {} s.vif.vis = true ∧ ∀ v, ViWf (viAt s v)

/-- What every command keeps on its way from a state `s₀` to `s`: the queue of commands that wait, and the canonical
form of memory and of each table. -/
structure Keeps (s₀ s : State) : Prop where
  pending : s.pending = s₀.pending
  mem : Memory.wf s₀.mem = true → Memory.wf s.mem = true
  cores : CoresWf s₀ → CoresWf s
  tiles : mwf {} s₀.tiles = true → mwf {} s.tiles = true
  islands : mwf {} s₀.isl.tiles = true → mwf {} s.isl.tiles = true
  queues : mwf {} s₀.slc.queues = true → mwf {} s.slc.queues = true
  delivs : mwf none s₀.slc.delivs = true → mwf none s.slc.delivs = true
  culs : mwf {} s₀.cul.culs = true → mwf {} s.cul.culs = true
  chtChans : mwf {} s₀.cht.chans = true → mwf {} s.cht.chans = true
  vis : VisWf s₀ → VisWf s
  groups : mwf {} s₀.prt.groups = true → mwf {} s.prt.groups = true
  ports : PortsWf s₀ → PortsWf s
  quads : mwf {} s₀.prt.quads = true → mwf {} s.prt.quads = true
  subs : mwf {} s₀.drc.subs = true → mwf {} s.drc.subs = true
  drcChans : mwf {} s₀.drc.chans = true → mwf {} s.drc.chans = true
  marks : mwf [] s₀.drc.marks = true → mwf [] s.drc.marks = true
  records : mwf {} s₀.nv.records = true → mwf {} s.nv.records = true
  counts : mwf 0 s₀.hlt.cnt = true → mwf 0 s.hlt.cnt = true

theorem canonical_iff (s : State) : Canonical s ↔ Memory.wf s.mem = true ∧ CoresWf s ∧ mwf {} s.tiles = true ∧
    mwf {} s.isl.tiles = true ∧ mwf {} s.slc.queues = true ∧ mwf none s.slc.delivs = true ∧ mwf {} s.cul.culs = true ∧
    mwf {} s.cht.chans = true ∧ VisWf s ∧ mwf {} s.prt.groups = true ∧ PortsWf s ∧ mwf {} s.prt.quads = true ∧
    mwf {} s.drc.subs = true ∧ mwf {} s.drc.chans = true ∧ mwf [] s.drc.marks = true ∧ mwf {} s.nv.records = true ∧
    mwf 0 s.hlt.cnt = true := by
  unfold Canonical CoresWf VisWf PortsWf ViWf
  tauto

variable {s₀ s : State}

theorem Keeps.toCanonical (h : Keeps s₀ s) (c : Canonical s₀) : Canonical s := by
  rw [canonical_iff] at c ⊢
  obtain ⟨mem, cores, tiles, islands, queues, delivs, culs, chtChans, vis, groups, ports, quads, subs, drcChans,
    marks, records, counts⟩ := c
  exact ⟨h.mem mem, h.cores cores, h.tiles tiles, h.islands islands, h.queues queues, h.delivs delivs, h.culs culs,
    h.chtChans chtChans, h.vis vis, h.groups groups, h.ports ports, h.quads quads, h.subs subs, h.drcChans drcChans,
    h.marks marks, h.records records, h.counts counts⟩

theorem Keeps.refl (s : State) : Keeps s s :=
  ⟨rfl, id, id, id, id, id, id, id, id, id, id, id, id, id, id, id, id, id⟩

theorem Keeps.fst {α : Type} {x : α} (hs : Keeps s₀ s) : Keeps s₀ (s, x).1 := hs

theorem Keeps.of_eq {α : Type} {p : State × α} {x : α} (he : p = (s, x)) (hp : Keeps s₀ p.1) : Keeps s₀ s := by
  rw [he] at hp
  exact hp

theorem Keeps.ite {x y : State} {c : Prop} [Decidable c] (hx : Keeps s₀ x) (hy : Keeps s₀ y) :
    Keeps s₀ (if c then x else y) := by
  split
  · exact hx
  · exact hy

theorem Keeps.foldl {β : Type} {f : State → β → State} {l : List β} (hf : ∀ s b, Keeps s₀ s → Keeps s₀ (f s b))
    (h : Keeps s₀ s) : Keeps s₀ (l.foldl f s) := by
  induction l generalizing s with
  | nil => exact h
  | cons b l ih => exact ih (hf s b h)

theorem Keeps.foldlFst {β γ : Type} {f : State × γ → β → State × γ} {l : List β} {p : State × γ}
    (hf : ∀ p b, Keeps s₀ p.1 → Keeps s₀ (f p b).1) (hp : Keeps s₀ p.1) : Keeps s₀ (l.foldl f p).1 := by
  induction l generalizing p with
  | nil => exact hp
  | cons b l ih => exact ih (hf p b hp)

/-- An update of fields that hold no table and of units whose tables stay. -/
theorem Keeps.frame {draws cfg nv pwr isl wld hlt lgb hperst poison keys tmErr ivc dbu slc cul vif prt answer cht drc}
    (h : Keeps s₀ s)
    (hnv : nv.records = s.nv.records := by with_reducible rfl)
    (hisl : isl.tiles = s.isl.tiles := by with_reducible rfl)
    (hhlt : hlt.cnt = s.hlt.cnt := by with_reducible rfl)
    (hq : slc.queues = s.slc.queues := by with_reducible rfl)
    (hd : slc.delivs = s.slc.delivs := by with_reducible rfl)
    (hcul : cul.culs = s.cul.culs := by with_reducible rfl)
    (hvif : vif.vis = s.vif.vis := by with_reducible rfl)
    (hgroups : prt.groups = s.prt.groups := by with_reducible rfl)
    (hports : prt.ports = s.prt.ports := by with_reducible rfl)
    (hquads : prt.quads = s.prt.quads := by with_reducible rfl)
    (hcht : cht.chans = s.cht.chans := by with_reducible rfl)
    (hsubs : drc.subs = s.drc.subs := by with_reducible rfl)
    (hchans : drc.chans = s.drc.chans := by with_reducible rfl)
    (hmarks : drc.marks = s.drc.marks := by with_reducible rfl) :
    Keeps s₀ ⟨s.pending, draws, cfg, nv, pwr, isl, wld, hlt, lgb, s.mem, hperst, poison, keys, s.cores, s.tiles,
      tmErr, ivc, dbu, slc, cul, vif, prt, answer, cht, drc⟩ where
  pending := h.pending
  mem := h.mem
  cores := h.cores
  tiles := h.tiles
  islands := by rw [hisl]; exact h.islands
  queues := by rw [hq]; exact h.queues
  delivs := by rw [hd]; exact h.delivs
  culs := by rw [hcul]; exact h.culs
  chtChans := by rw [hcht]; exact h.chtChans
  vis := by simpa only [VisWf, viAt, hvif] using h.vis
  groups := by rw [hgroups]; exact h.groups
  ports := by simpa only [PortsWf, portAt, hports] using h.ports
  quads := by rw [hquads]; exact h.quads
  subs := by rw [hsubs]; exact h.subs
  drcChans := by rw [hchans]; exact h.drcChans
  marks := by rw [hmarks]; exact h.marks
  records := by rw [hnv]; exact h.records
  counts := by rw [hhlt]; exact h.counts

/-- A restart: every table is empty but for the records, which outlive DARK. -/
theorem Keeps.restart {draws cfg nv pwr hperst} (hs : Keeps s₀ s) (hnv : nv.records = s.nv.records) :
    Keeps s₀ { State.reset with
      pending := s.pending, draws := draws, cfg := cfg, nv := nv, pwr := pwr, hperst := hperst } where
  pending := hs.pending
  mem _ := rfl
  cores _ := ⟨rfl, fun _ => rfl⟩
  tiles _ := rfl
  islands _ := rfl
  queues _ := rfl
  delivs _ := rfl
  culs _ := rfl
  chtChans _ := rfl
  vis _ := ⟨rfl, fun _ => ⟨rfl, rfl, rfl⟩⟩
  groups _ := rfl
  ports _ := ⟨rfl, fun _ => rfl⟩
  quads _ := rfl
  subs _ := rfl
  drcChans _ := rfl
  marks _ := rfl
  records := by rw [hnv]; exact hs.records
  counts _ := rfl

/-- A property of the default and of the value written holds of every value read after a write. -/
theorem mget_mset_of {α : Type} [DecidableEq α] {p : α → Prop} {d v : α} {t : SMap α} {i : Nat} (h : mwf d t = true)
    (hv : p v) (ht : ∀ j, p (mget d t j)) (j : Nat) : p (mget d (mset d t i v) j) := by
  by_cases hj : j = i
  · rw [hj, mget_mset_same h]
    exact hv
  · rw [mget_mset_ne h hj]
    exact ht j

theorem setCore_keeps {i : Nat} {f : Core → Core} (h : Keeps s₀ s)
    (hf : ∀ k, mwf 0 k.regs = true → mwf 0 (f k).regs = true := by exact fun _ c => c) : Keeps s₀ (setCore i f s) :=
  { h with
    cores := fun c => ⟨mset_wf (h.cores c).1, mget_mset_of (p := fun k : Core => mwf 0 k.regs = true) (h.cores c).1
      (hf _ ((h.cores c).2 i)) (h.cores c).2⟩ }

theorem setPort_keeps {i : Nat} {f : Port → Port} (h : Keeps s₀ s)
    (hf : ∀ k, mwf 0 k.pause = true → mwf 0 (f k).pause = true := by exact fun _ c => c) : Keeps s₀ (setPort i f s) :=
  { h with
    ports := fun c => ⟨mset_wf (h.ports c).1, mget_mset_of (p := fun k : Port => mwf 0 k.pause = true) (h.ports c).1
      (hf _ ((h.ports c).2 i)) (h.ports c).2⟩ }

theorem setVi_keeps {i : Nat} {f : Vi → Vi} (h : Keeps s₀ s)
    (hf : ∀ x, ViWf x → ViWf (f x) := by exact fun _ c => c) : Keeps s₀ (setVi i f s) :=
  { h with
    vis := fun c => ⟨mset_wf (h.vis c).1, mget_mset_of (p := ViWf) (h.vis c).1 (hf _ ((h.vis c).2 i)) (h.vis c).2⟩ }

theorem setTile_keeps {t : Nat} {f : Tile → Tile} (h : Keeps s₀ s) : Keeps s₀ (setTile t f s) :=
  { h with tiles := fun c => mmod_wf (h.tiles c) }

theorem setTileIsl_keeps {t : Nat} {f : TileIsl → TileIsl} (h : Keeps s₀ s) : Keeps s₀ (setTileIsl t f s) :=
  { h with islands := fun c => mmod_wf (h.islands c) }

/-- A command answers a next state that keeps what is kept. -/
def Answers (s₀ : State) (o : Host.Outcome State Fault Refusal) : Prop := ∃ t, o = .next t ∧ Keeps s₀ t

theorem Answers.next (hs : Keeps s₀ s) : Answers s₀ (.next s) := ⟨s, rfl, hs⟩

theorem Answers.ite {x y : Host.Outcome State Fault Refusal} {c : Prop} [Decidable c] (hx : Answers s₀ x)
    (hy : Answers s₀ y) : Answers s₀ (if c then x else y) := by
  split
  · exact hx
  · exact hy

/-- A state that may not be reached keeps what is kept where it is. -/
def KeepsAll (s₀ : State) (o : Option State) : Prop := ∀ t, o = some t → Keeps s₀ t

theorem KeepsAll.none : KeepsAll s₀ none := fun _ h => nomatch h

theorem KeepsAll.some (hs : Keeps s₀ s) : KeepsAll s₀ (some s) := fun _ h => Option.some.inj h ▸ hs

theorem KeepsAll.ite {x y : Option State} {c : Prop} [Decidable c] (hx : KeepsAll s₀ x) (hy : KeepsAll s₀ y) :
    KeepsAll s₀ (if c then x else y) := by
  split
  · exact hx
  · exact hy

/-- An update of memory. -/
theorem Keeps.setMem {m : List Host.Cell} (hs : Keeps s₀ s) (hm : Memory.wf s.mem = true → Memory.wf m = true) :
    Keeps s₀ { s with mem := m } :=
  { hs with mem := fun c => hm (hs.mem c) }

theorem putLine_keeps {l v} (hs : Keeps s₀ s) : Keeps s₀ (putLine l v s) := by
  have hm : Memory.wf s.mem = true → Memory.wf (putLine l v s).mem = true := fun c => putLine_wf c l v
  simp only [putLine] at hm ⊢
  exact hs.setMem hm

/-! ### What a change of a core, a port or an interface leaves of its own tables -/

@[simp] theorem regs_setBank (k : Core) (w : Bool) (f : Bank → Bank) : (k.setBank w f).regs = k.regs := by
  unfold Core.setBank
  split <;> rfl

@[simp] theorem regs_holdFlight (k : Core) : (holdFlight k).regs = k.regs := rfl

@[simp] theorem regs_breakSeq (k : Core) : k.breakSeq.regs = k.regs := rfl

theorem write_wf {k : Core} (r : Nat) (v : Double) (h : mwf 0 k.regs = true) : mwf 0 (k.write r v).regs = true := by
  unfold Core.write
  split
  · exact h
  · split
    · exact mset_wf h
    · split <;> exact h

@[simp] theorem regs_landFlags (l : Landing) (k : Core) : (landFlags l k).regs = k.regs := by
  unfold landFlags
  dsimp only
  split <;> rfl

@[simp] theorem regs_exitStatus (k : Core) : (exitStatus k).regs = k.regs := by
  unfold exitStatus
  split <;> rfl

@[simp] theorem regs_nameBarrier (k : Core) : (nameBarrier k).regs = k.regs := by
  unfold nameBarrier
  dsimp only
  split <;> rfl

/-- New values keep the keys rising; the entries at the default are dropped. -/
theorem filter_map_wf {α β : Type} [DecidableEq α] [DecidableEq β] {d : α} {d' : β} {f : α → β} {t : SMap α}
    (h : mwf d t = true) : mwf d' ((t.map fun e => (e.1, f e.2)).filter fun e => e.2 != d') = true := by
  induction t with
  | nil => rfl
  | cons p t ih =>
    obtain ⟨k, v⟩ := p
    obtain ⟨-, hk, ht⟩ := mwf_cons h
    rw [List.map_cons, List.filter_cons]
    split
    · refine mwf_of_cons (by simp_all) (fun q hq => ?_) (ih ht)
      obtain ⟨q', hq', rfl⟩ := List.mem_map.1 (List.mem_filter.1 hq).1
      exact hk q' hq'
    · exact ih ht

/-- New values that are not at the default keep a table canonical. -/
theorem map_wf {α : Type} [DecidableEq α] {d : α} {f : α → α} {t : SMap α} (hf : ∀ v, v ≠ d → f v ≠ d)
    (h : mwf d t = true) : mwf d (t.map fun e => (e.1, f e.2)) = true := by
  induction t with
  | nil => rfl
  | cons p t ih =>
    obtain ⟨k, v⟩ := p
    obtain ⟨hv, hk, ht⟩ := mwf_cons h
    refine mwf_of_cons (hf v hv) (fun q hq => ?_) (ih ht)
    obtain ⟨q', hq', rfl⟩ := List.mem_map.1 hq
    exact hk q' hq'

theorem afterReset_wf (flr : Bool) (now : Nat) (x : Vi) (h : ViWf x) : ViWf (afterReset flr now x) :=
  ⟨rfl, rfl, filter_map_wf (f := fun e : Vec => ({ ccount := e.ccount, ctime := e.ctime } : Vec)) h.2.2⟩

end Sys2Proof.Machine
end

section
/-! Each operation of the model keeps what every command keeps. -/

namespace Sys2Proof.Machine

set_option Elab.async false

variable {s₀ s : State}

/-! ### Report -/

theorem report_keeps {r} (hs : Keeps s₀ s) : Keeps s₀ (report r s) :=
  .ite (.frame (.frame hs)) (.frame (.frame hs))

theorem discardReports_keeps {n} (hs : Keeps s₀ s) : Keeps s₀ (discardReports n s) :=
  .frame hs

theorem reportIf_keeps {c r} (hs : Keeps s₀ s) : Keeps s₀ (reportIf c r s) :=
  .ite (report_keeps hs) hs

theorem assertReplace_keeps {bit} (hs : Keeps s₀ s) : Keeps s₀ (assertReplace bit s) :=
  .ite (.frame hs) (.frame (.frame hs))

theorem logReport_keeps {r} (hs : Keeps s₀ s) : Keeps s₀ (logReport r s).1 := by
  simp only [logReport]
  split
  · exact .fst (.frame hs)
  · split <;> exact .fst (.frame hs)

theorem thresholdMet_keeps {u was n} (hs : Keeps s₀ s) : Keeps s₀ (thresholdMet u was n s) :=
  .ite (report_keeps (.frame hs)) hs

theorem setCount_keeps {u c n} (hs : Keeps s₀ s) : Keeps s₀ (setCount u c n s) := by
  have hc : Keeps s₀ { s with hlt := { s.hlt with cnt := mset 0 s.hlt.cnt (8 * u + c) n } } :=
    { hs with counts := fun w => mset_wf (hs.counts w) }
  exact .ite (thresholdMet_keeps hc) hc

theorem countReport_keeps {r} (hs : Keeps s₀ s) : Keeps s₀ (countReport r s) :=
  setCount_keeps hs

theorem acceptReport_keeps {r} (hs : Keeps s₀ s) : Keeps s₀ (acceptReport r s) := by
  simp only [acceptReport]
  split
  · exact countReport_keeps (.frame (logReport_keeps hs))
  · exact assertReplace_keeps (countReport_keeps (.frame (logReport_keeps hs)))

theorem flushLost_keeps (hs : Keeps s₀ s) : Keeps s₀ (flushLost s) :=
  .ite hs (acceptReport_keeps (.frame hs))

theorem reachTime_keeps {t} (hs : Keeps s₀ s) : Keeps s₀ (reachTime t s) :=
  .frame hs

/-! ### Logbook -/

theorem putRec_keeps {n r} (hs : Keeps s₀ s) : Keeps s₀ (putRec n r s) :=
  { hs with records := fun c => mset_wf (hs.records c) }

theorem commitEntry_keeps {e} (hs : Keeps s₀ s) : Keeps s₀ (commitEntry e s) :=
  .ite (putRec_keeps hs) (.ite (.frame (.frame (putRec_keeps hs))) (.frame (putRec_keeps hs)))

theorem commitOne_keeps (hs : Keeps s₀ s) : Keeps s₀ (commitOne s) := by
  simp only [commitOne]
  split
  · exact hs
  · exact commitEntry_keeps (.frame hs)

theorem commitAll_keeps {n} (hs : Keeps s₀ s) : Keeps s₀ (commitAll n s) := by
  induction n generalizing s with
  | zero => exact hs
  | succ n ih => exact ih (commitOne_keeps hs)

theorem acceptAll_keeps {rs} (hs : Keeps s₀ s) : Keeps s₀ (acceptAll rs s) := by
  induction rs generalizing s with
  | nil => exact hs
  | cons r rs ih => exact ih (acceptReport_keeps hs)

@[simp] theorem records_partialUpdate (s : State) : (partialUpdate s).records = s.nv.records := by
  unfold partialUpdate
  split
  · dsimp only
    split <;> rfl
  · rfl

theorem goDark_keeps (hs : Keeps s₀ s) : Keeps s₀ (goDark s) :=
  .restart (commitAll_keeps (acceptAll_keeps (.frame (acceptAll_keeps (.frame hs))))) (records_partialUpdate _)

theorem darkOnLoss_keeps (hs : Keeps s₀ s) : Keeps s₀ (darkOnLoss s) :=
  .frame (goDark_keeps hs)

theorem leaveDark_keeps {dc} (hs : Keeps s₀ s) : Keeps s₀ (leaveDark dc s) :=
  .restart hs rfl

/-! ### World -/

theorem ownedWrite_keeps {win off ownSec rq value act} (hact : ∀ s, Keeps s₀ s → Keeps s₀ (act s)) (hs : Keeps s₀ s) :
    Keeps s₀ (ownedWrite win off ownSec rq value act s) :=
  .ite hs (.ite (hact _ hs) (report_keeps hs))

/-! ### Steps -/

theorem holdDown_keeps {t u v} (hs : Keeps s₀ s) : Keeps s₀ (holdDown s t u v) :=
  .ite (setTileIsl_keeps hs) (setTileIsl_keeps hs)

theorem steer_keeps {n ts} (hs : Keeps s₀ s) : Keeps s₀ (steer n ts s) := by
  induction n generalizing ts s with
  | zero => exact hs
  | succ n ih =>
    cases ts with
    | nil => exact hs
    | cons t ts =>
      exact .ite (ih hs) (.ite (ih (.foldl (fun _ _ hs => report_keeps hs) (.foldl (fun _ _ hs => report_keeps hs)
        (.foldl (fun _ _ hs => holdDown_keeps hs) (setTileIsl_keeps hs)))))
        (ih (.foldl (fun _ _ hs => report_keeps hs) (.foldl (fun _ _ hs => report_keeps hs)
          (.foldl (fun _ _ hs => holdDown_keeps hs) (setTileIsl_keeps hs))))))

theorem resteer_keeps {t} (hs : Keeps s₀ s) : Keeps s₀ (resteer t s) :=
  steer_keeps hs

theorem loadCeilings_keeps (hs : Keeps s₀ s) : Keeps s₀ (loadCeilings s) :=
  .foldl (fun _ _ hs => .ite (steer_keeps hs) hs) (.foldl (fun _ _ hs => .ite (setTileIsl_keeps hs) hs) hs)

theorem restretchPair_keeps {t n} (hs : Keeps s₀ s) : Keeps s₀ (restretchPair t n s) :=
  .ite hs (report_keeps (setTileIsl_keeps hs))

theorem restretch_keeps {t} (hs : Keeps s₀ s) : Keeps s₀ (restretch t s) :=
  .foldl (fun _ _ => restretchPair_keeps) hs

theorem restretchAll_keeps {t} (hs : Keeps s₀ s) : Keeps s₀ (restretchAll t s) :=
  .foldl (fun _ _ => restretch_keeps) hs

theorem enterStep_keeps {t} (hs : Keeps s₀ s) : Keeps s₀ (enterStep t s) :=
  restretchAll_keeps (resteer_keeps (setTileIsl_keeps hs))

theorem execStepChangeComplete_answers {t} (hs : Keeps s₀ s) : Answers s₀ (execStepChangeComplete t s) :=
  .ite (.next (restretchAll_keeps (resteer_keeps (setTileIsl_keeps (reachTime_keeps hs))))) (.next hs)

theorem execSupplyDroopStretch_answers {t stretch start} (hs : Keeps s₀ s) :
    Answers s₀ (execSupplyDroopStretch t stretch start s) :=
  .ite (.next hs) (.next (.foldl (fun _ _ hs => restretchPair_keeps (restretchPair_keeps hs)) (setTileIsl_keeps hs)))

theorem startTempHold_keeps {t other} (hs : Keeps s₀ s) : Keeps s₀ (startTempHold t other s) :=
  .ite hs (resteer_keeps (report_keeps (setTileIsl_keeps hs)))

theorem checkTemp_keeps {t} (hs : Keeps s₀ s) : Keeps s₀ (checkTemp t s) :=
  .foldl (fun _ _ hs => .ite (startTempHold_keeps hs) hs) hs

theorem markHot_keeps {p} (hs : Keeps s₀ s) : Keeps s₀ (markHot p s) :=
  reportIf_keeps (.frame hs)

theorem execJunctionSample_answers {isl tj} (hs : Keeps s₀ s) : Answers s₀ (execJunctionSample isl tj s) :=
  .ite (.next hs) (.next (.foldl (fun _ _ => markHot_keeps) (.foldl (fun _ _ => checkTemp_keeps) (.frame hs))))

theorem execTempHoldStepDown_answers {t} (hs : Keeps s₀ s) : Answers s₀ (execTempHoldStepDown t s) :=
  .ite (.next (resteer_keeps (setTileIsl_keeps hs))) (.next hs)

theorem execTempHoldRelease_answers {t} (hs : Keeps s₀ s) : Answers s₀ (execTempHoldRelease t s) :=
  .ite (.next hs) (.ite (.next (setTileIsl_keeps (.foldl (fun _ _ => report_keeps) hs))) (.ite
    (.next (resteer_keeps (setTileIsl_keeps (.foldl (fun _ _ => report_keeps) hs))))
    (.next (resteer_keeps (setTileIsl_keeps hs)))))

theorem execChronometerSync_answers {diffs} (hs : Keeps s₀ s) : Answers s₀ (execChronometerSync diffs s) :=
  .ite (.next hs) (.next (.foldl
    (fun _ _ hs =>
      .ite (by split; exacts [hs, .ite hs (reportIf_keeps (setTileIsl_keeps hs))])
        (.ite hs (reportIf_keeps (.frame hs)))) (reachTime_keeps hs)))

/-! ### Ops -/

theorem putBits_keeps {l lo w v} (hs : Keeps s₀ s) : Keeps s₀ (putBits l lo w v s) :=
  putLine_keeps hs

theorem readWordMark_keeps {t line word req} (hs : Keeps s₀ s) : Keeps s₀ (readWordMark t line word req s).1 := by
  simp only [readWordMark]
  split
  · exact hs
  · exact .fst (report_keeps (setTile_keeps hs))
  · exact .fst (report_keeps (setTile_keeps (.frame hs)))

theorem readWords_keeps {t line req words} (hs : Keeps s₀ s) : Keeps s₀ (readWords t line req words s).1 :=
  .foldlFst (fun _ _ hp => readWordMark_keeps hp) hs

theorem readTileBits_keeps {t line lo w req} (hs : Keeps s₀ s) : Keeps s₀ (readTileBits t line lo w req s).1 :=
  .fst (readWords_keeps hs)

theorem readAcross_keeps {t line lo w req} (hs : Keeps s₀ s) : Keeps s₀ (readAcross t line lo w req s).1 :=
  .fst (readWords_keeps hs)

theorem writeTileBits_keeps {t line lo w v req} (hs : Keeps s₀ s) : Keeps s₀ (writeTileBits t line lo w v req s) :=
  .ite (.foldl (fun _ _ hs => report_keeps (setTile_keeps hs)) hs)
    (putBits_keeps (.frame (.foldl (fun _ _ hs => report_keeps (setTile_keeps hs)) hs)))

theorem bindAll_keeps {ls} (hs : Keeps s₀ s) : Keeps s₀ (bindAll ls s) :=
  .frame hs

theorem unbind_keeps {c} (hs : Keeps s₀ s) : Keeps s₀ (unbind c s) :=
  .frame hs

/-! ### Trace -/

theorem traceLost_keeps {t n reason} (hs : Keeps s₀ s) : Keeps s₀ (traceLost t n reason s) :=
  setTile_keeps hs

theorem changeTrace_keeps {i f} (hs : Keeps s₀ s) : Keeps s₀ (changeTrace i f s) :=
  .ite (setCore_keeps hs) (traceLost_keeps (setCore_keeps hs))

theorem bufLost_keeps {t src p} (hs : Keeps s₀ s) : Keeps s₀ (bufLost t src p s) := by
  simp only [bufLost]
  split
  · exact traceLost_keeps (setTile_keeps hs)
  · exact setCore_keeps (traceLost_keeps (setTile_keeps hs))

theorem bufPacket_keeps {t src p} (hs : Keeps s₀ s) : Keeps s₀ (bufPacket t src p s) :=
  .ite (.ite (setTile_keeps hs) (bufLost_keeps hs)) (setTile_keeps hs)

theorem roundTile_keeps {t n room} (hs : Keeps s₀ s) : Keeps s₀ (roundTile t n room s).1 := by
  induction n generalizing room s with
  | zero => exact hs
  | succ n ih =>
    unfold roundTile
    split
    · exact hs
    · split
      · exact ih (bufPacket_keeps (setTile_keeps hs))
      · exact hs

theorem roundCores_keeps {t cs room} (hs : Keeps s₀ s) : Keeps s₀ (roundCores t cs room s) := by
  induction cs generalizing room s with
  | nil => exact hs
  | cons c cs ih =>
    unfold roundCores
    split
    · exact ih hs
    · exact .ite (ih (bufPacket_keeps (setCore_keeps hs))) (ih hs)

theorem roomReturned_keeps {t} (hs : Keeps s₀ s) : Keeps s₀ (roomReturned t s) :=
  .ite (.foldl (fun _ _ hs => .ite (setCore_keeps hs) hs) (bufPacket_keeps (setTile_keeps hs))) hs

theorem wakeRound_keeps {t} (hs : Keeps s₀ s) : Keeps s₀ (wakeRound t s) := by
  simp only [wakeRound]
  exact setTile_keeps (roundCores_keeps (roundTile_keeps hs))

theorem wakeCycle_keeps {i} (hs : Keeps s₀ s) : Keeps s₀ (wakeCycle i s) :=
  .ite hs (.ite (wakeRound_keeps (setTile_keeps hs)) (setTile_keeps hs))

theorem wakeRounds_keeps {t n} (hs : Keeps s₀ s) : Keeps s₀ (wakeRounds t n s) := by
  induction n generalizing s with
  | zero => exact hs
  | succ n ih => exact .ite (ih (wakeRound_keeps hs)) hs

theorem catchUp_keeps {t} (hs : Keeps s₀ s) : Keeps s₀ (catchUp t s) :=
  setTile_keeps (wakeRounds_keeps hs)

theorem wakeSettle_keeps {t} (hs : Keeps s₀ s) : Keeps s₀ (wakeSettle t s) :=
  wakeRounds_keeps hs

theorem traceEmit_keeps {i f} (hs : Keeps s₀ s) : Keeps s₀ (traceEmit i f s) :=
  changeTrace_keeps (.ite (changeTrace_keeps (changeTrace_keeps (catchUp_keeps hs))) (catchUp_keeps hs))

theorem traceCore_keeps {i f} (hs : Keeps s₀ s) : Keeps s₀ (traceCore i f s) :=
  .ite (traceEmit_keeps hs) hs

theorem traceBranch_keeps {i taken} (hs : Keeps s₀ s) : Keeps s₀ (traceBranch i taken s) :=
  traceCore_keeps hs

theorem traceIssue_keeps {i pc} (hs : Keeps s₀ s) : Keeps s₀ (traceIssue i pc s) :=
  traceCore_keeps hs

theorem traceTile_keeps {t st} (hs : Keeps s₀ s) : Keeps s₀ (traceTile t st s) :=
  setTile_keeps (wakeSettle_keeps hs)

/-! ### CoreOps -/

theorem collide_keeps {i reg win lose kind} (hs : Keeps s₀ s) : Keeps s₀ (collide i reg win lose kind s) :=
  setCore_keeps (reportIf_keeps hs)

theorem landOne_keeps {i ready l} (hs : Keeps s₀ s) : Keeps s₀ (landOne i ready l s) := by
  have hf : Keeps s₀ (setCore i (landFlags l) s) := setCore_keeps hs (by simp)
  have hw : Keeps s₀ (setCore i (fun k => k.write l.reg l.val) (setCore i (landFlags l) s)) :=
    setCore_keeps hf fun _ c => write_wf _ _ c
  simp only [landOne]
  split
  · split
    · exact hw
    · exact collide_keeps hw
  · exact hf

theorem landNow_keeps {i} (hs : Keeps s₀ s) : Keeps s₀ (landNow i s) :=
  .foldl (fun _ _ => landOne_keeps) (setCore_keeps (setCore_keeps hs (by simp)))

theorem landDue_keeps {i} (hs : Keeps s₀ s) : Keeps s₀ (landDue i s) :=
  .ite hs (landNow_keeps hs)

theorem drought_keeps {i} (hs : Keeps s₀ s) : Keeps s₀ (drought i s) := by
  simp only [drought]
  split
  · exact hs
  · exact setCore_keeps (reportIf_keeps hs)

theorem seqTimeout_keeps {i} (hs : Keeps s₀ s) : Keeps s₀ (seqTimeout i s) :=
  .ite (setCore_keeps hs) hs

theorem settle_keeps {i} (hs : Keeps s₀ s) : Keeps s₀ (settle i s) :=
  drought_keeps (seqTimeout_keeps (landDue_keeps hs))

theorem addCause_keeps {i c} (hs : Keeps s₀ s) : Keeps s₀ (addCause i c s) :=
  setCore_keeps hs (fun k c => by split; exacts [c, by split <;> exact c])

theorem pulseFrom_keeps {origin mask} (hs : Keeps s₀ s) : Keeps s₀ (pulseFrom origin mask s) :=
  .ite hs (.frame hs)

theorem applyMatches_keeps {i slot eval js} (hs : Keeps s₀ s) : Keeps s₀ (applyMatches i slot eval js s) :=
  .foldl
    (fun _ _ hs =>
      by
        dsimp only
        split
        · exact .ite (.ite (setCore_keeps hs) hs) (addCause_keeps hs)
        · exact .ite hs (setCore_keeps hs)
        · exact .ite hs (pulseFrom_keeps hs)
        · exact hs) hs

theorem openBundle_keeps {i} (hs : Keeps s₀ s) : Keeps s₀ (openBundle i s) :=
  applyMatches_keeps (setCore_keeps hs)

theorem annul_keeps {i} (hs : Keeps s₀ s) : Keeps s₀ (annul i s) :=
  setCore_keeps hs

theorem ringDoorbell_keeps {src code sec} (hs : Keeps s₀ s) : Keeps s₀ (ringDoorbell src code sec s) :=
  .frame hs

theorem coreFatal_keeps {i r} (hs : Keeps s₀ s) : Keeps s₀ (coreFatal i r s) :=
  ringDoorbell_keeps (setCore_keeps (report_keeps hs))

theorem doubleFault_keeps {i ec epc} (hs : Keeps s₀ s) : Keeps s₀ (doubleFault i ec epc s) :=
  coreFatal_keeps hs

theorem enterException_keeps {i vec code slot eval p dly tgt} (hs : Keeps s₀ s) :
    Keeps s₀ (enterException i vec code slot eval p dly tgt s) :=
  .ite (doubleFault_keeps hs) (setCore_keeps (traceCore_keeps hs) (fun k c => by simpa using c))

theorem advance_keeps {i} (hs : Keeps s₀ s) : Keeps s₀ (advance i s) :=
  setCore_keeps hs

theorem deferredCompare_keeps {i} (hs : Keeps s₀ s) : Keeps s₀ (deferredCompare i s) :=
  .ite (enterException_keeps (landDue_keeps (setCore_keeps hs))) hs

theorem commitBundle_keeps {sr i} (hsr : ∀ x0 x1 x2 s, Keeps s₀ s → Keeps s₀ (sr x0 x1 x2 s)) (hs : Keeps s₀ s) :
    Keeps s₀ (commitBundle sr i s) :=
  seqTimeout_keeps (wakeCycle_keeps (.foldl (fun _ _ hs => hsr _ _ _ _ hs)
    (setCore_keeps (advance_keeps (by split; exacts [hs, collide_keeps hs])))))

theorem takeCause_keeps {i c} (hs : Keeps s₀ s) : Keeps s₀ (takeCause i c s) :=
  .ite (enterException_keeps (landDue_keeps (advance_keeps (annul_keeps (traceIssue_keeps hs)))))
    (setCore_keeps (enterException_keeps (annul_keeps hs)))

/-! ### DramMem -/

theorem setSub_keeps {u f} (hs : Keeps s₀ s) : Keeps s₀ (setSub u f s) :=
  { hs with subs := fun c => mmod_wf (hs.subs c) }

theorem setChanSt_keeps {c f} (hs : Keeps s₀ s) : Keeps s₀ (setChanSt c f s) :=
  { hs with drcChans := fun c => mmod_wf (hs.drcChans c) }

theorem downAccesses_keeps {n l code} (hs : Keeps s₀ s) : Keeps s₀ (downAccesses n l code s) :=
  .ite (report_keeps (setSub_keeps (setSub_keeps hs))) (setSub_keeps hs)

theorem downAccess_keeps {l code} (hs : Keeps s₀ s) : Keeps s₀ (downAccess l code s) :=
  downAccesses_keeps hs

theorem downRanges_keeps {rs} (hs : Keeps s₀ s) : Keeps s₀ (downRanges rs s) :=
  .foldl (fun _ _ hs => by split; exacts [hs, downAccesses_keeps hs]) hs

theorem designate_keeps {u d policy} (hs : Keeps s₀ s) : Keeps s₀ (designate u d policy s) :=
  report_keeps (.frame hs)

theorem countSymbol_keeps {u d} (hs : Keeps s₀ s) : Keeps s₀ (countSymbol u d s) := by
  unfold countSymbol
  extract_lets s₁
  have h₁ : Keeps s₀ s₁ := setSub_keeps hs
  exact .ite (designate_keeps h₁) h₁

theorem setPoison_keeps {l b} (hs : Keeps s₀ s) : Keeps s₀ (setPoison l b s) :=
  .frame hs

theorem setMarks_keeps {l es} (hs : Keeps s₀ s) :
    Keeps s₀ { s with drc := { s.drc with marks := mset [] s.drc.marks l es } } :=
  { hs with marks := fun c => mset_wf (hs.marks c) }

theorem clearLine_keeps {l} (hs : Keeps s₀ s) : Keeps s₀ (clearLine l s) :=
  setPoison_keeps (setMarks_keeps hs)

theorem keepReads_keeps {l} (hs : Keeps s₀ s) : Keeps s₀ (keepReads l s) :=
  setSub_keeps hs

theorem enqueueWrite_keeps {rq l} (hs : Keeps s₀ s) : Keeps s₀ (enqueueWrite rq l s) :=
  .ite (setSub_keeps hs) (.ite hs (setSub_keeps (.frame hs)))

theorem writeBackFixed_keeps {l v} (hs : Keeps s₀ s) : Keeps s₀ (writeBackFixed l v s) :=
  .ite hs (enqueueWrite_keeps (putLine_keeps (clearLine_keeps (keepReads_keeps hs))))

theorem decodeBurst_keeps {back code l bits es} (hs : Keeps s₀ s) :
    Keeps s₀ (decodeBurst back code l bits es s).1 := by
  simp only [decodeBurst]
  split
  · exact hs
  · exact .fst
      (.ite (writeBackFixed_keeps (report_keeps (countSymbol_keeps hs))) (report_keeps (countSymbol_keeps hs)))
  · exact .fst (setSub_keeps hs)
  · exact .fst (report_keeps hs)
  · exact .fst (report_keeps (setSub_keeps hs))

theorem decodeLine_keeps {code l} (hs : Keeps s₀ s) : Keeps s₀ (decodeLine code l s).1 :=
  decodeBurst_keeps hs

theorem markIdle_keeps {u} (hs : Keeps s₀ s) : Keeps s₀ (markIdle u s) :=
  setChanSt_keeps hs

theorem restSub_keeps {u} (hs : Keeps s₀ s) : Keeps s₀ (restSub u s) :=
  setSub_keeps hs

theorem wakeChan_keeps {c} (hs : Keeps s₀ s) : Keeps s₀ (wakeChan c s) :=
  markIdle_keeps (.ite (.foldl (fun _ _ => restSub_keeps) (setChanSt_keeps hs)) hs)

theorem wakeRanges_keeps {rs} (hs : Keeps s₀ s) : Keeps s₀ (wakeRanges rs s) :=
  .foldl (fun _ _ hs => .ite (wakeChan_keeps hs) hs) hs

theorem readIssued_keeps {l} (hs : Keeps s₀ s) : Keeps s₀ (readIssued l s) :=
  setSub_keeps hs

theorem unclaim_keeps (hs : Keeps s₀ s) : Keeps s₀ (unclaim s) :=
  .frame hs

theorem dramGet_keeps {rq l} (hs : Keeps s₀ s) : Keeps s₀ (dramGet rq l s).1 := by
  simp only [dramGet]
  split
  · exact .fst (unclaim_keeps hs)
  · split
    · exact .fst (downAccess_keeps hs)
    · split
      · exact hs
      · exact decodeLine_keeps (markIdle_keeps (readIssued_keeps hs))

theorem acceptWrite_keeps {rq l lo w v} (hs : Keeps s₀ s) : Keeps s₀ (acceptWrite rq l lo w v s) :=
  .ite
    (.ite (decodeLine_keeps (.ite (unclaim_keeps hs) (markIdle_keeps (readIssued_keeps hs))))
    (enqueueWrite_keeps (putLine_keeps (clearLine_keeps
      (keepReads_keeps (decodeLine_keeps (.ite (unclaim_keeps hs) (markIdle_keeps (readIssued_keeps hs)))))))))
    (enqueueWrite_keeps (putBits_keeps (clearLine_keeps (keepReads_keeps hs))))

theorem dramPutAt_keeps {rq a lo w v} (hs : Keeps s₀ s) : Keeps s₀ (dramPutAt rq a lo w v s) :=
  .ite hs (.ite (report_keeps hs) (.ite (downAccess_keeps hs) (acceptWrite_keeps hs)))

theorem dramPut_keeps {rq l lo w v} (hs : Keeps s₀ s) : Keeps s₀ (dramPut rq l lo w v s) :=
  dramPutAt_keeps hs

theorem startExit_keeps {u} (hs : Keeps s₀ s) : Keeps s₀ (startExit u s) :=
  .ite (setChanSt_keeps hs) hs

theorem wakeLine_keeps {l} (hs : Keeps s₀ s) : Keeps s₀ (wakeLine l s) :=
  .ite (startExit_keeps hs) hs

theorem queueRead_keeps {who merge rq l} (hs : Keeps s₀ s) : Keeps s₀ (queueRead who merge rq l s) :=
  setSub_keeps (startExit_keeps (.frame hs))

theorem askRead_keeps {who merge rq l} (hs : Keeps s₀ s) : Keeps s₀ (askRead who merge rq l s) :=
  .ite (startExit_keeps hs) (queueRead_keeps hs)

theorem claim_keeps {who l} (hs : Keeps s₀ s) : Keeps s₀ (claim who l s) := by
  simp only [claim]
  split
  · exact hs
  · exact .frame hs

theorem withOutcome_keeps {who l act} (hact : ∀ s, Keeps s₀ s → Keeps s₀ (act s)) (hs : Keeps s₀ s) :
    Keeps s₀ (withOutcome who l act s) := by
  simp only [withOutcome]
  split
  · exact hact _ hs
  · exact unclaim_keeps (hact _ (claim_keeps hs))

theorem bring_keeps {who l v bad} (hs : Keeps s₀ s) : Keeps s₀ (bring who l v bad s) :=
  .ite (.frame hs) hs

theorem askWrite_keeps {who rq l w} (hs : Keeps s₀ s) : Keeps s₀ (askWrite who rq l w s) :=
  .ite (askRead_keeps hs) (wakeLine_keeps hs)

/-! ### Cache -/

theorem tlbRefill_keeps {i va} (hs : Keeps s₀ s) : Keeps s₀ (tlbRefill i va s) := by
  simp only [tlbRefill]
  split
  · exact hs
  · split
    · exact hs
    · exact setCore_keeps (.frame hs)

theorem readTable_keeps {i w a} (hs : Keeps s₀ s) : Keeps s₀ (readTable i w a s).1 := by
  simp only [readTable]
  split
  · exact hs
  · split
    · exact .fst (dramGet_keeps (claim_keeps hs))
    · exact hs
    · split
      · exact .fst (readTileBits_keeps hs)
      · exact hs
    · exact hs

theorem walkTable_keeps {i w lvls t} (hs : Keeps s₀ s) : Keeps s₀ (walkTable i w lvls t s).1 := by
  induction lvls generalizing t s with
  | nil => exact hs
  | cons lvl rest ih =>
    simp only [walkTable]
    split
    · exact hs
    · have hr {a} : Keeps s₀ (readTable i w a s).1 := readTable_keeps hs
      split
      · exact hr
      · split
        · exact hr
        · split
          · exact hr
          · split
            · split
              · exact ih hr
              · exact hr
            · split
              · exact hr
              · exact hr

theorem setFrame_keeps {i key f} (hs : Keeps s₀ s) : Keeps s₀ (setFrame i key f s) :=
  setCore_keeps hs

theorem parity_keeps {i key f refetch} (hs : Keeps s₀ s) : Keeps s₀ (parity i key f refetch s) :=
  .ite (.ite hs (coreFatal_keeps (setFrame_keeps hs))) (report_keeps (setCore_keeps hs))

theorem lockDropped_keeps {i op n} (hs : Keeps s₀ s) : Keeps s₀ (lockDropped i op n s) :=
  .ite hs (report_keeps (setCore_keeps hs))

theorem nextOrder_keeps {t} (hs : Keeps s₀ s) : Keeps s₀ (nextOrder t s).1 :=
  .fst (setTile_keeps hs)

theorem startWriteBack_keeps {i line bits sec served victim} (hs : Keeps s₀ s) :
    Keeps s₀ (startWriteBack i line bits sec served victim s) :=
  bindAll_keeps (setCore_keeps (nextOrder_keeps hs))

theorem unserve_keeps {i line} (hs : Keeps s₀ s) : Keeps s₀ (unserve i line s) :=
  setCore_keeps hs

theorem evictWrite_keeps {i line bits sec} (hs : Keeps s₀ s) : Keeps s₀ (evictWrite i line bits sec s) :=
  setCore_keeps hs

theorem rebase_keeps {i line base} (hs : Keeps s₀ s) : Keeps s₀ (rebase i line base s).1 :=
  .fst (setCore_keeps hs)

theorem invalidateCopy_keeps {i line} (hs : Keeps s₀ s) : Keeps s₀ (invalidateCopy i line s) := by
  simp only [invalidateCopy]
  split
  · exact unserve_keeps hs
  · exact .ite (parity_keeps (unserve_keeps hs)) (.ite
      (lockDropped_keeps (setFrame_keeps (.ite (startWriteBack_keeps (unserve_keeps hs)) (unserve_keeps hs))))
      (setFrame_keeps (.ite (startWriteBack_keeps (unserve_keeps hs)) (unserve_keeps hs))))

theorem invalidateOthers_keeps {i line} (hs : Keeps s₀ s) : Keeps s₀ (invalidateOthers i line s) :=
  .foldl (fun _ _ => invalidateCopy_keeps) hs

theorem leaveLine_keeps {i line} (hs : Keeps s₀ s) : Keeps s₀ (leaveLine i line s) :=
  .ite hs (setCore_keeps (invalidateOthers_keeps hs))

theorem installLine_keeps {fill i line bits dirty sec} (hs : Keeps s₀ s) :
    KeepsAll s₀ (installLine fill i line bits dirty sec s) := by
  simp only [installLine]
  split
  · exact .some hs
  · split
    · exact .some (setCore_keeps hs)
    · exact .ite (.some (.ite (parity_keeps hs) (setCore_keeps (parity_keeps hs)))) (.ite
        (.ite .none (.some (setCore_keeps (leaveLine_keeps hs))))
        (.ite (.some (setCore_keeps (startWriteBack_keeps (leaveLine_keeps hs)))) .none))

theorem reinstall_keeps {i e} (hs : Keeps s₀ s) : Keeps s₀ (reinstall i e s) :=
  .ite (setCore_keeps hs) (by
    split
    · exact setCore_keeps hs
    · rename_i he
      exact unserve_keeps (installLine_keeps hs _ he))

theorem bufferHit_keeps {i e} (hs : Keeps s₀ s) : Keeps s₀ (bufferHit i e s) :=
  reinstall_keeps (setCore_keeps hs)

theorem lookLine_keeps {i line mask} (hs : Keeps s₀ s) : Keeps s₀ (lookLine i line mask s).1 := by
  simp only [lookLine]
  split
  · split
    · exact .fst (parity_keeps hs)
    · exact .fst (setCore_keeps hs)
  · split
    · exact hs
    · exact .fst (bufferHit_keeps hs)

theorem takeOver_keeps {i line} (hs : Keeps s₀ s) : Keeps s₀ (takeOver i line s) :=
  .foldl
    (fun _ _ hs => by split; exacts [.ite hs (setFrame_keeps (.ite (startWriteBack_keeps hs) hs)), setCore_keeps hs])
    hs

theorem storeLine_keeps {i line bits} (hs : Keeps s₀ s) : Keeps s₀ (storeLine i line bits s) := by
  simp only [storeLine]
  split
  · exact takeOver_keeps (setFrame_keeps hs)
  · exact takeOver_keeps (evictWrite_keeps hs)

theorem directoryParity_keeps {j line} (hs : Keeps s₀ s) : Keeps s₀ (directoryParity j line s) := by
  simp only [directoryParity]
  split
  · exact .ite (parity_keeps hs) hs
  · exact hs

theorem fromSiblings_keeps {i line} (hs : Keeps s₀ s) : Keeps s₀ (fromSiblings i line s).1 := by
  simp only [fromSiblings]
  split
  · exact .fst (.foldl (fun _ _ => directoryParity_keeps) hs)
  · split
    · exact .fst (.foldl (fun _ _ => directoryParity_keeps) hs)
    · exact .fst (by
        split
        · exact bufferHit_keeps (.foldl (fun _ _ => directoryParity_keeps) hs)
        · exact .foldl (fun _ _ => directoryParity_keeps) hs)

theorem pendStore_keeps {i p} (hs : Keeps s₀ s) : Keeps s₀ (pendStore i p s) :=
  setCore_keeps hs

theorem breakReservations_keeps {t except line} (hs : Keeps s₀ s) : Keeps s₀ (breakReservations t except line s) :=
  .foldl (fun _ _ hs => .ite hs (by split; exacts [hs, .ite (setCore_keeps hs) hs])) hs

theorem deliver_keeps {i landing v} (hs : Keeps s₀ s) : Keeps s₀ (deliver i landing v s) :=
  setCore_keeps hs

theorem gotMiss_keeps {i id v bad} (hs : Keeps s₀ s) : Keeps s₀ (gotMiss i id v bad s) :=
  .frame (setCore_keeps hs)

theorem startMiss_keeps {i kind pa n oct side accs} (hs : Keeps s₀ s) :
    Keeps s₀ (startMiss i kind pa n oct side accs s) := by
  simp only [startMiss]
  split
  · exact bindAll_keeps (setCore_keeps (.ite (.frame (nextOrder_keeps hs)) (nextOrder_keeps hs)))
  · exact setCore_keeps (.ite (.frame (nextOrder_keeps hs)) (nextOrder_keeps hs))

theorem endMiss_keeps {i id} (hs : Keeps s₀ s) : Keeps s₀ (endMiss i id s) :=
  unbind_keeps (setCore_keeps (.frame hs) (fun k c => by dsimp only; split <;> exact c))

theorem parityFetch_keeps {i key refetch} (hs : Keeps s₀ s) : Keeps s₀ (parityFetch i key refetch s) :=
  report_keeps (setCore_keeps hs)

theorem lookFetch_keeps {i pa} (hs : Keeps s₀ s) : Keeps s₀ (lookFetch i pa s).1 := by
  simp only [lookFetch]
  split
  · exact hs
  · split
    · exact hs
    · split
      · exact .fst (parityFetch_keeps hs)
      · exact .fst (setCore_keeps hs)

theorem installFetch_keeps {i line bits} (hs : Keeps s₀ s) : Keeps s₀ (installFetch i line bits s) := by
  simp only [installFetch]
  split <;> exact setCore_keeps hs

theorem fetchAddress_keeps {i} (hs : Keeps s₀ s) : Keeps s₀ (fetchAddress i s).1 := by
  simp only [fetchAddress]
  split
  · exact .fst (setCore_keeps (tlbRefill_keeps hs))
  · exact .fst (tlbRefill_keeps hs)
  · split
    · exact .fst (report_keeps (tlbRefill_keeps hs))
    · exact .fst (tlbRefill_keeps hs)

theorem fetchBundle_keeps {i} (hs : Keeps s₀ s) : Keeps s₀ (fetchBundle i s).1 := by
  simp only [fetchBundle]
  split
  · rename_i he
    exact .of_eq he (fetchAddress_keeps hs)
  · rename_i he
    split
    · rename_i he'
      exact .of_eq he' (lookFetch_keeps (setCore_keeps (.of_eq he (fetchAddress_keeps hs))))
    · rename_i he'
      split
      · exact .of_eq he' (lookFetch_keeps (setCore_keeps (.of_eq he (fetchAddress_keeps hs))))
      · exact .fst
          (startMiss_keeps (.of_eq he' (lookFetch_keeps (setCore_keeps (.of_eq he (fetchAddress_keeps hs))))))

/-! ### Flags -/

theorem wayToLocal_keeps {i w} (hs : Keeps s₀ s) : Keeps s₀ (wayToLocal i w s) :=
  .foldl
    (fun _ _ hs =>
      by
        split
        · exact hs
        · exact .ite (parity_keeps hs) (.ite (startWriteBack_keeps (setFrame_keeps (leaveLine_keeps hs)))
            (setFrame_keeps (leaveLine_keeps hs)))) hs

theorem wayFromLocal_keeps {i w} (hs : Keeps s₀ s) : Keeps s₀ (wayFromLocal i w s) :=
  setCore_keeps hs

theorem writeDway_keeps {i v} (hs : Keeps s₀ s) : Keeps s₀ (writeDway i v s) :=
  .ite (report_keeps hs) (.ite
    (.foldl (fun _ _ hs => .ite (wayToLocal_keeps hs) (.ite (wayFromLocal_keeps hs) hs)) hs)
    (setCore_keeps (.foldl (fun _ _ hs => .ite (wayToLocal_keeps hs) (.ite (wayFromLocal_keeps hs) hs)) hs)))

theorem writeIway_keeps {i v} (hs : Keeps s₀ s) : Keeps s₀ (writeIway i v s) :=
  .ite (report_keeps hs) (setCore_keeps hs)

theorem srWrite_keeps {i n x} (hs : Keeps s₀ s) : Keeps s₀ (srWrite i n x s) := by
  simp only [srWrite]
  split
  · exact setCore_keeps hs
  · exact setCore_keeps hs
  · exact setCore_keeps hs
  · exact setCore_keeps hs (by simp)
  · exact setCore_keeps hs (by simp)
  · exact setCore_keeps hs (by simp)
  · exact setCore_keeps hs (by simp)
  · exact setCore_keeps hs (by simp)
  · exact setCore_keeps hs
  · exact setCore_keeps hs
  · exact setCore_keeps hs (by simp)
  · exact setCore_keeps hs (by simp)
  · exact writeDway_keeps hs
  · exact writeIway_keeps hs
  · exact hs

/-! ### Operands -/

theorem launch_keeps {i slot lat reg val extra} (hs : Keeps s₀ s) : Keeps s₀ (launch i slot lat reg val extra s) :=
  setCore_keeps hs

theorem result_keeps {i slot lat dest val} (hs : Keeps s₀ s) : Keeps s₀ (result i slot lat dest val s) :=
  launch_keeps hs

theorem tryOpen_keeps {i} (hs : Keeps s₀ s) : Keeps s₀ (tryOpen i s).1 := by
  simp only [tryOpen]
  split
  · exact hs
  · split
    · exact hs
    · split
      · exact .fst (settle_keeps hs)
      · split
        · rename_i he
          exact .of_eq he (fetchBundle_keeps (settle_keeps hs))
        · rename_i he
          exact .fst (takeCause_keeps (.of_eq he (fetchBundle_keeps (settle_keeps hs))))
        · rename_i he
          split
          · exact .fst (setCore_keeps (.of_eq he (fetchBundle_keeps (settle_keeps hs))))
          · exact .fst (openBundle_keeps (.of_eq he (fetchBundle_keeps (settle_keeps hs))))

theorem endBundle_keeps {i post} (hpost : ∀ x0 s, Keeps s₀ s → Keeps s₀ (post x0 s)) (hs : Keeps s₀ s) :
    Keeps s₀ (endBundle i post s) :=
  .ite (annul_keeps hs) (by
    split
    · exact takeCause_keeps hs
    · exact deferredCompare_keeps
        (hpost _ _ (commitBundle_keeps (fun _ _ _ _ => srWrite_keeps) (traceIssue_keeps hs))))

theorem beginSyllable_keeps {x} (hs : Keeps s₀ s) : Keeps s₀ (beginSyllable x s).1 := by
  simp only [beginSyllable]
  split
  · exact hs
  · exact tryOpen_keeps hs

theorem runSyllable_keeps {x word ill dest act} (hact : ∀ x0 s, Keeps s₀ s → Keeps s₀ (act x0 s)) (hs : Keeps s₀ s) :
    Keeps s₀ (runSyllable x word ill dest act s) := by
  simp only [runSyllable]
  split
  · exact addCause_keeps hs
  · exact .ite (setCore_keeps hs) (hact _ _ hs)

theorem closeSyllable_keeps {x long post} (hpost : ∀ x0 s, Keeps s₀ s → Keeps s₀ (post x0 s)) (hs : Keeps s₀ s) :
    Keeps s₀ (closeSyllable x long post s) :=
  .ite (endBundle_keeps hpost hs) (setCore_keeps hs)

theorem syllable_keeps {x word ill long dest act post}
    (hact : ∀ x0 s, Keeps s₀ s → Keeps s₀ (act x0 s)) (hpost : ∀ x0 s, Keeps s₀ s → Keeps s₀ (post x0 s))
    (hs : Keeps s₀ s) : Keeps s₀ (syllable x word ill long dest act post s) :=
  .ite (beginSyllable_keeps hs) (closeSyllable_keeps hpost (runSyllable_keeps hact (beginSyllable_keeps hs)))

theorem noPost_keeps {i} (hs : Keeps s₀ s) : Keeps s₀ (noPost i s) :=
  hs

theorem computes_keeps {x word ill long lat dest val} (hs : Keeps s₀ s) :
    Keeps s₀ (computes x word ill long lat dest val s) :=
  syllable_keeps (fun _ _ => result_keeps) (fun _ _ => noPost_keeps) hs

/-! ### CoreInt -/

theorem intReg_answers {op g x wd f} (hs : Keeps s₀ s) : Answers s₀ (intReg op g x wd f s) :=
  .next (computes_keeps hs)

theorem intImm_answers {op g x wd f} (hs : Keeps s₀ s) : Answers s₀ (intImm op g x wd f s) :=
  .next (computes_keeps hs)

theorem intUnary_answers {op val x f} (hs : Keeps s₀ s) : Answers s₀ (intUnary op val x f s) :=
  .next (computes_keeps hs)

theorem intMul_answers {op g x wd f} (hs : Keeps s₀ s) : Answers s₀ (intMul op g x wd f s) :=
  .next (computes_keeps hs)

theorem intDiv_answers {op signed g x wd f} (hs : Keeps s₀ s) : Answers s₀ (intDiv op signed g x wd f s) :=
  .next (syllable_keeps (fun _ _ => launch_keeps) (fun _ _ => noPost_keeps) hs)

theorem execNop_answers {x} (hs : Keeps s₀ s) : Answers s₀ (execNop x s) :=
  .next (syllable_keeps (fun _ _ hs => hs) (fun _ _ => noPost_keeps) hs)

theorem execAdd_answers {x wd f} (hs : Keeps s₀ s) : Answers s₀ (execAdd x wd f s) :=
  intReg_answers hs

theorem execSub_answers {x wd f} (hs : Keeps s₀ s) : Answers s₀ (execSub x wd f s) :=
  intReg_answers hs

theorem execAnd_answers {x wd f} (hs : Keeps s₀ s) : Answers s₀ (execAnd x wd f s) :=
  intReg_answers hs

theorem execOr_answers {x wd f} (hs : Keeps s₀ s) : Answers s₀ (execOr x wd f s) :=
  intReg_answers hs

theorem execXor_answers {x wd f} (hs : Keeps s₀ s) : Answers s₀ (execXor x wd f s) :=
  intReg_answers hs

theorem execAndn_answers {x wd f} (hs : Keeps s₀ s) : Answers s₀ (execAndn x wd f s) :=
  intReg_answers hs

theorem execShl_answers {x wd f} (hs : Keeps s₀ s) : Answers s₀ (execShl x wd f s) :=
  intReg_answers hs

theorem execShr_answers {x wd f} (hs : Keeps s₀ s) : Answers s₀ (execShr x wd f s) :=
  intReg_answers hs

theorem execSar_answers {x wd f} (hs : Keeps s₀ s) : Answers s₀ (execSar x wd f s) :=
  intReg_answers hs

theorem execRol_answers {x wd f} (hs : Keeps s₀ s) : Answers s₀ (execRol x wd f s) :=
  intReg_answers hs

theorem execCmpeq_answers {x wd f} (hs : Keeps s₀ s) : Answers s₀ (execCmpeq x wd f s) :=
  intReg_answers hs

theorem execCmplt_answers {x wd f} (hs : Keeps s₀ s) : Answers s₀ (execCmplt x wd f s) :=
  intReg_answers hs

theorem execCmpltu_answers {x wd f} (hs : Keeps s₀ s) : Answers s₀ (execCmpltu x wd f s) :=
  intReg_answers hs

theorem execMin_answers {x wd f} (hs : Keeps s₀ s) : Answers s₀ (execMin x wd f s) :=
  intReg_answers hs

theorem execMax_answers {x wd f} (hs : Keeps s₀ s) : Answers s₀ (execMax x wd f s) :=
  intReg_answers hs

theorem execPar_answers {x wd f} (hs : Keeps s₀ s) : Answers s₀ (execPar x wd f s) :=
  intUnary_answers hs

theorem execBrevO_answers {x f} (hs : Keeps s₀ s) : Answers s₀ (execBrevO x f s) :=
  intUnary_answers hs

theorem execBrevW_answers {x f} (hs : Keeps s₀ s) : Answers s₀ (execBrevW x f s) :=
  intUnary_answers hs

theorem execCrc_answers {x f} (hs : Keeps s₀ s) : Answers s₀ (execCrc x f s) :=
  .next (computes_keeps hs)

theorem execClz_answers {x wd f} (hs : Keeps s₀ s) : Answers s₀ (execClz x wd f s) :=
  intUnary_answers hs

theorem execCtz_answers {x wd f} (hs : Keeps s₀ s) : Answers s₀ (execCtz x wd f s) :=
  intUnary_answers hs

theorem execPopc_answers {x wd f} (hs : Keeps s₀ s) : Answers s₀ (execPopc x wd f s) :=
  intUnary_answers hs

theorem execAddi_answers {x wd f} (hs : Keeps s₀ s) : Answers s₀ (execAddi x wd f s) :=
  intImm_answers hs

theorem execSubi_answers {x wd f} (hs : Keeps s₀ s) : Answers s₀ (execSubi x wd f s) :=
  intImm_answers hs

theorem execAndi_answers {x wd f} (hs : Keeps s₀ s) : Answers s₀ (execAndi x wd f s) :=
  intImm_answers hs

theorem execOri_answers {x wd f} (hs : Keeps s₀ s) : Answers s₀ (execOri x wd f s) :=
  intImm_answers hs

theorem execXori_answers {x wd f} (hs : Keeps s₀ s) : Answers s₀ (execXori x wd f s) :=
  intImm_answers hs

theorem execAndni_answers {x wd f} (hs : Keeps s₀ s) : Answers s₀ (execAndni x wd f s) :=
  intImm_answers hs

theorem execShli_answers {x wd f} (hs : Keeps s₀ s) : Answers s₀ (execShli x wd f s) :=
  intImm_answers hs

theorem execShri_answers {x wd f} (hs : Keeps s₀ s) : Answers s₀ (execShri x wd f s) :=
  intImm_answers hs

theorem execSari_answers {x wd f} (hs : Keeps s₀ s) : Answers s₀ (execSari x wd f s) :=
  intImm_answers hs

theorem execRoli_answers {x wd f} (hs : Keeps s₀ s) : Answers s₀ (execRoli x wd f s) :=
  intImm_answers hs

theorem execCmpeqi_answers {x wd f} (hs : Keeps s₀ s) : Answers s₀ (execCmpeqi x wd f s) :=
  intImm_answers hs

theorem execCmplti_answers {x wd f} (hs : Keeps s₀ s) : Answers s₀ (execCmplti x wd f s) :=
  intImm_answers hs

theorem execCmpltui_answers {x wd f} (hs : Keeps s₀ s) : Answers s₀ (execCmpltui x wd f s) :=
  intImm_answers hs

theorem execMini_answers {x wd f} (hs : Keeps s₀ s) : Answers s₀ (execMini x wd f s) :=
  intImm_answers hs

theorem execMaxi_answers {x wd f} (hs : Keeps s₀ s) : Answers s₀ (execMaxi x wd f s) :=
  intImm_answers hs

theorem execMul_answers {x wd f} (hs : Keeps s₀ s) : Answers s₀ (execMul x wd f s) :=
  intMul_answers hs

theorem execMulh_answers {x wd f} (hs : Keeps s₀ s) : Answers s₀ (execMulh x wd f s) :=
  intMul_answers hs

theorem execMulhu_answers {x wd f} (hs : Keeps s₀ s) : Answers s₀ (execMulhu x wd f s) :=
  intMul_answers hs

theorem execDiv_answers {x wd f} (hs : Keeps s₀ s) : Answers s₀ (execDiv x wd f s) :=
  intDiv_answers hs

theorem execDivu_answers {x wd f} (hs : Keeps s₀ s) : Answers s₀ (execDivu x wd f s) :=
  intDiv_answers hs

theorem execRem_answers {x wd f} (hs : Keeps s₀ s) : Answers s₀ (execRem x wd f s) :=
  intDiv_answers hs

theorem execRemu_answers {x wd f} (hs : Keeps s₀ s) : Answers s₀ (execRemu x wd f s) :=
  intDiv_answers hs

/-! ### CoreFp -/

theorem fpIssue_answers {x word ill lat busy dest wd val} (hs : Keeps s₀ s) :
    Answers s₀ (fpIssue x word ill lat busy dest wd val s) :=
  .next (syllable_keeps (fun _ _ => launch_keeps) (fun _ _ => noPost_keeps) hs)

theorem fpBinary_answers {op lat busy g x wd f} (hs : Keeps s₀ s) : Answers s₀ (fpBinary op lat busy g x wd f s) :=
  fpIssue_answers hs

theorem execFadd_answers {x wd f} (hs : Keeps s₀ s) : Answers s₀ (execFadd x wd f s) :=
  fpBinary_answers hs

theorem execFsub_answers {x wd f} (hs : Keeps s₀ s) : Answers s₀ (execFsub x wd f s) :=
  fpBinary_answers hs

theorem execFmul_answers {x wd f} (hs : Keeps s₀ s) : Answers s₀ (execFmul x wd f s) :=
  fpBinary_answers hs

theorem fpFused_answers {op neg x wd f} (hs : Keeps s₀ s) : Answers s₀ (fpFused op neg x wd f s) :=
  fpIssue_answers hs

theorem execFma_answers {x wd f} (hs : Keeps s₀ s) : Answers s₀ (execFma x wd f s) :=
  fpFused_answers hs

theorem execFnma_answers {x wd f} (hs : Keeps s₀ s) : Answers s₀ (execFnma x wd f s) :=
  fpFused_answers hs

theorem execFdiv_answers {x wd f} (hs : Keeps s₀ s) : Answers s₀ (execFdiv x wd f s) :=
  fpBinary_answers hs

theorem fpBits_answers {op g x wd f} (hs : Keeps s₀ s) : Answers s₀ (fpBits op g x wd f s) :=
  fpIssue_answers hs

theorem execFmin_answers {x wd f} (hs : Keeps s₀ s) : Answers s₀ (execFmin x wd f s) :=
  fpBits_answers hs

theorem execFmax_answers {x wd f} (hs : Keeps s₀ s) : Answers s₀ (execFmax x wd f s) :=
  fpBits_answers hs

theorem execFcmpeq_answers {x wd f} (hs : Keeps s₀ s) : Answers s₀ (execFcmpeq x wd f s) :=
  fpBits_answers hs

theorem execFcmplt_answers {x wd f} (hs : Keeps s₀ s) : Answers s₀ (execFcmplt x wd f s) :=
  fpBits_answers hs

theorem execFcmple_answers {x wd f} (hs : Keeps s₀ s) : Answers s₀ (execFcmple x wd f s) :=
  fpBits_answers hs

theorem execFcvtDW_answers {x f} (hs : Keeps s₀ s) : Answers s₀ (execFcvtDW x f s) :=
  fpIssue_answers hs

theorem execFcvtWD_answers {x f} (hs : Keeps s₀ s) : Answers s₀ (execFcvtWD x f s) :=
  fpIssue_answers hs

theorem execFtoi_answers {x wd f} (hs : Keeps s₀ s) : Answers s₀ (execFtoi x wd f s) :=
  fpIssue_answers hs

theorem execItof_answers {x wd f} (hs : Keeps s₀ s) : Answers s₀ (execItof x wd f s) :=
  fpIssue_answers hs

/-! ### CoreMem -/

theorem s3Cause_keeps {i rank vec code eval} (hs : Keeps s₀ s) : Keeps s₀ (s3Cause i rank vec code eval s) :=
  addCause_keeps hs

theorem watchAccess_keeps {i va n store} (hs : Keeps s₀ s) : Keeps s₀ (watchAccess i va n store s) :=
  applyMatches_keeps hs

theorem dataAccess_keeps {i va n need store side act} (hact : ∀ x0 x1 x2 s, Keeps s₀ s → Keeps s₀ (act x0 x1 x2 s))
    (hs : Keeps s₀ s) : Keeps s₀ (dataAccess i va n need store side act s) :=
  .ite hs (.ite (s3Cause_keeps hs) (by
    dsimp only
    split
    · exact setCore_keeps (tlbRefill_keeps hs)
    · exact s3Cause_keeps (tlbRefill_keeps hs)
    · exact .ite (s3Cause_keeps (tlbRefill_keeps hs))
        (.ite (s3Cause_keeps (report_keeps (tlbRefill_keeps hs))) (hact _ _ _ _ (tlbRefill_keeps hs)))))

theorem bodyOutside_keeps {i} (hs : Keeps s₀ s) : Keeps s₀ (bodyOutside i s) :=
  setCore_keeps hs

theorem localParity_keeps {i key lo w} (hs : Keeps s₀ s) : Keeps s₀ (localParity i key lo w s) :=
  .foldl (fun _ _ hs => .ite (report_keeps hs) hs) hs

theorem readLocal_keeps {i key lo w} (hs : Keeps s₀ s) : Keeps s₀ (readLocal i key lo w s).1 :=
  .fst (localParity_keeps hs)

theorem writeLocal_keeps {i key lo w v} (hs : Keeps s₀ s) : Keeps s₀ (writeLocal i key lo w v s) :=
  setCore_keeps hs

theorem loadResult_keeps {i dest ext w v} (hs : Keeps s₀ s) : Keeps s₀ (loadResult i dest ext w v s) :=
  result_keeps hs

theorem joinMiss_keeps {i id a} (hs : Keeps s₀ s) : Keeps s₀ (joinMiss i id a s) :=
  setCore_keeps (nextOrder_keeps hs)

theorem loadMiss_keeps {i kind dest ext pa n lo w oct side} (hs : Keeps s₀ s) :
    Keeps s₀ (loadMiss i kind dest ext pa n lo w oct side s) := by
  simp only [loadMiss]
  split
  · exact joinMiss_keeps (launch_keeps hs)
  · exact startMiss_keeps (launch_keeps hs)

theorem storeMiss_keeps {i kind pa n lo w v oct side} (hs : Keeps s₀ s) :
    Keeps s₀ (storeMiss i kind pa n lo w v oct side s) := by
  simp only [storeMiss]
  split
  · exact joinMiss_keeps hs
  · exact startMiss_keeps hs

theorem loadOwn_keeps {i dest ext pa lo w} (hs : Keeps s₀ s) : Keeps s₀ (loadOwn i dest ext pa lo w s) :=
  loadResult_keeps (by split; exacts [readTileBits_keeps hs, setCore_keeps (readTileBits_keeps hs)])

theorem storeOwn_keeps {i pa lo w v} (hs : Keeps s₀ s) : Keeps s₀ (storeOwn i pa lo w v s) := by
  simp only [storeOwn]
  split
  · exact setCore_keeps hs
  · exact breakReservations_keeps (pendStore_keeps hs)

theorem loadCached_keeps {i dest ext pa n lo w oct side} (hs : Keeps s₀ s) :
    Keeps s₀ (loadCached i dest ext pa n lo w oct side s) :=
  .ite (lookLine_keeps (bodyOutside_keeps hs)) (by
    split
    · exact loadResult_keeps (lookLine_keeps (bodyOutside_keeps hs))
    · exact loadMiss_keeps (lookLine_keeps (bodyOutside_keeps hs)))

theorem storeCached_keeps {i pa n lo w v oct side} (hs : Keeps s₀ s) :
    Keeps s₀ (storeCached i pa n lo w v oct side s) :=
  .ite (lookLine_keeps (bodyOutside_keeps hs)) (by
    split
    · exact pendStore_keeps (storeLine_keeps (lookLine_keeps (bodyOutside_keeps hs)))
    · exact storeMiss_keeps (lookLine_keeps (bodyOutside_keeps hs)))

theorem loadAt_keeps {dest ext n side va i} (hs : Keeps s₀ s) : Keeps s₀ (loadAt dest ext n side va i s) :=
  dataAccess_keeps
    (fun _ _ _ _ hs =>
      by
        dsimp only
        split
        · exact loadResult_keeps (readLocal_keeps (bodyOutside_keeps hs))
        · exact loadOwn_keeps hs
        · exact loadCached_keeps hs
        · exact loadMiss_keeps (bodyOutside_keeps hs)) (watchAccess_keeps hs)

theorem storeAt_keeps {data n side va i} (hs : Keeps s₀ s) : Keeps s₀ (storeAt data n side va i s) :=
  dataAccess_keeps
    (fun _ _ _ _ hs =>
      by
        dsimp only
        split
        · exact writeLocal_keeps (bodyOutside_keeps hs)
        · exact storeOwn_keeps hs
        · exact storeCached_keeps hs
        · exact storeMiss_keeps (bodyOutside_keeps hs)) (watchAccess_keeps hs)

theorem loadImm_answers {op n ext x f} (hs : Keeps s₀ s) : Answers s₀ (loadImm op n ext x f s) :=
  .next (syllable_keeps (fun _ _ => loadAt_keeps) (fun _ _ => noPost_keeps) hs)

theorem loadReg_answers {op n ext x f} (hs : Keeps s₀ s) : Answers s₀ (loadReg op n ext x f s) :=
  .next (syllable_keeps (fun _ _ => loadAt_keeps) (fun _ _ => noPost_keeps) hs)

theorem storeImm_answers {op n x f} (hs : Keeps s₀ s) : Answers s₀ (storeImm op n x f s) :=
  .next (syllable_keeps (fun _ _ => storeAt_keeps) (fun _ _ => noPost_keeps) hs)

theorem storeReg_answers {op n x f} (hs : Keeps s₀ s) : Answers s₀ (storeReg op n x f s) :=
  .next (syllable_keeps (fun _ _ => storeAt_keeps) (fun _ _ => noPost_keeps) hs)

theorem execLdq_answers {x f} (hs : Keeps s₀ s) : Answers s₀ (execLdq x f s) :=
  loadImm_answers hs

theorem execLdqs_answers {x f} (hs : Keeps s₀ s) : Answers s₀ (execLdqs x f s) :=
  loadImm_answers hs

theorem execLdh_answers {x f} (hs : Keeps s₀ s) : Answers s₀ (execLdh x f s) :=
  loadImm_answers hs

theorem execLdhs_answers {x f} (hs : Keeps s₀ s) : Answers s₀ (execLdhs x f s) :=
  loadImm_answers hs

theorem execLdw_answers {x f} (hs : Keeps s₀ s) : Answers s₀ (execLdw x f s) :=
  loadImm_answers hs

theorem execLdwu_answers {x f} (hs : Keeps s₀ s) : Answers s₀ (execLdwu x f s) :=
  loadImm_answers hs

theorem execLdd_answers {x f} (hs : Keeps s₀ s) : Answers s₀ (execLdd x f s) :=
  loadImm_answers hs

theorem execLdqx_answers {x f} (hs : Keeps s₀ s) : Answers s₀ (execLdqx x f s) :=
  loadReg_answers hs

theorem execLdqsx_answers {x f} (hs : Keeps s₀ s) : Answers s₀ (execLdqsx x f s) :=
  loadReg_answers hs

theorem execLdhx_answers {x f} (hs : Keeps s₀ s) : Answers s₀ (execLdhx x f s) :=
  loadReg_answers hs

theorem execLdhsx_answers {x f} (hs : Keeps s₀ s) : Answers s₀ (execLdhsx x f s) :=
  loadReg_answers hs

theorem execLdwx_answers {x f} (hs : Keeps s₀ s) : Answers s₀ (execLdwx x f s) :=
  loadReg_answers hs

theorem execLdwux_answers {x f} (hs : Keeps s₀ s) : Answers s₀ (execLdwux x f s) :=
  loadReg_answers hs

theorem execLddx_answers {x f} (hs : Keeps s₀ s) : Answers s₀ (execLddx x f s) :=
  loadReg_answers hs

theorem execStq_answers {x f} (hs : Keeps s₀ s) : Answers s₀ (execStq x f s) :=
  storeImm_answers hs

theorem execSth_answers {x f} (hs : Keeps s₀ s) : Answers s₀ (execSth x f s) :=
  storeImm_answers hs

theorem execStw_answers {x f} (hs : Keeps s₀ s) : Answers s₀ (execStw x f s) :=
  storeImm_answers hs

theorem execStd_answers {x f} (hs : Keeps s₀ s) : Answers s₀ (execStd x f s) :=
  storeImm_answers hs

theorem execStqx_answers {x f} (hs : Keeps s₀ s) : Answers s₀ (execStqx x f s) :=
  storeReg_answers hs

theorem execSthx_answers {x f} (hs : Keeps s₀ s) : Answers s₀ (execSthx x f s) :=
  storeReg_answers hs

theorem execStwx_answers {x f} (hs : Keeps s₀ s) : Answers s₀ (execStwx x f s) :=
  storeReg_answers hs

theorem execStdx_answers {x f} (hs : Keeps s₀ s) : Answers s₀ (execStdx x f s) :=
  storeReg_answers hs

theorem execLdsf_answers {x f} (hs : Keeps s₀ s) : Answers s₀ (execLdsf x f s) :=
  .next (syllable_keeps (fun _ _ => loadAt_keeps) (fun _ _ => noPost_keeps) hs)

theorem execStsf_answers {x f} (hs : Keeps s₀ s) : Answers s₀ (execStsf x f s) :=
  .next (syllable_keeps (fun _ _ => storeAt_keeps) (fun _ _ => noPost_keeps) hs)

theorem needMode_keeps {i word ok act} (hact : ∀ s, Keeps s₀ s → Keeps s₀ (act s)) (hs : Keeps s₀ s) :
    Keeps s₀ (needMode i word ok act s) :=
  .ite (.ite hs (hact _ hs)) (s3Cause_keeps hs)

theorem opFrame_keeps {i line} (hs : Keeps s₀ s) : Keeps s₀ (opFrame i line s).1 := by
  simp only [opFrame]
  split
  · exact hs
  · split
    · exact .fst (parity_keeps hs)
    · exact hs

theorem joinOp_keeps {op i line act} (hact : ∀ s, Keeps s₀ s → Keeps s₀ (act s)) (hs : Keeps s₀ s) :
    Keeps s₀ (joinOp op i line act s) := by
  simp only [joinOp]
  split
  · exact joinMiss_keeps hs
  · exact hact _ hs

theorem flushBuffered_keeps {i line} (hs : Keeps s₀ s) : Keeps s₀ (flushBuffered i line s) := by
  simp only [flushBuffered]
  split
  · exact startWriteBack_keeps hs
  · exact hs

theorem cleanLine_keeps {i line} (hs : Keeps s₀ s) : Keeps s₀ (cleanLine i line s) := by
  simp only [cleanLine]
  split
  · rename_i he
    exact setCore_keeps (flushBuffered_keeps (.of_eq he (opFrame_keeps hs)))
  · rename_i he
    exact .ite (startWriteBack_keeps (setFrame_keeps (.of_eq he (opFrame_keeps hs)))) (.of_eq he (opFrame_keeps hs))

theorem flushLine_keeps {i line} (hs : Keeps s₀ s) : Keeps s₀ (flushLine i line s) := by
  simp only [flushLine]
  split
  · rename_i he
    exact .ite (unserve_keeps (leaveLine_keeps (flushBuffered_keeps (.of_eq he (opFrame_keeps hs)))))
      (.of_eq he (opFrame_keeps hs))
  · rename_i he
    exact .ite
      (lockDropped_keeps (.ite
        (startWriteBack_keeps (setFrame_keeps (leaveLine_keeps (.of_eq he (opFrame_keeps hs)))))
        (setFrame_keeps (leaveLine_keeps (.of_eq he (opFrame_keeps hs))))))
      (.ite (startWriteBack_keeps (setFrame_keeps (leaveLine_keeps (.of_eq he (opFrame_keeps hs)))))
        (setFrame_keeps (leaveLine_keeps (.of_eq he (opFrame_keeps hs)))))

theorem discardStores_keeps {i line} (hs : Keeps s₀ s) : Keeps s₀ (discardStores i line s) :=
  setCore_keeps hs

theorem discardLine_keeps {i line} (hs : Keeps s₀ s) : Keeps s₀ (discardLine i line s) := by
  simp only [discardLine]
  split
  · rename_i he
    exact .of_eq he (opFrame_keeps (unserve_keeps hs))
  · rename_i he
    exact .ite (lockDropped_keeps (setFrame_keeps (.of_eq he (opFrame_keeps (unserve_keeps hs)))))
      (setFrame_keeps (.of_eq he (opFrame_keeps (unserve_keeps hs))))

theorem lockFull_keeps {i line} (hs : Keeps s₀ s) : Keeps s₀ (lockFull i line s) :=
  report_keeps hs

theorem fillLine_keeps {i pa oct} (hs : Keeps s₀ s) : Keeps s₀ (fillLine i pa oct s) := by
  simp only [fillLine]
  split
  · rename_i he
    exact .ite (.of_eq he (opFrame_keeps hs)) (by
      split
      · exact lockFull_keeps (.of_eq he (opFrame_keeps hs))
      · exact setFrame_keeps (setFrame_keeps (.of_eq he (opFrame_keeps hs))))
  · rename_i he
    exact .ite (.of_eq he (opFrame_keeps hs)) (by
      split
      · exact lockFull_keeps (.of_eq he (opFrame_keeps hs))
      · split
        · exact unserve_keeps (setFrame_keeps (.of_eq he (opFrame_keeps hs)))
        · exact startMiss_keeps (.of_eq he (opFrame_keeps hs)))

theorem invalidateFetchLine_keeps {i line} (hs : Keeps s₀ s) : Keeps s₀ (invalidateFetchLine i line s) := by
  simp only [invalidateFetchLine]
  split
  · exact hs
  · exact .ite (parityFetch_keeps (setCore_keeps hs)) (.ite (lockDropped_keeps (setCore_keeps hs)) (setCore_keeps hs))

theorem onCached_keeps {i store act pa mt oct} (hact : ∀ x0 x1 s, Keeps s₀ s → Keeps s₀ (act x0 x1 s))
    (hs : Keeps s₀ s) : Keeps s₀ (onCached i store act pa mt oct s) :=
  .ite (hact _ _ _ hs) (.ite (report_keeps hs) hs)

theorem lineOp_answers {op kern store need act x f}
    (hact : ∀ x0 x1 x2 x3 s, Keeps s₀ s → Keeps s₀ (act x0 x1 x2 x3 s))
    (hs : Keeps s₀ s) : Answers s₀ (lineOp op kern store need act x f s) :=
  .next (syllable_keeps
    (fun _ _ hs => needMode_keeps (fun _ hs => dataAccess_keeps (fun _ _ _ _ hs => hact _ _ _ _ _ hs) hs) hs)
    (fun _ _ => noPost_keeps) hs)

theorem execDclean_answers {x f} (hs : Keeps s₀ s) : Answers s₀ (execDclean x f s) :=
  lineOp_answers (fun _ _ _ _ _ hs => onCached_keeps (fun _ _ _ hs => joinOp_keeps (fun _ => cleanLine_keeps) hs) hs)
    hs

theorem execDflush_answers {x f} (hs : Keeps s₀ s) : Answers s₀ (execDflush x f s) :=
  lineOp_answers (fun _ _ _ _ _ hs => onCached_keeps (fun _ _ _ hs => joinOp_keeps (fun _ => flushLine_keeps) hs) hs)
    hs

theorem execDinv_answers {x f} (hs : Keeps s₀ s) : Answers s₀ (execDinv x f s) :=
  lineOp_answers (fun _ _ _ _ _ hs => onCached_keeps (fun _ _ _ hs =>
    joinOp_keeps (fun _ hs => discardLine_keeps hs) (discardStores_keeps hs)) hs) hs

theorem execDfillk_answers {x f} (hs : Keeps s₀ s) : Answers s₀ (execDfillk x f s) :=
  lineOp_answers (fun _ _ _ _ _ hs => onCached_keeps (fun _ _ _ hs => joinOp_keeps (fun _ => fillLine_keeps) hs) hs)
    hs

theorem execIinv_answers {x f} (hs : Keeps s₀ s) : Answers s₀ (execIinv x f s) :=
  lineOp_answers (fun _ _ _ _ _ => invalidateFetchLine_keeps) hs

theorem execRnginv_answers {x f} (hs : Keeps s₀ s) : Answers s₀ (execRnginv x f s) :=
  .next (syllable_keeps
    (fun _ _ hs => needMode_keeps (fun _ hs => .ite (report_keeps hs) (.ite hs (setCore_keeps hs))) hs)
    (fun _ _ => noPost_keeps) hs)

theorem execTlbi_answers {x f} (hs : Keeps s₀ s) : Answers s₀ (execTlbi x f s) :=
  .next (syllable_keeps (fun _ _ hs => needMode_keeps (fun _ => setCore_keeps) hs) (fun _ _ => noPost_keeps) hs)

theorem keepOlds_keeps {i line sel p} (hs : Keeps s₀ s) : Keeps s₀ (keepOlds i line sel p s) :=
  .foldl (fun _ _ hs => by split; exacts [hs, setCore_keeps hs]) hs

theorem storeInto_keeps {j key f p} (hs : Keeps s₀ s) : Keeps s₀ (storeInto j key f p s) :=
  setFrame_keeps (rebase_keeps hs)

theorem storeIntoBuffer_keeps {j e p} (hs : Keeps s₀ s) : Keeps s₀ (storeIntoBuffer j e p s) :=
  evictWrite_keeps (rebase_keeps hs)

theorem storeWritten_keeps {i p} (hs : Keeps s₀ s) : Keeps s₀ (storeWritten i p s) :=
  withOutcome_keeps (fun _ => dramPut_keeps) hs

theorem storeBehind_keeps {i p} (hs : Keeps s₀ s) : Keeps s₀ (storeBehind i p s) := by
  simp only [storeBehind]
  split
  · exact .ite (storeWritten_keeps hs) (setCore_keeps hs)
  · exact storeWritten_keeps hs

theorem ownDirty_keeps {i line sec} (hs : Keeps s₀ s) : Keeps s₀ (ownDirty i line sec s) := by
  simp only [ownDirty]
  split
  · exact setFrame_keeps hs
  · split
    · exact evictWrite_keeps hs
    · exact hs

theorem showCached_keeps {i p} (hs : Keeps s₀ s) : Keeps s₀ (showCached i p s) :=
  .ite (invalidateOthers_keeps (.ite (ownDirty_keeps (keepOlds_keeps hs)) (keepOlds_keeps hs))) (by
    split
    · exact .foldl (fun _ _ => invalidateCopy_keeps) (storeInto_keeps (keepOlds_keeps hs))
    · exact .foldl (fun _ _ => invalidateCopy_keeps) (storeIntoBuffer_keeps (keepOlds_keeps hs))
    · exact storeBehind_keeps (keepOlds_keeps hs))

theorem showOwn_keeps {i p} (hs : Keeps s₀ s) : Keeps s₀ (showOwn i p s) :=
  breakReservations_keeps (writeTileBits_keeps hs)

theorem execStoreVisible_answers {c} (hs : Keeps s₀ s) : Answers s₀ (execStoreVisible c s) := by
  simp only [execStoreVisible]
  split
  · exact .next hs
  · exact .ite (.next (.foldl (fun _ _ hs => .ite (askWrite_keeps hs) hs) hs))
      (.next (.foldl (fun _ _ hs => .ite (showCached_keeps hs) (showOwn_keeps hs)) (setCore_keeps hs)))

/-! ### CoreSys -/

theorem unlessStopped_keeps {i act} (hact : ∀ s, Keeps s₀ s → Keeps s₀ (act s)) (hs : Keeps s₀ s) :
    Keeps s₀ (unlessStopped i act s) :=
  .ite hs (hact _ hs)

theorem control_answers {x word ok act} (hact : ∀ x0 s, Keeps s₀ s → Keeps s₀ (act x0 s)) (hs : Keeps s₀ s) :
    Answers s₀ (control x word ok act s) :=
  .next (syllable_keeps (fun _ _ hs => unlessStopped_keeps (fun _ hs => hact _ _ (bodyOutside_keeps hs)) hs)
    (fun _ _ => noPost_keeps) hs)

theorem branchTo_keeps {i target} (hs : Keeps s₀ s) : Keeps s₀ (branchTo i target s) :=
  setCore_keeps hs

theorem linkReturn_keeps {i} (hs : Keeps s₀ s) : Keeps s₀ (linkReturn i s) :=
  launch_keeps hs

theorem execBr_answers {x off} (hs : Keeps s₀ s) : Answers s₀ (execBr x off s) :=
  control_answers (fun _ _ => branchTo_keeps) hs

theorem condBranch_answers {op p x a off} (hs : Keeps s₀ s) : Answers s₀ (condBranch op p x a off s) :=
  control_answers
    (fun _ _ hs =>
      .ite (branchTo_keeps (traceBranch_keeps (traceIssue_keeps hs))) (traceBranch_keeps (traceIssue_keeps hs)))
    hs

theorem execBz_answers {x a off} (hs : Keeps s₀ s) : Answers s₀ (execBz x a off s) :=
  condBranch_answers hs

theorem execBnz_answers {x a off} (hs : Keeps s₀ s) : Answers s₀ (execBnz x a off s) :=
  condBranch_answers hs

theorem execBltz_answers {x a off} (hs : Keeps s₀ s) : Answers s₀ (execBltz x a off s) :=
  condBranch_answers hs

theorem execBgez_answers {x a off} (hs : Keeps s₀ s) : Answers s₀ (execBgez x a off s) :=
  condBranch_answers hs

theorem execCall_answers {x off} (hs : Keeps s₀ s) : Answers s₀ (execCall x off s) :=
  control_answers (fun _ _ hs => branchTo_keeps (linkReturn_keeps hs)) hs

theorem indirect_keeps {i kind target} (hs : Keeps s₀ s) : Keeps s₀ (indirect i kind target s) :=
  branchTo_keeps (traceCore_keeps (traceIssue_keeps hs))

theorem execJr_answers {x f} (hs : Keeps s₀ s) : Answers s₀ (execJr x f s) :=
  control_answers (fun _ _ => indirect_keeps) hs

theorem execCallr_answers {x f} (hs : Keeps s₀ s) : Answers s₀ (execCallr x f s) :=
  control_answers (fun _ _ hs => indirect_keeps (linkReturn_keeps hs)) hs

theorem execRet_answers {x f} (hs : Keeps s₀ s) : Answers s₀ (execRet x f s) :=
  control_answers (fun _ _ => indirect_keeps) hs

theorem execLapc_answers {x f} (hs : Keeps s₀ s) : Answers s₀ (execLapc x f s) :=
  control_answers (fun _ _ => result_keeps) hs

theorem execMfs_answers {x f} (hs : Keeps s₀ s) : Answers s₀ (execMfs x f s) :=
  .next (syllable_keeps (fun _ _ hs => needMode_keeps (fun _ => result_keeps) hs) (fun _ _ => noPost_keeps) hs)

theorem execMts_answers {x f} (hs : Keeps s₀ s) : Answers s₀ (execMts x f s) :=
  .next (syllable_keeps (fun _ _ hs => needMode_keeps (fun _ hs => .ite hs (setCore_keeps hs)) hs)
    (fun _ _ => noPost_keeps) hs)

theorem execSysc_answers {x f} (hs : Keeps s₀ s) : Answers s₀ (execSysc x f s) :=
  .next (syllable_keeps (fun _ _ => s3Cause_keeps) (fun _ _ => noPost_keeps) hs)

theorem returnFromException_keeps {i} (hs : Keeps s₀ s) : Keeps s₀ (returnFromException i s) :=
  traceCore_keeps (setCore_keeps hs)

theorem execEret_answers {x f} (hs : Keeps s₀ s) : Answers s₀ (execEret x f s) :=
  .next (syllable_keeps (fun _ _ hs => needMode_keeps (fun _ hs => hs) hs) (fun _ _ => returnFromException_keeps) hs)

theorem worldCall_keeps {imm i} (hs : Keeps s₀ s) : Keeps s₀ (worldCall imm i s) :=
  .ite (doubleFault_keeps (drought_keeps (landDue_keeps hs)))
    (setCore_keeps (traceCore_keeps (drought_keeps (landDue_keeps hs))))

theorem execWcall_answers {x f} (hs : Keeps s₀ s) : Answers s₀ (execWcall x f s) :=
  .next (syllable_keeps (fun _ _ hs => needMode_keeps (fun _ hs => hs) hs) (fun _ _ => worldCall_keeps) hs)

theorem worldReturn_keeps {i} (hs : Keeps s₀ s) : Keeps s₀ (worldReturn i s) :=
  traceCore_keeps
    { drought_keeps hs with
      cores := fun c => ⟨mset_wf ((drought_keeps hs).cores c).1,
        mget_mset_of (p := fun k : Core => mwf 0 k.regs = true) ((drought_keeps hs).cores c).1
          (filter_wf (((drought_keeps hs).cores c).2 i)) ((drought_keeps hs).cores c).2⟩ }

theorem execWret_answers {x f} (hs : Keeps s₀ s) : Answers s₀ (execWret x f s) :=
  .next (syllable_keeps (fun _ _ hs => needMode_keeps (fun _ hs => hs) hs) (fun _ _ => worldReturn_keeps) hs)

theorem execLck_answers {x f} (hs : Keeps s₀ s) : Answers s₀ (execLck x f s) :=
  .next (syllable_keeps (fun _ _ hs => unlessStopped_keeps (fun _ => setCore_keeps) hs) (fun _ _ => noPost_keeps) hs)

theorem closeSeq_keeps {i dest} (hs : Keeps s₀ s) : Keeps s₀ (closeSeq i dest s) := by
  simp only [closeSeq]
  split
  · exact result_keeps (.foldl (fun _ _ => breakReservations_keeps) (setCore_keeps hs))
  · exact result_keeps (setCore_keeps hs)

theorem execUlk_answers {x f} (hs : Keeps s₀ s) : Answers s₀ (execUlk x f s) :=
  .next (syllable_keeps (fun _ _ hs => unlessStopped_keeps (fun _ => closeSeq_keeps) hs) (fun _ _ => noPost_keeps) hs)

theorem traceResume_keeps {i} (hs : Keeps s₀ s) : Keeps s₀ (traceResume i s) :=
  traceCore_keeps hs

theorem enterDoze_keeps {i} (hs : Keeps s₀ s) : Keeps s₀ (enterDoze i s) :=
  .ite (traceResume_keeps (traceCore_keeps hs)) (setCore_keeps (traceCore_keeps hs))

theorem execDoze_answers {x f} (hs : Keeps s₀ s) : Answers s₀ (execDoze x f s) :=
  .next (syllable_keeps (fun _ _ hs => needMode_keeps (fun _ hs => hs) hs) (fun _ _ => enterDoze_keeps) hs)

theorem waitStatus_keeps {i dest status} (hs : Keeps s₀ s) : Keeps s₀ (waitStatus i dest status s) :=
  setCore_keeps hs

theorem startWait_keeps {f i} (hs : Keeps s₀ s) : Keeps s₀ (startWait f i s) :=
  .ite (.ite (waitStatus_keeps hs) (setCore_keeps (waitStatus_keeps hs))) (setCore_keeps hs)

theorem execWaitm_answers {x f} (hs : Keeps s₀ s) : Answers s₀ (execWaitm x f s) :=
  .next (syllable_keeps (fun _ _ hs => hs) (fun _ _ => startWait_keeps) hs)

theorem execFbar_answers {x f} (hs : Keeps s₀ s) : Answers s₀ (execFbar x f s) :=
  .next (syllable_keeps (fun _ _ hs => unlessStopped_keeps (fun _ hs => setCore_keeps hs (by simp)) hs)
    (fun _ _ => noPost_keeps) hs)

theorem breakHalt_keeps {i} (hs : Keeps s₀ s) : Keeps s₀ (breakHalt i s) :=
  .ite (setCore_keeps hs) hs

theorem execBrk_answers {x f} (hs : Keeps s₀ s) : Answers s₀ (execBrk x f s) :=
  .next (syllable_keeps (fun _ _ hs => .ite hs (s3Cause_keeps hs)) (fun _ _ => breakHalt_keeps) hs)

theorem exitInterrupt_keeps {i} (hs : Keeps s₀ s) : Keeps s₀ (exitInterrupt i s) := by
  simp only [exitInterrupt]
  split
  · exact hs
  · exact traceCore_keeps (setCore_keeps hs)

theorem badCompletion_keeps {pc v i} (hs : Keeps s₀ s) : Keeps s₀ (badCompletion pc v i s) :=
  .ite (coreFatal_keeps (setCore_keeps (report_keeps hs))) (setCore_keeps (report_keeps hs))

theorem execIdone_answers {x f} (hs : Keeps s₀ s) : Answers s₀ (execIdone x f s) :=
  .next (syllable_keeps (fun _ _ hs => needMode_keeps (fun _ hs => hs) hs)
    (fun _ _ hs => .ite (exitInterrupt_keeps hs) (badCompletion_keeps hs)) hs)

theorem execMfence_answers {x f} (hs : Keeps s₀ s) : Answers s₀ (execMfence x f s) :=
  .next (syllable_keeps (fun _ _ hs => hs) (fun _ _ => setCore_keeps) hs)

/-! ### CoreEvents -/

theorem execResultLanding_answers {c} (hs : Keeps s₀ s) : Answers s₀ (execResultLanding c s) :=
  .next (.ite (landDue_keeps hs) hs)

theorem execSafePointDrought_answers {c} (hs : Keeps s₀ s) : Answers s₀ (execSafePointDrought c s) :=
  .next (.ite (drought_keeps hs) hs)

theorem execLockedSequenceTimeout_answers {c} (hs : Keeps s₀ s) : Answers s₀ (execLockedSequenceTimeout c s) :=
  .next (.ite (deferredCompare_keeps (seqTimeout_keeps hs)) hs)

theorem takeFpTrap_keeps {i} (hs : Keeps s₀ s) : Keeps s₀ (takeFpTrap i s) :=
  enterException_keeps (setCore_keeps hs)

theorem takeContract_keeps {i} (hs : Keeps s₀ s) : Keeps s₀ (takeContract i s) :=
  enterException_keeps (setCore_keeps hs)

theorem entryBoundary_keeps {i} (hs : Keeps s₀ s) : Keeps s₀ (entryBoundary i s).1 :=
  .fst (settle_keeps (setCore_keeps hs))

theorem execTrapEntry_answers {c} (hs : Keeps s₀ s) : Answers s₀ (execTrapEntry c s) :=
  .ite (.next hs) (by
    dsimp only
    split
    · exact .next
        (.ite (.ite (takeFpTrap_keeps (settle_keeps hs)) (takeContract_keeps (settle_keeps hs))) (settle_keeps hs))
    · exact .ite
        (.next (.ite (takeFpTrap_keeps (landDue_keeps (waitStatus_keeps (entryBoundary_keeps hs))))
          (takeContract_keeps (landDue_keeps (waitStatus_keeps (entryBoundary_keeps hs)))))) (.next hs))

theorem pushFrame_keeps {i kind vec off f} (hs : Keeps s₀ s) : Keeps s₀ (pushFrame i kind vec off f s) :=
  setCore_keeps (traceCore_keeps hs) (by simp)

theorem execInterruptEntry_answers {c} (hs : Keeps s₀ s) : Answers s₀ (execInterruptEntry c s) :=
  .ite (.next hs) (.ite (.next hs)
    (by split; exacts [.next hs, .next (pushFrame_keeps (setCore_keeps (.frame (entryBoundary_keeps hs))))]))

theorem execStackFaultEntry_answers {c} (hs : Keeps s₀ s) : Answers s₀ (execStackFaultEntry c s) :=
  .ite (.next hs) (by
    dsimp only
    split
    · exact .next hs
    · exact .ite (.next hs) (.next (pushFrame_keeps (setCore_keeps (entryBoundary_keeps hs)))))

theorem endWait_keeps {i status} (hs : Keeps s₀ s) : Keeps s₀ (endWait i status s) := by
  simp only [endWait]
  split
  · exact hs
  · exact waitStatus_keeps (setCore_keeps hs)

theorem execWaitmLimitExpiry_answers {c} (hs : Keeps s₀ s) : Answers s₀ (execWaitmLimitExpiry c s) := by
  simp only [execWaitmLimitExpiry]
  split
  · exact .next hs
  · split
    · exact .next hs
    · exact .next (endWait_keeps (reachTime_keeps hs))

theorem setArrival_overrun_keeps {i f store k m} (hs : Keeps s₀ s) : Keeps s₀ (setArrival.overrun i f store s k m) :=
  setCore_keeps (reportIf_keeps hs)

theorem setArrival_keeps {i f store} (hs : Keeps s₀ s) : Keeps s₀ (setArrival i f store s) := by
  simp only [setArrival]
  split
  · exact .ite (endWait_keeps (.ite (setCore_keeps hs) hs)) (.ite (setArrival_overrun_keeps hs) (setCore_keeps hs))
  · exact .ite (setArrival_overrun_keeps hs) (setCore_keeps hs)

theorem execMfenceComplete_answers {c} (hs : Keeps s₀ s) : Answers s₀ (execMfenceComplete c s) :=
  .next (.ite (setCore_keeps hs) hs)

theorem rangeFrame_keeps {i sec lo n key} (hs : Keeps s₀ s) : Keeps s₀ (rangeFrame i sec lo n key s).1 := by
  simp only [rangeFrame]
  split
  · exact hs
  · split
    · exact hs
    · split
      · exact .fst (parity_keeps hs)
      · exact .fst
          (.ite (startWriteBack_keeps (setFrame_keeps (leaveLine_keeps hs))) (setFrame_keeps (leaveLine_keeps hs)))

theorem rangeFetchFrame_keeps {i sec lo n key} (hs : Keeps s₀ s) : Keeps s₀ (rangeFetchFrame i sec lo n key s).1 := by
  simp only [rangeFetchFrame]
  split
  · exact hs
  · split
    · exact hs
    · split
      · exact .fst (parityFetch_keeps (setCore_keeps hs))
      · exact .fst (setCore_keeps hs)

theorem applyRange_keeps {i r} (hs : Keeps s₀ s) : Keeps s₀ (applyRange i r s) :=
  lockDropped_keeps (.foldl (fun _ _ hs => unserve_keeps (leaveLine_keeps (flushBuffered_keeps hs)))
    (.foldlFst (fun _ _ hs => rangeFetchFrame_keeps hs) (.foldlFst (fun _ _ hs => rangeFrame_keeps hs) hs)))

theorem execRangeEnginePass_answers {c} (hs : Keeps s₀ s) : Answers s₀ (execRangeEnginePass c s) :=
  .next (.foldl (fun _ _ => applyRange_keeps) (setCore_keeps hs))

theorem settleBuffer_keeps {i e} (hs : Keeps s₀ s) : Keeps s₀ (settleBuffer i e s) := by
  refine .foldl (fun _ _ => reinstall_keeps) (.ite ?_ hs)
  split
  · rename_i he _
    exact installLine_keeps hs _ he
  · exact .ite (startWriteBack_keeps hs) hs

theorem execEvictionWritebackComplete_answers {c} (hs : Keeps s₀ s) :
    Answers s₀ (execEvictionWritebackComplete c s) := by
  simp only [execEvictionWritebackComplete]
  split
  · exact .next hs
  · exact .ite (.next hs) (.next (settleBuffer_keeps (setCore_keeps hs)))

theorem walkFault_keeps {i w cause lvl} (hs : Keeps s₀ s) : Keeps s₀ (walkFault i w cause lvl s) :=
  takeCause_keeps hs

theorem fillTlbs_keeps {i e} (hs : Keeps s₀ s) : Keeps s₀ (fillTlbs i e s) :=
  setCore_keeps (.frame hs)

theorem execTlbWalkComplete_answers {c} (hs : Keeps s₀ s) : Answers s₀ (execTlbWalkComplete c s) := by
  simp only [execTlbWalkComplete]
  split
  · exact .next hs
  · exact .ite (.next hs) (by
      split
      · exact .next (askRead_keeps hs)
      · exact .next (.ite hs (walkFault_keeps (walkTable_keeps (setCore_keeps hs))))
      · split
        · exact .next (.ite hs (walkFault_keeps (fillTlbs_keeps (walkTable_keeps (setCore_keeps hs)))))
        · exact .next (fillTlbs_keeps (walkTable_keeps (setCore_keeps hs))))

theorem execFetchFault_answers {c} (hs : Keeps s₀ s) : Answers s₀ (execFetchFault c s) :=
  .ite (.next hs) (.ite (.next (settle_keeps hs)) (by
    split
    · rename_i he
      exact .next (takeCause_keeps (.of_eq he (fetchAddress_keeps (settle_keeps hs))))
    · rename_i he
      exact .next (.of_eq he (fetchAddress_keeps (settle_keeps hs)))))

theorem execUnlistedOpcode_answers {x word} (hs : Keeps s₀ s) : Answers s₀ (execUnlistedOpcode x word s) :=
  .ite (.next hs) (.next (syllable_keeps (fun _ _ hs => hs) (fun _ _ => noPost_keeps) hs))

theorem tileWrite_keeps {t off rq value act} (hact : ∀ s, Keeps s₀ s → Keeps s₀ (act s)) (hs : Keeps s₀ s) :
    Keeps s₀ (tileWrite t off rq value act s) :=
  .ite hs (.ite (report_keeps hs) (ownedWrite_keeps hact hs))

theorem execTileAfsetWrite_answers {rq c value} (hs : Keeps s₀ s) : Answers s₀ (execTileAfsetWrite rq c value s) :=
  .next (tileWrite_keeps (fun _ hs => .foldl (fun _ _ hs => .ite (setArrival_keeps hs) hs) hs) hs)

theorem wdReload_keeps {i state} (hs : Keeps s₀ s) : Keeps s₀ (wdReload i state s) :=
  setCore_keeps hs

theorem execWatchdogExpiry_answers {c} (hs : Keeps s₀ s) : Answers s₀ (execWatchdogExpiry c s) :=
  .ite (.next hs) (.ite (.next (wdReload_keeps (report_keeps (reachTime_keeps hs))))
    (.next (coreFatal_keeps (setCore_keeps (reachTime_keeps hs)))))

theorem kickWatchdog_keeps {i value} (hs : Keeps s₀ s) : Keeps s₀ (kickWatchdog i value s) :=
  .ite (wdReload_keeps hs) hs

theorem execWatchdogKick_answers {rq c value} (hs : Keeps s₀ s) : Answers s₀ (execWatchdogKick rq c value s) :=
  .next (tileWrite_keeps (fun _ => kickWatchdog_keeps) hs)

theorem writeWdctl_keeps {rq i value} (hs : Keeps s₀ s) : Keeps s₀ (writeWdctl rq i value s) :=
  .ite (setCore_keeps (setCore_keeps (reportIf_keeps hs)))
    (.ite (setCore_keeps (reportIf_keeps hs)) (wdReload_keeps (setCore_keeps (setCore_keeps (reportIf_keeps hs)))))

theorem execWatchdogCtlWrite_answers {rq c value} (hs : Keeps s₀ s) :
    Answers s₀ (execWatchdogCtlWrite rq c value s) :=
  .next (tileWrite_keeps (fun _ => writeWdctl_keeps) hs)

/-! ### Interrupts -/

theorem setSrc_keeps {src f} (hs : Keeps s₀ s) : Keeps s₀ (setSrc src f s) :=
  .frame hs

theorem overflow_keeps {src} (hs : Keeps s₀ s) : Keeps s₀ (overflow src s) :=
  reportIf_keeps (setSrc_keeps hs)

theorem fire_keeps {src} (hs : Keeps s₀ s) : Keeps s₀ (fire src s) :=
  .ite (setSrc_keeps (.ite (overflow_keeps hs) hs))
    (.frame (setSrc_keeps (setSrc_keeps (.ite (overflow_keeps hs) hs))))

theorem fireIf_keeps {src} (hs : Keeps s₀ s) : Keeps s₀ (fireIf src s) :=
  .ite (fire_keeps hs) hs

theorem countDoorbell_keeps {src} (hs : Keeps s₀ s) : Keeps s₀ (countDoorbell src s) :=
  .ite (overflow_keeps hs) (setSrc_keeps hs)

theorem unrouted_keeps {b} (hs : Keeps s₀ s) : Keeps s₀ (unrouted b s) :=
  reportIf_keeps (setSrc_keeps hs)

theorem ringWrite_keeps {rq value} (hs : Keeps s₀ s) : Keeps s₀ (ringWrite rq value s) :=
  .ite (ringDoorbell_keeps hs) hs

theorem execIvcRingWrite_answers {rq value} (hs : Keeps s₀ s) : Answers s₀ (execIvcRingWrite rq value s) :=
  .next (ringWrite_keeps hs)

theorem execDoorbellAccept_answers (hs : Keeps s₀ s) : Answers s₀ (execDoorbellAccept s) := by
  simp only [execDoorbellAccept]
  split
  · exact .next hs
  · exact .ite (.next (report_keeps (.frame hs)))
      (.ite (.next (unrouted_keeps (.frame hs))) (.next (fireIf_keeps (countDoorbell_keeps (.frame hs)))))

theorem execWindowTimeFire_answers {src} (hs : Keeps s₀ s) : Answers s₀ (execWindowTimeFire src s) :=
  .ite (.next (fireIf_keeps (reachTime_keeps hs))) (.next hs)

theorem routeWrite_keeps {rq src value} (hs : Keeps s₀ s) : Keeps s₀ (routeWrite rq src value s) :=
  .ite (ownedWrite_keeps (fun _ hs => .ite (report_keeps hs) (fireIf_keeps (.frame (reportIf_keeps hs)))) hs)
    (.ite (.ite (report_keeps hs) (fireIf_keeps (.frame (reportIf_keeps hs)))) hs)

theorem execIvcRouteWrite_answers {rq src value} (hs : Keeps s₀ s) : Answers s₀ (execIvcRouteWrite rq src value s) :=
  .next (routeWrite_keeps hs)

theorem execInterruptDeliveryLaunch_answers {t} (hs : Keeps s₀ s) : Answers s₀ (execInterruptDeliveryLaunch t s) := by
  simp only [execInterruptDeliveryLaunch]
  split
  · exact .next hs
  · exact .ite (.next hs) (.next (.frame (.ite (setTileIsl_keeps hs) hs)))

theorem wakeIfOffered_keeps {i} (hs : Keeps s₀ s) : Keeps s₀ (wakeIfOffered i s) :=
  .ite (traceResume_keeps (setCore_keeps hs)) hs

theorem messageCome_keeps {t src} (hs : Keeps s₀ s) : Keeps s₀ (messageCome t src s) :=
  .frame hs

theorem execInterruptDeliveryOffer_answers {t} (hs : Keeps s₀ s) : Answers s₀ (execInterruptDeliveryOffer t s) := by
  simp only [execInterruptDeliveryOffer]
  split
  · exact .next hs
  · exact .ite (.next hs) (.ite (.next (setTileIsl_keeps (messageCome_keeps hs)))
      (.ite (.next hs) (.next (wakeIfOffered_keeps (setCore_keeps (messageCome_keeps (.frame hs)))))))

theorem withdraw_keeps {t} (hs : Keeps s₀ s) : Keeps s₀ (withdraw t s) :=
  .frame hs

/-! ### Sluice -/

theorem hubPut_keeps {l lo w v} (hs : Keeps s₀ s) : Keeps s₀ (hubPut l lo w v s) :=
  putBits_keeps (.frame hs)

theorem readMemLine_keeps {rq l} (hs : Keeps s₀ s) : Keeps s₀ (readMemLine rq l s).1 := by
  simp only [readMemLine]
  split
  · exact dramGet_keeps hs
  · split
    · exact hs
    · exact readAcross_keeps hs

theorem newCycle_keeps {pat} (hs : Keeps s₀ s) : Keeps s₀ (newCycle pat s) :=
  .frame hs

theorem spend_keeps {d} (hs : Keeps s₀ s) : Keeps s₀ (spend d s) :=
  .frame hs

theorem touch_keeps {l} (hs : Keeps s₀ s) : Keeps s₀ (touch l s) :=
  .frame hs

theorem offered_keeps (hs : Keeps s₀ s) : Keeps s₀ (offered s) :=
  .frame hs

theorem carried_keeps (hs : Keeps s₀ s) : Keeps s₀ (carried s) :=
  .frame hs

theorem setQ_keeps {q f} (hs : Keeps s₀ s) : Keeps s₀ (setQ q f s) :=
  { hs with queues := fun c => mmod_wf (hs.queues c) }

theorem setDitch_keeps {d f} (hs : Keeps s₀ s) : Keeps s₀ (setDitch d f s) :=
  .frame hs

theorem setCul_keeps {c f} (hs : Keeps s₀ s) : Keeps s₀ (setCul c f s) :=
  { hs with culs := fun c => mmod_wf (hs.culs c) }

theorem endTransfer_keeps {c status ea} (hs : Keeps s₀ s) : Keeps s₀ (endTransfer c status ea s) :=
  setCul_keeps (.frame hs)

theorem setDelivs_keeps {q x} (hs : Keeps s₀ s) :
    Keeps s₀ { s with slc := { s.slc with delivs := mset none s.slc.delivs q x } } :=
  { hs with delivs := fun c => mset_wf (hs.delivs c) }

theorem grant_keeps {d donated} (hs : Keeps s₀ s) : Keeps s₀ (grant d donated s) := by
  unfold grant
  dsimp only
  split
  · exact hs
  · split
    · exact hs
    · exact bindAll_keeps (setDelivs_keeps (setDitch_keeps (setQ_keeps hs)))

theorem setDeliv_keeps {q f} (hs : Keeps s₀ s) : Keeps s₀ (setDeliv q f s) := by
  unfold setDeliv
  split
  · exact hs
  · exact { hs with delivs := fun c => mset_wf (hs.delivs c) }

theorem slcDataError_keeps {q pos line} (hs : Keeps s₀ s) : Keeps s₀ (slcDataError q pos line s) :=
  report_keeps (setDeliv_keeps hs)

theorem lineLaunched_keeps {q r} (hs : Keeps s₀ s) : Keeps s₀ (lineLaunched q r s) := by
  simp only [lineLaunched]
  split
  · exact hs
  · exact .ite (.frame (setDeliv_keeps hs)) (setDeliv_keeps hs)

theorem launchToTile_keeps {q pos k line r} (hs : Keeps s₀ s) : Keeps s₀ (launchToTile q pos k line r s) :=
  lineLaunched_keeps (.ite (.frame (.ite (slcDataError_keeps (readMemLine_keeps hs)) (readMemLine_keeps hs)))
    (setDeliv_keeps (report_keeps (.ite (slcDataError_keeps (readMemLine_keeps hs)) (readMemLine_keeps hs)))))

theorem promote_keeps {c q elines sec es} (hs : Keeps s₀ s) : Keeps s₀ (promote c q elines sec es s) := by
  induction es generalizing s with
  | nil => exact hs
  | cons e rest ih => exact .ite (ih hs) (.ite hs (ih (setCul_keeps hs)))

theorem launchToCulvert_keeps {q pos k line r} (hs : Keeps s₀ s) : Keeps s₀ (launchToCulvert q pos k line r s) :=
  lineLaunched_keeps
    (promote_keeps (setCul_keeps (.ite (slcDataError_keeps (readMemLine_keeps hs)) (readMemLine_keeps hs))))

theorem execDeliveryCommit_answers {q} (hs : Keeps s₀ s) : Answers s₀ (execDeliveryCommit q s) := by
  unfold execDeliveryCommit
  dsimp only
  split
  · exact .ite (.next hs) (.next (.ite (ringDoorbell_keeps (setQ_keeps (setDelivs_keeps (.ite hs (.frame hs)))))
      (setQ_keeps (setDelivs_keeps (.ite hs (.frame hs))))))
  · exact .next hs

theorem execSlcDeliveryStalled_answers {q} (hs : Keeps s₀ s) : Answers s₀ (execSlcDeliveryStalled q s) := by
  simp only [execSlcDeliveryStalled]
  split
  · exact .ite (.next hs) (.next (report_keeps (setDeliv_keeps (.frame hs))))
  · exact .next hs

theorem dropDelivery_keeps {q} (hs : Keeps s₀ s) : Keeps s₀ (dropDelivery q s) :=
  setQ_keeps { hs with delivs := fun c => mset_wf (hs.delivs c) }

theorem abandonTile_keeps {t} (hs : Keeps s₀ s) : Keeps s₀ (abandonTile t s) :=
  .foldl (fun _ _ hs => by split; exacts [.ite (report_keeps (dropDelivery_keeps hs)) hs, hs]) hs

theorem dropAllDeliveries_keeps (hs : Keeps s₀ s) : Keeps s₀ (dropAllDeliveries s) :=
  .foldl (fun _ _ => dropDelivery_keeps) hs

theorem queueUndefined_keeps {q off rq} (hs : Keeps s₀ s) : Keeps s₀ (queueUndefined q off rq s) :=
  report_keeps hs

theorem postQueue_keeps {rq q n} (hs : Keeps s₀ s) : Keeps s₀ (postQueue rq q n s) := by
  simp only [postQueue]
  split
  · exact queueUndefined_keeps hs
  · exact .ite (setQ_keeps hs) (report_keeps hs)

theorem wakeElement_keeps {q} (hs : Keeps s₀ s) : Keeps s₀ (wakeElement q s) :=
  .foldl (fun _ _ => wakeLine_keeps) hs

theorem writeElement_keeps {rq q bits} (hs : Keeps s₀ s) : Keeps s₀ (writeElement rq q bits s) := by
  simp only [writeElement]
  split
  · exact hs
  · exact postQueue_keeps (.foldl (fun _ _ hs => .ite (dramPut_keeps hs) (hubPut_keeps hs)) hs)

theorem queueWrite_keeps {q off rq value act} (hact : ∀ s, Keeps s₀ s → Keeps s₀ (act s)) (hs : Keeps s₀ s) :
    Keeps s₀ (queueWrite q off rq value act s) :=
  .ite (ownedWrite_keeps hact hs) (.ite (hact _ hs) hs)

theorem postWrite_keeps {rq q value} (hs : Keeps s₀ s) : Keeps s₀ (postWrite rq q value s) :=
  queueWrite_keeps (fun _ hs => .ite (report_keeps hs) (postQueue_keeps hs)) hs

theorem execSlcPost_answers {rq q n} (hs : Keeps s₀ s) : Answers s₀ (execSlcPost rq q n s) :=
  .next (postWrite_keeps hs)

theorem releaseWrite_keeps {rq q value} (hs : Keeps s₀ s) : Keeps s₀ (releaseWrite rq q value s) :=
  queueWrite_keeps
    (fun _ hs =>
      by split; exacts [queueUndefined_keeps hs, .ite (report_keeps hs) (.ite (setQ_keeps hs) (report_keeps hs))])
    hs

theorem execSlcRelease_answers {rq q rcount} (hs : Keeps s₀ s) : Answers s₀ (execSlcRelease rq q rcount s) :=
  .next (releaseWrite_keeps hs)

theorem stopWrite_keeps {rq q value} (hs : Keeps s₀ s) : Keeps s₀ (stopWrite rq q value s) :=
  queueWrite_keeps (fun _ hs => by split; exacts [queueUndefined_keeps hs, setQ_keeps hs]) hs

theorem execQueueStop_answers {rq q stop} (hs : Keeps s₀ s) : Answers s₀ (execQueueStop rq q stop s) :=
  .next (stopWrite_keeps hs)

/-! ### Direct -/

theorem memRead_keeps {rq a lo w} (hs : Keeps s₀ s) : Keeps s₀ (memRead rq a lo w s).1 := by
  simp only [memRead]
  split
  · split <;> exact .fst (dramGet_keeps hs)
  · split <;> exact hs
  · split
    · exact .fst (report_keeps hs)
    · exact .fst (readTileBits_keeps hs)
  · exact hs

theorem readCarried_keeps {rq a lo w} (hs : Keeps s₀ s) : Keeps s₀ (readCarried rq a lo w s).1 := by
  simp only [readCarried]
  split
  · split
    · exact memRead_keeps hs
    · exact .fst (readAcross_keeps hs)
  · exact memRead_keeps hs

theorem memWrite_keeps {rq a lo w v} (hs : Keeps s₀ s) : Keeps s₀ (memWrite rq a lo w v s).1 := by
  simp only [memWrite]
  split
  · exact .fst (dramPutAt_keeps hs)
  · exact .fst (hubPut_keeps hs)
  · split
    · exact .fst (report_keeps hs)
    · exact .fst (breakReservations_keeps (writeTileBits_keeps hs))
  · exact hs

theorem openLoad_keeps {a w} (hs : Keeps s₀ s) : Keeps s₀ (openLoad a w s).1 := by
  simp only [openLoad]
  split
  · exact .fst (.frame hs)
  · exact hs

theorem gotFill_keeps {i m v bad} (hs : Keeps s₀ s) : Keeps s₀ (gotFill i m v bad s) :=
  .foldl (fun _ _ hs => .foldl (fun _ _ hs => unbind_keeps (gotMiss_keeps hs)) hs) hs

theorem storeAcross_keeps {i t m lo w v} (hs : Keeps s₀ s) : Keeps s₀ (storeAcross i t m lo w v s) :=
  .ite (gotMiss_keeps (report_keeps hs)) (.frame hs)

theorem uncachedCarried_keeps {i m x} (hs : Keeps s₀ s) : Keeps s₀ (uncachedCarried i m x s) := by
  simp only [uncachedCarried]
  split
  · exact storeAcross_keeps hs
  · exact gotMiss_keeps (memWrite_keeps hs)
  · exact gotMiss_keeps (by split; exacts [openLoad_keeps (readCarried_keeps hs), .fst (readCarried_keeps hs)])

theorem missCarried_keeps {i id} (hs : Keeps s₀ s) : Keeps s₀ (missCarried i id s) := by
  simp only [missCarried]
  split
  · exact hs
  · exact .ite (.foldl (fun _ _ => uncachedCarried_keeps) hs) (gotFill_keeps (dramGet_keeps hs))

theorem freshReads_keeps {i line bits} (hs : Keeps s₀ s) : Keeps s₀ (freshReads i line bits s) :=
  .frame (setSub_keeps hs)

theorem backCarried_keeps {i order line} (hs : Keeps s₀ s) : Keeps s₀ (backCarried i order line s) := by
  simp only [backCarried]
  split
  · exact hs
  · exact freshReads_keeps (.foldl (fun _ _ => setCore_keeps) (setCore_keeps (dramPut_keeps hs)))

/-! ### TilePower -/

theorem xingLate_keeps {a b cycles} (hs : Keeps s₀ s) : Keeps s₀ (xingLate a b cycles s) :=
  reportIf_keeps hs

theorem writeItem_keeps {x} (hs : Keeps s₀ s) : Keeps s₀ (writeItem x s) :=
  .ite (.foldl (fun _ _ => writeTileBits_keeps) hs)
    (breakReservations_keeps (.foldl (fun _ _ => writeTileBits_keeps) hs))

theorem answerStore_keeps {x} (hs : Keeps s₀ s) : Keeps s₀ (answerStore x s) := by
  simp only [answerStore]
  split
  · exact gotMiss_keeps hs
  · exact hs

theorem arriveItem_keeps {x} (hs : Keeps s₀ s) : Keeps s₀ (arriveItem x s) :=
  answerStore_keeps (.ite (report_keeps hs) (.ite hs (writeItem_keeps hs)))

theorem wakeByMessage_keeps {t} (hs : Keeps s₀ s) : Keeps s₀ (wakeByMessage t s) :=
  .ite (setTileIsl_keeps hs) hs

theorem arriveInHub_keeps {b cycles} (hs : Keeps s₀ s) : Keeps s₀ (arriveInHub b cycles s) :=
  .ite hs (xingLate_keeps (.frame hs))

theorem execCrossingItemArrival_answers {i cycles} (hs : Keeps s₀ s) :
    Answers s₀ (execCrossingItemArrival i cycles s) := by
  simp only [execCrossingItemArrival]
  split
  · split
    · exact .next (arriveInHub_keeps hs)
    · exact .next (xingLate_keeps hs)
    · exact .next hs
  · exact .ite (.next hs) (.ite (.next (.frame hs)) (by
      split
      · exact .next (.ite (wakeByMessage_keeps (arriveItem_keeps (xingLate_keeps (.frame hs))))
          (arriveItem_keeps (xingLate_keeps (.frame hs))))
      · exact .ite
          (.next (setArrival_keeps (.ite (wakeByMessage_keeps (arriveItem_keeps (xingLate_keeps (.frame hs))))
            (arriveItem_keeps (xingLate_keeps (.frame hs))))))
          (.next (.ite (wakeByMessage_keeps (arriveItem_keeps (xingLate_keeps (.frame hs))))
            (arriveItem_keeps (xingLate_keeps (.frame hs)))))))

theorem freshLine_keeps {l v} (hs : Keeps s₀ s) : Keeps s₀ (freshLine l v s) :=
  putLine_keeps (.frame (setPoison_keeps hs))

theorem loaderPut_keeps {l v} (hs : Keeps s₀ s) : Keeps s₀ (loaderPut l v s) :=
  .ite (downAccess_keeps (.ite (wakeChan_keeps hs) hs)) (freshLine_keeps (.ite (wakeChan_keeps hs) hs))

theorem loadImage_keeps {r} (hs : Keeps s₀ s) : Keeps s₀ (loadImage r s) :=
  .foldl (fun _ _ hs => .ite (loaderPut_keeps hs) (loaderPut_keeps (loaderPut_keeps hs))) hs

theorem loadImages_keeps (hs : Keeps s₀ s) : Keeps s₀ (loadImages s) :=
  .foldl (fun _ _ hs => .ite (.foldl (fun _ _ => loadImage_keeps) hs) hs) hs

theorem clearTileMem_keeps {t} (hs : Keeps s₀ s) : Keeps s₀ (clearTileMem t s) :=
  .frame (hs.setMem filter_wf)

theorem reloadTile_keeps {t} (hs : Keeps s₀ s) : Keeps s₀ (reloadTile t s) :=
  .foldl (fun _ _ hs => .ite hs (.foldl (fun _ _ hs => freshLine_keeps (dramGet_keeps hs)) hs))
    (clearTileMem_keeps hs)

theorem startCore_keeps {i} (hs : Keeps s₀ s) : Keeps s₀ (startCore i s) :=
  setCore_keeps hs (fun _ _ => rfl)

theorem startCores_keeps {t} (hs : Keeps s₀ s) : Keeps s₀ (startCores t s) :=
  .foldl (fun _ _ => startCore_keeps) hs

theorem startTile_keeps {t} (hs : Keeps s₀ s) : Keeps s₀ (startTile t s) :=
  enterStep_keeps (startCores_keeps (setTileIsl_keeps hs))

theorem dropTempPeer_keeps {o u} (hs : Keeps s₀ s) : Keeps s₀ (dropTempPeer o u s) :=
  .ite hs (report_keeps (setTileIsl_keeps hs))

theorem releaseNeighbours_keeps {t st} (hs : Keeps s₀ s) : Keeps s₀ (releaseNeighbours t st s) :=
  .foldl (fun _ _ hs => resteer_keeps (restretch_keeps hs)) (restretch_keeps (.frame (setTileIsl_keeps (.foldl
    (fun _ _ hs => dropTempPeer_keeps (holdDown_keeps hs))
    (.foldl (fun _ _ => report_keeps) (.foldl (fun _ _ => report_keeps) hs))))))

theorem endHolds_keeps {t} (hs : Keeps s₀ s) : Keeps s₀ (endHolds t s) :=
  setTileIsl_keeps
    (.foldl (fun _ _ => report_keeps) (.foldl (fun _ _ => report_keeps) (.foldl (fun _ _ => report_keeps) hs)))

theorem execNapEntry_answers {t} (hs : Keeps s₀ s) : Answers s₀ (execNapEntry t s) :=
  .ite (.next (traceTile_keeps (releaseNeighbours_keeps hs))) (.next hs)

theorem wakeTile_keeps {t} (hs : Keeps s₀ s) : Keeps s₀ (wakeTile t s) :=
  enterStep_keeps (traceTile_keeps (setTileIsl_keeps hs))

theorem execNapExit_answers {t} (hs : Keeps s₀ s) : Answers s₀ (execNapExit t s) :=
  .ite (.next (wakeTile_keeps hs)) (.next hs)

theorem showStores_keeps {i} (hs : Keeps s₀ s) : Keeps s₀ (showStores i s) :=
  .foldl (fun _ _ hs => .ite (showCached_keeps hs) (showOwn_keeps hs)) (setCore_keeps hs)

theorem flushCore_keeps {i} (hs : Keeps s₀ s) : Keeps s₀ (flushCore i s) :=
  .foldl (fun _ _ hs => .ite (unserve_keeps (startWriteBack_keeps hs)) hs) (.foldl
    (fun _ _ hs => by split; exacts [hs, .ite hs (.ite (parity_keeps hs) (startWriteBack_keeps (setFrame_keeps hs)))])
    (showStores_keeps hs))

theorem flushTile_keeps {t} (hs : Keeps s₀ s) : Keeps s₀ (flushTile t s) :=
  .foldl (fun _ _ => flushCore_keeps) hs

theorem sendBacks_keeps {t} (hs : Keeps s₀ s) : Keeps s₀ (sendBacks t s) :=
  .foldl
    (fun _ _ hs => .foldl (fun _ _ hs => .ite hs (.ite (setCore_keeps (dramPut_keeps hs)) (wakeLine_keeps hs))) hs) hs

theorem unbindTile_keeps {t} (hs : Keeps s₀ s) : Keeps s₀ (unbindTile t s) :=
  .frame hs

theorem loseTile_keeps {t keep} (hs : Keeps s₀ s) : Keeps s₀ (loseTile t keep s) := by
  have hc {f} : Keeps s₀ (setTile t f ((List.range 8).foldl (fun s c => setCore (8 * t + c) Core.debugSide s)
      (unbindTile t (withdraw t s)))) :=
    setTile_keeps (.foldl (fun _ _ hs => setCore_keeps hs fun _ _ => rfl) (unbindTile_keeps (withdraw_keeps hs)))
  exact .ite hc (clearTileMem_keeps hc)

theorem enterDark_keeps {t keep} (hs : Keeps s₀ s) : Keeps s₀ (enterDark t keep s) :=
  setTileIsl_keeps (releaseNeighbours_keeps (wakeSettle_keeps (traceTile_keeps hs)))

theorem removePower_keeps {t} (hs : Keeps s₀ s) : Keeps s₀ (removePower t s) :=
  .ite hs (loseTile_keeps (setTileIsl_keeps hs))

theorem darkStep_keeps {t keep} (hs : Keeps s₀ s) : Keeps s₀ (darkStep t keep s) := by
  simp only [darkStep]
  split
  · exact .ite (enterDark_keeps (.ite (sendBacks_keeps (flushTile_keeps hs)) (flushTile_keeps hs)))
      (.ite (sendBacks_keeps (flushTile_keeps hs)) (flushTile_keeps hs))
  · exact .foldl (fun _ _ => wakeLine_keeps) hs

theorem execDarkEntry_answers {t} (hs : Keeps s₀ s) : Answers s₀ (execDarkEntry t s) :=
  .ite (.next (removePower_keeps hs)) (.ite (.next (darkStep_keeps hs)) (.next hs))

theorem traceDarkExit_keeps {t} (hs : Keeps s₀ s) : Keeps s₀ (traceDarkExit t s) :=
  traceTile_keeps (setTile_keeps (.ite (setTile_keeps hs) (traceLost_keeps (setTile_keeps hs))))

theorem leaveTileDark_keeps {t} (hs : Keeps s₀ s) : Keeps s₀ (leaveTileDark t s) :=
  traceDarkExit_keeps (startTile_keeps (.ite (reloadTile_keeps hs) hs))

theorem darkLeave_keeps {t} (hs : Keeps s₀ s) : Keeps s₀ (darkLeave t s) := by
  simp only [darkLeave]
  split
  · exact startExit_keeps (setTileIsl_keeps hs)
  · exact leaveTileDark_keeps hs

theorem startTiles_keeps {old} (hs : Keeps s₀ s) : Keeps s₀ (startTiles old s) :=
  .foldl (fun _ _ hs => .ite (darkLeave_keeps (removePower_keeps hs)) hs) hs

theorem nextMgmtTile_keeps {old} (hs : Keeps s₀ s) : Keeps s₀ (nextMgmtTile old s) := by
  simp only [nextMgmtTile]
  split
  · exact hs
  · exact .ite hs (startTiles_keeps (setTileIsl_keeps hs))

theorem execDarkExit_answers {t} (hs : Keeps s₀ s) : Answers s₀ (execDarkExit t s) :=
  .ite (.next (darkLeave_keeps (removePower_keeps hs))) (.next hs)

theorem pstateRefused_keeps {t value} (hs : Keeps s₀ s) : Keeps s₀ (pstateRefused t value s) :=
  report_keeps hs

theorem requestPstate_keeps {t p} (hs : Keeps s₀ s) : Keeps s₀ (requestPstate t p s) := by
  simp only [requestPstate]
  split
  · exact setTileIsl_keeps hs
  · exact .ite (setTileIsl_keeps hs) (.ite hs (darkStep_keeps (setTileIsl_keeps hs)))
  · exact .ite (setTileIsl_keeps hs) hs

theorem tileCtlWrite_keeps {rq t value} (hs : Keeps s₀ s) : Keeps s₀ (tileCtlWrite rq t value s) :=
  ownedWrite_keeps
    (fun _ hs =>
      .ite (pstateRefused_keeps hs) (resteer_keeps
        (.ite (pstateRefused_keeps (setTileIsl_keeps hs)) (requestPstate_keeps (setTileIsl_keeps hs))))) hs

theorem execTilePstateRequest_answers {rq t value} (hs : Keeps s₀ s) :
    Answers s₀ (execTilePstateRequest rq t value s) :=
  .next (tileCtlWrite_keeps hs)

theorem execTileStepRequest_answers {rq t value} (hs : Keeps s₀ s) : Answers s₀ (execTileStepRequest rq t value s) :=
  .next (tileCtlWrite_keeps hs)

theorem tileOff_keeps {t} (hs : Keeps s₀ s) : Keeps s₀ (tileOff t s) :=
  .frame (loseTile_keeps
    (releaseNeighbours_keeps (.foldl (fun _ _ hs => .ite (answerStore_keeps hs) hs) (abandonTile_keeps hs))))

/-! ### Vif -/

theorem errLog_keeps {v code detail} (hs : Keeps s₀ s) : Keeps s₀ (errLog v code detail s) :=
  setVi_keeps hs (fun _ c => ⟨c.1, mset_wf c.2.1, c.2.2⟩)

theorem answerHost_keeps {v a} (hs : Keeps s₀ s) : Keeps s₀ (answerHost v a s) :=
  .frame hs

theorem answerAlso_keeps {v a} (hs : Keeps s₀ s) : Keeps s₀ (answerAlso v a s) :=
  .frame hs

theorem noAnswers_keeps (hs : Keeps s₀ s) : Keeps s₀ (noAnswers s) :=
  .frame hs

theorem earlyRequest_keeps {g typ} (hs : Keeps s₀ s) : Keeps s₀ (earlyRequest g typ s) :=
  .ite hs (report_keeps (.frame hs))

theorem unclaimedRead_keeps {v} (hs : Keeps s₀ s) : Keeps s₀ (unclaimedRead v s) :=
  .ite (answerHost_keeps hs) (answerHost_keeps (.ite hs (earlyRequest_keeps hs)))

theorem unclaimedWrite_keeps {v} (hs : Keeps s₀ s) : Keeps s₀ (unclaimedWrite v s) :=
  .ite (earlyRequest_keeps hs) hs

theorem mirroredWrite_keeps {v off os} (hs : Keeps s₀ s) : Keeps s₀ (mirroredWrite v off os s) :=
  .ite (ringDoorbell_keeps (setVi_keeps hs (fun _ c => ⟨mset_wf c.1, c.2⟩))) (errLog_keeps hs)

theorem shadowBlock_keeps {v en blk} (hs : Keeps s₀ s) : Keeps s₀ (shadowBlock v en blk s) :=
  .ite hs
    (.ite (setVi_keeps (writeElement_keeps (wakeElement_keeps hs))) (report_keeps (errLog_keeps (setVi_keeps hs))))

theorem setAer_keeps {v f} (hs : Keeps s₀ s) : Keeps s₀ (setAer v f s) :=
  .ite (.frame hs) hs

theorem aerError_keeps {v bit} (hs : Keeps s₀ s) : Keeps s₀ (aerError v bit s) :=
  setAer_keeps hs

theorem untakenWrite_keeps {v} (hs : Keeps s₀ s) : Keeps s₀ (untakenWrite v s) :=
  .ite (aerError_keeps hs) hs

theorem bar0Write_keeps {v off os} (hs : Keeps s₀ s) : Keeps s₀ (bar0Write v off os s) := by
  simp only [bar0Write]
  split
  · exact unclaimedWrite_keeps hs
  · exact .ite hs (.ite (.foldl (fun _ _ => shadowBlock_keeps) hs) (mirroredWrite_keeps hs))
  · exact .ite hs (errLog_keeps hs)
  · exact untakenWrite_keeps hs

theorem execViDoorbellWrite_answers {v off octets} (hs : Keeps s₀ s) :
    Answers s₀ (execViDoorbellWrite v off octets s) :=
  .next (bar0Write_keeps hs)

theorem execShadowWrite_answers {v off octets} (hs : Keeps s₀ s) : Answers s₀ (execShadowWrite v off octets s) :=
  .next (bar0Write_keeps hs)

theorem readDbpend_keeps {rq v k} (hs : Keeps s₀ s) : Keeps s₀ (readDbpend rq v k s).1 := by
  simp only [readDbpend]
  split
  · exact .fst (setVi_keeps hs)
  · exact .fst (report_keeps hs)

theorem execDbpendRead_answers {rq v k} (hs : Keeps s₀ s) : Answers s₀ (execDbpendRead rq v k s) :=
  .ite (.next hs) (.next (.frame (readDbpend_keeps hs)))

theorem servePage_keeps {v w} (hs : Keeps s₀ s) : Keeps s₀ (servePage v w s) :=
  bindAll_keeps (setVi_keeps hs)

theorem pageCarried_keeps {v num idx line} (hs : Keeps s₀ s) : Keeps s₀ (pageCarried v num idx line s) := by
  simp only [pageCarried]
  split
  · exact hs
  · exact .ite (answerAlso_keeps (setVi_keeps (by split; exacts [openLoad_keeps hs, hs])))
      (setVi_keeps (by split; exacts [openLoad_keeps hs, hs]))

theorem dropReads_keeps {v} (hs : Keeps s₀ s) : Keeps s₀ (dropReads v s) :=
  setVi_keeps (.frame (.foldl (fun _ _ => answerAlso_keeps) hs))

theorem bar0Read_keeps {v off len} (hs : Keeps s₀ s) : Keeps s₀ (bar0Read v off len s) := by
  simp only [bar0Read]
  split
  · exact unclaimedRead_keeps hs
  · exact answerHost_keeps hs
  · exact .ite (answerHost_keeps hs) (.ite (answerHost_keeps hs)
      (.ite (answerHost_keeps hs) (.ite (noAnswers_keeps (setVi_keeps hs)) (servePage_keeps (noAnswers_keeps hs)))))

theorem noteUnsupported_keeps {v} (hs : Keeps s₀ s) : Keeps s₀ (noteUnsupported v s) :=
  .ite (aerError_keeps hs) hs

theorem execShadowRead_answers {v off len} (hs : Keeps s₀ s) : Answers s₀ (execShadowRead v off len s) :=
  .next (noteUnsupported_keeps (bar0Read_keeps hs))

theorem execVifSyncTimeout_answers {v} (hs : Keeps s₀ s) : Answers s₀ (execVifSyncTimeout v s) := by
  simp only [execVifSyncTimeout]
  split
  · exact .next hs
  · exact .next (report_keeps (errLog_keeps (setVi_keeps (servePage_keeps (reachTime_keeps hs)))))

theorem vifWrite_keeps {off rq value act} (hact : ∀ s, Keeps s₀ s → Keeps s₀ (act s)) (hs : Keeps s₀ s) :
    Keeps s₀ (vifWrite off rq value act s) :=
  ownedWrite_keeps hact hs

theorem vifBadValue_keeps {off rq value} (hs : Keeps s₀ s) : Keeps s₀ (vifBadValue off rq value s) :=
  report_keeps hs

theorem vifCtlBad_keeps {off value} (hs : Keeps s₀ s) : Keeps s₀ (vifCtlBad off value s) :=
  report_keeps hs

theorem sackWrite_keeps {rq value} (hs : Keeps s₀ s) : Keeps s₀ (sackWrite rq value s) :=
  vifWrite_keeps (fun _ hs => .ite (vifBadValue_keeps hs) (.foldl (fun _ _ => servePage_keeps) (setVi_keeps hs))) hs

theorem execVifSackWrite_answers {rq value} (hs : Keeps s₀ s) : Answers s₀ (execVifSackWrite rq value s) :=
  .next (sackWrite_keeps hs)

theorem epostWrite_keeps {rq value} (hs : Keeps s₀ s) : Keeps s₀ (epostWrite rq value s) :=
  vifWrite_keeps (fun _ hs => .ite (vifBadValue_keeps hs) (errLog_keeps hs)) hs

theorem execVifEpostWrite_answers {rq value} (hs : Keeps s₀ s) : Answers s₀ (execVifEpostWrite rq value s) :=
  .next (epostWrite_keeps hs)

theorem setVec_keeps {v n f} (hs : Keeps s₀ s) : Keeps s₀ (setVec v n f s) :=
  setVi_keeps hs (fun _ c => ⟨c.1, c.2.1, mmod_wf c.2.2⟩)

theorem vecFireIf_keeps {v n} (hs : Keeps s₀ s) : Keeps s₀ (vecFireIf v n s) :=
  .ite (setVec_keeps hs) hs

theorem msixWrite_keeps {rq value} (hs : Keeps s₀ s) : Keeps s₀ (msixWrite rq value s) :=
  vifWrite_keeps (fun _ hs => .ite (vifCtlBad_keeps hs) (vecFireIf_keeps (setVec_keeps hs))) hs

theorem execMsixSignal_answers {rq value} (hs : Keeps s₀ s) : Answers s₀ (execMsixSignal rq value s) :=
  .next (msixWrite_keeps hs)

theorem execMsixWindowTimeFire_answers {v n} (hs : Keeps s₀ s) : Answers s₀ (execMsixWindowTimeFire v n s) :=
  .ite (.next (vecFireIf_keeps (reachTime_keeps hs))) (.next hs)

theorem execMsixSend_answers {v n} (hs : Keeps s₀ s) : Answers s₀ (execMsixSend v n s) :=
  .ite (.next (.frame (setVec_keeps hs))) (.next hs)

theorem controlWrite_keeps {v off value} (hs : Keeps s₀ s) : Keeps s₀ (controlWrite v off value s) := by
  simp only [controlWrite]
  split
  · exact unclaimedWrite_keeps hs
  · exact .ite hs (setVec_keeps hs)
  · exact errLog_keeps hs
  · exact untakenWrite_keeps hs

theorem execHostControlWindowWrite_answers {v off value} (hs : Keeps s₀ s) :
    Answers s₀ (execHostControlWindowWrite v off value s) :=
  .next (controlWrite_keeps hs)

theorem resetCulverts_keeps {v} (hs : Keeps s₀ s) : Keeps s₀ (resetCulverts v s) :=
  .foldl (fun _ _ hs => by split; exacts [hs, .ite (endTransfer_keeps hs) hs]) hs

theorem resetVi_keeps {flr v} (hs : Keeps s₀ s) : Keeps s₀ (resetVi flr v s) :=
  resetCulverts_keeps (ringDoorbell_keeps (.ite (.frame (setVi_keeps (dropReads_keeps hs) (afterReset_wf _ _)))
    (setVi_keeps (dropReads_keeps hs) (afterReset_wf _ _))))

theorem resetFunction_keeps {v} (hs : Keeps s₀ s) : Keeps s₀ (resetFunction v s) :=
  .ite (.foldl (fun _ _ => resetVi_keeps) hs) (resetVi_keeps hs)

theorem dropRequests_keeps {g} (hs : Keeps s₀ s) : Keeps s₀ (dropRequests g s) := by
  refine { hs with
    culs := fun c => map_wf (f := fun x : Culvert => { x with held := x.held.map _ }) (fun x hx => ?_) (hs.culs c) }
  obtain ⟨lines, queued, held, cut, lstat, astatS, astatN⟩ := x
  simp_all

theorem groupReset_keeps {g} (hs : Keeps s₀ s) : Keeps s₀ (groupReset g s) :=
  .ite hs (dropRequests_keeps (.foldl (fun _ _ => resetVi_keeps) hs))

theorem execFlrAccept_answers {v} (hs : Keeps s₀ s) : Answers s₀ (execFlrAccept v s) :=
  .next (.ite (resetFunction_keeps (noAnswers_keeps hs)) hs)

theorem sriovWrite_keeps {g f enable numVfs} (hs : Keeps s₀ s) : Keeps s₀ (sriovWrite g f enable numVfs s) :=
  .foldl (fun _ _ => resetVi_keeps) (.frame hs)

theorem execVfEnableClear_answers {g f enable numVfs} (hs : Keeps s₀ s) :
    Answers s₀ (execVfEnableClear g f enable numVfs s) :=
  .ite (.next hs) (by
    split
    · exact .next hs
    · exact .ite (.next (answerHost_keeps hs)) (.next (sriovWrite_keeps (noAnswers_keeps hs))))

theorem rdoneWrite_keeps {rq value} (hs : Keeps s₀ s) : Keeps s₀ (rdoneWrite rq value s) :=
  vifWrite_keeps (fun _ hs => .ite (setVi_keeps hs) (vifCtlBad_keeps hs)) hs

theorem execVifRdoneWrite_answers {rq value} (hs : Keeps s₀ s) : Answers s₀ (execVifRdoneWrite rq value s) :=
  .next (rdoneWrite_keeps hs)

theorem execViResetComplete_answers {v} (hs : Keeps s₀ s) : Answers s₀ (execViResetComplete v s) :=
  .ite (.next (setVi_keeps hs)) (.next hs)

theorem execVifFlrLate_answers {v} (hs : Keeps s₀ s) : Answers s₀ (execVifFlrLate v s) :=
  .ite (.next (report_keeps (setVi_keeps (reachTime_keeps hs)))) (.next hs)

theorem controlRead_keeps {v off len} (hs : Keeps s₀ s) : Keeps s₀ (controlRead v off len s) := by
  simp only [controlRead]
  split
  · exact unclaimedRead_keeps hs
  · exact answerHost_keeps hs
  · exact .ite (answerHost_keeps hs) (answerHost_keeps hs)

theorem applyAccess_keeps {a g v} (hs : Keeps s₀ s) : Keeps s₀ (applyAccess a g v s) := by
  simp only [applyAccess]
  split
  · exact hs
  · exact hs
  · exact setVi_keeps hs
  · exact .ite hs (setVi_keeps hs (fun _ c => by split <;> exact c))
  · exact .ite hs (.frame hs)
  · exact setVi_keeps hs
  · exact .ite (sriovWrite_keeps hs) hs
  · exact setVi_keeps hs
  · exact .ite (setVi_keeps hs) hs
  · exact .ite (setVi_keeps hs) hs
  · exact .ite (setVi_keeps hs) hs
  · exact .ite (setVi_keeps hs) hs
  · exact setAer_keeps hs
  · exact setAer_keeps hs

theorem execHostConfigRequest_answers {g kind v} (hs : Keeps s₀ s) : Answers s₀ (execHostConfigRequest g kind v s) :=
  .ite (.next hs) (.ite
    (by
      split
      · exact .next (answerHost_keeps hs)
      · exact .next (answerHost_keeps (earlyRequest_keeps hs))
      · exact .next (answerHost_keeps (earlyRequest_keeps hs))
      · exact .next (earlyRequest_keeps hs))
    (by
      split
      · exact .ite (.next (answerHost_keeps hs)) (.ite (.next (answerHost_keeps hs))
          (.ite (.next (answerHost_keeps hs)) (.next (answerAlso_keeps (applyAccess_keeps (noAnswers_keeps hs))))))
      · exact .ite (.next (answerHost_keeps hs))
          (.next (noteUnsupported_keeps (.ite (controlRead_keeps hs) (bar0Read_keeps hs))))
      · exact .next (noteUnsupported_keeps (answerHost_keeps hs))
      · exact .next hs))

/-! ### Ports -/

theorem setQuad_keeps {q f} (hs : Keeps s₀ s) : Keeps s₀ (setQuad q f s) :=
  { hs with quads := fun c => mmod_wf (hs.quads c) }

theorem limited_keeps {code inst fields} (hs : Keeps s₀ s) : Keeps s₀ (limited code inst fields s) :=
  .ite (report_keeps (.frame hs)) (.frame hs)

theorem setGroup_keeps {g f} (hs : Keeps s₀ s) : Keeps s₀ (setGroup g f s) :=
  { hs with groups := fun c => mmod_wf (hs.groups c) }

theorem linkReport_keeps {code l width rate} (hs : Keeps s₀ s) : Keeps s₀ (linkReport code l width rate s) := by
  simp only [linkReport]
  split <;> exact limited_keeps hs

theorem lockLanes_keeps {first n} (hs : Keeps s₀ s) : Keeps s₀ (lockLanes first n s) :=
  .foldl (fun _ _ => setQuad_keeps) hs

theorem sendPfc_keeps {p quanta} (hs : Keeps s₀ s) : Keeps s₀ (sendPfc p quanta s) :=
  setPort_keeps (.frame hs)

theorem flowControl_keeps {p} (hs : Keeps s₀ s) : Keeps s₀ (flowControl p s) := by
  simp only [flowControl]
  split
  · exact hs
  · split
    · exact sendPfc_keeps (setPort_keeps hs)
    · split
      · exact sendPfc_keeps (setPort_keeps hs)
      · exact hs

theorem execPrtLinkUp_answers {l width rate} (hs : Keeps s₀ s) : Answers s₀ (execPrtLinkUp l width rate s) :=
  .ite (.next hs) (by
    split
    · exact .ite (.next hs) (.next (.ite (limited_keeps (linkReport_keeps (lockLanes_keeps (setGroup_keeps hs))))
        (linkReport_keeps (lockLanes_keeps (setGroup_keeps hs)))))
    · exact .ite (.next hs) (.next (flowControl_keeps (linkReport_keeps (lockLanes_keeps (setPort_keeps hs))))))

theorem execPrtLinkNoflit_answers {g} (hs : Keeps s₀ s) : Answers s₀ (execPrtLinkNoflit g s) :=
  .ite (.next hs) (.next (limited_keeps (setGroup_keeps hs)))

theorem abortFrame_keeps {p} (hs : Keeps s₀ s) : Keeps s₀ (abortFrame p s) := by
  simp only [abortFrame]
  split
  · exact .ite (limited_keeps (setPort_keeps hs)) (setPort_keeps hs)
  · exact hs

theorem groupDown_keeps {g} (hs : Keeps s₀ s) : Keeps s₀ (groupDown g s) :=
  .ite hs (linkReport_keeps (setGroup_keeps hs))

theorem portDown_keeps {p} (hs : Keeps s₀ s) : Keeps s₀ (portDown p s) :=
  .ite hs (linkReport_keeps (setPort_keeps (abortFrame_keeps hs) (fun _ _ => rfl)))

theorem execPrtLinkDown_answers {l} (hs : Keeps s₀ s) : Answers s₀ (execPrtLinkDown l s) := by
  simp only [execPrtLinkDown]
  split
  · exact .ite (.next (groupReset_keeps (groupDown_keeps hs))) (.next hs)
  · exact .next (portDown_keeps hs)

theorem execHperstFall_answers {g} (hs : Keeps s₀ s) : Answers s₀ (execHperstFall g s) :=
  .ite (.next hs) (.ite (.next (.frame hs)) (.next (groupReset_keeps (groupDown_keeps (.frame hs)))))

theorem execHperstRise_answers {g} (hs : Keeps s₀ s) : Answers s₀ (execHperstRise g s) :=
  .ite (.next hs) (.next (setGroup_keeps (.frame hs)))

theorem execHotReset_answers {g} (hs : Keeps s₀ s) : Answers s₀ (execHotReset g s) :=
  .next (.ite (groupReset_keeps hs) hs)

theorem execPrtLaneFault_answers {lane los} (hs : Keeps s₀ s) : Answers s₀ (execPrtLaneFault lane los s) :=
  .ite (.next hs) (.next (limited_keeps (setQuad_keeps hs)))

theorem execPrtFecHigh_answers {p corrected uncorrected} (hs : Keeps s₀ s) :
    Answers s₀ (execPrtFecHigh p corrected uncorrected s) :=
  .ite (.next hs) (.next (limited_keeps hs))

theorem receivePfc_keeps {p classes quanta} (hs : Keeps s₀ s) : Keeps s₀ (receivePfc p classes quanta s) :=
  .foldl (fun _ _ hs => .ite hs (.ite (setPort_keeps hs fun _ c => mset_wf (mset_wf c))
    (setPort_keeps hs fun _ c => mset_wf (mset_wf c)))) hs

theorem helmDiscard_keeps {p} (hs : Keeps s₀ s) : Keeps s₀ (helmDiscard p s) :=
  setPort_keeps hs

theorem execFrameReceive_answers {p octets err} (hs : Keeps s₀ s) : Answers s₀ (execFrameReceive p octets err s) :=
  .ite (.next hs) (.ite (.next (helmDiscard_keeps hs)) (.ite (.next (receivePfc_keeps hs)) (.ite
    (.next (limited_keeps (setPort_keeps hs))) (.next (flowControl_keeps (setPort_keeps (setQuad_keeps hs)))))))

theorem execPfcRefresh_answers {p} (hs : Keeps s₀ s) : Answers s₀ (execPfcRefresh p s) :=
  .ite (.next (sendPfc_keeps (reachTime_keeps hs))) (.next hs)

theorem execPfcFrameReceive_answers {p classes quanta} (hs : Keeps s₀ s) :
    Answers s₀ (execPfcFrameReceive p classes quanta s) :=
  .ite (.next (.ite (helmDiscard_keeps hs) (receivePfc_keeps hs))) (.next hs)

theorem execPauseExpiry_answers {p c} (hs : Keeps s₀ s) : Answers s₀ (execPauseExpiry p c s) :=
  .ite (.next hs) (.next (setPort_keeps (reachTime_keeps hs) (fun _ c => mset_wf (mset_wf c))))

theorem execPrtTxPausedLong_answers {p c} (hs : Keeps s₀ s) : Answers s₀ (execPrtTxPausedLong p c s) :=
  .ite (.next hs) (.next (limited_keeps (setPort_keeps (reachTime_keeps hs))))

theorem execFrameTransmit_answers {p} (hs : Keeps s₀ s) : Answers s₀ (execFrameTransmit p s) :=
  .ite (.next hs) (by
    split
    · exact .next hs
    · exact .next (.frame (setPort_keeps (setQuad_keeps (by split; exacts [reachTime_keeps hs, hs])))))

theorem egressPut_keeps {q bits now} (hs : Keeps s₀ s) : Keeps s₀ (egressPut q bits now s) := by
  simp only [egressPut]
  split
  · exact hs
  · exact .ite (limited_keeps (setQuad_keeps hs)) (setQuad_keeps hs)

theorem ingressTake_keeps {q} (hs : Keeps s₀ s) : Keeps s₀ (ingressTake q s).1 := by
  simp only [ingressTake]
  split
  · exact hs
  · exact .fst (flowControl_keeps (setQuad_keeps hs))

theorem linksDown_keeps {p : State → Fin 8 → Bool} {l : List (Fin 8)} (hs : Keeps s₀ s) :
    Keeps s₀ (l.foldl (fun s g => if p s g then groupReset g.val (groupDown g s) else s) s) :=
  .foldl (fun _ _ hs => .ite (groupReset_keeps (groupDown_keeps hs)) hs) hs

theorem quadLost_keeps {q} (hs : Keeps s₀ s) :
    Keeps s₀ { s with prt := { s.prt with quads := mset {} s.prt.quads q {} } } :=
  { hs with quads := fun c => mset_wf (hs.quads c) }

theorem quadOff_keeps {q} (hs : Keeps s₀ s) : Keeps s₀ (quadOff q s) := by
  unfold quadOff
  exact quadLost_keeps (.foldl (fun _ _ hs => .ite (portDown_keeps hs) hs) (linksDown_keeps hs))

theorem quadsDark_keeps {f : QuadBuf → QuadBuf} (hs : Keeps s₀ s) :
    Keeps s₀ { s with prt := { s.prt with
      idle := true, groups := [], quads := (s.prt.quads.map fun e => (e.1, f e.2)).filter fun e => e.2 != {} } } :=
  { hs with groups := fun _ => rfl, quads := fun c => filter_map_wf (hs.quads c) }

theorem lanesIdle_keeps (hs : Keeps s₀ s) : Keeps s₀ (lanesIdle s) := by
  unfold lanesIdle
  exact quadsDark_keeps (f := fun b => { b with los := 0, lock := 0 })
    (.foldl (fun _ _ => portDown_keeps) (linksDown_keeps hs))

/-! ### Culvert -/

theorem setHead_keeps {c f} (hs : Keeps s₀ s) : Keeps s₀ (setHead c f s) :=
  setCul_keeps hs

theorem execCulvertDescriptor_answers {c} (hs : Keeps s₀ s) : Answers s₀ (execCulvertDescriptor c s) := by
  simp only [execCulvertDescriptor]
  split
  · exact .next hs
  · exact .ite (.next hs) (.next (setCul_keeps hs))

theorem hostRefused_keeps {c v} (hs : Keeps s₀ s) : Keeps s₀ (hostRefused c v s) :=
  .ite hs (report_keeps (setHead_keeps (.ite (errLog_keeps hs) hs)))

theorem unbindSource_keeps {c} (hs : Keeps s₀ s) : Keeps s₀ (unbindSource c s) :=
  .frame hs

theorem finishSource_keeps {c} (hs : Keeps s₀ s) : Keeps s₀ (finishSource c s) := by
  simp only [finishSource]
  split
  · exact hs
  · exact .ite (setHead_keeps (setHead_keeps (unbindSource_keeps hs)))
      (bindAll_keeps (setHead_keeps (unbindSource_keeps hs)))

theorem hostWhole_keeps {c} (hs : Keeps s₀ s) : Keeps s₀ (hostWhole c s) := by
  simp only [hostWhole]
  split
  · exact hs
  · exact .ite (finishSource_keeps hs) hs

theorem hostFailed_keeps {c addr} (hs : Keeps s₀ s) : Keeps s₀ (hostFailed c addr s) := by
  simp only [hostFailed]
  split
  · exact hs
  · exact .ite (.ite hs (hostWhole_keeps (setHead_keeps hs))) hs

theorem askOne_keeps {c} (hs : Keeps s₀ s) : Keeps s₀ (askOne c s) := by
  simp only [askOne]
  split
  · exact hs
  · split
    · exact hs
    · exact .ite (hostFailed_keeps (hostRefused_keeps hs)) (setHead_keeps (.frame hs))

theorem askHost_keeps (hs : Keeps s₀ s) : Keeps s₀ (askHost s) :=
  .foldl (fun _ _ => askOne_keeps) (.frame hs)

theorem execDescriptorStart_answers {c} (hs : Keeps s₀ s) : Answers s₀ (execDescriptorStart c s) := by
  simp only [execDescriptorStart]
  split
  · exact .next hs
  · exact .ite (.next hs) (by
      split
      · exact .next (endTransfer_keeps (report_keeps hs))
      · exact .next (endTransfer_keeps (report_keeps hs))
      · exact .ite (.next (endTransfer_keeps (report_keeps hs))) (.ite (.next (endTransfer_keeps hs)) (.ite
          (.next (endTransfer_keeps (hostRefused_keeps hs)))
          (.ite (.next (finishSource_keeps (setHead_keeps hs))) (.ite
            (.next (askHost_keeps (setHead_keeps (setHead_keeps hs)))) (.next (bindAll_keeps (setHead_keeps hs))))))))

theorem receiveSource_reached_keeps {c idx} (hs : Keeps s₀ s) : Keeps s₀ (receiveSource.reached c idx s) :=
  .ite hs (finishSource_keeps hs)

theorem receiveSource_gone_keeps {c idx l} (hs : Keeps s₀ s) : Keeps s₀ (receiveSource.gone c idx l s) :=
  receiveSource_reached_keeps (setHead_keeps (.frame hs))

theorem receiveSource_take_keeps {c idx rq l} (hs : Keeps s₀ s) : Keeps s₀ (receiveSource.take c idx rq l s) :=
  receiveSource_reached_keeps (setHead_keeps (readMemLine_keeps hs))

theorem receiveSource_keeps {c idx line} (hs : Keeps s₀ s) : Keeps s₀ (receiveSource c idx line s) := by
  simp only [receiveSource]
  split
  · exact hs
  · split
    · exact .ite (finishSource_keeps (setHead_keeps (ingressTake_keeps hs))) (setHead_keeps (ingressTake_keeps hs))
    · split
      · exact .ite (receiveSource_take_keeps hs) (receiveSource_gone_keeps (report_keeps hs))
      · exact receiveSource_gone_keeps (report_keeps hs)
      · exact receiveSource_take_keeps hs

theorem hostCarried_keeps {c off os} (hs : Keeps s₀ s) : Keeps s₀ (hostCarried c off os s) :=
  hostWhole_keeps (setHead_keeps hs)

theorem answered_keeps {c a n} (hs : Keeps s₀ s) : Keeps s₀ (answered c a n s) :=
  setHead_keeps hs

theorem withdrawn_keeps {c a} (hs : Keeps s₀ s) : Keeps s₀ (withdrawn c a s) :=
  setHead_keeps hs

theorem lateAnswered_keeps {c done} (hs : Keeps s₀ s) : Keeps s₀ (lateAnswered c done s) :=
  .frame hs

theorem lateCompletion_keeps {c off n error} (hs : Keeps s₀ s) : Keeps s₀ (lateCompletion c off n error s) := by
  simp only [lateCompletion]
  split <;> exact lateAnswered_keeps hs

theorem execHostCompletion_answers {c x error} (hs : Keeps s₀ s) : Answers s₀ (execHostCompletion c x error s) := by
  simp only [execHostCompletion]
  split
  · exact .next (askHost_keeps (lateCompletion_keeps hs))
  · split
    · exact .next (askHost_keeps (.ite (lateCompletion_keeps hs) (hostFailed_keeps (withdrawn_keeps hs))))
    · exact .next (.ite (bindAll_keeps (askHost_keeps (answered_keeps hs))) (askHost_keeps (answered_keeps hs)))

theorem execCompletionTimeout_answers {c addr} (hs : Keeps s₀ s) : Answers s₀ (execCompletionTimeout c addr s) := by
  unfold execCompletionTimeout
  dsimp only
  split
  · refine .next ?_
    split
    · exact hs
    · exact askHost_keeps (hostFailed_keeps (withdrawn_keeps (aerError_keeps (reachTime_keeps hs))))
  · split
    · refine .next ?_
      split
      · exact hs
      · exact askHost_keeps (lateCompletion_keeps (aerError_keeps (reachTime_keeps hs)))
    · exact .next hs

theorem offerKey_keeps {c h o} (hs : Keeps s₀ s) : Keeps s₀ (offerKey c h o s) :=
  .ite (setHead_keeps (.frame hs)) hs

theorem launchDest_keeps {c} (hs : Keeps s₀ s) : Keeps s₀ (launchDest c s) := by
  simp only [launchDest]
  split
  · exact hs
  · split
    · exact hs
    · split
      · split
        · exact .ite (endTransfer_keeps (dramPut_keeps (offerKey_keeps (touch_keeps hs)))) (withOutcome_keeps
            (fun _ hs =>
              .ite (endTransfer_keeps (dramPut_keeps (offerKey_keeps hs)))
                (setHead_keeps (offerKey_keeps (.foldl (fun _ _ => dramPut_keeps) hs)))) (touch_keeps hs))
        · exact setHead_keeps (offerKey_keeps (.foldl (fun _ _ => hubPut_keeps) (touch_keeps hs)))
        · exact .ite (endTransfer_keeps (report_keeps (touch_keeps hs)))
            (setHead_keeps (offerKey_keeps (.frame (touch_keeps hs))))
        · exact endTransfer_keeps (report_keeps (touch_keeps hs))
      · exact setHead_keeps (offerKey_keeps (egressPut_keeps hs))
      · exact .ite (setHead_keeps (offerKey_keeps (.frame hs))) (endTransfer_keeps (hostRefused_keeps hs))

theorem destConnected_keeps {c} (hs : Keeps s₀ s) : Keeps s₀ (destConnected c s) := by
  simp only [destConnected]
  split
  · exact hs
  · exact .ite (setHead_keeps hs) (launchDest_keeps hs)

theorem outWakes_keeps {c o} (hs : Keeps s₀ s) : Keeps s₀ (outWakes c o s) := by
  simp only [outWakes]
  split
  · exact askWrite_keeps hs
  · exact hs

theorem execCulvertCompletionPoint_answers {c} (hs : Keeps s₀ s) : Answers s₀ (execCulvertCompletionPoint c s) := by
  simp only [execCulvertCompletionPoint]
  split
  · exact .next hs
  · exact .next (.ite (by split; exacts [.ite (launchDest_keeps hs) (setHead_keeps (outWakes_keeps hs)), hs]) hs)

theorem dropHead_keeps {c} (hs : Keeps s₀ s) : Keeps s₀ (dropHead c s) :=
  setCul_keeps (.frame hs)

theorem formRecord_keeps {c h} (hs : Keeps s₀ s) : Keeps s₀ (formRecord c h s) :=
  setCul_keeps hs

theorem execCompletionRecordWrite_answers {c} (hs : Keeps s₀ s) : Answers s₀ (execCompletionRecordWrite c s) := by
  simp only [execCompletionRecordWrite]
  split
  · exact .next hs
  · exact .ite (.next hs) (.ite (.next (dropHead_keeps (reportIf_keeps (formRecord_keeps hs)))) (.ite
      (.next (reportIf_keeps (setHead_keeps (formRecord_keeps hs))))
      (.ite (.next (wakeElement_keeps (formRecord_keeps hs)))
        (.next (dropHead_keeps (writeElement_keeps (formRecord_keeps hs)))))))

theorem abortAnswer_keeps {rq c n} (hs : Keeps s₀ s) : Keeps s₀ (abortAnswer rq c n s) :=
  setCul_keeps hs

theorem abortCurrent_keeps {c h} (hs : Keeps s₀ s) : Keeps s₀ (abortCurrent c h s).1 := by
  simp only [abortCurrent]
  split
  · exact .fst (setHead_keeps hs)
  · exact .fst (endTransfer_keeps hs)
  · split
    · exact .fst (setHead_keeps (.frame hs))
    · exact hs

theorem abortWaiting_keeps {c i h} (hs : Keeps s₀ s) : Keeps s₀ (abortWaiting c i h s) :=
  setCul_keeps hs

theorem abortComing_keeps {rq c tag} (hs : Keeps s₀ s) : Keeps s₀ (abortComing rq c tag s).1 := by
  simp only [abortComing]
  split
  · exact .fst (setCul_keeps hs)
  · split
    · exact .fst (setCul_keeps hs)
    · exact hs

theorem abortWrite_keeps {rq c tag} (hs : Keeps s₀ s) : Keeps s₀ (abortWrite rq c tag s) :=
  .ite hs (abortAnswer_keeps (by
    split
    · exact abortComing_keeps hs
    · split
      · exact hs
      · split
        · exact abortCurrent_keeps hs
        · exact .fst (abortWaiting_keeps hs)))

theorem execCulvertAbort_answers {rq c tag} (hs : Keeps s₀ s) : Answers s₀ (execCulvertAbort rq c tag s) :=
  .next (abortWrite_keeps hs)

theorem setKeyBuf_keeps {sec v} (hs : Keeps s₀ s) : Keeps s₀ (setKeyBuf sec v s) :=
  .frame hs (hcul := by split <;> rfl)

theorem kcmdRefused_keeps {value} (hs : Keeps s₀ s) : Keeps s₀ (kcmdRefused value s) :=
  report_keeps hs

theorem kcmdWrite_keeps {rq value} (hs : Keeps s₀ s) : Keeps s₀ (kcmdWrite rq value s) :=
  .ite hs (.ite hs (.ite (report_keeps hs)
    (.ite (setKeyBuf_keeps (.frame hs)) (.ite (kcmdRefused_keeps hs) (setKeyBuf_keeps (.frame hs))))))

theorem execKeyLoad_answers {rq typ slot} (hs : Keeps s₀ s) : Answers s₀ (execKeyLoad rq typ slot s) :=
  .next (kcmdWrite_keeps hs)

theorem execKeyEmpty_answers {rq slot} (hs : Keeps s₀ s) : Answers s₀ (execKeyEmpty rq slot s) :=
  .next (kcmdWrite_keeps hs)

theorem abandonCulverts_keeps (hs : Keeps s₀ s) : Keeps s₀ (abandonCulverts s) :=
  { hs with
    culs := fun c => filter_map_wf
      (f := fun x : Culvert => { x with held := [], queued := [], lines := [], cut := [] }) (hs.culs c) }

/-! ### Chart -/

theorem tableError_keeps {w line} (hs : Keeps s₀ s) : Keeps s₀ (tableError w line s) :=
  report_keeps hs

theorem stashError_keeps {w i} (hs : Keeps s₀ s) : Keeps s₀ (stashError w i s) :=
  report_keeps hs

theorem setCht_keeps {f} (hs : Keeps s₀ s) (hf : (f s.cht).chans = s.cht.chans := by with_reducible rfl) :
    Keeps s₀ (setCht f s) :=
  .frame hs (hcht := hf)

theorem chartFill_keeps {w l bits} (hs : Keeps s₀ s) : Keeps s₀ (chartFill w l bits s) := by
  simp only [chartFill]
  split
  · exact hs
  · exact setCht_keeps hs

theorem tableCarried_keeps {l} (hs : Keeps s₀ s) : Keeps s₀ (tableCarried l s) :=
  .ite (tableError_keeps (setCht_keeps (dramGet_keeps hs))) (chartFill_keeps (dramGet_keeps hs))

theorem wantLines_keeps {ls} (hs : Keeps s₀ s) : Keeps s₀ (wantLines ls s) :=
  .foldl (fun _ _ hs => .ite hs (bindAll_keeps hs)) hs

theorem cacheCorrected_keeps {key} (hs : Keeps s₀ s) : Keeps s₀ (cacheCorrected key s) :=
  report_keeps hs

theorem lineElsewhere_keeps {w l} (hs : Keeps s₀ s) : Keeps s₀ (lineElsewhere w l s).1 := by
  simp only [lineElsewhere]
  split
  · exact .fst (chartFill_keeps hs)
  · exact hs

theorem chartLine_keeps {w l} (hs : Keeps s₀ s) : Keeps s₀ (chartLine w l s).1 := by
  simp only [chartLine]
  split
  · exact hs
  · split
    · exact lineElsewhere_keeps hs
    · split
      · exact lineElsewhere_keeps (cacheCorrected_keeps (setCht_keeps hs))
      · exact .fst (setCht_keeps (.ite (cacheCorrected_keeps hs) hs) rfl)

theorem stashCorrected_keeps {i} (hs : Keeps s₀ s) : Keeps s₀ (stashCorrected i s) :=
  report_keeps hs

theorem stashEntry_keeps {w i} (hs : Keeps s₀ s) : Keeps s₀ (stashEntry w i s).1 := by
  simp only [stashEntry]
  split
  · exact hs
  · exact .fst (stashCorrected_keeps (setCht_keeps hs))
  · exact .fst (stashError_keeps (setCht_keeps hs))
  · exact hs

theorem chartEntry_keeps {w p} (hs : Keeps s₀ s) : Keeps s₀ (chartEntry w p s).1 := by
  unfold chartEntry
  split
  · split
    · rename_i he
      exact .of_eq he (chartLine_keeps hs)
    · exact chartLine_keeps hs
  · exact stashEntry_keeps hs

theorem examine_keeps {w ps} (hs : Keeps s₀ s) : Keeps s₀ (examine w ps s).1 := by
  refine .foldlFst (fun p x hp => ?_) hs
  split
  rename_i he
  exact .of_eq he (chartEntry_keeps hp)

theorem setPlaneErr_keeps {plane j v} (hs : Keeps s₀ s) : Keeps s₀ (setPlaneErr plane j v s) :=
  setCht_keeps hs (by split <;> rfl)

theorem planeError_keeps {w p} (hs : Keeps s₀ s) : Keeps s₀ (planeError w p s) :=
  .ite (tableError_keeps hs) (stashError_keeps hs)

theorem planeCorrected_keeps {w p} (hs : Keeps s₀ s) : Keeps s₀ (planeCorrected w p s) :=
  .ite (cacheCorrected_keeps hs) (stashCorrected_keeps hs)

theorem planeAccess_keeps {plane w p} (hs : Keeps s₀ s) : Keeps s₀ (planeAccess plane w p s) := by
  simp only [planeAccess]
  split
  · exact planeCorrected_keeps (setPlaneErr_keeps hs)
  · exact planeError_keeps (setPlaneErr_keeps hs)
  · exact hs

theorem setPlaneBit_keeps {plane w p v} (hs : Keeps s₀ s) : Keeps s₀ (setPlaneBit plane w p v s) := by
  simp only [setPlaneBit]
  exact setCht_keeps (planeAccess_keeps hs) (by split <;> rfl)

theorem markHit_keeps {w p} (hs : Keeps s₀ s) : Keeps s₀ (markHit w p s) :=
  setPlaneBit_keeps hs

theorem planesAccess_keeps {w p} (hs : Keeps s₀ s) : Keeps s₀ (planesAccess w p s) :=
  planeAccess_keeps (planeAccess_keeps hs)

theorem epochChange_keeps (hs : Keeps s₀ s) : Keeps s₀ (epochChange s) :=
  setCht_keeps hs (by split <;> rfl)

theorem giveLook_keeps {x l} (hs : Keeps s₀ s) : Keeps s₀ (giveLook x l s) :=
  setHead_keeps hs

theorem execChartKeyAccept_answers (hs : Keeps s₀ s) : Answers s₀ (execChartKeyAccept s) := by
  simp only [execChartKeyAccept]
  split
  · exact .next hs
  · exact .next (wantLines_keeps (examine_keeps (.frame hs)))

theorem execLookupDecision_answers {c} (hs : Keeps s₀ s) : Answers s₀ (execLookupDecision c s) := by
  simp only [execLookupDecision]
  split
  · exact .next hs
  · exact .ite (.next (wantLines_keeps (examine_keeps hs))) (by
      split
      · exact .next (giveLook_keeps (markHit_keeps (setCht_keeps (examine_keeps hs))))
      · exact .next (giveLook_keeps (setCht_keeps (examine_keeps hs))))

theorem execResultElementWrite_answers {c} (hs : Keeps s₀ s) : Answers s₀ (execResultElementWrite c s) := by
  simp only [execResultElementWrite]
  split
  · exact .next hs
  · split
    · exact .next hs
    · exact .ite (.next hs) (.ite (.next (setHead_keeps (setHead_keeps (reportIf_keeps hs)))) (.ite
        (.next (.ite (wakeElement_keeps (setHead_keeps (reportIf_keeps hs)))
          (setHead_keeps (writeElement_keeps (setHead_keeps (reportIf_keeps hs))))))
        (.next (reportIf_keeps (setHead_keeps (setHead_keeps (reportIf_keeps hs)))))))

theorem setChan_keeps {ch f} (hs : Keeps s₀ s) : Keeps s₀ (setChan ch f s) :=
  { hs with chtChans := fun c => mmod_wf (hs.chtChans c) }

theorem channelBusy_keeps {ch off value} (hs : Keeps s₀ s) : Keeps s₀ (channelBusy ch off value s) :=
  report_keeps hs

theorem bufWrite_keeps {rq ch i value} (hs : Keeps s₀ s) : Keeps s₀ (bufWrite rq ch i value s) :=
  ownedWrite_keeps (fun _ hs => .ite (channelBusy_keeps hs) (setChan_keeps hs)) hs

theorem cmdWrite_keeps {rq ch value} (hs : Keeps s₀ s) : Keeps s₀ (cmdWrite rq ch value s) :=
  ownedWrite_keeps (fun _ hs => .ite (channelBusy_keeps hs) (.ite hs (setCht_keeps (setChan_keeps hs)))) hs

theorem execChartLookup_answers {rq ch nohit} (hs : Keeps s₀ s) : Answers s₀ (execChartLookup rq ch nohit s) :=
  .next (cmdWrite_keeps hs)

theorem execChartInsert_answers {rq ch ipol} (hs : Keeps s₀ s) : Answers s₀ (execChartInsert rq ch ipol s) :=
  .next (cmdWrite_keeps hs)

theorem execChartUpdate_answers {rq ch} (hs : Keeps s₀ s) : Answers s₀ (execChartUpdate rq ch s) :=
  .next (cmdWrite_keeps hs)

theorem execChartDelete_answers {rq ch idle} (hs : Keeps s₀ s) : Answers s₀ (execChartDelete rq ch idle s) :=
  .next (cmdWrite_keeps hs)

theorem execChartAge_answers {rq ch pos} (hs : Keeps s₀ s) : Answers s₀ (execChartAge rq ch pos s) :=
  .next (cmdWrite_keeps hs)

theorem execChartRead_answers {rq ch pos} (hs : Keeps s₀ s) : Answers s₀ (execChartRead rq ch pos s) :=
  .next (cmdWrite_keeps hs)

theorem endCommand_keeps {ch w code pos out} (hs : Keeps s₀ s) : Keeps s₀ (endCommand ch w code pos out s) :=
  setChan_keeps (by split; exacts [planesAccess_keeps hs, hs])

theorem countUsed_keeps {w up} (hs : Keeps s₀ s) : Keeps s₀ (countUsed w up s) := by
  simp only [countUsed]
  exact setCht_keeps hs (by split <;> rfl)

theorem putEntry_keeps {w p e} (hs : Keeps s₀ s) : Keeps s₀ (putEntry w p e s) := by
  unfold putEntry
  extract_lets n
  split
  · split
    rename_i he
    have hc := Keeps.of_eq he (chartLine_keeps hs)
    split
    · exact hc
    · exact hc
    · extract_lets was b s₁ s₂
      have h₁ : Keeps s₀ s₁ := by
        unfold s₁
        split
        · exact setCht_keeps hc
        · exact hc
      exact setCht_keeps (.ite h₁ (countUsed_keeps h₁))
  · exact setCht_keeps hs

theorem insertNew_keeps {ch w key action es} (hs : Keeps s₀ s) : Keeps s₀ (insertNew ch w key action es s) := by
  simp only [insertNew]
  split
  · exact endCommand_keeps (report_keeps hs)
  · exact endCommand_keeps (reportIf_keeps (markHit_keeps (putEntry_keeps hs)))

theorem keyOutcome_keeps {ch w cmd key action es} (hs : Keeps s₀ s) :
    Keeps s₀ (keyOutcome ch w cmd key action es s) := by
  simp only [keyOutcome]
  split
  · exact endCommand_keeps (.ite hs (markHit_keeps hs))
  · exact endCommand_keeps hs
  · exact .ite (endCommand_keeps (markHit_keeps (putEntry_keeps hs))) (endCommand_keeps hs)
  · exact insertNew_keeps hs
  · exact endCommand_keeps (markHit_keeps (putEntry_keeps hs))
  · exact .ite (endCommand_keeps (.ite (planesAccess_keeps hs) hs))
      (endCommand_keeps (setPlaneBit_keeps (setPlaneBit_keeps (putEntry_keeps (.ite (planesAccess_keeps hs) hs)))))
  · exact endCommand_keeps hs

theorem keyCommand_keeps {ch w cmd} (hs : Keeps s₀ s) : Keeps s₀ (keyCommand ch w cmd s).1 := by
  simp only [keyCommand]
  split
  · exact .fst (endCommand_keeps hs)
  · split
    · exact .fst (wantLines_keeps (examine_keeps hs))
    · split
      · exact .fst (endCommand_keeps (examine_keeps hs))
      · exact .fst (keyOutcome_keeps (examine_keeps hs))

theorem ageScan_keeps {w n p} (hs : Keeps s₀ s) : Keeps s₀ (ageScan w n p s).1 := by
  induction n generalizing p s with
  | zero => exact hs
  | succ n ih =>
    simp only [ageScan]
    split
    · exact hs
    · split
      · rename_i he
        exact .of_eq he (chartEntry_keeps hs)
      · rename_i he
        exact .of_eq he (chartEntry_keeps hs)
      · rename_i he
        have hc := Keeps.of_eq he (chartEntry_keeps hs)
        split
        · exact ih hc
        · split
          · exact .fst (planesAccess_keeps hc)
          · exact ih (planesAccess_keeps hc)

theorem ageCommand_keeps {ch w pos} (hs : Keeps s₀ s) : Keeps s₀ (ageCommand ch w pos s).1 := by
  simp only [ageCommand]
  split
  · rename_i he
    exact .fst (wantLines_keeps (.of_eq he (ageScan_keeps hs)))
  · rename_i he
    exact .fst (endCommand_keeps (.of_eq he (ageScan_keeps hs)))

theorem readCommand_keeps {ch w pos} (hs : Keeps s₀ s) : Keeps s₀ (readCommand ch w pos s).1 := by
  simp only [readCommand]
  split
  · exact .fst (endCommand_keeps hs)
  · split
    · rename_i he
      exact .fst (wantLines_keeps (.of_eq he (chartEntry_keeps hs)))
    · rename_i he
      exact .fst (endCommand_keeps (.of_eq he (chartEntry_keeps hs)))
    · rename_i he
      exact .fst (endCommand_keeps (.of_eq he (chartEntry_keeps hs)))

theorem chartCommand_keeps {ch} (hs : Keeps s₀ s) : Keeps s₀ (chartCommand ch s).1 := by
  simp only [chartCommand]
  split
  · exact ageCommand_keeps hs
  · exact readCommand_keeps hs
  · exact .fst (endCommand_keeps hs)
  · exact keyCommand_keeps hs

theorem execChartCommandCommit_answers (hs : Keeps s₀ s) : Answers s₀ (execChartCommandCommit s) := by
  simp only [execChartCommandCommit]
  split
  · exact .next hs
  · exact .next (.ite (setCht_keeps (chartCommand_keeps hs)) (chartCommand_keeps hs))

theorem execChartWriteThrough_answers (hs : Keeps s₀ s) : Answers s₀ (execChartWriteThrough s) := by
  simp only [execChartWriteThrough]
  split
  · exact .next hs
  · exact .next (.ite (offered_keeps (spend_keeps hs)) (.ite
      (carried_keeps (dramPut_keeps (setCht_keeps (touch_keeps (offered_keeps (spend_keeps hs))))))
      (wakeLine_keeps (offered_keeps (spend_keeps hs)))))

theorem zeroTables_keeps (hs : Keeps s₀ s) : Keeps s₀ (zeroTables s) :=
  .frame ((downRanges_keeps (wakeRanges_keeps hs)).setMem filter_wf)

/-! ### Dram -/

theorem readArrived_keeps {code l v bad} (hs : Keeps s₀ s) : Keeps s₀ (readArrived code l v bad s) :=
  .frame hs

theorem sendData_keeps {code l v bad} (hs : Keeps s₀ s) : Keeps s₀ (sendData code l v bad s) := by
  simp only [sendData]
  split
  · exact readArrived_keeps hs
  · exact bindAll_keeps hs

theorem execDramReadAccept_answers {rq line} (hs : Keeps s₀ s) : Answers s₀ (execDramReadAccept rq line s) :=
  .ite (.next hs) (.ite (.next (sendData_keeps (downAccess_keeps hs)))
    (.ite (.next (sendData_keeps hs)) (.next (queueRead_keeps hs))))

theorem execDramWriteAccept_answers {rq line lo width value} (hs : Keeps s₀ s) :
    Answers s₀ (execDramWriteAccept rq line lo width value s) :=
  .ite (.next hs) (.ite (.next (askWrite_keeps hs)) (.next (withOutcome_keeps (fun _ => dramPutAt_keeps) hs)))

theorem issueRefresh_keeps {u} (hs : Keeps s₀ s) : Keeps s₀ (issueRefresh u s) :=
  setSub_keeps hs

theorem answerRead_keeps {r v bad} (hs : Keeps s₀ s) : Keeps s₀ (answerRead r v bad s) := by
  simp only [answerRead]
  split
  · exact sendData_keeps hs
  · exact bring_keeps hs

theorem admitRead_keeps {u r} (hs : Keeps s₀ s) : Keeps s₀ (admitRead u r s) :=
  .ite (answerRead_keeps (setSub_keeps hs)) (setSub_keeps (.frame (setSub_keeps hs)))

theorem admitWaits_keeps {u} (hs : Keeps s₀ s) : Keeps s₀ (admitWaits u s) :=
  .foldl (fun _ _ hs => .ite (admitRead_keeps hs) hs) hs

theorem execDramCommandIssue_answers {sub ready} (hs : Keeps s₀ s) :
    Answers s₀ (execDramCommandIssue sub ready s) := by
  unfold execDramCommandIssue
  extract_lets u
  split
  · exact .next hs
  · split
    · exact .next hs
    · extract_lets hold s₁ s₂ x s₃
      have h₁ : Keeps s₀ s₁ := setSub_keeps hs
      have h₂ : Keeps s₀ s₂ := .ite h₁ (admitWaits_keeps h₁)
      have h₃ : Keeps s₀ s₃ := .ite (issueRefresh_keeps h₂) h₂
      exact .next (.ite (markIdle_keeps h₃) h₃)

theorem execDramReadData_answers {sub errs} (hs : Keeps s₀ s) : Answers s₀ (execDramReadData sub errs s) := by
  simp only [execDramReadData]
  split
  · exact .next hs
  · have hu {f} : Keeps s₀ (setSub sub.val f s) := setSub_keeps hs
    have ha {r v bad} {s : State} (hs : Keeps s₀ s) : Answers s₀ (.next
        (if chanEmpty (answerRead r v bad s) (sub.val / 2) then markIdle sub.val (answerRead r v bad s)
          else answerRead r v bad s)) :=
      .next (.ite (markIdle_keeps (answerRead_keeps hs)) (answerRead_keeps hs))
    split
    · split
      · exact ha hu
      · exact ha (decodeBurst_keeps hu)
    · split
      · exact ha (setMarks_keeps hu)
      · exact ha (decodeLine_keeps (setMarks_keeps hu))

theorem execRowIdleClose_answers {sub bank} (hs : Keeps s₀ s) : Answers s₀ (execRowIdleClose sub bank s) :=
  .ite (.next hs) (.next (setSub_keeps (reachTime_keeps hs)))

theorem execRefreshTimer_answers {sub} (hs : Keeps s₀ s) : Answers s₀ (execRefreshTimer sub s) :=
  .ite (.next hs) (.ite (.next (setSub_keeps (setSub_keeps (reachTime_keeps hs))))
    (.next (issueRefresh_keeps (setSub_keeps (reachTime_keeps hs)))))

theorem execMr4Poll_answers {hot} (hs : Keeps s₀ s) : Answers s₀ (execMr4Poll hot s) :=
  .ite (.next hs) (.next (.foldl (fun _ _ => setSub_keeps) hs))

theorem enterSelfRefresh_keeps {c} (hs : Keeps s₀ s) : Keeps s₀ (enterSelfRefresh c s) :=
  setChanSt_keeps (.foldl (fun _ _ => setSub_keeps) hs)

theorem execSelfRefreshIdleEntry_answers {ch} (hs : Keeps s₀ s) : Answers s₀ (execSelfRefreshIdleEntry ch s) :=
  .ite (.next hs) (.ite (.next (enterSelfRefresh_keeps hs))
    (.ite (.next hs) (.next (enterSelfRefresh_keeps (reachTime_keeps hs)))))

theorem drcWrite_keeps {off rq value act} (hact : ∀ s, Keeps s₀ s → Keeps s₀ (act s)) (hs : Keeps s₀ s) :
    Keeps s₀ (drcWrite off rq value act s) :=
  .ite hs (ownedWrite_keeps hact hs)

theorem srctlWrite_keeps {rq value} (hs : Keeps s₀ s) : Keeps s₀ (srctlWrite rq value s) :=
  drcWrite_keeps
    (fun _ hs =>
      .foldl (fun _ _ hs => .ite hs (.ite (enterSelfRefresh_keeps (setChanSt_keeps hs)) (setChanSt_keeps hs))) hs)
    hs

theorem execDrcSrctlWrite_answers {rq value} (hs : Keeps s₀ s) : Answers s₀ (execDrcSrctlWrite rq value s) :=
  .next (srctlWrite_keeps hs)

theorem execSelfRefreshExit_answers {ch} (hs : Keeps s₀ s) : Answers s₀ (execSelfRefreshExit ch s) :=
  .ite (.next (.foldl (fun _ _ => restSub_keeps) (setChanSt_keeps hs))) (.next hs)

theorem freqRefused_keeps {value} (hs : Keeps s₀ s) : Keeps s₀ (freqRefused value s) :=
  report_keeps hs

theorem freqWrite_keeps {rq value} (hs : Keeps s₀ s) : Keeps s₀ (freqWrite rq value s) :=
  drcWrite_keeps
    (fun _ hs =>
      .ite hs
        (.ite hs (.ite (freqRefused_keeps hs) (.foldl (fun _ _ hs => .ite hs (setChanSt_keeps hs)) (.frame hs)))))
    hs

theorem execDrcFreqWrite_answers {rq value} (hs : Keeps s₀ s) : Answers s₀ (execDrcFreqWrite rq value s) :=
  .next (freqWrite_keeps hs)

theorem execFrequencyStepComplete_answers {ch ns} (hs : Keeps s₀ s) :
    Answers s₀ (execFrequencyStepComplete ch ns s) :=
  .ite (.next hs) (.ite
    (.next (.frame (.foldl (fun _ _ hs => admitWaits_keeps (restSub_keeps hs)) (setChanSt_keeps hs))))
    (.next (report_keeps
      (.frame (.frame (.foldl (fun _ _ hs => admitWaits_keeps (restSub_keeps hs)) (setChanSt_keeps hs)))))))

theorem devfailWrite_keeps {rq value} (hs : Keeps s₀ s) : Keeps s₀ (devfailWrite rq value s) :=
  drcWrite_keeps
    (fun _ hs =>
      .ite (reportIf_keeps hs) (by split; exacts [.ite (designate_keeps hs) (report_keeps hs), report_keeps hs]))
    hs

theorem execDrcDevfailCommand_answers {rq value} (hs : Keeps s₀ s) : Answers s₀ (execDrcDevfailCommand rq value s) :=
  .next (devfailWrite_keeps hs)

theorem almanacRefresh_keeps {ref} (hs : Keeps s₀ s) : Keeps s₀ (almanacRefresh ref s) :=
  .ite (setChanSt_keeps hs) (setSub_keeps hs)

theorem flushQueues_keeps (hs : Keeps s₀ s) : Keeps s₀ (flushQueues s) :=
  .foldl (fun _ _ => setSub_keeps) (.frame (.foldl (fun _ _ hs => .ite hs (markIdle_keeps hs)) hs))

/-! ### Slots -/

theorem drainWritten_keeps {t l bits} (hs : Keeps s₀ s) : Keeps s₀ (drainWritten t l bits s) :=
  setTile_keeps (dramPut_keeps hs)

theorem wakeDram_keeps {b} (hs : Keeps s₀ s) : Keeps s₀ (wakeDram b s) := by
  simp only [wakeDram]
  split
  · exact hs
  · exact .ite (wakeLine_keeps hs) (.ite (askWrite_keeps hs) (askRead_keeps hs))

theorem carriedLine_keeps {b} (hs : Keeps s₀ s) : Keeps s₀ (carriedLine b s) := by
  simp only [carriedLine]
  split
  · split
    · exact carried_keeps (.frame (.ite hs (.foldl (fun _ _ => touch_keeps) hs)))
    · exact .ite (launchToCulvert_keeps (carried_keeps (.frame (.ite hs (.foldl (fun _ _ => touch_keeps) hs)))))
        (launchToTile_keeps (carried_keeps (.frame (.ite hs (.foldl (fun _ _ => touch_keeps) hs)))))
  · exact receiveSource_keeps (carried_keeps (.frame (.ite hs (.foldl (fun _ _ => touch_keeps) hs))))
  · exact destConnected_keeps (carried_keeps (.frame (.ite hs (.foldl (fun _ _ => touch_keeps) hs))))
  · exact missCarried_keeps (carried_keeps (.frame (.ite hs (.foldl (fun _ _ => touch_keeps) hs))))
  · exact backCarried_keeps (carried_keeps (.frame (.ite hs (.foldl (fun _ _ => touch_keeps) hs))))
  · exact tableCarried_keeps (carried_keeps (.frame (.ite hs (.foldl (fun _ _ => touch_keeps) hs))))
  · exact pageCarried_keeps (carried_keeps (.frame (.ite hs (.foldl (fun _ _ => touch_keeps) hs))))
  · exact hostCarried_keeps (carried_keeps (.frame (.ite hs (.foldl (fun _ _ => touch_keeps) hs))))
  · exact drainWritten_keeps (carried_keeps (.frame (.ite hs (.foldl (fun _ _ => touch_keeps) hs))))
  · exact readArrived_keeps (carried_keeps (.frame (.ite hs (.foldl (fun _ _ => touch_keeps) hs))))

theorem carry_keeps {b} (hs : Keeps s₀ s) : Keeps s₀ (carry b s) := by
  simp only [carry]
  split
  · exact carriedLine_keeps hs
  · exact withOutcome_keeps (fun _ => carriedLine_keeps) hs

theorem takeHeader_keeps {d} (hs : Keeps s₀ s) : KeepsAll s₀ (takeHeader d s) := by
  simp only [takeHeader]
  split
  · exact .none
  · exact .ite .none (.some (touch_keeps (setDeliv_keeps (.frame hs))))

theorem connect_keeps {lines src d} (hs : Keeps s₀ s) : Keeps s₀ (connect lines src d s) := by
  simp only [connect]
  split
  · exact hs
  · rename_i he
    exact spend_keeps (takeHeader_keeps hs _ he)
  · rename_i he
    exact offered_keeps (spend_keeps (takeHeader_keeps hs _ he))
  · exact .ite (carry_keeps (offered_keeps (spend_keeps hs))) (wakeDram_keeps (offered_keeps (spend_keeps hs)))

theorem applyPattern_keeps {a p} (hs : Keeps s₀ s) : Keeps s₀ (applyPattern a p s) :=
  .foldl (fun _ _ hs => .ite hs (connect_keeps hs)) (newCycle_keeps hs)

theorem alternateSlot_keeps {slot kind act} (hact : ∀ x0 s, Keeps s₀ s → Keeps s₀ (act x0 s)) (hs : Keeps s₀ s) :
    Keeps s₀ (alternateSlot slot kind act s) :=
  .ite hs (.frame (hact _ _ (applyPattern_keeps (.frame hs))))

theorem idleSlot_keeps (hs : Keeps s₀ s) : Keeps s₀ (idleSlot s) :=
  .frame hs

theorem donate_keeps {r} (hs : Keeps s₀ s) : Keeps s₀ (donate r s) := by
  simp only [donate]
  split
  · exact idleSlot_keeps hs
  · split
    · exact idleSlot_keeps hs
    · exact grant_keeps (.frame hs)

theorem execSlotGrant_answers {slot} (hs : Keeps s₀ s) : Answers s₀ (execSlotGrant slot s) :=
  .next (alternateSlot_keeps (fun _ _ hs => .ite (grant_keeps hs) (donate_keeps hs)) hs)

theorem execSlotTransfer_answers {slot} (hs : Keeps s₀ s) : Answers s₀ (execSlotTransfer slot s) :=
  .next (alternateSlot_keeps (fun _ _ hs => hs) hs)

theorem execSlotRefresh_answers {slot} (hs : Keeps s₀ s) : Answers s₀ (execSlotRefresh slot s) :=
  .next (alternateSlot_keeps (fun _ _ hs => .ite (almanacRefresh_keeps hs) hs) hs)

theorem join_keeps {src d} (hs : Keeps s₀ s) : Keeps s₀ (join src d s) :=
  .frame hs

theorem ageDrain_keeps {t} (hs : Keeps s₀ s) : Keeps s₀ (ageDrain s t) :=
  .ite hs (setTile_keeps hs)

theorem mgmtSource_keeps {lines src} (hs : Keeps s₀ s) : Keeps s₀ (mgmtSource lines src s) := by
  simp only [mgmtSource]
  split
  · exact hs
  · exact join_keeps hs
  · exact connect_keeps (join_keeps hs)
  · exact .ite (join_keeps hs) (connect_keeps (join_keeps hs))

theorem mgmtChart_keeps (hs : Keeps s₀ s) : Keeps s₀ (mgmtChart s) := by
  simp only [mgmtChart]
  split
  · exact hs
  · exact join_keeps hs

theorem mgmtPattern_keeps (hs : Keeps s₀ s) : Keeps s₀ (mgmtPattern s) :=
  mgmtChart_keeps (.foldl (fun _ _ => mgmtSource_keeps) (.foldl (fun _ _ => ageDrain_keeps) (newCycle_keeps hs)))

theorem execMgmtSlot_answers {slot} (hs : Keeps s₀ s) : Answers s₀ (execMgmtSlot slot s) :=
  .ite (.next hs) (.next (.frame (by
    split
    · exact idleSlot_keeps (mgmtPattern_keeps (.frame hs))
    · exact grant_keeps (.frame (mgmtPattern_keeps (.frame hs))))))

/-! ### Power -/

theorem recomputeRequired_keeps (hs : Keeps s₀ s) : Keeps s₀ (recomputeRequired s) :=
  .frame hs

theorem rsvShort_keeps (hs : Keeps s₀ s) : Keeps s₀ (rsvShort s) :=
  report_keeps hs

theorem rsvWornCheck_keeps (hs : Keeps s₀ s) : Keeps s₀ (rsvWornCheck s) :=
  reportIf_keeps hs

theorem flashWornCheck_keeps {always} (hs : Keeps s₀ s) : Keeps s₀ (flashWornCheck always s) :=
  reportIf_keeps hs

theorem wearSlot_keeps {slot1} (hs : Keeps s₀ s) : Keeps s₀ (wearSlot slot1 s) :=
  .frame hs (hnv := by split <;> rfl)

theorem wearBoot_keeps (hs : Keeps s₀ s) : Keeps s₀ (wearBoot s) :=
  .frame hs

theorem abandonReprobe_keeps (hs : Keeps s₀ s) : Keeps s₀ (abandonReprobe s) :=
  .ite (.frame hs) hs

theorem enterVault_keeps (hs : Keeps s₀ s) : Keeps s₀ (enterVault s) :=
  .frame (report_keeps (abandonReprobe_keeps hs))

theorem declareLoss_keeps {crit} (hs : Keeps s₀ s) : Keeps s₀ (declareLoss crit s) := by
  simp only [declareLoss]
  split
  · exact abandonReprobe_keeps (.frame hs)
  · exact .frame (report_keeps (abandonReprobe_keeps (.frame hs)))
  · exact .frame (report_keeps (abandonReprobe_keeps (.frame hs)))
  · exact abandonReprobe_keeps (.frame hs)
  · exact abandonReprobe_keeps (.frame hs)
  · exact darkOnLoss_keeps (abandonReprobe_keeps (.frame hs))

theorem execMainsLoss_answers {crit} (hs : Keeps s₀ s) : Answers s₀ (execMainsLoss crit s) :=
  .ite (.next hs) (.next (declareLoss_keeps hs))

theorem takeInput_keeps {inp} (hs : Keeps s₀ s) : Keeps s₀ (takeInput inp s) :=
  .frame hs

theorem execMainsValidAgain_answers {inp} (hs : Keeps s₀ s) : Answers s₀ (execMainsValidAgain inp s) :=
  .ite (.next hs) (by
    split
    · exact .next (leaveDark_keeps hs)
    · exact .ite (.next (enterVault_keeps (takeInput_keeps (.frame hs))))
        (.next (report_keeps (.frame (takeInput_keeps (.frame hs)))))
    · exact .next (takeInput_keeps (.frame hs)))

theorem execPwrLineChange_answers {inp} (hs : Keeps s₀ s) : Answers s₀ (execPwrLineChange inp s) :=
  .ite (.next hs) (by
    split
    · exact .next (takeInput_keeps hs)
    · exact .next (.ite (rsvShort_keeps (report_keeps (recomputeRequired_keeps (takeInput_keeps (.frame hs)))))
        (report_keeps (recomputeRequired_keeps (takeInput_keeps (.frame hs))))))

theorem execPwrInputRange_answers {inp} (hs : Keeps s₀ s) : Answers s₀ (execPwrInputRange inp s) :=
  .ite (.next hs)
    (.ite (.next (reportIf_keeps (.frame (takeInput_keeps hs)))) (.ite (.next (takeInput_keeps hs)) (.next hs)))

theorem execChargeComplete_answers (hs : Keeps s₀ s) : Answers s₀ (execChargeComplete s) :=
  .ite (.next (.frame hs)) (.next hs)

theorem execChargeTimeout_answers {cv} (hs : Keeps s₀ s) : Answers s₀ (execChargeTimeout cv s) :=
  .ite (.next (.frame (reachTime_keeps hs))) (.next hs)

theorem execProbeMeasurement_answers {straps inp samples temp} (hs : Keeps s₀ s) :
    Answers s₀ (execProbeMeasurement straps inp samples temp s) :=
  .ite (.next (.frame (takeInput_keeps (.frame hs)))) (.next hs)

theorem recoverNewest_keeps (hs : Keeps s₀ s) : Keeps s₀ (recoverNewest s) :=
  .ite hs (.ite hs (report_keeps (putRec_keeps hs)))

theorem alertAtLoad_keeps (hs : Keeps s₀ s) : Keeps s₀ (alertAtLoad s) := by
  simp only [alertAtLoad]
  split
  · exact hs
  · exact .ite (.frame hs) hs

theorem execLoadEntry_answers (hs : Keeps s₀ s) : Answers s₀ (execLoadEntry s) := by
  unfold execLoadEntry
  split
  · exact .next hs
  · extract_lets _ _ _ s₁ s₂ s₃ _ s₄ s₅ s₆ img
    have h₁ : Keeps s₀ s₁ := flashWornCheck_keeps (rsvWornCheck_keeps (.frame hs))
    have h₂ : Keeps s₀ s₂ := by
      unfold s₂
      split
      · exact h₁
      · exact report_keeps h₁
    have h₃ : Keeps s₀ s₃ := alertAtLoad_keeps (recoverNewest_keeps h₂)
    have h₄ : Keeps s₀ s₄ := .ite h₃ (.frame h₃)
    have h₅ : Keeps s₀ s₅ := .ite (assertReplace_keeps h₄) h₄
    have h₆ : Keeps s₀ s₆ := .ite (assertReplace_keeps h₅) h₅
    exact .next (.frame h₆)

theorem execRideTimeExpiry_answers (hs : Keeps s₀ s) : Answers s₀ (execRideTimeExpiry s) :=
  .ite (.next (enterVault_keeps (reachTime_keeps hs))) (.next hs)

theorem vaultLosses_keeps (hs : Keeps s₀ s) :
    Keeps s₀ { s with
      slc := { s.slc with xing := [] }, isl := { s.isl with hubDiff := [] }, prt := { s.prt with quads := [] }
      pwr := { s.pwr with vaultOff := true } } :=
  { hs with quads := fun _ => rfl }

theorem vaultIslands_keeps (hs : Keeps s₀ s) : Keeps s₀ (vaultIslands s) := by
  unfold vaultIslands
  exact .ite hs (vaultLosses_keeps
    (.foldl (fun _ _ hs => .ite (loseTile_keeps (setTileIsl_keeps (endHolds_keeps hs))) hs) hs))

theorem execVaultRegionStop_answers {i} (hs : Keeps s₀ s) : Answers s₀ (execVaultRegionStop i s) :=
  .ite (.next (.frame (vaultIslands_keeps (reachTime_keeps hs)))) (.next hs)

theorem vaultReads_keeps {whole} (hs : Keeps s₀ s) : Keeps s₀ (vaultReads whole s).1 :=
  discardReports_keeps (.foldlFst (fun _ _ hs => decodeBurst_keeps hs) (downRanges_keeps (wakeRanges_keeps hs)))

theorem abandonVault_keeps (hs : Keeps s₀ s) : Keeps s₀ (abandonVault s) :=
  .ite (wearSlot_keeps (vaultReads_keeps hs)) hs

theorem darkThenStart_keeps (hs : Keeps s₀ s) : Keeps s₀ (darkThenStart s) :=
  .ite (darkOnLoss_keeps (abandonVault_keeps hs)) (leaveDark_keeps (goDark_keeps (abandonVault_keeps hs)))

theorem execVaultClosingRecord_answers (hs : Keeps s₀ s) : Answers s₀ (execVaultClosingRecord s) :=
  .ite (.next (flashWornCheck_keeps (wearSlot_keeps (report_keeps
    (.frame (vaultReads_keeps (vaultIslands_keeps (reachTime_keeps hs))) (hnv := by split <;> rfl)))))) (.next hs)

theorem execVaultDarkTimer_answers (hs : Keeps s₀ s) : Answers s₀ (execVaultDarkTimer s) :=
  .ite (.next (darkThenStart_keeps (reachTime_keeps hs))) (.next hs)

theorem pwrCtlRefused_keeps {value} (hs : Keeps s₀ s) : Keeps s₀ (pwrCtlRefused value s) :=
  report_keeps hs

theorem discardVaults_keeps (hs : Keeps s₀ s) : Keeps s₀ (discardVaults s) :=
  flashWornCheck_keeps (wearSlot_keeps (wearSlot_keeps (report_keeps (.frame hs))))

theorem startReprobe_keeps (hs : Keeps s₀ s) : Keeps s₀ (startReprobe s) :=
  .ite hs (.frame hs)

theorem pwrCtlWrite_keeps {rq value} (hs : Keeps s₀ s) : Keeps s₀ (pwrCtlWrite rq value s) :=
  ownedWrite_keeps
    (fun _ hs =>
      .ite (pwrCtlRefused_keeps hs) (.ite (pwrCtlRefused_keeps hs)
        (.ite (startReprobe_keeps (.ite (discardVaults_keeps hs) hs)) (.ite (discardVaults_keeps hs) hs)))) hs

theorem execReprobe_answers {rq value} (hs : Keeps s₀ s) : Answers s₀ (execReprobe rq value s) :=
  .next (pwrCtlWrite_keeps hs)

theorem execReprobeComplete_answers {samples temp} (hs : Keeps s₀ s) :
    Answers s₀ (execReprobeComplete samples temp s) :=
  .ite
    (.next (rsvWornCheck_keeps (.ite (.frame (recomputeRequired_keeps (.frame hs)))
      (rsvShort_keeps (.frame (recomputeRequired_keeps (.frame hs))))))) (.next hs)

theorem execReprobePeriodExpiry_answers (hs : Keeps s₀ s) : Answers s₀ (execReprobePeriodExpiry s) :=
  .ite (.next (startReprobe_keeps (.frame (reachTime_keeps hs)))) (.next hs)

theorem execVaultDiscard_answers {rq value} (hs : Keeps s₀ s) : Answers s₀ (execVaultDiscard rq value s) :=
  .next (pwrCtlWrite_keeps hs)

theorem disconnectInput_keeps {code measured} (hs : Keeps s₀ s) : Keeps s₀ (disconnectInput code measured s) :=
  .ite hs (declareLoss_keeps (.frame (report_keeps hs)))

theorem execPwrSurge_answers {measured} (hs : Keeps s₀ s) : Answers s₀ (execPwrSurge measured s) :=
  .next (.ite hs (disconnectInput_keeps hs))

theorem execInputOvercurrent_answers {measured} (hs : Keeps s₀ s) : Answers s₀ (execInputOvercurrent measured s) :=
  .next (disconnectInput_keeps hs)

theorem execPwrStageHot_answers {measured} (hs : Keeps s₀ s) : Answers s₀ (execPwrStageHot measured s) :=
  .next (.ite hs (disconnectInput_keeps hs))

theorem islandOff_keeps {i} (hs : Keeps s₀ s) : Keeps s₀ (islandOff i s) :=
  .ite (by split; exacts [.frame hs, nextMgmtTile_keeps (tileOff_keeps (.frame hs))]) (quadOff_keeps (.frame hs))

theorem execRailOvercurrent_answers {rail measured} (hs : Keeps s₀ s) :
    Answers s₀ (execRailOvercurrent rail measured s) :=
  .ite (.next hs) (.ite (.next (darkThenStart_keeps (report_keeps hs))) (.next (islandOff_keeps (report_keeps hs))))

theorem setThrottle_keeps {p on} (hs : Keeps s₀ s) : Keeps s₀ (setThrottle p on s) := by
  simp only [setThrottle]
  split
  · exact .frame hs
  · exact resteer_keeps (.frame hs)

theorem execPwrThermThrottle_answers {p tj} (hs : Keeps s₀ s) : Answers s₀ (execPwrThermThrottle p tj s) :=
  .ite (.next hs) (.next (setThrottle_keeps (reportIf_keeps (.frame hs))))

theorem execThrottleRelease_answers {p} (hs : Keeps s₀ s) : Answers s₀ (execThrottleRelease p s) :=
  .next (.ite hs (setThrottle_keeps hs))

theorem execPwrThermTrip_answers {isl tj} (hs : Keeps s₀ s) : Answers s₀ (execPwrThermTrip isl tj s) :=
  .ite (.next hs) (.ite
    (by
      split
      · exact .next (enterVault_keeps (report_keeps hs))
      · exact .next (enterVault_keeps (report_keeps hs))
      · exact .next (enterVault_keeps (report_keeps hs))
      · exact .next (darkThenStart_keeps (report_keeps hs))) (.next (islandOff_keeps (report_keeps hs))))

theorem execVaultHubOverheat_answers {tj} (hs : Keeps s₀ s) : Answers s₀ (execVaultHubOverheat tj s) :=
  .ite (.next (darkThenStart_keeps (report_keeps hs))) (.next hs)

theorem execPwrThermHigh_answers {quad tj} (hs : Keeps s₀ s) : Answers s₀ (execPwrThermHigh quad tj s) :=
  .ite (.next hs) (.next (report_keeps hs))

theorem execRsvHot_answers {temp} (hs : Keeps s₀ s) : Answers s₀ (execRsvHot temp s) :=
  .ite (.next hs) (.next (report_keeps (.frame hs)))

theorem execReservoirCooled_answers {temp} (hs : Keeps s₀ s) : Answers s₀ (execReservoirCooled temp s) :=
  .ite (.next (.frame hs)) (.next hs)

theorem execPwrCoolant_answers {inlet flow lowFlowHeld} (hs : Keeps s₀ s) :
    Answers s₀ (execPwrCoolant inlet flow lowFlowHeld s) :=
  .ite (.next hs) (.next (reportIf_keeps (.frame hs)))

/-! ### Health -/

theorem execReportAccept_answers (hs : Keeps s₀ s) : Answers s₀ (execReportAccept s) := by
  simp only [execReportAccept]
  split
  · exact .next hs
  · exact .next (acceptReport_keeps (.frame hs))

theorem execLogCommit_answers (hs : Keeps s₀ s) : Answers s₀ (execLogCommit s) :=
  .next (flushLost_keeps (commitOne_keeps hs))

theorem setSigLost_keeps {w n} (hs : Keeps s₀ s) : Keeps s₀ (setSigLost w n s) :=
  .frame hs

theorem execHealthSignalPost_answers (hs : Keeps s₀ s) : Answers s₀ (execHealthSignalPost s) := by
  simp only [execHealthSignalPost]
  split
  · exact .next hs
  · exact .ite (.next hs) (.ite
      (.next (.ite (wakeElement_keeps hs) (writeElement_keeps (setSigLost_keeps (.frame hs)))))
      (.next (reportIf_keeps (setSigLost_keeps (.frame hs)))))

theorem execOpsecTick_answers (hs : Keeps s₀ s) : Answers s₀ (execOpsecTick s) :=
  .ite (.next hs) (.next (.frame (reachTime_keeps hs)))

theorem ridxWrite_keeps {rq n} (hs : Keeps s₀ s) : Keeps s₀ (ridxWrite rq n s) :=
  ownedWrite_keeps (fun _ => .frame) hs

theorem execLgbRidxWrite_answers {rq n} (hs : Keeps s₀ s) : Answers s₀ (execLgbRidxWrite rq n s) :=
  .next (ridxWrite_keeps hs)

/-! ### Wake -/

theorem execTraceDrainLine_answers {t} (hs : Keeps s₀ s) : Answers s₀ (execTraceDrainLine t s) :=
  .ite (.next hs) (.next (roomReturned_keeps
    (setTile_keeps (bindAll_keeps (carried_keeps (offered_keeps (spend_keeps (wakeSettle_keeps hs))))))))

theorem execWktLoss_answers {t} (hs : Keeps s₀ s) : Answers s₀ (execWktLoss t s) :=
  .ite (.next hs) (.next (report_keeps (setTile_keeps (by split; exacts [hs, reachTime_keeps hs]))))

theorem switchTrace_keeps {i on} (hs : Keeps s₀ s) : Keeps s₀ (switchTrace i on s) :=
  .ite (setCore_keeps hs) (.ite hs (traceEmit_keeps hs))

theorem wctlWrite_keeps {rq t value} (hs : Keeps s₀ s) : Keeps s₀ (wctlWrite rq t value s) :=
  tileWrite_keeps
    (fun _ hs =>
      wakeSettle_keeps (.foldl (fun _ _ hs => .ite hs (switchTrace_keeps hs)) (setTile_keeps (reportIf_keeps hs))))
    hs

theorem execTileWctlWrite_answers {rq t value} (hs : Keeps s₀ s) : Answers s₀ (execTileWctlWrite rq t value s) :=
  .next (wctlWrite_keeps hs)

theorem emptyBuffer_keeps {t} (hs : Keeps s₀ s) : Keeps s₀ (emptyBuffer t s) :=
  .foldl (fun _ _ => setCore_keeps) (setTile_keeps hs)

theorem wstatWrite_keeps {rq t value} (hs : Keeps s₀ s) : Keeps s₀ (wstatWrite rq t value s) :=
  tileWrite_keeps (fun _ hs => setTile_keeps (.ite (emptyBuffer_keeps (wakeSettle_keeps hs)) (wakeSettle_keeps hs)))
    hs

theorem execTraceBufferEmpty_answers {rq t value} (hs : Keeps s₀ s) :
    Answers s₀ (execTraceBufferEmpty rq t value s) :=
  .next (wstatWrite_keeps hs)

theorem rdptrWrite_keeps {rq t value} (hs : Keeps s₀ s) : Keeps s₀ (rdptrWrite rq t value s) := by
  unfold rdptrWrite
  exact ownedWrite_keeps (fun _ hs => .ite (setTile_keeps hs) (report_keeps hs)) hs

theorem execWktRdptrWrite_answers {rq t value} (hs : Keeps s₀ s) : Answers s₀ (execWktRdptrWrite rq t value s) :=
  .next (rdptrWrite_keeps hs)

theorem readWdata_keeps {t} (hs : Keeps s₀ s) : Keeps s₀ (readWdata t s).1 := by
  simp only [readWdata]
  split
  · exact .fst (report_keeps (setTile_keeps hs))
  · exact hs

theorem execTileWdataRead_answers {rq t} (hs : Keeps s₀ s) : Answers s₀ (execTileWdataRead rq t s) :=
  .ite (.next hs) (.ite (.next (.frame (report_keeps hs)))
    (.ite (.next (.frame (report_keeps hs))) (.next (.frame (readWdata_keeps (wakeSettle_keeps hs))))))

/-! ### RunControl -/

theorem runRefused_keeps {i value} (hs : Keeps s₀ s) : Keeps s₀ (runRefused i value s) :=
  report_keeps hs

theorem haltAsked_keeps {i} (hs : Keeps s₀ s) : Keeps s₀ (haltAsked i s) :=
  setCore_keeps (.ite (setTileIsl_keeps hs) hs)

theorem requestHalt_keeps {i value} (hs : Keeps s₀ s) : Keeps s₀ (requestHalt i value s) :=
  .ite hs (.ite (runRefused_keeps hs) (haltAsked_keeps hs))

theorem redoze_keeps {i dozed} (hs : Keeps s₀ s) : Keeps s₀ (redoze i dozed s) :=
  .ite hs (setCore_keeps (traceCore_keeps hs))

theorem releaseCore_keeps {i value step} (hs : Keeps s₀ s) : Keeps s₀ (releaseCore i value step s) :=
  .ite (runRefused_keeps hs) (by split; exacts [hs, redoze_keeps (traceResume_keeps (setCore_keeps hs))])

theorem runWrite_keeps {rq i value} (hs : Keeps s₀ s) : Keeps s₀ (runWrite rq i value s) :=
  ownedWrite_keeps
    (fun _ hs =>
      .ite
        (releaseCore_keeps (.ite (releaseCore_keeps (.ite (requestHalt_keeps (setCore_keeps hs)) (setCore_keeps hs)))
          (.ite (requestHalt_keeps (setCore_keeps hs)) (setCore_keeps hs))))
        (.ite (releaseCore_keeps (.ite (requestHalt_keeps (setCore_keeps hs)) (setCore_keeps hs)))
          (.ite (requestHalt_keeps (setCore_keeps hs)) (setCore_keeps hs)))) hs

theorem execDebugHaltRequest_answers {rq c value} (hs : Keeps s₀ s) :
    Answers s₀ (execDebugHaltRequest rq c value s) :=
  .next (runWrite_keeps hs)

theorem execDebugStep_answers {rq c value} (hs : Keeps s₀ s) : Answers s₀ (execDebugStep rq c value s) :=
  .next (runWrite_keeps hs)

theorem execDebugRelease_answers {rq c value} (hs : Keeps s₀ s) : Answers s₀ (execDebugRelease rq c value s) :=
  .next (runWrite_keeps hs)

theorem takeHalt_keeps {i cause} (hs : Keeps s₀ s) : Keeps s₀ (takeHalt i cause s) :=
  report_keeps
    (pulseFrom_keeps (setCore_keeps (traceCore_keeps (drought_keeps (seqTimeout_keeps (landNow_keeps hs))))))

theorem execDbgHalt_answers {c} (hs : Keeps s₀ s) : Answers s₀ (execDbgHalt c s) := by
  simp only [execDbgHalt]
  split
  · exact .next hs
  · exact .ite (.next hs) (.next (takeHalt_keeps hs))

theorem pulseCore_keeps {mask i} (hs : Keeps s₀ s) : Keeps s₀ (pulseCore mask s i) :=
  .ite (releaseCore_keeps (.ite (.ite hs (haltAsked_keeps hs)) hs)) (.ite (.ite hs (haltAsked_keeps hs)) hs)

theorem pulsePin_keeps {mask} (hs : Keeps s₀ s) : Keeps s₀ (pulsePin mask s) :=
  .ite hs (.frame hs)

theorem execChannelPulse_answers (hs : Keeps s₀ s) : Answers s₀ (execChannelPulse s) := by
  simp only [execChannelPulse]
  split
  · exact .next hs
  · exact .next (pulsePin_keeps (.foldl (fun _ _ => pulseCore_keeps) (.frame hs)))

theorem execXtrigInEdge_answers (hs : Keeps s₀ s) : Answers s₀ (execXtrigInEdge s) :=
  .next (.ite (pulseFrom_keeps hs) hs)

theorem xpulseWrite_keeps {rq value} (hs : Keeps s₀ s) : Keeps s₀ (xpulseWrite rq value s) :=
  ownedWrite_keeps (fun _ => pulseFrom_keeps) hs

theorem execDbgXpulseWrite_answers {rq value} (hs : Keeps s₀ s) : Answers s₀ (execDbgXpulseWrite rq value s) :=
  .next (xpulseWrite_keeps hs)

theorem execXtrigOutEnd_answers (hs : Keeps s₀ s) : Answers s₀ (execXtrigOutEnd s) :=
  .ite (.next (.frame (reachTime_keeps hs))) (.next hs)

/-! ### Start -/

theorem verifyCopy_keeps {b} (hs : Keeps s₀ s) : Keeps s₀ (verifyCopy b s).1 := by
  simp only [verifyCopy]
  split
  · exact hs
  · exact .fst (report_keeps hs)

theorem useCopy_keeps {b} (hs : Keeps s₀ s) : Keeps s₀ (useCopy b s) :=
  .frame (recomputeRequired_keeps (.frame (.ite (.frame hs) hs)))

theorem execImageSelectVerify_answers (hs : Keeps s₀ s) : Answers s₀ (execImageSelectVerify s) := by
  unfold execImageSelectVerify
  split
  · exact .next hs
  · have h₁ : Keeps s₀ (verifyCopy (candidate s) s).1 := verifyCopy_keeps hs
    dsimp only
    split
    · exact .next (useCopy_keeps h₁)
    · have h₂ : Keeps s₀ (verifyCopy (!candidate s) (verifyCopy (candidate s) s).1).1 := verifyCopy_keeps h₁
      split
      · exact .next (useCopy_keeps h₂)
      · exact .next (report_keeps (.frame h₂))

theorem retireTile_keeps {p} (hs : Keeps s₀ s) : Keeps s₀ (retireTile p s) :=
  .frame hs

theorem mapDie_keeps {d} (hs : Keeps s₀ s) : Keeps s₀ (mapDie s d) :=
  .foldl (fun _ _ => .frame) hs

theorem testReports_keeps {failed} (hs : Keeps s₀ s) : Keeps s₀ (testReports failed s) :=
  .foldl
    (fun _ _ hs =>
      .ite (by split; exacts [hs, report_keeps hs])
        (reportIf_keeps (reportIf_keeps (by split; exacts [hs, report_keeps hs])))) hs

theorem tileStates_keeps {failed} (hs : Keeps s₀ s) : Keeps s₀ (tileStates failed s) :=
  .frame hs

theorem execTestComplete_answers {failed} (hs : Keeps s₀ s) : Answers s₀ (execTestComplete failed s) :=
  .ite (.next hs) (.next (.frame (tileStates_keeps
    (testReports_keeps (.foldl (fun _ _ => mapDie_keeps) (.foldl (fun _ _ => retireTile_keeps) hs))))))

theorem lockWorlds_keeps (hs : Keeps s₀ s) : Keeps s₀ (lockWorlds s) :=
  .frame hs

theorem drcEmptied_keeps {drc} (hs : Keeps s₀ s) (hu : drc.subs = []) (hc : drc.chans = []) (hm : drc.marks = []) :
    Keeps s₀ { s with drc := drc } :=
  { hs with
    subs := fun _ => by rw [hu]; rfl
    drcChans := fun _ => by rw [hc]; rfl
    marks := fun _ => by rw [hm]; rfl }

theorem trainDram_keeps {badTrain badSets} (hs : Keeps s₀ s) : Keeps s₀ (trainDram badTrain badSets s) :=
  .foldl (fun _ _ => report_keeps) (.foldl (fun _ _ => reportIf_keeps) (.foldl
    (fun _ _ hs => markIdle_keeps (setSub_keeps hs)) (drcEmptied_keeps hs rfl rfl rfl)))

theorem restoreImage_keeps {img} (hs : Keeps s₀ s) : Keeps s₀ (restoreImage img s) :=
  .frame ((downRanges_keeps hs).setMem fun c => foldl_mset_wf _ (fun _ _ c => mset_wf c) _ _ (filter_wf c))

theorem restoreVault_keeps (hs : Keeps s₀ s) : Keeps s₀ (restoreVault s) := by
  simp only [restoreVault]
  split
  · exact hs
  · exact .ite hs (.ite (report_keeps (.frame hs)) (restoreImage_keeps (.frame hs)))

theorem loadQueues_keeps (hs : Keeps s₀ s) : Keeps s₀ (loadQueues s) :=
  { hs with queues := fun _ => rfl, delivs := fun _ => rfl }

theorem loadRoutes_keeps (hs : Keeps s₀ s) : Keeps s₀ (loadRoutes s) :=
  .frame hs

theorem holdDark_keeps (hs : Keeps s₀ s) : Keeps s₀ (holdDark s) :=
  .foldl (fun _ _ hs => .ite (setTileIsl_keeps hs) hs) hs

theorem enterService_keeps (hs : Keeps s₀ s) : Keeps s₀ (enterService s) :=
  .foldl (fun _ _ => startTile_keeps) (loadCeilings_keeps (holdDark_keeps (.frame (.ite hs (rsvShort_keeps hs)))))

theorem zeroPages_keeps (hs : Keeps s₀ s) : Keeps s₀ (zeroPages s) :=
  hs.setMem filter_wf

theorem lockOpen_keeps {badTrain badSets} (hs : Keeps s₀ s) : Keeps s₀ (lockOpen badTrain badSets s) :=
  restoreVault_keeps (trainDram_keeps (.frame (lockWorlds_keeps hs)))

theorem chartEmptied_keeps (hs : Keeps s₀ s) : Keeps s₀ { s with cht := {} } :=
  { hs with chtChans := fun _ => rfl }

theorem loadAll_keeps (hs : Keeps s₀ s) : Keeps s₀ (loadAll s) :=
  loadImages_keeps (zeroPages_keeps (zeroTables_keeps (chartEmptied_keeps (loadRoutes_keeps (loadQueues_keeps hs)))))

theorem chooseAlternate_keeps (hs : Keeps s₀ s) : Keeps s₀ (chooseAlternate s) := by
  simp only [chooseAlternate]
  split
  · exact .frame (.frame hs)
  · exact report_keeps (.frame (.frame hs))

theorem execLockSequence_answers {badTrain run} (hs : Keeps s₀ s) : Answers s₀ (execLockSequence badTrain run s) :=
  .ite (.next hs) (.next (.ite (.ite hs (lockOpen_keeps hs))
    (enterService_keeps (chooseAlternate_keeps (loadAll_keeps (.ite hs (lockOpen_keeps hs)))))))

theorem altRefused_keeps {value} (hs : Keeps s₀ s) : Keeps s₀ (altRefused value s) :=
  report_keeps hs

theorem altWrite_keeps {rq value} (hs : Keeps s₀ s) : Keeps s₀ (altWrite rq value s) :=
  ownedWrite_keeps
    (fun _ hs => .ite hs (.ite (.frame hs) (.ite (.frame hs) (.ite (.frame hs) (altRefused_keeps hs))))) hs

theorem execCfgAltWrite_answers {rq value} (hs : Keeps s₀ s) : Answers s₀ (execCfgAltWrite rq value s) :=
  .next (altWrite_keeps hs)

theorem updWrite_keeps {off rq value act} (hact : ∀ s, Keeps s₀ s → Keeps s₀ (act s)) (hs : Keeps s₀ s) :
    Keeps s₀ (updWrite off rq value act s) :=
  .ite (.ite (hact _ hs) hs) (.ite (report_keeps hs) hs)

theorem updCtlWrite_keeps {rq value} (hs : Keeps s₀ s) : Keeps s₀ (updCtlWrite rq value s) :=
  updWrite_keeps (fun _ hs => .ite (report_keeps (.frame hs)) (.ite hs (.frame hs))) hs

theorem updBufWrite_keeps {rq i value} (hs : Keeps s₀ s) : Keeps s₀ (updBufWrite rq i value s) :=
  updWrite_keeps (fun _ => .frame) hs

theorem execCfgUpdErase_answers {rq copy} (hs : Keeps s₀ s) : Answers s₀ (execCfgUpdErase rq copy s) :=
  .next (updCtlWrite_keeps hs)

theorem execCfgUpdWriteLine_answers {rq copy line} (hs : Keeps s₀ s) :
    Answers s₀ (execCfgUpdWriteLine rq copy line s) :=
  .next (updCtlWrite_keeps hs)

theorem execCfgUpdVerify_answers {rq copy} (hs : Keeps s₀ s) : Answers s₀ (execCfgUpdVerify rq copy s) :=
  .next (updCtlWrite_keeps hs)

theorem putCopy_keeps {b c} (hs : Keeps s₀ s) : Keeps s₀ (putCopy b c s) :=
  .frame hs (hnv := by split <;> rfl)

theorem updDone_keeps {result} (hs : Keeps s₀ s) : Keeps s₀ (updDone result s) :=
  report_keeps (.frame hs)

theorem execCfgUpdComplete_answers (hs : Keeps s₀ s) : Answers s₀ (execCfgUpdComplete s) :=
  .ite (.next hs) (.ite (.next (flashWornCheck_keeps (wearBoot_keeps (updDone_keeps (putCopy_keeps hs))))) (.ite
    (.next (flashWornCheck_keeps (wearBoot_keeps (updDone_keeps (putCopy_keeps hs)))))
    (.next (.ite (useCopy_keeps (updDone_keeps (verifyCopy_keeps hs))) (updDone_keeps (verifyCopy_keeps hs))))))

/-! ### Tide -/

theorem vaultBoundary_keeps (hs : Keeps s₀ s) : Keeps s₀ (vaultBoundary s) :=
  .frame (newCycle_keeps (flushQueues_keeps (lanesIdle_keeps (abandonCulverts_keeps (dropAllDeliveries_keeps hs)))))

theorem switchSchedule_keeps (hs : Keeps s₀ s) : Keeps s₀ (switchSchedule s).1 := by
  simp only [switchSchedule]
  split
  · exact .fst (.frame hs)
  · split
    · exact .fst (report_keeps (.frame hs))
    · exact hs

theorem boundaryCeilings_keeps (hs : Keeps s₀ s) : Keeps s₀ (boundaryCeilings s) :=
  .ite (loadCeilings_keeps (.frame hs)) hs

theorem countTide_keeps (hs : Keeps s₀ s) : Keeps s₀ (countTide s) :=
  .ite (epochChange_keeps (.frame hs)) (.frame hs)

theorem execTideBoundary_answers (hs : Keeps s₀ s) : Answers s₀ (execTideBoundary s) :=
  .ite (.next hs) (.ite (.next (vaultBoundary_keeps hs)) (.next (countTide_keeps (.ite
    (startTiles_keeps (boundaryCeilings_keeps (switchSchedule_keeps hs)))
    (boundaryCeilings_keeps (switchSchedule_keeps hs))))))

/-! ### Regs -/

theorem sstatWrite_keeps {rq i v} (hs : Keeps s₀ s) : Keeps s₀ (sstatWrite rq i v s) :=
  .ite (ownedWrite_keeps (fun _ => setSrc_keeps) hs) (setSrc_keeps hs)

theorem dstatWrite_keeps {rq d v} (hs : Keeps s₀ s) : Keeps s₀ (dstatWrite rq d v s) :=
  .ite (ownedWrite_keeps (fun _ => setDitch_keeps) hs) (setDitch_keeps hs)

theorem kbufWrite_keeps {rq i v} (hs : Keeps s₀ s) : Keeps s₀ (kbufWrite rq i v s) :=
  setKeyBuf_keeps hs

theorem vcoalWrite_keeps {rq j v} (hs : Keeps s₀ s) : Keeps s₀ (vcoalWrite rq j v s) :=
  vifWrite_keeps (fun _ hs => vecFireIf_keeps (setVec_keeps (.ite (vifBadValue_keeps hs) hs))) hs

theorem rxerrWrite_keeps {rq p v} (hs : Keeps s₀ s) : Keeps s₀ (rxerrWrite rq p v s) :=
  ownedWrite_keeps (fun _ => setPort_keeps) hs

theorem cctlWrite_keeps {rq core i v} (hs : Keeps s₀ s) : Keeps s₀ (cctlWrite rq core i v s) :=
  ownedWrite_keeps (fun _ hs => setCore_keeps (reportIf_keeps hs)) hs

/-- What a read and a write of a register do to the state keeps what is kept. -/
structure RegKeeps (s₀ : State) (r : RegView) : Prop where
  put : ∀ {rq v s}, Keeps s₀ s → Keeps s₀ (r.put rq v s) := by exact fun hs => hs
  onRead : ∀ {peek s}, Keeps s₀ s → Keeps s₀ (r.onRead peek s) := by exact fun hs => hs

theorem RegKeeps.owned {win off own fields act} (h : ∀ v s, Keeps s₀ s → Keeps s₀ (act v s)) :
    RegKeeps s₀ (rwOwned win off own fields act) where
  put hs := ownedWrite_keeps (h _) hs

/-- Every register of the rows of a window is one that keeps what is kept. -/
def RowsKeep (s₀ : State) (rows : List (Nat × Nat × Nat × (Nat → RegView))) : Prop :=
  ∀ row ∈ rows, ∀ i, RegKeeps s₀ (row.2.2.2 i)

theorem RowsKeep.nil : RowsKeep s₀ [] := by
  intro row hr
  cases hr

theorem RowsKeep.cons {b st n f rows} (hf : ∀ i, RegKeeps s₀ (f i)) (h : RowsKeep s₀ rows) :
    RowsKeep s₀ ((b, st, n, f) :: rows) := by
  intro row hr
  rcases List.mem_cons.1 hr with rfl | hr
  · exact hf
  · exact h row hr

theorem RowsKeep.reg {off r rows} (hr : RegKeeps s₀ r) (h : RowsKeep s₀ rows) : RowsKeep s₀ (atOff off r :: rows) :=
  .cons (fun _ => hr) h

theorem RowsKeep.append {rows rows'} (h : RowsKeep s₀ rows) (h' : RowsKeep s₀ rows') : RowsKeep s₀ (rows ++ rows') :=
  fun row hr => (List.mem_append.1 hr).elim (h row) (h' row)

theorem RowsKeep.map {l : List Nat} {b st n : Nat → Nat} {f : Nat → Nat → RegView}
    (hf : ∀ k i, RegKeeps s₀ (f k i)) : RowsKeep s₀ (l.map fun k => (b k, st k, n k, f k)) := by
  intro row hr
  obtain ⟨k, -, rfl⟩ := List.mem_map.1 hr
  exact hf k

theorem firstRow_keeps {off rows r} (h : RowsKeep s₀ rows) (hr : firstRow off rows = some r) : RegKeeps s₀ r := by
  induction rows with
  | nil => cases hr
  | cons row rest ih =>
    unfold firstRow at hr
    split at hr
    · cases hr
      exact h _ List.mem_cons_self _
    · exact ih (fun row hm => h row (List.mem_cons_of_mem _ hm)) hr

theorem hubRegs_keep : RowsKeep s₀ (hubRegs s) := .reg {} (.reg {} (.reg {} .nil))

theorem pwrRegs_keep : RowsKeep s₀ (pwrRegs s) :=
  .reg {} (.reg {} (.reg {} (.reg {} (.reg {} (.reg {} (.reg { put := pwrCtlWrite_keeps } .nil))))))

theorem cfgRegs_keep : RowsKeep s₀ (cfgRegs s) :=
  .reg {} (.reg {} (.cons (fun _ => {}) (.reg {} (.reg {} (.reg { put := altWrite_keeps }
    (.reg { put := updCtlWrite_keeps } (.reg {} (.cons (fun _ => { put := updBufWrite_keeps }) .nil))))))))

theorem islRegs_keep : RowsKeep s₀ (islRegs s) :=
  .cons (fun _ => { put := tileCtlWrite_keeps }) (.cons (fun _ => {}) (.reg {} .nil))

theorem wldRegs_keep : RowsKeep s₀ (wldRegs s) :=
  .reg {} (.reg {} (.reg {} (.reg {} (.reg {} (.reg {} (.reg {} (.reg {} (.reg {}
    (.reg { put := ownedWrite_keeps fun _ hs => .frame hs } (.cons (fun _ => {}) .nil))))))))))

theorem ivcRegs_keep : RowsKeep s₀ (ivcRegs s) :=
  .reg { put := ringWrite_keeps } (.cons (fun _ => { put := routeWrite_keeps })
    (.cons (fun _ => { put := sstatWrite_keeps }) .nil))

theorem slcRegs_keep : RowsKeep s₀ (slcRegs s) :=
  .reg {} (.reg {} (.reg {} (.cons (fun _ => {}) (.cons (fun _ => { put := postWrite_keeps })
    (.cons (fun _ => { put := releaseWrite_keeps }) (.cons (fun _ => { put := stopWrite_keeps })
      (.cons (fun _ => { put := dstatWrite_keeps }) .nil)))))))

theorem culRegs_keep {sec} : RowsKeep s₀ (culRegs s sec) :=
  .cons (fun _ => {}) (.cons (fun _ => { put := abortWrite_keeps }) (.cons (fun _ => {})
    (.cons (fun _ => { put := kbufWrite_keeps }) (.reg { put := kcmdWrite_keeps } .nil))))

theorem chtRegs_keep : RowsKeep s₀ (chtRegs s) :=
  .append (.append (.reg {} (.reg {} (.reg {} (.reg {} (.reg {} .nil))))) (.map fun _ _ => { put := bufWrite_keeps }))
    (.cons (fun _ => { put := cmdWrite_keeps }) (.cons (fun _ => {}) .nil))

theorem vifRegs_keep : RowsKeep s₀ (vifRegs s) :=
  .reg { put := msixWrite_keeps } (.reg { put := rdoneWrite_keeps } (.reg { put := sackWrite_keeps }
    (.reg { put := epostWrite_keeps } (.cons (fun _ => {})
      (.cons (fun _ => { onRead := fun hs => .ite hs (setVi_keeps hs) })
        (.cons (fun _ => { put := vcoalWrite_keeps }) (.cons (fun _ => {}) .nil)))))))

theorem prtRegs_keep : RowsKeep s₀ (prtRegs s) :=
  .cons (fun _ => {}) (.cons (fun _ => {}) (.cons (fun _ => {}) (.cons (fun _ => { put := rxerrWrite_keeps }) .nil)))

theorem drcRegs_keep : RowsKeep s₀ (drcRegs s) :=
  .append (.append
    (.cons (fun _ => { put := drcWrite_keeps fun _ => setChanSt_keeps }) (.reg { put := freqWrite_keeps }
      (.reg { put := devfailWrite_keeps } (.reg { put := srctlWrite_keeps }
        (.cons (fun _ => { put := drcWrite_keeps fun _ => setSub_keeps }) .nil)))))
    (.map fun _ _ => { put := drcWrite_keeps fun _ => setSub_keeps })) (.cons (fun _ => {}) .nil)

theorem lgbRegs_keep : RowsKeep s₀ (lgbRegs s) :=
  .reg {} (.reg {} (.reg { put := ridxWrite_keeps } (.reg {} (.cons (fun _ => {})
    (.reg (.owned fun _ _ hs => .frame hs) .nil)))))

theorem wktRegs_keep : RowsKeep s₀ (wktRegs s) :=
  .cons (fun _ => {}) (.cons (fun _ => { put := rdptrWrite_keeps }) .nil)

theorem dbgCoreRegs_keep {core} : RowsKeep s₀ (dbgCoreRegs s core) :=
  .reg { put := runWrite_keeps } (.reg {} (.reg (.owned fun _ _ hs => setCore_keeps hs)
    (.cons (fun _ => { put := ownedWrite_keeps fun _ hs => setCore_keeps hs })
      (.cons (fun _ => { put := cctlWrite_keeps }) .nil))))

theorem dbgRegs_keep : RowsKeep s₀ (dbgRegs s) :=
  .reg (.owned fun _ _ hs => .frame hs) (.reg { put := xpulseWrite_keeps } (.reg {} .nil))

theorem hltRegs_keep : RowsKeep s₀ (hltRegs s) :=
  .append (.map fun _ _ => .owned fun _ _ => setCount_keeps) (.reg {} (.cons (fun _ => {}) .nil))

theorem setArrivals_keeps {i v} {l : List Nat} (hs : Keeps s₀ s) :
    Keeps s₀ (l.foldl (fun s f => if bitOf v f then setArrival i f true s else s) s) :=
  .foldl (fun _ _ hs => .ite (setArrival_keeps hs) hs) hs

theorem tileCoreRegs_keep {t} : RowsKeep s₀ (tileCoreRegs s t) :=
  .cons (fun _ => .owned fun _ _ hs => setCore_keeps hs)
    (.cons (fun _ => { put := ownedWrite_keeps fun _ => setArrivals_keeps })
    (.cons (fun _ => .owned fun _ _ hs => setCore_keeps hs) (.cons (fun _ => .owned fun _ _ hs => setCore_keeps hs)
    (.cons (fun _ => .owned fun _ _ hs => setCore_keeps hs) (.cons (fun _ => .owned fun _ _ hs => setCore_keeps hs)
    (.cons (fun _ => { put := ownedWrite_keeps fun _ => writeWdctl_keeps }) (.cons (fun _ => {})
    (.cons (fun _ => { put := ownedWrite_keeps fun _ => kickWatchdog_keeps }) .nil))))))))

theorem tileRegs_keep {t} : RowsKeep s₀ (tileRegs s t) :=
  .append tileCoreRegs_keep
    (.reg (.owned fun _ _ => setTile_keeps) (.reg { put := wctlWrite_keeps }
      (.reg { put := wstatWrite_keeps, onRead := wakeSettle_keeps } (.reg (.owned fun _ _ => setTile_keeps)
        (.reg { onRead := fun hs => readWdata_keeps (wakeSettle_keeps hs) } .nil)))))

theorem regView_keeps {sec win off r} (hr : regView s sec win off = some r) : RegKeeps s₀ r := by
  unfold regView at hr
  split at hr
  · exact firstRow_keeps hubRegs_keep hr
  · exact firstRow_keeps pwrRegs_keep hr
  · exact firstRow_keeps cfgRegs_keep hr
  · exact firstRow_keeps islRegs_keep hr
  · exact firstRow_keeps wldRegs_keep hr
  · exact firstRow_keeps ivcRegs_keep hr
  · exact firstRow_keeps slcRegs_keep hr
  · exact firstRow_keeps culRegs_keep hr
  · exact firstRow_keeps chtRegs_keep hr
  · exact firstRow_keeps vifRegs_keep hr
  · exact firstRow_keeps prtRegs_keep hr
  · exact firstRow_keeps drcRegs_keep hr
  · exact firstRow_keeps lgbRegs_keep hr
  · exact firstRow_keeps wktRegs_keep hr
  · split at hr
    · exact firstRow_keeps dbgRegs_keep hr
    · split at hr
      · exact firstRow_keeps dbgCoreRegs_keep hr
      · cases hr
  · exact firstRow_keeps hltRegs_keep hr
  · exact firstRow_keeps tileRegs_keep hr

theorem readReg_keeps {rq peek win off n} (hs : Keeps s₀ s) : Keeps s₀ (readReg rq peek win off n s).1 := by
  simp only [readReg]
  split
  · exact .fst (report_keeps hs)
  · rename_i hr
    split
    · exact .fst (report_keeps hs)
    · split
      · exact .fst (report_keeps hs)
      · exact .fst ((regView_keeps hr).onRead hs)

theorem writeReg_keeps {rq win off n value} (hs : Keeps s₀ s) : Keeps s₀ (writeReg rq win off n value s).1 := by
  simp only [writeReg]
  split
  · exact .fst (report_keeps hs)
  · rename_i hr
    split
    · exact .fst (report_keeps hs)
    · split
      · exact .fst (report_keeps hs)
      · exact .fst ((regView_keeps hr).put hs)

/-! ### Fill -/

theorem physRead_keeps {rq peek a n oct side} (hs : Keeps s₀ s) : Keeps s₀ (physRead rq peek a n oct side s).1 := by
  simp only [physRead]
  split
  · exact .fst (readReg_keeps hs)
  · exact .fst (report_keeps hs)
  · exact memRead_keeps hs

theorem physWrite_keeps {rq a n oct side v} (hs : Keeps s₀ s) : Keeps s₀ (physWrite rq a n oct side v s).1 := by
  simp only [physWrite]
  split
  · exact .fst (writeReg_keeps hs)
  · exact .fst (report_keeps hs)
  · exact memWrite_keeps hs

theorem physAsk_keeps {rq wr a} (hs : Keeps s₀ s) : Keeps s₀ (physAsk rq wr a s) :=
  .ite (askWrite_keeps hs) (askRead_keeps hs)

theorem controlAccess_keeps {i m} (hs : Keeps s₀ s) : Keeps s₀ (controlAccess i m s).1 := by
  refine .foldlFst (fun p x hp => ?_) hs
  split
  · exact physWrite_keeps hp
  · exact physRead_keeps hp

theorem uncachedAccess_keeps {i v x} (hs : Keeps s₀ s) : Keeps s₀ (uncachedAccess i v x s) :=
  .ite hs (deliver_keeps hs)

theorem fillSource_keeps {i m} (hs : Keeps s₀ s) : Keeps s₀ (fillSource i m s).1 := by
  simp only [fillSource]
  split
  · exact .fst (fromSiblings_keeps hs)
  · split <;> exact .fst (fromSiblings_keeps hs)

theorem serveAcc_keeps {i m base a f} (hs : Keeps s₀ s) : Keeps s₀ (serveAcc i m base a f s).2 := by
  simp only [serveAcc]
  split
  · exact .ite (startWriteBack_keeps hs) hs
  · exact .ite (startWriteBack_keeps hs) hs
  · exact hs
  · exact hs
  · split
    · exact keepOlds_keeps hs
    · exact deliver_keeps hs

theorem serveAccs_keeps {i m base accs f} (hs : Keeps s₀ s) : Keeps s₀ (serveAccs i m base accs f s).2 := by
  induction accs generalizing f s with
  | nil => exact hs
  | cons a rest ih => exact ih (serveAcc_keeps hs)

theorem serveBad_keeps {i xs} (hs : Keeps s₀ s) : Keeps s₀ (serveBad i xs s) :=
  .foldl (fun _ _ hs => .ite hs (deliver_keeps hs)) hs

theorem putLocked_keeps {i key line f} (hs : Keeps s₀ s) : Keeps s₀ (putLocked i key line f s) :=
  setCore_keeps hs

theorem serveUnallocated_keeps {i line f} (hs : Keeps s₀ s) : Keeps s₀ (serveUnallocated i line f s) :=
  .ite (startWriteBack_keeps hs) hs

theorem placeLine_keeps {i line f} (hs : Keeps s₀ s) : KeepsAll s₀ (placeLine i line f s) :=
  .ite (.some hs) (by
    split
    · exact .some (putLocked_keeps hs)
    · dsimp only
      split
      · exact .some (serveUnallocated_keeps (.ite (lockFull_keeps hs) hs))
      · exact installLine_keeps (.ite (lockFull_keeps hs) hs))

theorem completeFill_keeps {i m} (hs : Keeps s₀ s) : Keeps s₀ (completeFill i m s) := by
  simp only [completeFill]
  split
  · rename_i he
    exact hs
  · rename_i he
    exact .ite (.of_eq he (fillSource_keeps hs)) (.ite
      (endMiss_keeps (serveBad_keeps (.of_eq he (fillSource_keeps hs))))
      (.ite
        (endMiss_keeps (lockFull_keeps (.ite
          (invalidateOthers_keeps (.ite (serveAccs_keeps (rebase_keeps (.of_eq he (fillSource_keeps hs))))
            (leaveLine_keeps (serveAccs_keeps (rebase_keeps (.of_eq he (fillSource_keeps hs)))))))
          (serveAccs_keeps (rebase_keeps (.of_eq he (fillSource_keeps hs)))))))
        (by
          split
          · rename_i he'
            exact endMiss_keeps (placeLine_keeps
              (.ite
                (invalidateOthers_keeps (.ite (serveAccs_keeps (rebase_keeps (.of_eq he (fillSource_keeps hs))))
                  (leaveLine_keeps (serveAccs_keeps (rebase_keeps (.of_eq he (fillSource_keeps hs)))))))
                (serveAccs_keeps (rebase_keeps (.of_eq he (fillSource_keeps hs))))) _ he')
          · exact hs)))

theorem fetchRead_keeps {i l r} {got : Option (Nat × Bool)} {ready : Prop} [Decidable ready] {t : Target}
    (hs : Keeps s₀ s)
    (he : (match t with
      | .tile t => some (readTileBits t l 0 576 i s)
      | _ => if ready then got.map fun g => (s, g.1, g.2) else none) = some r) : Keeps s₀ r.1 := by
  split at he
  · exact Option.some.inj he ▸ readTileBits_keeps hs
  · split at he
    · obtain ⟨g, -, rfl⟩ := Option.map_eq_some_iff.1 he
      exact hs
    · cases he

theorem completeFetch_keeps {i m} (hs : Keeps s₀ s) : Keeps s₀ (completeFetch i m s) := by
  simp only [completeFetch]
  split
  · exact hs
  · rename_i he
    have hr := fetchRead_keeps hs he
    exact .ite (endMiss_keeps (installFetch_keeps hr)) (.ite (takeCause_keeps (settle_keeps (endMiss_keeps hr)))
      (settle_keeps (endMiss_keeps hr)))

theorem finishUncached_keeps {i id} (hs : Keeps s₀ s) : Keeps s₀ (finishUncached i id s) := by
  simp only [finishUncached]
  split
  · exact hs
  · exact .ite (endMiss_keeps (.foldl (fun _ _ => uncachedAccess_keeps) hs)) hs

theorem execMissFillComplete_answers {c miss} (hs : Keeps s₀ s) : Answers s₀ (execMissFillComplete c miss s) := by
  simp only [execMissFillComplete]
  split
  · exact .next hs
  · exact .ite (.next hs) (by
      split
      · exact .next (finishUncached_keeps (.ite (gotMiss_keeps (controlAccess_keeps hs)) hs))
      · exact .next (completeFetch_keeps hs)
      · exact .next (completeFill_keeps hs))

/-! ### Debug -/

theorem setDbu_keeps {f} (hs : Keeps s₀ s) : Keeps s₀ (setDbu f s) :=
  .frame hs

theorem portFault_keeps {reason} (hs : Keeps s₀ s) : Keeps s₀ (portFault reason s) :=
  setDbu_keeps hs

theorem header_keeps {read reg seq mark par} (hs : Keeps s₀ s) : Keeps s₀ (header read reg seq mark par s).1 := by
  simp only [header]
  split
  · exact .fst (setDbu_keeps hs)
  · split
    · exact .fst (setDbu_keeps (setDbu_keeps hs))
    · exact .fst (.ite (report_keeps (setDbu_keeps (.ite (portFault_keeps (setDbu_keeps hs)) (setDbu_keeps hs))))
        (.ite (portFault_keeps (setDbu_keeps hs)) (setDbu_keeps hs)))

theorem execDebugFrameRead_answers {reg seq mark par} (hs : Keeps s₀ s) :
    Answers s₀ (execDebugFrameRead reg seq mark par s) := by
  simp only [execDebugFrameRead]
  split
  · rename_i he
    exact .next (setDbu_keeps (.of_eq he (header_keeps hs)))
  · rename_i he
    exact .next (.of_eq he (header_keeps hs))

theorem startAccess_keeps {v} (hs : Keeps s₀ s) : Keeps s₀ (startAccess v s) :=
  .ite (portFault_keeps hs) (setDbu_keeps hs)

theorem portWrite_keeps {reg v} (hs : Keeps s₀ s) : Keeps s₀ (portWrite reg v s) := by
  simp only [portWrite]
  split
  · exact setDbu_keeps hs
  · exact setDbu_keeps hs
  · exact setDbu_keeps hs
  · exact setDbu_keeps hs
  · exact setDbu_keeps hs
  · exact startAccess_keeps hs
  · exact hs

theorem giveReceipt_keeps {c seq} (hs : Keeps s₀ s) : Keeps s₀ (giveReceipt c seq s) :=
  setDbu_keeps hs

theorem writeData_keeps {reg seq data} (hs : Keeps s₀ s) : Keeps s₀ (writeData reg seq data s) := by
  simp only [writeData]
  split
  · exact giveReceipt_keeps (portFault_keeps hs)
  · exact .ite (giveReceipt_keeps hs)
      (giveReceipt_keeps (.ite (portWrite_keeps hs) (setDbu_keeps (portWrite_keeps hs))))

theorem frameWrite_keeps {reg seq mark par data} (hs : Keeps s₀ s) :
    Keeps s₀ (frameWrite reg seq mark par data s) := by
  simp only [frameWrite]
  split
  · rename_i he
    exact writeData_keeps (.of_eq he (header_keeps hs))
  · rename_i he
    exact .of_eq he (header_keeps hs)

theorem execDebugFrameWrite_answers {reg seq mark par data} (hs : Keeps s₀ s) :
    Answers s₀ (execDebugFrameWrite reg seq mark par data s) :=
  .next (frameWrite_keeps hs)

theorem execDebugBreak_answers (hs : Keeps s₀ s) : Answers s₀ (execDebugBreak s) :=
  .next (.ite (setDbu_keeps hs) hs)

theorem goodWrite_keeps {reg seq v} (hs : Keeps s₀ s) : Keeps s₀ (goodWrite reg seq v s) :=
  frameWrite_keeps hs

theorem execDctlAbort_answers {seq} (hs : Keeps s₀ s) : Answers s₀ (execDctlAbort seq s) :=
  .next (goodWrite_keeps hs)

theorem execDctlClear_answers {seq} (hs : Keeps s₀ s) : Answers s₀ (execDctlClear seq s) :=
  .next (goodWrite_keeps hs)

theorem performed_keeps {r : State × Nat × Nat} (hr : Keeps s₀ r.1) : Keeps s₀ (performed r) :=
  setDbu_keeps hr

theorem performAccess_keeps {space act} (hact : ∀ c a s, Keeps s₀ s → Keeps s₀ (act c a s).1) (hs : Keeps s₀ s) :
    Keeps s₀ (performAccess space act s) := by
  simp only [performAccess]
  split
  · exact hs
  · exact .ite hs (.ite (performed_keeps (report_keeps hs)) (performed_keeps (hact _ _ _ hs)))

theorem physicalAccess_keeps {cmd a} (hs : Keeps s₀ s) : Keeps s₀ (physicalAccess cmd a s).1 := by
  simp only [physicalAccess]
  split
  · exact hs
  · split
    · exact .fst (report_keeps hs)
    · split
      · exact .fst (physWrite_keeps hs)
      · exact .fst (physRead_keeps hs)

theorem execDebugPhysicalAccess_answers (hs : Keeps s₀ s) : Answers s₀ (execDebugPhysicalAccess s) := by
  have hp {s : State} (hs : Keeps s₀ s) : Keeps s₀ (performAccess 0 physicalAccess s) :=
    performAccess_keeps (fun _ _ _ => physicalAccess_keeps) hs
  simp only [execDebugPhysicalAccess]
  split
  · exact .ite (.next hs) (.ite (.next (hp hs)) (.ite (.next (physAsk_keeps hs))
      (.ite (.next hs) (.next (withOutcome_keeps (fun _ => hp) hs)))))
  · exact .next hs

theorem setLanding_keeps {i id v} (hs : Keeps s₀ s) : Keeps s₀ (setLanding i id v s) :=
  setCore_keeps hs

theorem coreWrite_keeps {cmd i kind x v} (hs : Keeps s₀ s) : Keeps s₀ (coreWrite cmd i kind x v s).1 := by
  simp only [coreWrite]
  split
  · exact .fst (setCore_keeps hs (fun _ c => write_wf _ _ c))
  · split
    · exact hs
    · split
      · exact hs
      · exact .fst (srWrite_keeps hs)
  · split
    · exact hs
    · split
      · exact hs
      · exact .fst (setLanding_keeps hs)
  · split
    · exact .fst (setCore_keeps hs)
    · exact .fst (setCore_keeps hs)
    · exact .fst (setCore_keeps hs)
    · exact hs

theorem coreAccess_keeps {cmd a} (hs : Keeps s₀ s) : Keeps s₀ (coreAccess cmd a s).1 := by
  simp only [coreAccess]
  split
  · exact hs
  · split
    · exact hs
    · split
      · exact hs
      · split
        · split <;> exact hs
        · split
          · exact .fst (coreWrite_keeps hs)
          · exact hs

theorem execDebugCoreAccess_answers (hs : Keeps s₀ s) : Answers s₀ (execDebugCoreAccess s) :=
  .next (performAccess_keeps (fun _ _ _ => coreAccess_keeps) hs)

theorem l1Access_keeps {cmd a} (hs : Keeps s₀ s) : Keeps s₀ (l1Access cmd a s).1 := by
  simp only [l1Access]
  split
  · exact hs
  · split
    · exact hs
    · split
      · exact hs
      · split
        · exact hs
        · exact .fst (.frame hs)

theorem execDebugL1Read_answers (hs : Keeps s₀ s) : Answers s₀ (execDebugL1Read s) :=
  .next (performAccess_keeps (fun _ _ _ => l1Access_keeps) hs)

theorem execDebugAccessComplete_answers (hs : Keeps s₀ s) : Answers s₀ (execDebugAccessComplete s) := by
  simp only [execDebugAccessComplete]
  split
  · exact .next hs
  · exact .ite (.next hs) (.ite (.next (setDbu_keeps (setDbu_keeps hs)))
      (.next (portFault_keeps (.ite (setDbu_keeps (setDbu_keeps hs)) (setDbu_keeps hs)))))

theorem execRegisterWrite_answers {rq addr size oct value} (hs : Keeps s₀ s) :
    Answers s₀ (execRegisterWrite rq addr size oct value s) :=
  .ite (.next hs) (by dsimp only; split; exacts [.next (writeReg_keeps hs), .next (report_keeps hs), .next hs])

/-! ### Smbus -/

theorem smbAnswer_keeps {os ack} (hs : Keeps s₀ s) : Keeps s₀ (smbAnswer os ack s) :=
  .frame hs

theorem smbGive_keeps {cmd os} (hs : Keeps s₀ s) : Keeps s₀ (smbGive cmd os s) :=
  .frame hs

theorem smbDo_keeps {act} (hact : ∀ s, Keeps s₀ s → Keeps s₀ (act s)) (hs : Keeps s₀ s) : Keeps s₀ (smbDo act s) :=
  .ite (hact _ hs) (smbAnswer_keeps hs)

theorem smbRead_answers {cmd os} (hs : Keeps s₀ s) : Answers s₀ (smbRead cmd os s) :=
  .next (smbDo_keeps (fun _ => smbGive_keeps) hs)

theorem smbWrite_answers {cmd n octets pec act} (hact : ∀ x0 s, Keeps s₀ s → Keeps s₀ (act x0 s)) (hs : Keeps s₀ s) :
    Answers s₀ (smbWrite cmd n octets pec act s) :=
  .next (smbDo_keeps (fun _ hs => .ite (hact _ _ hs) (smbAnswer_keeps hs)) hs)

theorem execSmbReadIdent_answers (hs : Keeps s₀ s) : Answers s₀ (execSmbReadIdent s) :=
  smbRead_answers hs

theorem execSmbReadAssetTag_answers (hs : Keeps s₀ s) : Answers s₀ (execSmbReadAssetTag s) :=
  smbRead_answers hs

theorem execSmbReadStartState_answers (hs : Keeps s₀ s) : Answers s₀ (execSmbReadStartState s) :=
  smbRead_answers hs

theorem execSmbReadTileMap_answers (hs : Keeps s₀ s) : Answers s₀ (execSmbReadTileMap s) :=
  smbRead_answers hs

theorem execSmbReadLogCounts_answers (hs : Keeps s₀ s) : Answers s₀ (execSmbReadLogCounts s) :=
  smbRead_answers hs

theorem execSmbLatchRecord_answers {octets pec} (hs : Keeps s₀ s) : Answers s₀ (execSmbLatchRecord octets pec s) :=
  smbWrite_answers (fun _ _ hs => smbAnswer_keeps (.frame hs)) hs

theorem execSmbReadRecord_answers (hs : Keeps s₀ s) : Answers s₀ (execSmbReadRecord s) :=
  .next (smbDo_keeps (fun _ hs => smbGive_keeps (.frame hs)) hs)

theorem execSmbRegisterSelect_answers {octets pec} (hs : Keeps s₀ s) :
    Answers s₀ (execSmbRegisterSelect octets pec s) :=
  smbWrite_answers (fun _ _ hs => .ite (smbAnswer_keeps (.frame hs)) (smbAnswer_keeps hs)) hs

theorem execSmbRegisterRead_answers (hs : Keeps s₀ s) : Answers s₀ (execSmbRegisterRead s) :=
  .next (smbDo_keeps (fun _ hs => .ite (smbAnswer_keeps hs) (smbGive_keeps (.frame (readReg_keeps (.frame hs))))) hs)

theorem execSmbRegisterWrite_answers {octets pec} (hs : Keeps s₀ s) :
    Answers s₀ (execSmbRegisterWrite octets pec s) :=
  smbWrite_answers (fun _ _ hs => .ite (smbAnswer_keeps (writeReg_keeps hs)) (smbAnswer_keeps hs)) hs

theorem execSmbReadAlertSequence_answers (hs : Keeps s₀ s) : Answers s₀ (execSmbReadAlertSequence s) :=
  smbRead_answers hs

theorem execSmbAlertResponse_answers (hs : Keeps s₀ s) : Answers s₀ (execSmbAlertResponse s) :=
  .next (.ite (.frame (smbAnswer_keeps hs)) (smbAnswer_keeps hs))

/-! ### Step -/

theorem tick_keeps (hs : Keeps s₀ s) : Keeps s₀ (tick s) :=
  .ite hs (vaultIslands_keeps (reachTime_keeps hs))

/-! ### Dispatch and step -/

/-- Every command answers a next state and keeps what is kept. -/
theorem exec_answers {c} (hs : Keeps s₀ s) : Answers s₀ (exec c s) := by
  unfold exec
  split
  · exact execMainsLoss_answers hs
  · exact execMainsValidAgain_answers hs
  · exact execPwrLineChange_answers hs
  · exact execPwrInputRange_answers hs
  · exact execChargeComplete_answers hs
  · exact execChargeTimeout_answers hs
  · exact execProbeMeasurement_answers hs
  · exact execLoadEntry_answers hs
  · exact execImageSelectVerify_answers hs
  · exact execTestComplete_answers hs
  · exact execLockSequence_answers hs
  · exact execRideTimeExpiry_answers hs
  · exact execVaultRegionStop_answers hs
  · exact execVaultClosingRecord_answers hs
  · exact execVaultDarkTimer_answers hs
  · exact execReprobe_answers hs
  · exact execReprobeComplete_answers hs
  · exact execReprobePeriodExpiry_answers hs
  · exact execVaultDiscard_answers hs
  · exact execPwrSurge_answers hs
  · exact execInputOvercurrent_answers hs
  · exact execRailOvercurrent_answers hs
  · exact execPwrStageHot_answers hs
  · exact execPwrThermThrottle_answers hs
  · exact execThrottleRelease_answers hs
  · exact execPwrThermTrip_answers hs
  · exact execVaultHubOverheat_answers hs
  · exact execPwrThermHigh_answers hs
  · exact execRsvHot_answers hs
  · exact execReservoirCooled_answers hs
  · exact execPwrCoolant_answers hs
  · exact execCfgAltWrite_answers hs
  · exact execCfgUpdErase_answers hs
  · exact execCfgUpdWriteLine_answers hs
  · exact execCfgUpdVerify_answers hs
  · exact execCfgUpdComplete_answers hs
  · exact execHostConfigRequest_answers hs
  · exact execTilePstateRequest_answers hs
  · exact execTileStepRequest_answers hs
  · exact execStepChangeComplete_answers hs
  · exact execSupplyDroopStretch_answers hs
  · exact execJunctionSample_answers hs
  · exact execTempHoldStepDown_answers hs
  · exact execTempHoldRelease_answers hs
  · exact execCrossingItemArrival_answers hs
  · exact execChronometerSync_answers hs
  · exact execNapEntry_answers hs
  · exact execNapExit_answers hs
  · exact execDarkEntry_answers hs
  · exact execDarkExit_answers hs
  · exact execNop_answers hs
  · exact execAdd_answers hs
  · exact execSub_answers hs
  · exact execAnd_answers hs
  · exact execOr_answers hs
  · exact execXor_answers hs
  · exact execAndn_answers hs
  · exact execShl_answers hs
  · exact execShr_answers hs
  · exact execSar_answers hs
  · exact execRol_answers hs
  · exact execCmpeq_answers hs
  · exact execCmplt_answers hs
  · exact execCmpltu_answers hs
  · exact execMin_answers hs
  · exact execMax_answers hs
  · exact execPar_answers hs
  · exact execBrevO_answers hs
  · exact execBrevW_answers hs
  · exact execCrc_answers hs
  · exact execClz_answers hs
  · exact execCtz_answers hs
  · exact execPopc_answers hs
  · exact execAddi_answers hs
  · exact execSubi_answers hs
  · exact execAndi_answers hs
  · exact execOri_answers hs
  · exact execXori_answers hs
  · exact execAndni_answers hs
  · exact execShli_answers hs
  · exact execShri_answers hs
  · exact execSari_answers hs
  · exact execRoli_answers hs
  · exact execCmpeqi_answers hs
  · exact execCmplti_answers hs
  · exact execCmpltui_answers hs
  · exact execMini_answers hs
  · exact execMaxi_answers hs
  · exact execMul_answers hs
  · exact execMulh_answers hs
  · exact execMulhu_answers hs
  · exact execDiv_answers hs
  · exact execDivu_answers hs
  · exact execRem_answers hs
  · exact execRemu_answers hs
  · exact execFadd_answers hs
  · exact execFsub_answers hs
  · exact execFmul_answers hs
  · exact execFma_answers hs
  · exact execFnma_answers hs
  · exact execFdiv_answers hs
  · exact execFmin_answers hs
  · exact execFmax_answers hs
  · exact execFcmpeq_answers hs
  · exact execFcmplt_answers hs
  · exact execFcmple_answers hs
  · exact execFcvtDW_answers hs
  · exact execFcvtWD_answers hs
  · exact execFtoi_answers hs
  · exact execItof_answers hs
  · exact execLdq_answers hs
  · exact execLdqs_answers hs
  · exact execLdh_answers hs
  · exact execLdhs_answers hs
  · exact execLdw_answers hs
  · exact execLdwu_answers hs
  · exact execLdd_answers hs
  · exact execLdqx_answers hs
  · exact execLdqsx_answers hs
  · exact execLdhx_answers hs
  · exact execLdhsx_answers hs
  · exact execLdwx_answers hs
  · exact execLdwux_answers hs
  · exact execLddx_answers hs
  · exact execLdsf_answers hs
  · exact execDclean_answers hs
  · exact execDflush_answers hs
  · exact execDinv_answers hs
  · exact execDfillk_answers hs
  · exact execIinv_answers hs
  · exact execRnginv_answers hs
  · exact execRangeEnginePass_answers hs
  · exact execTlbi_answers hs
  · exact execStq_answers hs
  · exact execSth_answers hs
  · exact execStw_answers hs
  · exact execStd_answers hs
  · exact execStqx_answers hs
  · exact execSthx_answers hs
  · exact execStwx_answers hs
  · exact execStdx_answers hs
  · exact execStsf_answers hs
  · exact execStoreVisible_answers hs
  · exact execBr_answers hs
  · exact execBz_answers hs
  · exact execBnz_answers hs
  · exact execBltz_answers hs
  · exact execBgez_answers hs
  · exact execCall_answers hs
  · exact execJr_answers hs
  · exact execCallr_answers hs
  · exact execRet_answers hs
  · exact execLapc_answers hs
  · exact execMfs_answers hs
  · exact execMts_answers hs
  · exact execSysc_answers hs
  · exact execEret_answers hs
  · exact execWcall_answers hs
  · exact execWret_answers hs
  · exact execLck_answers hs
  · exact execUlk_answers hs
  · exact execLockedSequenceTimeout_answers hs
  · exact execDoze_answers hs
  · exact execWaitm_answers hs
  · exact execWaitmLimitExpiry_answers hs
  · exact execFbar_answers hs
  · exact execBrk_answers hs
  · exact execIdone_answers hs
  · exact execMfence_answers hs
  · exact execMfenceComplete_answers hs
  · exact execResultLanding_answers hs
  · exact execSafePointDrought_answers hs
  · exact execTrapEntry_answers hs
  · exact execMissFillComplete_answers hs
  · exact execTlbWalkComplete_answers hs
  · exact execEvictionWritebackComplete_answers hs
  · exact execTileAfsetWrite_answers hs
  · exact execIvcRingWrite_answers hs
  · exact execDoorbellAccept_answers hs
  · exact execWindowTimeFire_answers hs
  · exact execIvcRouteWrite_answers hs
  · exact execInterruptDeliveryLaunch_answers hs
  · exact execInterruptDeliveryOffer_answers hs
  · exact execInterruptEntry_answers hs
  · exact execStackFaultEntry_answers hs
  · exact execWatchdogExpiry_answers hs
  · exact execWatchdogKick_answers hs
  · exact execWatchdogCtlWrite_answers hs
  · exact execSlotGrant_answers hs
  · exact execSlotTransfer_answers hs
  · exact execSlotRefresh_answers hs
  · exact execMgmtSlot_answers hs
  · exact execDeliveryCommit_answers hs
  · exact execSlcDeliveryStalled_answers hs
  · exact execSlcPost_answers hs
  · exact execSlcRelease_answers hs
  · exact execQueueStop_answers hs
  · exact execTideBoundary_answers hs
  · exact execCulvertDescriptor_answers hs
  · exact execDescriptorStart_answers hs
  · exact execHostCompletion_answers hs
  · exact execCulvertCompletionPoint_answers hs
  · exact execCompletionRecordWrite_answers hs
  · exact execCulvertAbort_answers hs
  · exact execKeyLoad_answers hs
  · exact execKeyEmpty_answers hs
  · exact execCompletionTimeout_answers hs
  · exact execChartKeyAccept_answers hs
  · exact execLookupDecision_answers hs
  · exact execResultElementWrite_answers hs
  · exact execChartLookup_answers hs
  · exact execChartInsert_answers hs
  · exact execChartUpdate_answers hs
  · exact execChartDelete_answers hs
  · exact execChartAge_answers hs
  · exact execChartRead_answers hs
  · exact execChartCommandCommit_answers hs
  · exact execChartWriteThrough_answers hs
  · exact execViDoorbellWrite_answers hs
  · exact execDbpendRead_answers hs
  · exact execShadowWrite_answers hs
  · exact execShadowRead_answers hs
  · exact execVifSyncTimeout_answers hs
  · exact execVifSackWrite_answers hs
  · exact execVifEpostWrite_answers hs
  · exact execMsixSignal_answers hs
  · exact execMsixWindowTimeFire_answers hs
  · exact execMsixSend_answers hs
  · exact execHostControlWindowWrite_answers hs
  · exact execFlrAccept_answers hs
  · exact execVfEnableClear_answers hs
  · exact execVifRdoneWrite_answers hs
  · exact execViResetComplete_answers hs
  · exact execVifFlrLate_answers hs
  · exact execHperstFall_answers hs
  · exact execHperstRise_answers hs
  · exact execPrtLinkUp_answers hs
  · exact execPrtLinkNoflit_answers hs
  · exact execPrtLinkDown_answers hs
  · exact execPrtLaneFault_answers hs
  · exact execPrtFecHigh_answers hs
  · exact execFrameReceive_answers hs
  · exact execPfcRefresh_answers hs
  · exact execPfcFrameReceive_answers hs
  · exact execPauseExpiry_answers hs
  · exact execPrtTxPausedLong_answers hs
  · exact execFrameTransmit_answers hs
  · exact execDramReadAccept_answers hs
  · exact execDramWriteAccept_answers hs
  · exact execDramCommandIssue_answers hs
  · exact execDramReadData_answers hs
  · exact execRowIdleClose_answers hs
  · exact execRefreshTimer_answers hs
  · exact execMr4Poll_answers hs
  · exact execSelfRefreshIdleEntry_answers hs
  · exact execDrcSrctlWrite_answers hs
  · exact execSelfRefreshExit_answers hs
  · exact execDrcFreqWrite_answers hs
  · exact execFrequencyStepComplete_answers hs
  · exact execDrcDevfailCommand_answers hs
  · exact execReportAccept_answers hs
  · exact execLogCommit_answers hs
  · exact execHealthSignalPost_answers hs
  · exact execOpsecTick_answers hs
  · exact execLgbRidxWrite_answers hs
  · exact execTraceDrainLine_answers hs
  · exact execWktLoss_answers hs
  · exact execTileWctlWrite_answers hs
  · exact execTraceBufferEmpty_answers hs
  · exact execWktRdptrWrite_answers hs
  · exact execTileWdataRead_answers hs
  · exact execDebugHaltRequest_answers hs
  · exact execDebugStep_answers hs
  · exact execDebugRelease_answers hs
  · exact execDbgHalt_answers hs
  · exact execChannelPulse_answers hs
  · exact execXtrigInEdge_answers hs
  · exact execDbgXpulseWrite_answers hs
  · exact execXtrigOutEnd_answers hs
  · exact execDebugFrameRead_answers hs
  · exact execDebugFrameWrite_answers hs
  · exact execDebugBreak_answers hs
  · exact execDctlAbort_answers hs
  · exact execDctlClear_answers hs
  · exact execDebugPhysicalAccess_answers hs
  · exact execDebugCoreAccess_answers hs
  · exact execDebugL1Read_answers hs
  · exact execDebugAccessComplete_answers hs
  · exact execRegisterWrite_answers hs
  · exact execSmbReadIdent_answers hs
  · exact execSmbReadAssetTag_answers hs
  · exact execSmbReadStartState_answers hs
  · exact execSmbReadTileMap_answers hs
  · exact execSmbReadLogCounts_answers hs
  · exact execSmbLatchRecord_answers hs
  · exact execSmbReadRecord_answers hs
  · exact execSmbRegisterSelect_answers hs
  · exact execSmbRegisterRead_answers hs
  · exact execSmbRegisterWrite_answers hs
  · exact execSmbReadAlertSequence_answers hs
  · exact execSmbAlertResponse_answers hs
  · exact execHotReset_answers hs
  · exact execUnlistedOpcode_answers hs
  · exact execFetchFault_answers hs

end Sys2Proof.Machine
end

section
/-! The scope of the model: reset, and what every step keeps. -/

namespace Sys2Proof.Machine

/-- Every step answers a next state and keeps what is kept of the state with the front command taken off. -/
theorem step_answers (s : State) : Answers { s with pending := s.pending.tail } (step s) := by
  unfold step
  split
  case h_1 hp => exact .next (tick_keeps { Keeps.refl s with pending := by rw [hp]; rfl })
  case h_2 c rest hp => exact exec_answers (by rw [hp]; exact .refl _)

/-- Settles O57: a step runs `tick` or the command at the front, and each keeps memory canonical. -/
theorem everyStepKeepsMemoryCanonical : Obligations.EveryStepKeepsMemoryCanonical := by
  intro s hs
  obtain ⟨t, ht, hk⟩ := step_answers s
  exact ⟨t, ht, hk.mem hs, hk.pending⟩

/-- Settles O58: the tables that `Canonical` names are among what every step keeps. -/
theorem everyStepKeepsTheTablesCanonical : Obligations.EveryStepKeepsTheTablesCanonical := by
  intro s t hs ht
  obtain ⟨t', ht', hk⟩ := step_answers s
  obtain rfl : t' = t := by rw [ht'] at ht; exact Host.Outcome.next.inj ht
  exact hk.toCanonical hs

/-- Settles O56: after reset memory and every table are the empty list. -/
theorem resetIsCanonical : Obligations.ResetIsCanonical := by
  refine ⟨(canonical_iff _).2 ?_, rfl, rfl, rfl⟩
  have hcores : CoresWf State.reset := ⟨rfl, fun _ => rfl⟩
  have hvis : VisWf State.reset := ⟨rfl, fun _ => ⟨rfl, rfl, rfl⟩⟩
  have hports : PortsWf State.reset := ⟨rfl, fun _ => rfl⟩
  exact ⟨rfl, hcores, rfl, rfl, rfl, rfl, rfl, rfl, hvis, rfl, hports, rfl, rfl, rfl, rfl, rfl, rfl⟩

end Sys2Proof.Machine
end

section
/-! The range engine: what the coherence of a tile leaves of a core, and what a pass drops. -/

namespace Sys2Proof.Machine

set_option Elab.async false

/-! ### What the coherence of a tile leaves of a core -/

/-- On the way from `s` to `t` the core `i`, the memory map and the watermarks stay. -/
structure Apart (i : Nat) (s t : State) : Prop where
  wf : mwf {} s.cores = true → mwf {} t.cores = true
  core : mwf {} s.cores = true → coreAt t i = coreAt s i
  cfg : t.cfg = s.cfg
  dwm : t.wld.dwm = s.wld.dwm
  hwm : t.wld.hwm = s.wld.hwm
  twm : t.wld.twm = s.wld.twm

theorem Apart.refl (i : Nat) (s : State) : Apart i s s := ⟨id, fun _ => rfl, rfl, rfl, rfl, rfl⟩

theorem Apart.trans {i : Nat} {s t u : State} (h : Apart i s t) (h' : Apart i t u) : Apart i s u :=
  ⟨fun c => h'.wf (h.wf c), fun c => (h'.core (h.wf c)).trans (h.core c), h'.cfg.trans h.cfg, h'.dwm.trans h.dwm,
    h'.hwm.trans h.hwm, h'.twm.trans h.twm⟩

theorem Apart.ite {i : Nat} {s t u : State} {c : Prop} [Decidable c] (h : Apart i s t) (h' : Apart i s u) :
    Apart i s (if c then t else u) := by
  split
  · exact h
  · exact h'

/-- A change that leaves the table of cores, the memory map and the watermarks. -/
theorem Apart.of_cores {i : Nat} {s t : State} (hc : t.cores = s.cores) (hcfg : t.cfg = s.cfg) (hw : t.wld = s.wld) :
    Apart i s t where
  wf c := by rw [hc]; exact c
  core _ := by simp only [coreAt, hc]
  cfg := hcfg
  dwm := by rw [hw]
  hwm := by rw [hw]
  twm := by rw [hw]

theorem Apart.setCore {i j : Nat} (hj : j ≠ i) (f : Core → Core) (s : State) : Apart i s (setCore j f s) :=
  ⟨fun c => mmod_wf c, fun c => coreAt_setCore_ne c hj.symm f, rfl, rfl, rfl, rfl⟩

theorem countRefusal_marks (r : Report) (w : Worlds) :
    (countRefusal r w).dwm = w.dwm ∧ (countRefusal r w).hwm = w.hwm ∧ (countRefusal r w).twm = w.twm := by
  unfold countRefusal
  split
  · exact ⟨rfl, rfl, rfl⟩
  · split <;> exact ⟨rfl, rfl, rfl⟩

theorem report_wld (r : Report) (s : State) : (report r s).wld = countRefusal r s.wld := by
  unfold report
  dsimp only
  split <;> rfl

theorem Apart.report (i : Nat) (r : Report) (s : State) : Apart i s (report r s) := by
  obtain ⟨hd, hh, ht⟩ := countRefusal_marks r s.wld
  refine ⟨by simp, by simp [coreAt], by simp, ?_, ?_, ?_⟩ <;> rw [report_wld] <;> assumption

theorem apart_startWriteBack {i j : Nat} (hj : j ≠ i) (line bits : Nat) (sec served victim : Bool) (s : State) :
    Apart i s (startWriteBack j line bits sec served victim s) := by
  unfold startWriteBack
  have ho : Apart i s (nextOrder (j / 8) s).1 := .of_cores rfl rfl rfl
  exact (ho.trans (.setCore hj _ _)).trans (.of_cores (bindAll_cores _ _) (bindAll_cfg _ _) (bindAll_wld _ _))

theorem apart_coreFatal {i j : Nat} (hj : j ≠ i) (r : Report) (s : State) : Apart i s (coreFatal j r s) := by
  unfold coreFatal
  exact ((Apart.report i r s).trans (.setCore hj _ _)).trans
    (.of_cores (ringDoorbell_cores _ _ _ _) (ringDoorbell_cfg _ _ _ _) (ringDoorbell_wld _ _ _ _))

theorem apart_parity {i j : Nat} (hj : j ≠ i) (key : Nat) (f : CLine) (refetch : Bool) (s : State) :
    Apart i s (parity j key f refetch s) := by
  unfold parity
  split
  · split
    · exact .refl i s
    · exact (Apart.setCore hj _ s).trans (apart_coreFatal hj _ _)
  · exact (Apart.setCore hj _ s).trans (.report i _ _)

theorem apart_lockDropped {i j : Nat} (hj : j ≠ i) (op n : Nat) (s : State) : Apart i s (lockDropped j op n s) := by
  unfold lockDropped
  split
  · exact .refl i s
  · exact (Apart.setCore hj _ s).trans (.report i _ _)

theorem apart_invalidateCopy {i j : Nat} (hj : j ≠ i) (line : Nat) (s : State) :
    Apart i s (invalidateCopy j line s) := by
  have hu : Apart i s (unserve j line s) := .setCore hj _ s
  unfold invalidateCopy
  extract_lets u
  split
  · exact hu
  · split
    · exact hu.trans (apart_parity hj _ _ _ _)
    · extract_lets locked s₁ s₂
      have h₁ : Apart i s s₁ := .ite (hu.trans (apart_startWriteBack hj _ _ _ _ _ _)) hu
      have h₂ : Apart i s s₂ := h₁.trans (.setCore hj _ _)
      exact .ite (h₂.trans (apart_lockDropped hj _ _ _)) h₂

theorem mem_siblings_ne {i j : Nat} (h : j ∈ siblings i) : j ≠ i := by
  simpa [siblings] using (List.mem_filter.1 h).2

/-- The directory invalidates copies in the other cores alone. -/
theorem apart_invalidateOthers (i line : Nat) (s : State) : Apart i s (invalidateOthers i line s) := by
  unfold invalidateOthers
  have h : ∀ l : List Nat, (∀ j ∈ l, j ≠ i) → ∀ s, Apart i s (l.foldl (fun s j => invalidateCopy j line s) s) := by
    intro l
    induction l with
    | nil => exact fun _ s => .refl i s
    | cons j l ih =>
      intro hl s
      exact (apart_invalidateCopy (hl j List.mem_cons_self) line s).trans
        (ih (fun j hj => hl j (List.mem_cons_of_mem _ hj)) _)
  exact h _ (fun j => mem_siblings_ne) s

/-- The memory map alone decides what an address reaches. -/
theorem targetOf_of_cfg {s t : State} (h : t.cfg = s.cfg) (a : Nat) : targetOf t a = targetOf s a := by
  have ha : available t = available s := by
    funext n
    simp only [available, physOf, h]
  unfold targetOf
  rw [ha]

theorem Apart.worldMay {i : Nat} {s t : State} (h : Apart i s t) (sec : Bool) (a : Nat) :
    worldMay t sec a = worldMay s sec a := by
  unfold Machine.worldMay memSecure
  rw [targetOf_of_cfg h.cfg, h.dwm, h.hwm, h.twm]

/-! ### What a pass of the range engine leaves and what it drops -/

/-- The line that an eviction entry carries, as a later change of the entry leaves it. -/
def EvLine.carried (e : EvLine) : Nat × Nat × Bool × Bool := (e.line, e.bits, e.sec, e.dirty)

/-- What no part of a pass over the caches of core `i` changes. -/
structure Passes (i : Nat) (s t : State) : Prop where
  wf : mwf {} s.cores = true → mwf {} t.cores = true
  world : ∀ sec a, worldMay t sec a = worldMay s sec a
  ranges : mwf {} s.cores = true → (coreAt t i).ranges = (coreAt s i).ranges
  evict : mwf {} s.cores = true → ∀ e ∈ (coreAt s i).evict, ∃ e' ∈ (coreAt t i).evict, e'.carried = e.carried

/-- A part of a pass that leaves the frames too. -/
structure Quiet (i : Nat) (s t : State) : Prop extends Passes i s t where
  dcache : mwf {} s.cores = true → (coreAt t i).dcache = (coreAt s i).dcache
  icache : mwf {} s.cores = true → (coreAt t i).icache = (coreAt s i).icache

variable {i : Nat} {s t u : State}

theorem Passes.refl (i : Nat) (s : State) : Passes i s s :=
  ⟨id, fun _ _ => rfl, fun _ => rfl, fun _ e he => ⟨e, he, rfl⟩⟩

theorem Passes.trans (h : Passes i s t) (h' : Passes i t u) : Passes i s u where
  wf c := h'.wf (h.wf c)
  world sec a := (h'.world sec a).trans (h.world sec a)
  ranges c := (h'.ranges (h.wf c)).trans (h.ranges c)
  evict c e he := by
    obtain ⟨e', he', hc⟩ := h.evict c e he
    obtain ⟨e'', he'', hc'⟩ := h'.evict (h.wf c) e' he'
    exact ⟨e'', he'', hc'.trans hc⟩

theorem Passes.setCore {f : Core → Core} (hr : (f (coreAt s i)).ranges = (coreAt s i).ranges)
    (he : ∀ e ∈ (coreAt s i).evict, ∃ e' ∈ (f (coreAt s i)).evict, e'.carried = e.carried) :
    Passes i s (setCore i f s) where
  wf c := mmod_wf c
  world _ _ := rfl
  ranges c := by rw [coreAt_setCore c]; exact hr
  evict c := by rw [coreAt_setCore c]; exact he

theorem Quiet.refl (i : Nat) (s : State) : Quiet i s s := { Passes.refl i s with dcache _ := rfl, icache _ := rfl }

theorem Quiet.trans (h : Quiet i s t) (h' : Quiet i t u) : Quiet i s u :=
  { h.toPasses.trans h'.toPasses with
    dcache := fun c => (h'.dcache (h.wf c)).trans (h.dcache c)
    icache := fun c => (h'.icache (h.wf c)).trans (h.icache c) }

theorem Quiet.ite {c : Prop} [Decidable c] (h : Quiet i s t) (h' : Quiet i s u) : Quiet i s (if c then t else u) := by
  split
  · exact h
  · exact h'

theorem Quiet.foldl {β : Type} {f : State → β → State} (hf : ∀ s b, Quiet i s (f s b)) (l : List β) (s : State) :
    Quiet i s (l.foldl f s) := by
  induction l generalizing s with
  | nil => exact .refl i s
  | cons b l ih => exact (hf s b).trans (ih _)

theorem Apart.quiet (h : Apart i s t) : Quiet i s t where
  wf := h.wf
  world := h.worldMay
  ranges c := by rw [h.core c]
  evict c e he := ⟨e, by rw [h.core c]; exact he, rfl⟩
  dcache c := by rw [h.core c]
  icache c := by rw [h.core c]

theorem Quiet.setCore {f : Core → Core} (hr : (f (coreAt s i)).ranges = (coreAt s i).ranges)
    (he : ∀ e ∈ (coreAt s i).evict, ∃ e' ∈ (f (coreAt s i)).evict, e'.carried = e.carried)
    (hd : (f (coreAt s i)).dcache = (coreAt s i).dcache) (hi : (f (coreAt s i)).icache = (coreAt s i).icache) :
    Quiet i s (setCore i f s) :=
  { Passes.setCore hr he with
    dcache := fun c => by rw [coreAt_setCore c]; exact hd
    icache := fun c => by rw [coreAt_setCore c]; exact hi }

theorem quiet_leaveLine (i line : Nat) (s : State) : Quiet i s (leaveLine i line s) := by
  unfold leaveLine
  exact .ite (.refl i s) ((apart_invalidateOthers i line s).quiet.trans
    (.setCore rfl (fun e he => ⟨e, he, rfl⟩) rfl rfl))

theorem quiet_startWriteBack (i line bits : Nat) (sec served victim : Bool) (s : State) :
    Quiet i s (startWriteBack i line bits sec served victim s) := by
  have ho : Apart i s (nextOrder (i / 8) s).1 := .of_cores rfl rfl rfl
  unfold startWriteBack
  exact (ho.quiet.trans (.setCore rfl (fun e he => ⟨e, List.mem_append_left _ he, rfl⟩) rfl rfl)).trans
    (Apart.of_cores (bindAll_cores _ _) (bindAll_cfg _ _) (bindAll_wld _ _)).quiet

/-- A write-back puts its line into the eviction buffer. -/
theorem startWriteBack_carried (c : mwf {} s.cores = true) (line bits : Nat) (sec served victim : Bool) :
    ∃ e ∈ (coreAt (startWriteBack i line bits sec served victim s) i).evict, e.carried = (line, bits, sec, true) := by
  let e : EvLine :=
    { line := line, bits := bits, dirty := true, sec := sec, served := served, victim := victim
      order := (nextOrder (i / 8) s).2 }
  have he : (coreAt (startWriteBack i line bits sec served victim s) i).evict = (coreAt s i).evict ++ [e] :=
    congrArg Core.evict
      (coreAt_setCore (s := (nextOrder (i / 8) s).1) c i fun k => { k with evict := k.evict ++ [e] })
  rw [he]
  exact ⟨e, by simp, rfl⟩

theorem quiet_flushBuffered (i line : Nat) (s : State) : Quiet i s (flushBuffered i line s) := by
  unfold flushBuffered
  split
  · exact quiet_startWriteBack ..
  · exact .refl i s

theorem quiet_unserve (i line : Nat) (s : State) : Quiet i s (unserve i line s) := by
  unfold unserve
  refine .setCore rfl (fun e he => ⟨_, List.mem_map_of_mem he, ?_⟩) rfl rfl
  split <;> rfl

theorem quiet_lockDropped (i op n : Nat) (s : State) : Quiet i s (lockDropped i op n s) := by
  unfold lockDropped
  exact .ite (.refl i s) ((Quiet.setCore rfl (fun e he => ⟨e, he, rfl⟩) rfl rfl).trans (Apart.report i _ _).quiet)

/-- A frame holds a line of a range that the range's world may access. -/
def covered (s : State) (sec : Bool) (lo n : Nat) (f : CLine) : Bool :=
  decide (lo ≤ f.line) && decide (f.line < lo + n) && worldMay s sec (64 * f.line)

theorem covered_eq_false_iff {sec : Bool} {lo n : Nat} {f : CLine} :
    covered s sec lo n f = false ↔ f.line < lo ∨ lo + n ≤ f.line ∨ (!worldMay s sec (64 * f.line)) = true := by
  simp only [covered, Bool.and_eq_false_iff, decide_eq_false_iff_not, Bool.not_eq_true', Nat.not_le, Nat.not_lt]
  tauto

theorem Passes.covered_eq (h : Passes i s t) : covered t = covered s := by
  funext sec lo n f
  simp only [covered, h.world]

/-- What one frame of a range leaves of the frames of its cache. -/
def dropFrame (hit : CLine → Bool) (m : SMap (Option CLine)) (key : Nat) : SMap (Option CLine) :=
  mset none m key ((mget none m key).filter fun f => !hit f)

/-- A covered frame of the data cache is dropped, a dirty one being on its way to memory (R213). -/
theorem rangeFrame_effect {sec : Bool} {lo n key : Nat} (c : mwf {} s.cores = true)
    (hd : mwf none (coreAt s i).dcache = true) (hb : ∀ f, mget none (coreAt s i).dcache key = some f → f.bad = 0) :
    Passes i s (rangeFrame i sec lo n key s).1 ∧
      (coreAt (rangeFrame i sec lo n key s).1 i).icache = (coreAt s i).icache ∧
      (coreAt (rangeFrame i sec lo n key s).1 i).dcache = dropFrame (covered s sec lo n) (coreAt s i).dcache key ∧
      ∀ f, mget none (coreAt s i).dcache key = some f → covered s sec lo n f = true → f.dirty = true →
        ∃ e ∈ (coreAt (rangeFrame i sec lo n key s).1 i).evict, e.carried = (f.line, f.bits, f.sec, true) := by
  have hsame {x} (hx : mget none (coreAt s i).dcache key = x) :
      mset none (coreAt s i).dcache key x = (coreAt s i).dcache := by
    rw [← hx]
    exact mset_same hd
  unfold dropFrame rangeFrame
  cases hf : mget none (coreAt s i).dcache key with
  | none => exact ⟨.refl i s, rfl, (hsame hf).symm, fun f h => nomatch h⟩
  | some f =>
    dsimp only
    split
    case isTrue hn =>
      have hn := covered_eq_false_iff.2 hn
      exact ⟨.refl i s, rfl, by simp [Option.filter_some, hn, hsame hf], fun g hg hc => by cases hg; simp [hn] at hc⟩
    case isFalse hy =>
      have hy : covered s sec lo n f = true := by
        rw [← Bool.not_eq_false, covered_eq_false_iff]
        exact hy
      rw [if_neg (by simp [hb f hf])]
      have hl := quiet_leaveLine i f.line s
      have cl := hl.wf c
      have hp : Passes i s (setFrame i key none (leaveLine i f.line s)) :=
        hl.toPasses.trans (.setCore rfl fun e he => ⟨e, he, rfl⟩)
      have hk : coreAt (setFrame i key none (leaveLine i f.line s)) i = _ := coreAt_setCore cl i _
      have hq : Quiet i (setFrame i key none (leaveLine i f.line s)) (if (coreAt s i).owes f then
          startWriteBack i f.line f.bits f.sec false false (setFrame i key none (leaveLine i f.line s))
        else setFrame i key none (leaveLine i f.line s)) := .ite (quiet_startWriteBack ..) (.refl ..)
      refine ⟨hp.trans hq.toPasses, ?_, ?_, fun g hg _ hdirty => ?_⟩
      · exact (hq.icache (hp.wf c)).trans (by rw [hk]; exact hl.icache c)
      · refine (hq.dcache (hp.wf c)).trans ?_
        rw [hk]
        simp [Option.filter_some, hy, hl.dcache c]
      · cases hg
        dsimp only
        rw [if_pos (by simp [Core.owes, hdirty])]
        exact startWriteBack_carried (hp.wf c) ..

/-- A covered frame of the instruction cache is dropped (R213). -/
theorem rangeFetchFrame_effect {sec : Bool} {lo n key : Nat} (c : mwf {} s.cores = true)
    (hd : mwf none (coreAt s i).icache = true) (hb : ∀ f, mget none (coreAt s i).icache key = some f → f.bad = 0) :
    Passes i s (rangeFetchFrame i sec lo n key s).1 ∧
      (coreAt (rangeFetchFrame i sec lo n key s).1 i).dcache = (coreAt s i).dcache ∧
      (coreAt (rangeFetchFrame i sec lo n key s).1 i).icache =
        dropFrame (covered s sec lo n) (coreAt s i).icache key := by
  have hsame {x} (hx : mget none (coreAt s i).icache key = x) :
      mset none (coreAt s i).icache key x = (coreAt s i).icache := by
    rw [← hx]
    exact mset_same hd
  unfold dropFrame rangeFetchFrame
  cases hf : mget none (coreAt s i).icache key with
  | none => exact ⟨.refl i s, rfl, (hsame hf).symm⟩
  | some f =>
    dsimp only
    split
    case isTrue hn =>
      have hn := covered_eq_false_iff.2 hn
      exact ⟨.refl i s, rfl, by simp [Option.filter_some, hn, hsame hf]⟩
    case isFalse hy =>
      have hy : covered s sec lo n f = true := by
        rw [← Bool.not_eq_false, covered_eq_false_iff]
        exact hy
      rw [if_neg (by simp [hb f hf])]
      refine ⟨.setCore rfl fun e he => ⟨e, he, rfl⟩, ?_, ?_⟩
      · dsimp only
        rw [coreAt_setCore c]
      · dsimp only
        rw [coreAt_setCore c]
        simp [Option.filter_some, hy]

/-! ### The frames of a range -/

/-- What frames of a range, one after another, leave of the frames of their cache. -/
def dropFrames (hit : CLine → Bool) (m : SMap (Option CLine)) (keys : List Nat) : SMap (Option CLine) :=
  keys.foldl (dropFrame hit) m

theorem mget_dropFrame {hit : CLine → Bool} {m : SMap (Option CLine)} (h : mwf none m = true) (key k : Nat) :
    mget none (dropFrame hit m key) k =
      if k = key then (mget none m k).filter (fun f => !hit f) else mget none m k := by
  unfold dropFrame
  split
  case isTrue hk => rw [hk, mget_mset_same h]
  case isFalse hk => rw [mget_mset_ne h hk]

theorem mget_dropFrames {hit : CLine → Bool} (keys : List Nat) {m : SMap (Option CLine)} (h : mwf none m = true)
    (k : Nat) : mget none (dropFrames hit m keys) k =
      if k ∈ keys then (mget none m k).filter (fun f => !hit f) else mget none m k := by
  induction keys generalizing m with
  | nil => simp [dropFrames]
  | cons key keys ih =>
    have hm := mget_dropFrame (hit := hit) h key k
    have hi := ih (m := dropFrame hit m key) (mset_wf h)
    simp only [dropFrames, List.foldl_cons] at hi ⊢
    rw [hi, hm]
    by_cases hk : k = key
    · simp [hk, Option.filter_filter]
    · simp [hk]

/-- A key whose value is not the default is listed with it. -/
theorem mem_of_mget {α : Type} {d : α} {m : SMap α} {k : Nat} (h : mget d m k ≠ d) : (k, mget d m k) ∈ m := by
  induction m with
  | nil => exact absurd rfl h
  | cons p m ih =>
    obtain ⟨j, v⟩ := p
    unfold mget at h ⊢
    split
    case isTrue hj => rw [hj]; exact List.mem_cons_self
    case isFalse hj =>
      rw [if_neg hj] at h
      split
      case isTrue hlt => rw [if_pos hlt] at h; exact absurd rfl h
      case isFalse hlt => rw [if_neg hlt] at h; exact List.mem_cons_of_mem _ (ih h)

/-- A pass over every listed frame drops each that it covers. -/
theorem mget_dropFrames_all {hit : CLine → Bool} {m : SMap (Option CLine)} (h : mwf none m = true) (k : Nat) :
    mget none (dropFrames hit m (m.map fun e => e.1)) k = (mget none m k).filter (fun f => !hit f) := by
  rw [mget_dropFrames _ h]
  split
  · rfl
  case isFalse hk =>
    by_cases hm : mget none m k = none
    · rw [hm]; rfl
    · exact absurd (List.mem_map.2 ⟨_, mem_of_mget hm, rfl⟩) hk

/-- One data frame of a pass, with the count of the locked lines dropped. -/
def passData (i : Nat) (sec : Bool) (lo n : Nat) (p : State × Nat) (key : Nat) : State × Nat :=
  ((rangeFrame i sec lo n key p.1).1, p.2 + (rangeFrame i sec lo n key p.1).2)

theorem passData_fst (sec : Bool) (lo n : Nat) (p : State × Nat) (key : Nat) :
    (passData i sec lo n p key).1 = (rangeFrame i sec lo n key p.1).1 := rfl

/-- One instruction frame of a pass, with the count of the locked lines dropped. -/
def passFetch (i : Nat) (sec : Bool) (lo n : Nat) (p : State × Nat) (key : Nat) : State × Nat :=
  ((rangeFetchFrame i sec lo n key p.1).1, p.2 + (rangeFetchFrame i sec lo n key p.1).2)

theorem passFetch_fst (sec : Bool) (lo n : Nat) (p : State × Nat) (key : Nat) :
    (passFetch i sec lo n p key).1 = (rangeFetchFrame i sec lo n key p.1).1 := rfl

/-- The frames of the data cache that a range names, one after another. -/
theorem rangeFrames_effect {sec : Bool} {lo n : Nat} (keys : List Nat) {p : State × Nat}
    (c : mwf {} p.1.cores = true) (hd : mwf none (coreAt p.1 i).dcache = true)
    (hb : ∀ key f, mget none (coreAt p.1 i).dcache key = some f → f.bad = 0) :
    Passes i p.1 (keys.foldl (passData i sec lo n) p).1 ∧
      (coreAt (keys.foldl (passData i sec lo n) p).1 i).icache = (coreAt p.1 i).icache ∧
      (coreAt (keys.foldl (passData i sec lo n) p).1 i).dcache =
        dropFrames (covered p.1 sec lo n) (coreAt p.1 i).dcache keys ∧
      ∀ key ∈ keys, ∀ f, mget none (coreAt p.1 i).dcache key = some f → covered p.1 sec lo n f = true →
        f.dirty = true → ∃ e ∈ (coreAt (keys.foldl (passData i sec lo n) p).1 i).evict,
          e.carried = (f.line, f.bits, f.sec, true) := by
  induction keys generalizing p with
  | nil => exact ⟨.refl i _, rfl, rfl, fun key hk => nomatch hk⟩
  | cons key keys ih =>
    obtain ⟨hp, hi, hdc, hev⟩ := rangeFrame_effect (lo := lo) (n := n) (sec := sec) c hd (hb key)
    rw [← passData_fst] at hp hi hdc hev
    have hd' : mwf none (coreAt (passData i sec lo n p key).1 i).dcache = true := by
      rw [hdc]
      exact mset_wf hd
    have hm k := congrArg (mget none · k) hdc
    simp only [mget_dropFrame hd] at hm
    have hb' : ∀ k f, mget none (coreAt (passData i sec lo n p key).1 i).dcache k = some f → f.bad = 0 := by
      intro k f hf
      rw [hm] at hf
      split at hf
      · exact hb k f (Option.filter_eq_some_iff.1 hf).1
      · exact hb k f hf
    obtain ⟨hp', hi', hdc', hev'⟩ := ih (hp.wf c) hd' hb'
    rw [List.foldl_cons]
    refine ⟨hp.trans hp', hi'.trans hi, ?_, fun k hk f hf hcov hdirty => ?_⟩
    · rw [hdc', hdc, hp.covered_eq]
      rfl
    · by_cases hkey : k = key
      · obtain ⟨e, he, hce⟩ := hev f (hkey ▸ hf) hcov hdirty
        obtain ⟨e', he', hce'⟩ := hp'.evict (hp.wf c) e he
        exact ⟨e', he', hce'.trans hce⟩
      · refine hev' k ((List.mem_cons.1 hk).resolve_left hkey) f ?_ (by rw [hp.covered_eq]; exact hcov) hdirty
        rw [hm, if_neg hkey]
        exact hf

/-- The frames of the instruction cache that a range names, one after another. -/
theorem rangeFetchFrames_effect {sec : Bool} {lo n : Nat} (keys : List Nat) {p : State × Nat}
    (c : mwf {} p.1.cores = true) (hd : mwf none (coreAt p.1 i).icache = true)
    (hb : ∀ key f, mget none (coreAt p.1 i).icache key = some f → f.bad = 0) :
    Passes i p.1 (keys.foldl (passFetch i sec lo n) p).1 ∧
      (coreAt (keys.foldl (passFetch i sec lo n) p).1 i).dcache = (coreAt p.1 i).dcache ∧
      (coreAt (keys.foldl (passFetch i sec lo n) p).1 i).icache =
        dropFrames (covered p.1 sec lo n) (coreAt p.1 i).icache keys := by
  induction keys generalizing p with
  | nil => exact ⟨.refl i _, rfl, rfl⟩
  | cons key keys ih =>
    obtain ⟨hp, hdc, hi⟩ := rangeFetchFrame_effect (lo := lo) (n := n) (sec := sec) c hd (hb key)
    rw [← passFetch_fst] at hp hdc hi
    have hd' : mwf none (coreAt (passFetch i sec lo n p key).1 i).icache = true := by
      rw [hi]
      exact mset_wf hd
    have hb' : ∀ k f, mget none (coreAt (passFetch i sec lo n p key).1 i).icache k = some f → f.bad = 0 := by
      intro k f hf
      rw [hi, mget_dropFrame hd] at hf
      split at hf
      · exact hb k f (Option.filter_eq_some_iff.1 hf).1
      · exact hb k f hf
    obtain ⟨hp', hdc', hi'⟩ := ih (hp.wf c) hd' hb'
    rw [List.foldl_cons]
    refine ⟨hp.trans hp', hdc'.trans hdc, ?_⟩
    rw [hi', hi, hp.covered_eq]
    rfl

/-- A range that meets no parity error drops each frame that it covers and no other, and a dirty line is on its way to
memory (R213). -/
theorem applyRange_effect {lo n : Nat} {sec : Bool} (c : mwf {} s.cores = true)
    (hd : mwf none (coreAt s i).dcache = true) (hi : mwf none (coreAt s i).icache = true)
    (hbd : ∀ key f, mget none (coreAt s i).dcache key = some f → f.bad = 0)
    (hbi : ∀ key f, mget none (coreAt s i).icache key = some f → f.bad = 0) :
    (coreAt (applyRange i (lo, n, sec) s) i).ranges = (coreAt s i).ranges ∧
      (∀ key, mget none (coreAt (applyRange i (lo, n, sec) s) i).dcache key =
          (mget none (coreAt s i).dcache key).filter (fun f => !covered s sec lo n f) ∧
        mget none (coreAt (applyRange i (lo, n, sec) s) i).icache key =
          (mget none (coreAt s i).icache key).filter (fun f => !covered s sec lo n f)) ∧
      ∀ key f, mget none (coreAt s i).dcache key = some f → covered s sec lo n f = true → f.dirty = true →
        ∃ e ∈ (coreAt (applyRange i (lo, n, sec) s) i).evict, e.carried = (f.line, f.bits, f.sec, true) := by
  have hq : Quiet i (((coreAt s i).icache.map fun e => e.1).foldl (passFetch i sec lo n)
      ((((coreAt s i).dcache.map fun e => e.1).foldl (passData i sec lo n) (s, 0)).1, 0)).1
      (applyRange i (lo, n, sec) s) :=
    (Quiet.foldl (fun s (e : EvLine) => ((quiet_flushBuffered i e.line s).trans (quiet_leaveLine i e.line _)).trans
      (quiet_unserve i e.line _)) _ _).trans (quiet_lockDropped i 3 _ _)
  obtain ⟨hp, hic, hdc, hev⟩ := rangeFrames_effect ((coreAt s i).dcache.map fun e => e.1) (p := (s, 0))
    (sec := sec) (lo := lo) (n := n) c hd hbd
  generalize (((coreAt s i).dcache.map fun e => e.1).foldl (passData i sec lo n) (s, 0)).1 = s₁ at hq hp hic hdc hev
  obtain ⟨hp', hdc', hic'⟩ := rangeFetchFrames_effect ((coreAt s i).icache.map fun e => e.1) (p := (s₁, 0))
    (sec := sec) (lo := lo) (n := n) (hp.wf c) (by rw [hic]; exact hi) (by rw [hic]; exact hbi)
  have hpp := hp.trans hp'
  refine ⟨(hq.ranges (hpp.wf c)).trans (hpp.ranges c), fun key => ⟨?_, ?_⟩, fun key f hf hcov hdirty => ?_⟩
  · rw [hq.dcache (hpp.wf c), hdc', hdc, mget_dropFrames_all hd]
  · rw [hq.icache (hpp.wf c), hic', hic, hp.covered_eq, mget_dropFrames_all hi]
  · have hkey : key ∈ (coreAt s i).dcache.map fun e => e.1 :=
      List.mem_map.2 ⟨_, mem_of_mget (d := none) (k := key) (by rw [hf]; exact Option.some_ne_none f), rfl⟩
    obtain ⟨e, he, hce⟩ := hev key hkey f hf hcov hdirty
    obtain ⟨e', he', hce'⟩ := (hp'.trans hq.toPasses).evict (hp.wf c) e he
    exact ⟨e', he', hce'.trans hce⟩

end Sys2Proof.Machine
end

section
/-! The events of a core between its bundles. -/

namespace Sys2Proof.Machine

set_option Elab.async false

variable {i : Nat} {s t u : State}

theorem setCore_wf {f : Core → Core} (c : mwf {} s.cores = true) : mwf {} (setCore i f s).cores = true := mmod_wf c

theorem tileWrite_owner {tile off : Nat} {rq : Req} {v : Nat} {act : State → State} (hr : reach rq s = true)
    (ha : available s tile = true) (ho : rq.sec = tileSec s tile) : tileWrite tile off rq v act s = act s := by
  simp only [tileWrite, hr, ha, Bool.not_true, Bool.false_eq_true, if_false]
  exact ownedWrite_owner hr ho

theorem coreIx_div (c : CoreId) : coreIx c / 8 = c.tile.val := by
  have := c.core.isLt
  unfold coreIx
  omega

theorem coreIx_mod (c : CoreId) : coreIx c % 8 = c.core.val := by
  have := c.core.isLt
  unfold coreIx
  omega

/-- LOCKED_SEQUENCE_TIMEOUT closes the sequence and sets LB (R132). -/
theorem lockedSequenceTimeout_effect (c : CoreId) (hc : mwf {} s.cores = true) {q : LockSeq}
    (hb : atBoundary s (coreIx c) = true) (hq : (coreAt s (coreIx c)).seq = some q)
    (ho : q.opened + 8 < (coreAt s (coreIx c)).cyc) (hm : (coreAt s (coreIx c)).mdef = 0) :
    ∃ t, exec (.lockedSequenceTimeout c) s = .next t ∧ (coreAt t (coreIx c)).seq = none ∧
      (coreAt t (coreIx c)).lb = true := by
  have hover : (coreAt s (coreIx c)).seqOver = true := by simp [Core.seqOver, hq, ho]
  have hk := coreAt_setCore hc (coreIx c) fun k => { k with seq := none, lb := true }
  have he : exec (.lockedSequenceTimeout c) s =
      .next (setCore (coreIx c) (fun k => { k with seq := none, lb := true }) s) := by
    simp only [exec, execLockedSequenceTimeout, hb, if_true, seqTimeout, hover, deferredCompare]
    rw [hk]
    simp [hm]
  exact ⟨_, he, by rw [hk], by rw [hk]⟩

/-- WAITM_LIMIT_EXPIRY ends the wait with status 0 at the instant of its limit (R157). -/
theorem waitmLimitExpiry_effect (c : CoreId) (hc : mwf {} s.cores = true) {w : WaitM} {l : Nat}
    (hw : (coreAt s (coreIx c)).wait = some w) (hl : w.limit = some l) :
    ∃ t, exec (.waitmLimitExpiry c) s = .next t ∧ (coreAt t (coreIx c)).wait = none ∧
      t.isl.chron = s.isl.chron + (l - tileChron s c.tile.val) ∧
      (coreAt t (coreIx c)).flight = (coreAt s (coreIx c)).flight ++
        [{ id := (coreAt s (coreIx c)).nid, reg := w.dest, slot := 3, due := (coreAt s (coreIx c)).cyc, val := 0
           sec := (coreAt s (coreIx c)).sec, issued := (coreAt s (coreIx c)).cyc - 1 }] := by
  let r := reachTime (s.isl.chron + (l - tileChron s c.tile.val)) s
  have hr : mwf {} r.cores = true := hc
  have hwr : (coreAt r (coreIx c)).wait = some w := hw
  have he : exec (.waitmLimitExpiry c) s = .next (endWait (coreIx c) 0 r) := by
    simp only [exec, execWaitmLimitExpiry, hw, hl]
    rfl
  refine ⟨_, he, ?_⟩
  simp only [endWait, hwr, waitStatus]
  rw [coreAt_setCore (setCore_wf hr), coreAt_setCore hr]
  exact ⟨rfl, Nat.max_eq_right (Nat.le_add_right ..), rfl⟩

/-- MFENCE_COMPLETE ends a fence for which nothing is left to become visible (R159). -/
theorem mfenceComplete_effect (c : CoreId) (hc : mwf {} s.cores = true) (hf : (coreAt s (coreIx c)).fence = true)
    (hd : fenceDone (coreAt s (coreIx c)) = true) :
    ∃ t, exec (.mfenceComplete c) s = .next t ∧ (coreAt t (coreIx c)).fence = false := by
  refine ⟨setCore (coreIx c) (fun k => { k with fence := false }) s, ?_, by rw [coreAt_setCore hc]⟩
  simp [exec, execMfenceComplete, hf, hd]

theorem reportIf_frame (b : Bool) (r : Report) (s : State) :
    (reportIf b r s).cores = s.cores ∧ (reportIf b r s).isl = s.isl ∧ (reportIf b r s).mem = s.mem ∧
      (reportIf b r s).hlt = if b then (report r s).hlt else s.hlt := by
  unfold reportIf
  split
  · exact ⟨report_cores s r, report_isl s r, report_mem s r, rfl⟩
  · exact ⟨rfl, rfl, rfl, rfl⟩

/-- A drought due sets DR, but where an MTS of the bundle cleared it, and counts (R163–R165). -/
theorem drought_effect (hc : mwf {} s.cores = true) {d : Drought} (hd : (coreAt s i).dueAt = some d) :
    (coreAt (drought i s) i).dr = !d.cleared ∧ (coreAt (drought i s) i).dueAt = none ∧
      (coreAt (drought i s) i).drcnt = min ((coreAt s i).drcnt + 1) (2 ^ 18 - 1) := by
  simp only [drought, hd]
  obtain ⟨hr, -⟩ := reportIf_frame (!d.dr) (coreReport Cls.reported Code.coreDrought i [bundleField d.pc]) s
  rw [coreAt_setCore (by rw [hr]; exact hc)]
  simp only [coreAt, hr]
  exact ⟨trivial, trivial, rfl⟩

/-- EVICTION_WRITEBACK_COMPLETE: a line that no store changed since leaves the buffer (R218). -/
theorem evictionWritebackComplete_effect (c : CoreId) (hc : mwf {} s.cores = true) {e : EvLine}
    (he : (coreAt s (coreIx c)).evict.find? (fun e => e.dirty) = some e) (hx : e.crossed = true) (hl : e.later = none)
    (hk : ∀ y ∈ (coreAt s (coreIx c)).evict, y.kept = false) :
    exec (.evictionWritebackComplete c) s =
      .next (setCore (coreIx c) (fun k => { k with evict := k.evict.erase e }) s) := by
  have hkept : e.kept = false := hk e (List.mem_of_find?_eq_some he)
  have hnone : ((coreAt s (coreIx c)).evict.erase e).filter (fun x => x.kept && x.served) = [] := by
    refine List.filter_eq_nil_iff.2 fun y hy => ?_
    simp [hk y (List.mem_of_mem_erase hy)]
  have hset : settleBuffer (coreIx c) e (setCore (coreIx c) (fun k => { k with evict := k.evict.erase e }) s) =
      setCore (coreIx c) (fun k => { k with evict := k.evict.erase e }) s := by
    simp only [settleBuffer, hkept, hl, Option.isSome_none, Bool.false_eq_true, or_self, if_false]
    rw [coreAt_setCore hc, hnone]
    rfl
  simp only [exec, execEvictionWritebackComplete, oldestWriteBack, he, hx, Bool.not_true, Bool.false_eq_true,
    if_false, hset]

theorem wd_setCore (c : mwf {} s.cores = true) (f : Core → Core) :
    (coreAt (setCore i f s) i).wd = (f (coreAt s i)).wd :=
  congrArg Core.wd (coreAt_setCore c i f)

/-- A write of TILE_WDCTL (R264). -/
theorem writeWdctl_effect {rq : Req} {v : Nat} (hc : mwf {} s.cores = true) :
    let bad := bitOf v 20 && v % 2 ^ 20 == 0
    let period := if bad then (coreAt s i).wd.period else v % 2 ^ 20
    let u := writeWdctl rq i v s
    u.mem = s.mem ∧
      (coreAt u i).wd = (if bitOf v 20 = false then
          { (coreAt s i).wd with en := false, period := period, remain := wdRemain s i, state := 0 }
        else if (coreAt s i).wd.en = true then { (coreAt s i).wd with period := period }
        else { en := true, period := period, remain := period, from' := tileChron s (i / 8), state := 1 }) ∧
      u.hlt = if bad then (report (regRefused (16 + i / 8) (0o702000 + 4 * (i % 8)) rq .value (v % 2 ^ 36)) s).hlt
        else s.hlt := by
  unfold writeWdctl
  dsimp only
  generalize (bitOf v 20 && v % 2 ^ 20 == 0) = bad
  obtain ⟨hcores, hisl, hmem, hhlt⟩ :=
    reportIf_frame bad (regRefused (16 + i / 8) (0o702000 + 4 * (i % 8)) rq .value (v % 2 ^ 36)) s
  generalize reportIf _ _ s = r at hcores hisl hmem hhlt ⊢
  have hr : mwf {} r.cores = true := by rw [hcores]; exact hc
  have hk : coreAt r i = coreAt s i := by simp only [coreAt, hcores]
  have hchron : tileChron r (i / 8) = tileChron s (i / 8) := by simp only [tileChron, tileIsl, hisl]
  have hrem : wdRemain r i = wdRemain s i := by simp only [wdRemain, hk, hchron]
  have hr' := fun f => setCore_wf (i := i) (f := f) hr
  cases bitOf v 20
  · rw [Bool.not_false, if_pos rfl, if_pos rfl, wd_setCore (hr' _)]
    simp only [wd_setCore hr, hk, hrem]
    exact ⟨hmem, trivial, hhlt⟩
  · rw [Bool.not_true, if_neg Bool.false_ne_true, if_neg Bool.false_ne_true.symm]
    cases hon : (coreAt s i).wd.en
    · rw [if_neg (by simp [hk, hon]), if_neg Bool.false_ne_true, wdReload, wd_setCore (setCore_wf (hr' _))]
      simp only [wd_setCore (hr' _), wd_setCore hr, hk]
      exact ⟨hmem, by rw [← hchron]; rfl, hhlt⟩
    · rw [if_pos (by simp [hk, hon]), if_pos rfl]
      simp only [wd_setCore hr, hk, hon]
      exact ⟨hmem, trivial, hhlt⟩

/-- RANGE_ENGINE_PASS with one range held, as `applyRange_effect` says (R213). -/
theorem rangeEnginePass_effect (c : CoreId) {s : State} (hc : mwf {} s.cores = true) {lo n : Nat} {sec : Bool}
    (hr : (coreAt s (coreIx c)).ranges = [(lo, n, sec)]) (hd : mwf none (coreAt s (coreIx c)).dcache = true)
    (hi : mwf none (coreAt s (coreIx c)).icache = true)
    (hb : ∀ e ∈ (coreAt s (coreIx c)).dcache ++ (coreAt s (coreIx c)).icache, ∀ f, e.2 = some f → f.bad = 0) :
    ∃ t, exec (.rangeEnginePass c) s = .next t ∧ (coreAt t (coreIx c)).ranges = [] ∧
      (∀ key, mget none (coreAt t (coreIx c)).dcache key =
          (mget none (coreAt s (coreIx c)).dcache key).filter (fun f => !covered s sec lo n f) ∧
        mget none (coreAt t (coreIx c)).icache key =
          (mget none (coreAt s (coreIx c)).icache key).filter (fun f => !covered s sec lo n f)) ∧
      ∀ key f, mget none (coreAt s (coreIx c)).dcache key = some f → covered s sec lo n f = true → f.dirty = true →
        ∃ e ∈ (coreAt t (coreIx c)).evict, e.carried = (f.line, f.bits, f.sec, true) := by
  have hbad {m : SMap (Option CLine)} (hm : ∀ e ∈ m, ∀ f, e.2 = some f → f.bad = 0) key f
      (hf : mget none m key = some f) : f.bad = 0 :=
    hm _ (mem_of_mget (d := none) (by rw [hf]; exact Option.some_ne_none f)) f hf
  have hk := coreAt_setCore hc (coreIx c) fun k => { k with ranges := [] }
  obtain ⟨hranges, hframes, hevict⟩ := applyRange_effect (i := coreIx c) (lo := lo) (n := n) (sec := sec)
    (setCore_wf (i := coreIx c) (f := fun k => { k with ranges := [] }) hc) (by rw [hk]; exact hd)
    (by rw [hk]; exact hi) (by rw [hk]; exact hbad fun e he => hb e (List.mem_append_left _ he))
    (by rw [hk]; exact hbad fun e he => hb e (List.mem_append_right _ he))
  rw [hk] at hranges hframes hevict
  refine ⟨applyRange (coreIx c) (lo, n, sec) (setCore (coreIx c) (fun k => { k with ranges := [] }) s), ?_, hranges,
    hframes, hevict⟩
  simp only [exec, execRangeEnginePass, hr, List.foldl_cons, List.foldl_nil]

theorem fenceDone_of {k : Core} (hs : k.stores = []) (hr : k.ranges = []) (he : ∀ e ∈ k.evict, e.dirty = false)
    (hm : ∀ m ∈ k.misses, ∀ a ∈ m.accs, a.store = false ∧ a.op ≠ some .clean ∧ a.op ≠ some .flush) :
    fenceDone k = true := by
  simp only [fenceDone, hs, hr, List.isEmpty_nil, Bool.true_and, Bool.and_eq_true, Bool.not_eq_true',
    List.any_eq_false, Bool.or_eq_true, beq_iff_eq, not_or, Bool.not_eq_true]
  refine ⟨he, fun m hmem a ha => ?_⟩
  obtain ⟨hstore, hclean, hflush⟩ := hm m hmem a ha
  exact ⟨⟨hstore, hclean⟩, hflush⟩

theorem regRefused_tile (tile off : Nat) (rq : Req) (v : Nat) :
    regRefused (16 + tile) off rq .value v = mkReport Unit.tile Cls.reported Code.regRefused (8 * tile)
      [(off, 24), (rq.code.toNat, 9), (0, 2), (0, 1), (v, 36)] := by
  simp only [regRefused, winUnit, winInst, RefKind.num, Nat.le_add_right, if_true, Nat.add_sub_cancel_left]

/-- Settles O18: each event by its own lemma above; the range engine by what each frame of a pass leaves. -/
theorem coreEventsTakeEffect : Obligations.CoreEventsTakeEffect := by
  intro c s hc i k
  refine ⟨fun q hb hq ho hm => lockedSequenceTimeout_effect c hc hb hq ho hm,
    fun w l hw hl => waitmLimitExpiry_effect c hc hw hl, fun hf hst hra hev hmi => mfenceComplete_effect c hc hf ?_,
    fun d hb hd => ⟨drought i s, ?_, drought_effect hc hd⟩, rfl, fun lo n sec hr hd hi hb => ?_,
    fun e he hx hl hk => evictionWritebackComplete_effect c hc he hx hl hk,
    fun rq v hreach hav hsec => ⟨?_, ?_, ?_⟩⟩
  · exact fenceDone_of hst hra hev hmi
  · simp only [exec, execSafePointDrought]
    rw [if_pos hb]
  · obtain ⟨t, ht, hranges, hframes, hevict⟩ := rangeEnginePass_effect c hc hr hd hi hb
    refine ⟨t, ht, hranges, hframes, fun key f hf hcov hdirty => ?_⟩
    obtain ⟨e, he, hce⟩ := hevict key f hf hcov hdirty
    simp only [EvLine.carried, Prod.mk.injEq] at hce
    exact ⟨e, he, hce⟩
  · simp only [exec, execTileAfsetWrite, tileWrite_owner hreach hav hsec, i]
  · have hkey : field v.toNat 18 18 = v.toNat / 2 ^ 18 := by
      have := v.isLt
      simp only [field, Nat.shiftRight_eq_div_pow]
      omega
    simp only [exec, execWatchdogKick, tileWrite_owner hreach hav hsec, kickWatchdog, hkey, i, k]
  · obtain ⟨hmem, hwd, hhlt⟩ := writeWdctl_effect (i := i) (rq := rq) (v := v.toNat) hc
    refine ⟨writeWdctl rq i v.toNat s, ?_, hmem, ?_⟩
    · simp only [exec, execWatchdogCtlWrite, tileWrite_owner hreach hav hsec, i]
    · have hbad : (bitOf v.toNat 20 && v.toNat % 2 ^ 20 == 0) =
          decide (v.getLsbD 20 = true ∧ v.toNat % 2 ^ 20 = 0) := by
        rw [Bool.decide_and, Bool.decide_eq_true]
        rfl
      have hval : v.toNat % 2 ^ 36 = v.toNat := Nat.mod_eq_of_lt v.isLt
      have hdiv : i / 8 = c.tile.val := coreIx_div c
      have hmod : i % 8 = c.core.val := coreIx_mod c
      simp only [hbad, decide_eq_true_eq, hval, hdiv, hmod, regRefused_tile] at hwd hhlt
      exact ⟨hwd, hhlt⟩

end Sys2Proof.Machine
end

section
/-! The two-wire debug port: its frames, the accesses that they start, and writes of registers. -/

namespace Sys2Proof.Machine

set_option Elab.async false

/-! ### The bits of a frame of the two-wire port -/

/-- The bits of a response or a receipt (R431): five, MARK 0, its CODE, its SEQ, and odd parity. -/
def PortBits (x code : Nat) (seq : Bool) : Prop :=
  x < 32 ∧ x.testBit 0 = false ∧ x / 2 % 4 = code ∧ x.testBit 3 = seq ∧ (List.range 5).countP (x.testBit ·) % 2 = 1

theorem responseBits_portBits (code : Fin 4) (seq : Bool) : PortBits (responseBits code seq) code seq := by
  revert code seq
  unfold PortBits
  decide

/-- A quarter of a data phase: nine bits and their odd parity (R430). -/
def quarter (q : Nat) : Nat := q + 512 * ((ones q 9 + 1) % 2)

theorem testBit_quarter_low {q b : Nat} (hq : q < 512) (hb : b < 9) : (quarter q).testBit b = q.testBit b := by
  rw [quarter, Nat.add_comm, show 512 = 2 ^ 9 from rfl, Nat.testBit_two_pow_mul_add _ hq, if_pos hb]

theorem testBit_quarter_parity {q : Nat} (hq : q < 512) : (quarter q).testBit 9 = decide (ones q 9 % 2 = 0) := by
  rw [quarter, Nat.add_comm, show 512 = 2 ^ 9 from rfl, Nat.testBit_two_pow_mul_add _ hq, if_neg (by omega)]
  rcases Nat.mod_two_eq_zero_or_one (ones q 9) with h | h
  · rw [show (ones q 9 + 1) % 2 = 1 by omega, h]
    rfl
  · rw [show (ones q 9 + 1) % 2 = 0 by omega, h]
    rfl

theorem quarter_odd {q : Nat} (hq : q < 512) : (List.range 10).countP ((quarter q).testBit ·) % 2 = 1 := by
  have hlow : (List.range 9).countP ((quarter q).testBit ·) = ones q 9 := by
    rw [ones, ← List.countP_eq_length_filter]
    refine List.countP_congr fun b hb => ?_
    rw [testBit_quarter_low hq (List.mem_range.1 hb)]
    rfl
  rw [List.range_succ, List.countP_append, hlow, List.countP_singleton, testBit_quarter_parity hq]
  by_cases h : ones q 9 % 2 = 0
  · simp only [h, decide_true, if_true]
    omega
  · simp only [h, decide_false, Bool.false_eq_true, if_false]
    omega

theorem testBit_withParity (v : Nat) {j b : Nat} (hj : j < 4) (hb : b < 10) :
    (withParity v).testBit (10 * j + b) = (quarter (v / 2 ^ (9 * j) % 2 ^ 9)).testBit b := by
  have hdiv : (10 * j + b) / 10 = j := by omega
  have hmod : (10 * j + b) % 10 = b := by omega
  unfold withParity
  rw [testBit_joinUnits 10 (by decide), hdiv, hmod, List.getElem?_map, List.getElem?_range hj]
  simp only [field, Nat.shiftRight_eq_div_pow]
  rfl

/-- The data phase of a word: its quarters, each of odd parity (R430). -/
theorem withParity_quarters (v : Nat) {j : Nat} (hj : j < 4) :
    withParity v / 2 ^ (10 * j) % 2 ^ 9 = v / 2 ^ (9 * j) % 2 ^ 9 ∧
      (List.range 10).countP (fun b => (withParity v).testBit (10 * j + b)) % 2 = 1 := by
  have hq : v / 2 ^ (9 * j) % 2 ^ 9 < 512 := Nat.mod_lt _ (by decide)
  constructor
  · apply Nat.eq_of_testBit_eq
    intro b
    rw [Nat.testBit_mod_two_pow, Nat.testBit_div_two_pow]
    by_cases hb : b < 9
    · rw [Nat.add_comm, testBit_withParity v hj (by omega), testBit_quarter_low hq hb]
      simp [hb]
    · rw [decide_eq_false hb, Bool.false_and]
      have hle : 2 ^ 9 ≤ 2 ^ b := Nat.pow_le_pow_right (by decide) (Nat.le_of_not_lt hb)
      exact (Nat.testBit_lt_two_pow (hq.trans_le hle)).symm
  · rw [List.countP_congr fun b hb => by rw [testBit_withParity v hj (List.mem_range.1 hb)]]
    exact quarter_odd hq

/-! ### The header and the data phase -/

variable {s : State}

/-- A good header that is accepted: the response, and the session's report where it is the first (R431, R433). -/
theorem header_accepted {read : Bool} {r : Nat} {seq mark par : Bool} (hp : portActive s = true)
    (hd : s.dbu.desync = false) (hok : headerOk read r seq mark par = true) (hc : responseCode s.dbu read r = 0) :
    ∃ u, header read r seq mark par s = (u, some 0) ∧ u.mem = s.mem ∧
      u.dbu = { s.dbu with answer := some { response := responseBits 0 seq }, began := true } := by
  simp only [header, hp, hd, hok, hc, Bool.not_true, Bool.or_self, Bool.false_eq_true, if_false, true_and,
    show ¬ (0 = 2 ∧ (!regPermitted read r) = true) from fun h => nomatch h.1]
  cases hb : s.dbu.began
  · rw [if_pos (by simp [setDbu, hb])]
    exact ⟨_, rfl, by simp [setDbu], by simp [setDbu, hd]⟩
  · rw [if_neg (by simp [setDbu, hb])]
    exact ⟨_, rfl, rfl, by simp [setDbu, hb, hd]⟩

theorem header_bad {read : Bool} {r : Nat} {seq mark par : Bool} (hp : portActive s = true)
    (hd : s.dbu.desync = false) (hok : headerOk read r seq mark par = false) :
    header read r seq mark par s = ({ s with dbu := { s.dbu with desync := true, answer := none } }, none) := by
  simp [header, hp, hd, hok, setDbu]

theorem responseCode_idle {d : DebugUnit} {read : Bool} {r : Nat} (hf : d.fault = false) (ha : d.access = none)
    (hr : regPermitted read r = true) : responseCode d read r = 0 := by
  simp [responseCode, hf, ha, hr]

theorem portWrite_dctl (v : Nat) (s : State) : portWrite 2 v s = setDbu (dctlWrite v) s := by
  simp only [portWrite]

theorem portWrite_addrLow (v : Nat) (s : State) :
    portWrite 4 v s = setDbu (fun d => { d with addr := setField d.addr 0 36 v }) s := by
  simp only [portWrite]

theorem portWrite_addrHigh (v : Nat) (s : State) :
    portWrite 5 v s = setDbu (fun d => { d with addr := setField d.addr 36 9 v }) s := by
  simp only [portWrite]

theorem portWrite_dataLow (v : Nat) (s : State) :
    portWrite 6 v s = setDbu (fun d => { d with data := setField d.data 0 36 v }) s := by
  simp only [portWrite]

theorem portWrite_dataHigh (v : Nat) (s : State) :
    portWrite 7 v s = setDbu (fun d => { d with data := setField d.data 36 36 v }) s := by
  simp only [portWrite]

theorem portWrite_dcmd (v : Nat) (s : State) : portWrite 8 v s = startAccess v s := by
  simp only [portWrite]

/-- A command that names a reserved field or space is a fault and starts nothing (R435, R436). -/
theorem startAccess_reserved {v : Nat} (hf : s.dbu.fault = false) (hv : 1024 ≤ v ∨ 3 ≤ v % 8) :
    startAccess v s = { s with dbu := { s.dbu with fault := true, reason := 7 } } := by
  unfold startAccess
  rw [if_pos (by omega)]
  simp [portFault, setDbu, hf]

theorem startAccess_named {v : Nat} (hv : v < 1024) (hs : v % 8 < 3) :
    startAccess v s = { s with dbu := { s.dbu with access := some { cmd := v } } } := by
  unfold startAccess
  rw [if_neg (by omega)]
  rfl

theorem startAccess_frame (v : Nat) (s : State) :
    (startAccess v s).mem = s.mem ∧ (startAccess v s).dbu.answer = s.dbu.answer := by
  unfold startAccess portFault
  split
  · refine ⟨rfl, ?_⟩
    simp only [setDbu]
    split <;> rfl
  · exact ⟨rfl, rfl⟩

theorem setDbu_dbu (f : DebugUnit → DebugUnit) (s : State) : (setDbu f s).dbu = f s.dbu := rfl

theorem portWrite_frame {r : Nat} (hr : r ∈ [4, 5, 6, 7, 8]) (v : Nat) (s : State) :
    (portWrite r v s).mem = s.mem ∧ (portWrite r v s).dbu.answer = s.dbu.answer := by
  simp only [List.mem_cons, List.not_mem_nil, or_false] at hr
  obtain rfl | rfl | rfl | rfl | rfl := hr
  · rw [portWrite_addrLow, setDbu_mem, setDbu_dbu]
    exact ⟨rfl, rfl⟩
  · rw [portWrite_addrHigh, setDbu_mem, setDbu_dbu]
    exact ⟨rfl, rfl⟩
  · rw [portWrite_dataLow, setDbu_mem, setDbu_dbu]
    exact ⟨rfl, rfl⟩
  · rw [portWrite_dataHigh, setDbu_mem, setDbu_dbu]
    exact ⟨rfl, rfl⟩
  · rw [portWrite_dcmd]
    exact startAccess_frame v s

/-- A data phase that is performed and kept, with the receipt ACCEPTED (R434). -/
theorem writeData_performed {r data v : Nat} {seq : Bool} (hv : dataWord data = some v)
    (hn : repeats s.dbu r v seq = false) (hr : r ∈ [4, 5, 6, 7, 8]) :
    (writeData r seq data s).mem = s.mem ∧
      (writeData r seq data s).dbu = { (portWrite r v s).dbu with
        hasSeq := true, lseq := seq, keptReg := r, keptData := v
        answer := s.dbu.answer.map fun a => { a with receipt := some (responseBits 0 seq) } } := by
  obtain ⟨hmem, hans⟩ := portWrite_frame hr v s
  have hdctl : r ≠ 2 := by
    rintro rfl
    simp at hr
  have he : writeData r seq data s = giveReceipt 0 seq (setDbu (fun d => { d with
      hasSeq := true, lseq := seq, keptReg := r, keptData := v }) (portWrite r v s)) := by
    simp only [writeData, hv, hn, Bool.false_eq_true, if_false, if_neg hdctl]
  rw [he, ← hans]
  exact ⟨hmem, rfl⟩

/-- A data phase that repeats the last one performed (R434). -/
theorem writeData_repeated {r data v : Nat} {seq : Bool} (hv : dataWord data = some v)
    (hn : repeats s.dbu r v seq = true) : writeData r seq data s = giveReceipt 3 seq s := by
  simp only [writeData, hv, hn, if_true]

/-- A data phase with bad parity sets the fault (R433). -/
theorem writeData_bad {r data : Nat} {seq : Bool} (hv : dataWord data = none) :
    writeData r seq data s = giveReceipt 2 seq (portFault 1 s) := by
  simp only [writeData, hv]

/-- A write of DCTL, in a frame that the port itself makes (R436). -/
theorem goodWrite_dctl (seq : Bool) {v : Nat} (hv : dataWord (withParity v) = some v) (hp : portActive s = true)
    (hd : s.dbu.desync = false) :
    ∃ u, goodWrite 2 seq v s = u ∧ u.mem = s.mem ∧ u.dbu.access = (dctlWrite v s.dbu).access ∧
      u.dbu.fault = (dctlWrite v s.dbu).fault ∧ u.dbu.reason = (dctlWrite v s.dbu).reason := by
  have hok : headerOk false 2 seq true ((ones 2 5 + b2n seq + 1) % 2 == 0) = true := by
    revert seq
    decide
  have hc : responseCode s.dbu false 2 = 0 := by simp [responseCode, faultExempt, regPermitted, busyRefuses]
  obtain ⟨u, hu, hmem, hdbu⟩ := header_accepted hp hd hok hc
  have he : goodWrite 2 seq v s = giveReceipt 0 seq (setDbu (dctlWrite v) u) := by
    have hn : repeats u.dbu 2 v seq = false := rfl
    simp only [goodWrite, frameWrite, hu, writeData, hv, hn, portWrite_dctl, Bool.false_eq_true, if_false, if_true]
  refine ⟨_, he, hmem, ?_⟩
  simp only [giveReceipt, setDbu, hdbu, dctlWrite]
  cases bitOf v 0 <;> cases bitOf v 1 <;> exact ⟨rfl, rfl, rfl⟩

end Sys2Proof.Machine
end

section
/-! What the accesses of the debug port give. -/

namespace Sys2Proof.Machine

set_option Elab.async false

variable {s : State}

/-! ### The accesses of the port -/

/-- The debug unit once its access `q` has ended with a result and a REASON. -/
def accessEnded (d : DebugUnit) (q : DbgAccess) (result reason : Nat) : DebugUnit :=
  { d with access := some { cmd := q.cmd, done := true, result := result, reason := reason } }

theorem performed_dbu {q : DbgAccess} {u : State} {result reason : Nat} (hq : s.dbu.access = some q)
    (hu : u.dbu = s.dbu) : (performed (u, result, reason)).dbu = accessEnded s.dbu q result reason := by
  simp [performed, setDbu, hu, hq, accessEnded]

/-- An access that is due and that the policy does not turn away is performed (R428, R450). -/
theorem performAccess_open {q : DbgAccess} {space : Nat} {act : Nat → Nat → State → State × Nat × Nat}
    (hq : s.dbu.access = some q) (hd : q.done = false) (hsp : q.cmd % 8 = space) (hp : portActive s = true)
    (hpol : cmdSec q.cmd = false ∨ spolOpen s = true) :
    performAccess space act s = performed (act q.cmd s.dbu.addr s) := by
  have hsec : (cmdSec q.cmd && !spolOpen s) = false := by
    rcases hpol with h | h <;> simp [h]
  simp [performAccess, hq, hd, hsp, hp, hsec]

/-- A SEC request under SPOL 0 ends with REASON 4 (R450). -/
theorem performAccess_refused {q : DbgAccess} {space : Nat} {act : Nat → Nat → State → State × Nat × Nat}
    (hq : s.dbu.access = some q) (hd : q.done = false) (hsp : q.cmd % 8 = space) (hp : portActive s = true)
    (hsec : cmdSec q.cmd = true) (hpol : spolOpen s = false) :
    (performAccess space act s).mem = s.mem ∧ (performAccess space act s).cores = s.cores ∧
      (performAccess space act s).dbu = accessEnded s.dbu q 0 4 := by
  have he : performAccess space act s = performed (report (secureRefused q.cmd s.dbu.addr) s, 0, 4) := by
    simp [performAccess, hq, hd, hsp, hp, hsec, hpol]
  rw [he]
  exact ⟨report_mem .., report_cores .., performed_dbu hq (report_dbu ..)⟩

/-- Serving with an outcome that was asked for differs from serving without in the DRAM controller alone. -/
theorem withOutcome_same (who : Asker) (l : Nat) (act : State → State) (s : State) :
    ∃ u, SameButDrc s u ∧ SameButDrc (act u) (withOutcome who l act s) := by
  unfold withOutcome
  split
  · exact ⟨s, .refl s, .refl _⟩
  · exact ⟨claim who l s, claim_same who l s, unclaim_same _⟩

/-- An access of hub memory that nothing turns away is performed, the DRAM controller apart (R270, R437). -/
theorem debugPhysicalAccess_hub {q : DbgAccess} (hq : s.dbu.access = some q) (hd : q.done = false)
    (hsp : q.cmd % 8 = 0) (hp : portActive s = true) (hpol : cmdSec q.cmd = false ∨ spolOpen s = true)
    (ht : targetOf s s.dbu.addr = .hub) (hal : s.dbu.addr % cmdUnits q.cmd = 0)
    (hw : worldMay s (cmdSec q.cmd) s.dbu.addr = true) (hwait : debugWaits s s.dbu.addr = false) :
    ∃ u t, SameButDrc s u ∧ exec .debugPhysicalAccess s = .next t ∧
      SameButDrc (performed (physicalAccess q.cmd s.dbu.addr u)) t := by
  have hsec : (cmdSec q.cmd && !spolOpen s) = false := by
    rcases hpol with h | h <;> simp [h]
  have hlow : ¬ s.dbu.addr < 2 ^ 40 := by
    intro hlt
    rw [targetOf, if_pos hlt] at ht
    cases ht
  have hheld : physHeld s (cmdWr q.cmd) s.dbu.addr = false := by
    rw [physHeld, decide_eq_false hlow, Bool.false_and]
  have haway : debugTurnedAway s q.cmd s.dbu.addr = false := by simp [debugTurnedAway, hsec, hal, hw]
  obtain ⟨u, hsu, hut⟩ := withOutcome_same .debug (s.dbu.addr / 64) (performAccess 0 physicalAccess) s
  refine ⟨u, withOutcome .debug (s.dbu.addr / 64) (performAccess 0 physicalAccess) s, hsu, ?_, ?_⟩
  · simp [exec, execDebugPhysicalAccess, hq, hd, hsp, hp, haway, hheld, hwait]
  · obtain ⟨d, rfl⟩ := hsu
    rwa [performAccess_open (s := { s with drc := d }) hq hd hsp hp hpol] at hut

/-- A read of hub memory without an uncorrectable word (R111, R193, R437). -/
theorem physicalAccess_hubRead {cmd a : Nat} (ht : targetOf s a = .hub) (hal : a % cmdUnits cmd = 0)
    (hw : worldMay s (cmdSec cmd) a = true) (hwr : cmdWr cmd = false)
    (hbad : hubWordBad s (a / 64) (unitBits a (cmdUnits cmd) (cmdView cmd)).1
      (unitBits a (cmdUnits cmd) (cmdView cmd)).2 = false) :
    physicalAccess cmd a s = (s, field (lineBits s (a / 64)) (unitBits a (cmdUnits cmd) (cmdView cmd)).1
      (unitBits a (cmdUnits cmd) (cmdView cmd)).2, 0) := by
  simp [physicalAccess, hal, hw, hwr, physRead, accessBits, ht, memRead, hbad, AccessEnd.reason]

/-- A write of hub memory (R111, R193, R437). -/
theorem physicalAccess_hubWrite {cmd a : Nat} (ht : targetOf s a = .hub) (hal : a % cmdUnits cmd = 0)
    (hw : worldMay s (cmdSec cmd) a = true) (hwr : cmdWr cmd = true) :
    physicalAccess cmd a s = (hubPut (a / 64) (unitBits a (cmdUnits cmd) (cmdView cmd)).1
      (unitBits a (cmdUnits cmd) (cmdView cmd)).2 
      (s.dbu.data % 2 ^ accessWidth (cmdUnits cmd) (cmdView cmd) false) s, 0, 0) := by
  simp [physicalAccess, hal, hw, hwr, physWrite, accessBits, ht, memWrite, AccessEnd.reason]

/-- A write of hub memory sets the stored bits named and no others (R193). -/
theorem lineBits_hubPut (h : Memory.wf s.mem = true) (l lo w v : Nat) (hw : lo + w ≤ 576) :
    (∀ l', l' ≠ l → lineBits (hubPut l lo w v s) l' = lineBits s l') ∧
      ∀ j, (lineBits (hubPut l lo w v s) l).testBit j =
        if lo ≤ j ∧ j < lo + w then v.testBit (j - lo) else (lineBits s l).testBit j :=
  ⟨fun _ hl => lineBits_putLine_ne (s := { s with tmErr := _ }) h _ hl,
    fun j => testBit_lineBits_putBits (s := { s with tmErr := _ }) h l lo w v j hw⟩

/-- The units of an aligned access lie in their line (R111). -/
theorem unitBits_le {cmd a : Nat} (hal : a % cmdUnits cmd = 0) :
    (unitBits a (cmdUnits cmd) (cmdView cmd)).1 + (unitBits a (cmdUnits cmd) (cmdView cmd)).2 ≤ 576 := by
  have hn : a % 64 + cmdUnits cmd ≤ 64 := by
    have hf : field cmd 4 2 < 4 := Nat.mod_lt _ (by decide)
    unfold cmdUnits at hal ⊢
    generalize field cmd 4 2 = e at hf hal ⊢
    have : e = 0 ∨ e = 1 ∨ e = 2 ∨ e = 3 := by omega
    rcases this with rfl | rfl | rfl | rfl <;> omega
  unfold unitBits
  split
  · dsimp only
    omega
  · dsimp only
    omega

theorem field_eq_div_mod (x lo n : Nat) : field x lo n = x / 2 ^ lo % 2 ^ n := by
  rw [field, Nat.shiftRight_eq_div_pow]

theorem cmdUnits_eq (cmd : Nat) : cmdUnits cmd = 2 ^ (cmd / 16 % 4) := by
  rw [cmdUnits, field_eq_div_mod]
  rfl

/-- The core that an access of SPACE b001 names (R439). -/
def coreOf (a : Nat) : Nat := 8 * (a / 2 ^ 11 % 64) + a / 2 ^ 8 % 8

/-- An access of SPACE b001 of a doubleword in word view reaches a core of an available tile; then (R439). -/
theorem coreAccess_reaches {cmd a : Nat} (hsz : cmd / 16 % 4 = 3) (hv : cmdView cmd = false)
    (ht : a / 2 ^ 11 % 64 < 48) (ha : available s (a / 2 ^ 11 % 64) = true) :
    coreAccess cmd a s =
      if !(coreAt s (coreOf a)).halted then (s, 0, 5)
      else if (coreAt s (coreOf a)).sec && !cmdSec cmd then (if cmdWr cmd then (s, 0, 4) else (s, 0, 0))
      else if cmdWr cmd then
        ((coreWrite cmd (coreOf a) (a / 64 % 4) (a % 64) s.dbu.data s).1, 0,
          (coreWrite cmd (coreOf a) (a / 64 % 4) (a % 64) s.dbu.data s).2)
      else
        (s, (coreRead cmd (coreOf a) (a / 64 % 4) (a % 64) s).1,
          (coreRead cmd (coreOf a) (a / 64 % 4) (a % 64) s).2) := by
  have hno : noTile s (a / 2 ^ 11 % 64) = false := by
    rw [noTile, decide_eq_false (by omega), ha]
    rfl
  have hcore : 8 * field a 11 6 + field a 8 3 = coreOf a := by
    simp only [field_eq_div_mod]
    rfl
  unfold coreAccess
  simp only [hcore]
  simp only [field_eq_div_mod, hsz, hv, hno, Nat.pow_zero, Nat.div_one, ne_eq, Bool.false_eq_true, or_false,
    not_true_eq_false, if_false, show (2 : Nat) ^ 6 = 64 from rfl, show (2 : Nat) ^ 2 = 4 from rfl,
    show (2 : Nat) ^ 4 = 16 from rfl]

theorem coreRead_general (cmd i x : Nat) (s : State) :
    coreRead cmd i 0 x s = (((coreAt s i).read (BitVec.ofNat 6 x)).toNat, 0) := rfl

theorem coreWrite_general (cmd i x v : Nat) (s : State) :
    coreWrite cmd i 0 x v s = (setCore i (fun k => k.write x (BitVec.ofNat 72 v)) s, 0) := rfl

theorem coreWrite_pc (cmd i v : Nat) (s : State) :
    coreWrite cmd i 3 0 v s = (setCore i (fun k => { k with pc := bundleAddr v, dly := 0 }) s, 0) := rfl

/-- A read of a general register after a write of it (R101). -/
theorem read_write {k : Core} {x : Nat} (v : Double) (h : mwf 0 k.regs = true) (hx : x < 64) :
    (k.write x v).read (BitVec.ofNat 6 x) = if x = 0 then 0 else v := by
  have hn : (BitVec.ofNat 6 x).toNat = x := by
    rw [BitVec.toNat_ofNat]
    exact Nat.mod_eq_of_lt hx
  by_cases h0 : x = 0
  · subst h0
    simp [Core.read]
  · have hb : BitVec.ofNat 6 x ≠ 0 := by
      intro hb
      exact h0 (by rw [← hn, hb]; rfl)
    rw [if_neg h0, Core.read, if_neg hb, hn, Core.write, if_neg h0, if_pos hx]
    exact mget_mset_same h

/-- An access of SPACE b010 to a word of a cached frame of a halted core (R441). -/
theorem l1Access_word {cmd a : Nat} {f : CLine} (hsz : cmd / 16 % 4 = 3) (hwr : cmdWr cmd = false)
    (ht : a / 2 ^ 18 % 64 < 48) (ha : available s (a / 2 ^ 18 % 64) = true)
    (hh : (coreAt s (8 * (a / 2 ^ 18 % 64) + a / 2 ^ 15 % 8)).halted = true) (htag : a.testBit 4 = false)
    (hway : a.testBit 14 = true ∨
      wayMode (coreAt s (8 * (a / 2 ^ 18 % 64) + a / 2 ^ 15 % 8)).dway (a / 2 ^ 11 % 8) ≠ 2)
    (hf : mget none (if a.testBit 14 then (coreAt s (8 * (a / 2 ^ 18 % 64) + a / 2 ^ 15 % 8)).icache
      else (coreAt s (8 * (a / 2 ^ 18 % 64) + a / 2 ^ 15 % 8)).dcache) (8 * (a / 32 % 64) + a / 2 ^ 11 % 8) = some f)
    (hsec : cmdSec cmd = true ∨ memSecure s (64 * f.line) = false) :
    l1Access cmd a s = ({ s with draws := s.draws + 1 },
      l1Word (some f) (8 * (a / 32 % 64) + a / 2 ^ 11 % 8) (a % 16) false s.draws, 0) := by
  have hno : noTile s (a / 2 ^ 18 % 64) = false := by
    rw [noTile, decide_eq_false (by omega), ha]
    rfl
  have hsz' : field cmd 4 2 = 3 := (field_eq_div_mod cmd 4 2).trans hsz
  have htile : field a 18 6 = a / 2 ^ 18 % 64 := field_eq_div_mod a 18 6
  have hcore : field a 15 3 = a / 2 ^ 15 % 8 := field_eq_div_mod a 15 3
  have hwayNo : field a 11 3 = a / 2 ^ 11 % 8 := field_eq_div_mod a 11 3
  have hset : field a 5 6 = a / 32 % 64 := field_eq_div_mod a 5 6
  have hword : field a 0 4 = a % 16 := by
    rw [field_eq_div_mod, Nat.pow_zero, Nat.div_one]
    rfl
  simp only [l1Access, htile, hcore, hwayNo, hset, hword, hno, hh, hf, hwr, hsz', bitOf, htag]
  generalize 8 * (a / 2 ^ 18 % 64) + a / 2 ^ 15 % 8 = i at hway ⊢
  have hlocal : (!a.testBit 14 && wayMode (coreAt s i).dway (a / 2 ^ 11 % 8) == 2) = false := by
    rcases hway with h | h
    · rw [h]
      rfl
    · rw [beq_eq_false_iff_ne.2 h, Bool.and_false]
  have hhidden : (!cmdSec cmd && memSecure s (64 * f.line)) = false := by
    rcases hsec with h | h <;> simp [h]
  simp only [hlocal, hhidden, Bool.not_false, Bool.and_true, Bool.not_true, Bool.false_eq_true, ne_eq,
    not_true_eq_false, or_self, if_false]

theorem l1Word_word (f : CLine) (key word draw : Nat) :
    l1Word (some f) key word false draw % 2 ^ 36 = f.bits / 2 ^ (36 * word) % 2 ^ 36 := by
  simp only [l1Word, packFields, field_eq_div_mod]
  omega

/-- A fault of the port: the first since FAULT was cleared leaves its REASON (R433). -/
theorem portFault_effect (reason : Nat) (s : State) :
    (portFault reason s).mem = s.mem ∧ (portFault reason s).dbu.access = s.dbu.access ∧
      (s.dbu.fault = false → (portFault reason s).dbu.fault = true ∧ (portFault reason s).dbu.reason = reason ∧
        (portFault reason s).dbu.addr = s.dbu.addr) := by
  rw [portFault, setDbu_mem, setDbu_dbu]
  cases s.dbu.fault
  · exact ⟨rfl, rfl, fun _ => ⟨rfl, rfl, rfl⟩⟩
  · exact ⟨rfl, rfl, fun h => nomatch h⟩

/-- An access that ended well returns its result, and INC advances DADDR (R436). -/
theorem accessComplete_done {q : DbgAccess} (hq : s.dbu.access = some q) (hd : q.done = true) (hr : q.reason = 0) :
    exec .debugAccessComplete s = .next { s with dbu := { s.dbu with
      access := none
      data := if cmdWr q.cmd then s.dbu.data else q.result
      addr := if cmdInc q.cmd then (s.dbu.addr + if q.cmd % 8 = 0 then cmdUnits q.cmd else 1) % 2 ^ 45
        else s.dbu.addr } } := by
  simp only [exec, execDebugAccessComplete, hq, hd, hr, Bool.not_true, Bool.false_eq_true, if_false, if_true, setDbu]

/-- A failed access leaves its REASON and DADDR (R433, R436). -/
theorem accessComplete_failed {q : DbgAccess} (hq : s.dbu.access = some q) (hd : q.done = true) (hr : q.reason ≠ 0) :
    ∃ t, exec .debugAccessComplete s = .next t ∧ t.mem = s.mem ∧ t.dbu.access = none ∧
      (s.dbu.fault = false → t.dbu.fault = true ∧ t.dbu.reason = q.reason ∧ t.dbu.addr = s.dbu.addr) := by
  have he : exec .debugAccessComplete s = .next (portFault q.reason
      (if failsWithZero q.cmd s.dbu.addr q.reason then
        { s with dbu := { s.dbu with access := none, data := 0 } }
      else { s with dbu := { s.dbu with access := none } })) := by
    simp only [exec, execDebugAccessComplete, hq, hd, Bool.not_true, Bool.false_eq_true, if_false, if_neg hr, setDbu]
    rfl
  refine ⟨_, he, ?_⟩
  cases failsWithZero q.cmd s.dbu.addr q.reason
  · exact portFault_effect q.reason { s with dbu := { s.dbu with access := none } }
  · exact portFault_effect q.reason { s with dbu := { s.dbu with access := none, data := 0 } }

end Sys2Proof.Machine
end

section
/-! The commands of the debug port. -/

namespace Sys2Proof.Machine

set_option Elab.async false

variable {s : State}

/-! ### The commands of the port -/

/-- The port register that a read frame answers (R435). -/
theorem portRead_data {d : DebugUnit} {r : Nat} (hr : r ∈ [0, 4, 5, 6, 7]) :
    portRead d r = ([0o112226010000, 0, 0, 0, d.addr % 2 ^ 36, d.addr / 2 ^ 36 % 2 ^ 9, d.data % 2 ^ 36,
      d.data / 2 ^ 36 % 2 ^ 36] : List Nat).getD r 0 := by
  simp only [List.mem_cons, List.not_mem_nil, or_false] at hr
  obtain rfl | rfl | rfl | rfl | rfl := hr
  · simp [portRead]
  · simp [portRead, field_eq_div_mod]
  · simp [portRead, field_eq_div_mod]
  · simp [portRead, field_eq_div_mod]
  · simp [portRead, field_eq_div_mod]

/-- DEBUG_FRAME_READ answers the register (R430, R431, R435). -/
theorem debugFrameRead_answers {reg : BitVec 5} {seq mark par : Bool} (hp : portActive s = true)
    (hd : s.dbu.desync = false) (hok : headerOk true reg.toNat seq mark par = true) (hf : s.dbu.fault = false)
    (ha : s.dbu.access = none) (hr : reg.toNat ∈ [0, 4, 5, 6, 7]) :
    ∃ t, exec (.debugFrameRead reg seq mark par) s = .next t ∧ t.mem = s.mem ∧ t.dbu.addr = s.dbu.addr ∧
      t.dbu.data = s.dbu.data ∧ t.dbu.answer =
        some { response := responseBits 0 seq, data := withParity (portRead s.dbu reg.toNat) } := by
  have hperm : regPermitted true reg.toNat = true := by
    simp only [List.mem_cons, List.not_mem_nil, or_false] at hr
    obtain h | h | h | h | h := hr <;> rw [h] <;> rfl
  obtain ⟨u, hu, hmem, hdbu⟩ := header_accepted hp hd hok (responseCode_idle hf ha hperm)
  have he : exec (.debugFrameRead reg seq mark par) s = .next (setDbu (fun d => { d with
      answer := some { response := responseBits 0 seq, data := withParity (portRead d reg.toNat) } }) u) := by
    simp only [exec, execDebugFrameRead, hu]
  have hread : portRead u.dbu reg.toNat = portRead s.dbu reg.toNat := by
    rw [portRead_data hr, portRead_data hr, hdbu]
  refine ⟨_, he, hmem, ?_⟩
  rw [setDbu_dbu, hread, hdbu]
  exact ⟨rfl, rfl, rfl⟩

/-- DEBUG_FRAME_READ with a bad header is not answered (R432). -/
theorem debugFrameRead_bad {reg : BitVec 5} {seq mark par : Bool} (hp : portActive s = true)
    (hd : s.dbu.desync = false) (hok : headerOk true reg.toNat seq mark par = false) :
    exec (.debugFrameRead reg seq mark par) s =
      .next { s with dbu := { s.dbu with desync := true, answer := none } } := by
  simp only [exec, execDebugFrameRead, header_bad hp hd hok]

/-- DEBUG_FRAME_WRITE with a good header goes on to its data phase (R434). -/
theorem debugFrameWrite_accepted {reg : BitVec 5} {seq mark par : Bool} (data : BitVec 40) (hp : portActive s = true)
    (hd : s.dbu.desync = false) (hok : headerOk false reg.toNat seq mark par = true) (hf : s.dbu.fault = false)
    (ha : s.dbu.access = none) (hr : reg.toNat ∈ [4, 5, 6, 7, 8]) :
    ∃ u, exec (.debugFrameWrite reg seq mark par data) s = .next (writeData reg.toNat seq data.toNat u) ∧
      u.mem = s.mem ∧
      u.dbu = { s.dbu with answer := some { response := responseBits 0 seq }, began := true } := by
  have hperm : regPermitted false reg.toNat = true := by
    simp only [List.mem_cons, List.not_mem_nil, or_false] at hr
    obtain h | h | h | h | h := hr <;> rw [h] <;> rfl
  obtain ⟨u, hu, hmem, hdbu⟩ := header_accepted hp hd hok (responseCode_idle hf ha hperm)
  exact ⟨u, by simp only [exec, execDebugFrameWrite, frameWrite, hu], hmem, hdbu⟩

/-- What a write of each port register leaves (R435, R436). -/
theorem portWrite_effect {r v : Nat} (hf : s.dbu.fault = false) (ha : s.dbu.access = none) :
    (r = 4 → (portWrite r v s).dbu.addr = setField s.dbu.addr 0 36 v) ∧
      (r = 5 → (portWrite r v s).dbu.addr = setField s.dbu.addr 36 9 v) ∧
      (r = 6 → (portWrite r v s).dbu.data = setField s.dbu.data 0 36 v) ∧
      (r = 7 → (portWrite r v s).dbu.data = setField s.dbu.data 36 36 v) ∧
      (r = 8 → v < 1024 → v % 8 < 3 →
        (portWrite r v s).dbu.access = some { cmd := v } ∧ (portWrite r v s).dbu.fault = false) ∧
      (r = 8 → (1024 ≤ v ∨ 3 ≤ v % 8) → (portWrite r v s).dbu.access = none ∧
        (portWrite r v s).dbu.fault = true ∧ (portWrite r v s).dbu.reason = 7) := by
  refine ⟨?_, ?_, ?_, ?_, ?_, ?_⟩
  · rintro rfl
    rw [portWrite_addrLow, setDbu_dbu]
  · rintro rfl
    rw [portWrite_addrHigh, setDbu_dbu]
  · rintro rfl
    rw [portWrite_dataLow, setDbu_dbu]
  · rintro rfl
    rw [portWrite_dataHigh, setDbu_dbu]
  · rintro rfl hv hs
    rw [portWrite_dcmd, startAccess_named hv hs]
    exact ⟨rfl, hf⟩
  · rintro rfl hv
    rw [portWrite_dcmd, startAccess_reserved hf hv]
    exact ⟨ha, rfl, rfl⟩

/-- A response and a receipt as the port drives them. -/
def Receipt (t : State) (code : Nat) (seq : Bool) : Prop :=
  ∃ a p, t.dbu.answer = some a ∧ PortBits a.response 0 seq ∧ a.receipt = some p ∧ PortBits p code seq

theorem receipt_of {t : State} {seq : Bool} (code : Fin 4)
    (h : t.dbu.answer = some { response := responseBits 0 seq, receipt := some (responseBits code seq) }) :
    Receipt t code seq :=
  ⟨_, _, h, responseBits_portBits 0 seq, rfl, responseBits_portBits code seq⟩

/-- A data phase that is new is performed and kept (R434). -/
theorem writeData_new {u : State} {r data v : Nat} {seq : Bool} (hr : r ∈ [4, 5, 6, 7, 8])
    (hu : u.dbu = { s.dbu with answer := some { response := responseBits 0 seq }, began := true })
    (hf : s.dbu.fault = false) (ha : s.dbu.access = none) (hv : dataWord data = some v)
    (hn : s.dbu.hasSeq = false ∨ s.dbu.lseq ≠ seq ∨ s.dbu.keptReg ≠ r ∨ s.dbu.keptData ≠ v) :
    let t := writeData r seq data u
    t.mem = u.mem ∧ t.dbu.hasSeq = true ∧ t.dbu.lseq = seq ∧ t.dbu.keptReg = r ∧ t.dbu.keptData = v ∧
      Receipt t 0 seq ∧
      (r = 4 → t.dbu.addr = setField s.dbu.addr 0 36 v) ∧ (r = 5 → t.dbu.addr = setField s.dbu.addr 36 9 v) ∧
      (r = 6 → t.dbu.data = setField s.dbu.data 0 36 v) ∧ (r = 7 → t.dbu.data = setField s.dbu.data 36 36 v) ∧
      (r = 8 → v < 1024 → v % 8 < 3 → t.dbu.access = some { cmd := v } ∧ t.dbu.fault = false) ∧
      (r = 8 → (1024 ≤ v ∨ 3 ≤ v % 8) → t.dbu.access = none ∧ t.dbu.fault = true ∧ t.dbu.reason = 7) := by
  have hrep : repeats u.dbu r v seq = false := by
    rw [hu]
    rcases hn with h | h | h | h <;> simp [repeats, h]
  obtain ⟨hmem, hdbu⟩ := writeData_performed hv hrep hr
  have heff := portWrite_effect (s := u) (r := r) (v := v) (by rw [hu]; exact hf) (by rw [hu]; exact ha)
  intro t
  rw [hu] at heff
  refine ⟨hmem, by rw [hdbu], by rw [hdbu], by rw [hdbu], by rw [hdbu], receipt_of 0 (by rw [hdbu, hu]; rfl), ?_⟩
  rw [hdbu]
  exact heff

/-- A data phase that repeats the last one is not performed again (R434). -/
theorem writeData_again {u : State} {r data v : Nat} {seq : Bool} (hr : r ∈ [4, 5, 6, 7, 8])
    (hu : u.dbu = { s.dbu with answer := some { response := responseBits 0 seq }, began := true })
    (hv : dataWord data = some v) (hs : s.dbu.hasSeq = true) (hl : s.dbu.lseq = seq) (hk : s.dbu.keptReg = r)
    (hd : s.dbu.keptData = v) :
    let t := writeData r seq data u
    t.dbu.addr = s.dbu.addr ∧ t.dbu.data = s.dbu.data ∧ t.dbu.access = s.dbu.access ∧ Receipt t 3 seq := by
  have hdctl : (r != 2) = true := by
    rw [bne_iff_ne]
    rintro rfl
    simp at hr
  have hrep : repeats u.dbu r v seq = true := by
    rw [hu]
    simp [repeats, hs, hl, hk, hd, hdctl]
  intro t
  have ht : t.dbu = (giveReceipt 3 seq u).dbu := congrArg State.dbu (writeData_repeated hv hrep)
  rw [giveReceipt, setDbu_dbu, hu] at ht
  exact ⟨by rw [ht], by rw [ht], by rw [ht], receipt_of 3 (by rw [ht]; rfl)⟩

/-- A data phase with bad parity sets the fault and changes no register (R433). -/
theorem writeData_fault {u : State} {r data : Nat} {seq : Bool}
    (hu : u.dbu = { s.dbu with answer := some { response := responseBits 0 seq }, began := true })
    (hf : s.dbu.fault = false) (hv : dataWord data = none) :
    let t := writeData r seq data u
    t.dbu.addr = s.dbu.addr ∧ t.dbu.data = s.dbu.data ∧ t.dbu.access = s.dbu.access ∧ t.dbu.fault = true ∧
      t.dbu.reason = 1 := by
  intro t
  have ht : t.dbu = (giveReceipt 2 seq (portFault 1 u)).dbu := congrArg State.dbu (writeData_bad hv)
  rw [giveReceipt, setDbu_dbu, portFault, setDbu_dbu, hu] at ht
  simp only [hf, Bool.false_eq_true, if_false] at ht
  exact ⟨by rw [ht], by rw [ht], by rw [ht], by rw [ht], by rw [ht]⟩

/-- Each of the three spaces' commands performs an access of its space that the policy turns away (R450). -/
theorem debugAccess_refused {q : DbgAccess} (hq : s.dbu.access = some q) (hd : q.done = false)
    (hp : portActive s = true) (hsec : cmdSec q.cmd = true) (hpol : spolOpen s = false) {p : Nat × Instr}
    (hmem : p ∈ [(0, Instr.debugPhysicalAccess), (1, .debugCoreAccess), (2, .debugL1Read)])
    (hsp : q.cmd % 8 = p.1) :
    ∃ t, exec p.2 s = .next t ∧ t.mem = s.mem ∧ t.cores = s.cores ∧ t.dbu = accessEnded s.dbu q 0 4 := by
  have haway : debugTurnedAway s q.cmd s.dbu.addr = true := by simp [debugTurnedAway, hsec, hpol]
  simp only [List.mem_cons, List.not_mem_nil, or_false] at hmem
  obtain rfl | rfl | rfl := hmem
  · refine ⟨performAccess 0 physicalAccess s, ?_, performAccess_refused hq hd hsp hp hsec hpol⟩
    simp only [exec, execDebugPhysicalAccess, hq, hd, hsp, hp, haway]
    rfl
  · exact ⟨_, rfl, performAccess_refused hq hd hsp hp hsec hpol⟩
  · exact ⟨_, rfl, performAccess_refused hq hd hsp hp hsec hpol⟩

/-- DEBUG_PHYSICAL_ACCESS reads hub memory (R437). -/
theorem debugPhysicalAccess_reads {q : DbgAccess} (hq : s.dbu.access = some q) (hd : q.done = false)
    (hsp : q.cmd % 8 = 0) (hp : portActive s = true) (hpol : cmdSec q.cmd = false ∨ spolOpen s = true)
    (ht : targetOf s s.dbu.addr = .hub) (hal : s.dbu.addr % cmdUnits q.cmd = 0)
    (hw : worldMay s (cmdSec q.cmd) s.dbu.addr = true) (hwait : debugWaits s s.dbu.addr = false)
    (hwr : cmdWr q.cmd = false)
    (hbad : hubWordBad s (s.dbu.addr / 64) (unitBits s.dbu.addr (cmdUnits q.cmd) (cmdView q.cmd)).1
      (unitBits s.dbu.addr (cmdUnits q.cmd) (cmdView q.cmd)).2 = false) :
    ∃ t, exec .debugPhysicalAccess s = .next t ∧ t.mem = s.mem ∧ t.dbu = accessEnded s.dbu q
      (field (lineBits s (s.dbu.addr / 64)) (unitBits s.dbu.addr (cmdUnits q.cmd) (cmdView q.cmd)).1
        (unitBits s.dbu.addr (cmdUnits q.cmd) (cmdView q.cmd)).2) 0 := by
  obtain ⟨u, t, ⟨d, rfl⟩, he, ⟨d', rfl⟩⟩ := debugPhysicalAccess_hub hq hd hsp hp hpol ht hal hw hwait
  refine ⟨_, he, ?_⟩
  rw [physicalAccess_hubRead (s := { s with drc := d }) ht hal hw hwr hbad]
  exact ⟨rfl, performed_dbu (s := s) hq rfl⟩

theorem accessWidth_eq (a n : Nat) (oct : Bool) : accessWidth n oct false = (unitBits a n oct).2 := by
  cases oct <;> rfl

theorem hubPut_dbu (l lo w v : Nat) (s : State) : (hubPut l lo w v s).dbu = s.dbu := putLine_dbu ..

/-- DEBUG_PHYSICAL_ACCESS writes hub memory (R437). -/
theorem debugPhysicalAccess_writes {q : DbgAccess} (hm : Memory.wf s.mem = true) (hq : s.dbu.access = some q)
    (hd : q.done = false) (hsp : q.cmd % 8 = 0) (hp : portActive s = true)
    (hpol : cmdSec q.cmd = false ∨ spolOpen s = true) (ht : targetOf s s.dbu.addr = .hub)
    (hal : s.dbu.addr % cmdUnits q.cmd = 0) (hw : worldMay s (cmdSec q.cmd) s.dbu.addr = true)
    (hwait : debugWaits s s.dbu.addr = false) (hwr : cmdWr q.cmd = true) :
    let b := unitBits s.dbu.addr (cmdUnits q.cmd) (cmdView q.cmd)
    ∃ t, exec .debugPhysicalAccess s = .next t ∧ t.dbu = accessEnded s.dbu q 0 0 ∧
      (∀ l, l ≠ s.dbu.addr / 64 → lineBits t l = lineBits s l) ∧
      ∀ j, (lineBits t (s.dbu.addr / 64)).testBit j =
        if b.1 ≤ j ∧ j < b.1 + b.2 then s.dbu.data.testBit (j - b.1)
        else (lineBits s (s.dbu.addr / 64)).testBit j := by
  intro b
  obtain ⟨u, t, ⟨d, rfl⟩, he, ⟨d', rfl⟩⟩ := debugPhysicalAccess_hub hq hd hsp hp hpol ht hal hw hwait
  refine ⟨_, he, ?_⟩
  rw [physicalAccess_hubWrite (s := { s with drc := d }) ht hal hw hwr]
  obtain ⟨hother, hline⟩ := lineBits_hubPut (s := { s with drc := d }) hm (s.dbu.addr / 64) b.1 b.2
    (s.dbu.data % 2 ^ accessWidth (cmdUnits q.cmd) (cmdView q.cmd) false) (unitBits_le hal)
  have hdbu := hubPut_dbu (s.dbu.addr / 64) b.1 b.2
    (s.dbu.data % 2 ^ accessWidth (cmdUnits q.cmd) (cmdView q.cmd) false) { s with drc := d }
  have hwidth : accessWidth (cmdUnits q.cmd) (cmdView q.cmd) false = b.2 := accessWidth_eq ..
  rw [hwidth] at hother hline hdbu ⊢
  generalize hubPut (s.dbu.addr / 64) b.1 b.2 (s.dbu.data % 2 ^ b.2) { s with drc := d } = p at hother hline hdbu ⊢
  refine ⟨performed_dbu (s := s) hq hdbu, hother, fun j => (hline j).trans ?_⟩
  split
  case isTrue hj => rw [Nat.testBit_mod_two_pow, decide_eq_true (by omega), Bool.true_and]
  case isFalse => rfl

/-- DEBUG_CORE_ACCESS of a core that runs ends with REASON 5 (R439). -/
theorem debugCoreAccess_running {q : DbgAccess} (hq : s.dbu.access = some q) (hd : q.done = false)
    (hsp : q.cmd % 8 = 1) (hp : portActive s = true) (hpol : cmdSec q.cmd = false ∨ spolOpen s = true)
    (hsz : q.cmd / 16 % 4 = 3) (hv : cmdView q.cmd = false) (ht : s.dbu.addr / 2 ^ 11 % 64 < 48)
    (ha : available s (s.dbu.addr / 2 ^ 11 % 64) = true) (hh : (coreAt s (coreOf s.dbu.addr)).halted = false) :
    ∃ t, exec .debugCoreAccess s = .next t ∧ t.cores = s.cores ∧ t.dbu = accessEnded s.dbu q 0 5 := by
  refine ⟨_, rfl, ?_⟩
  rw [performAccess_open hq hd hsp hp hpol, coreAccess_reaches hsz hv ht ha, hh]
  exact ⟨rfl, performed_dbu hq rfl⟩

/-- DEBUG_CORE_ACCESS of a halted core that its world may reach is performed (R439). -/
theorem debugCoreAccess_halted {q : DbgAccess} (hq : s.dbu.access = some q) (hd : q.done = false)
    (hsp : q.cmd % 8 = 1) (hp : portActive s = true) (hpol : cmdSec q.cmd = false ∨ spolOpen s = true)
    (hsz : q.cmd / 16 % 4 = 3) (hv : cmdView q.cmd = false) (ht : s.dbu.addr / 2 ^ 11 % 64 < 48)
    (ha : available s (s.dbu.addr / 2 ^ 11 % 64) = true) (hh : (coreAt s (coreOf s.dbu.addr)).halted = true)
    (hsec : (coreAt s (coreOf s.dbu.addr)).sec = false ∨ cmdSec q.cmd = true) :
    exec .debugCoreAccess s = .next (performed (if cmdWr q.cmd then
        ((coreWrite q.cmd (coreOf s.dbu.addr) (s.dbu.addr / 64 % 4) (s.dbu.addr % 64) s.dbu.data s).1, 0,
          (coreWrite q.cmd (coreOf s.dbu.addr) (s.dbu.addr / 64 % 4) (s.dbu.addr % 64) s.dbu.data s).2)
      else
        (s, (coreRead q.cmd (coreOf s.dbu.addr) (s.dbu.addr / 64 % 4) (s.dbu.addr % 64) s).1,
          (coreRead q.cmd (coreOf s.dbu.addr) (s.dbu.addr / 64 % 4) (s.dbu.addr % 64) s).2))) := by
  have hworld : ((coreAt s (coreOf s.dbu.addr)).sec && !cmdSec q.cmd) = false := by
    rcases hsec with h | h <;> simp [h]
  simp only [exec, execDebugCoreAccess]
  rw [performAccess_open hq hd hsp hp hpol, coreAccess_reaches hsz hv ht ha, hh, hworld]
  rfl

/-- DEBUG_L1_READ of a word of a cached frame (R441). -/
theorem debugL1Read_word {q : DbgAccess} {f : CLine} (hq : s.dbu.access = some q) (hd : q.done = false)
    (hsp : q.cmd % 8 = 2) (hp : portActive s = true) (hpol : cmdSec q.cmd = false ∨ spolOpen s = true)
    {word key : Nat} (hl : l1Access q.cmd s.dbu.addr s =
      ({ s with draws := s.draws + 1 }, l1Word (some f) key word false s.draws, 0)) :
    ∃ t res, exec .debugL1Read s = .next t ∧ t.mem = s.mem ∧ t.cores = s.cores ∧ t.dbu = accessEnded s.dbu q res 0 ∧
      res % 2 ^ 36 = f.bits / 2 ^ (36 * word) % 2 ^ 36 := by
  refine ⟨performAccess 2 l1Access s, l1Word (some f) key word false s.draws, rfl, ?_⟩
  rw [performAccess_open hq hd hsp hp hpol, hl]
  exact ⟨rfl, rfl, performed_dbu hq rfl, l1Word_word f key word s.draws⟩

/-- REGISTER_WRITE of a register of control space (R4, R5, R16, R237). -/
theorem registerWrite_control {rq : Req} {addr : BitVec 45} {size : BitVec 2} {oct : Bool} {value : Double}
    {win off : Nat} (hr : reach rq s = true) (ht : targetOf s addr.toNat = .control win off) :
    exec (.registerWrite rq addr size oct value) s = .next (writeReg rq win off
      (accessWidth (2 ^ size.toNat) oct false) (value.toNat % 2 ^ accessWidth (2 ^ size.toNat) oct false) s).1 := by
  simp only [exec, execRegisterWrite, hr, Bool.not_true, Bool.false_eq_true, if_false, ht]

/-- A write of a register follows its world's rule, then its size (R7, R16, R237). -/
theorem writeReg_by_rule {rq : Req} {win off n v : Nat} :
    (regView s rq.sec win off = none → (writeReg rq win off n v s).1 = report (windowUnmapped win off rq true) s) ∧
      ∀ g, regView s rq.sec win off = some g →
        (worldRule g.writeBy rq = false →
          (writeReg rq win off n v s).1 = report (ownerRefused win off rq false v) s) ∧
        (worldRule g.writeBy rq = true → n ≠ g.bits →
          (writeReg rq win off n v s).1 = report (regRefused win off rq .size v) s) ∧
        (worldRule g.writeBy rq = true → n = g.bits → (writeReg rq win off n v s).1 = g.put rq v s) := by
  refine ⟨fun hg => ?_, fun g hg => ⟨fun hw => ?_, fun hw hn => ?_, fun hw hn => ?_⟩⟩
  · simp only [writeReg, hg]
  · simp only [writeReg, hg, hw, Bool.not_false, if_true]
  · simp only [writeReg, hg, hw, Bool.not_true, Bool.false_eq_true, if_false, if_pos hn]
  · simp only [writeReg, hg, hw, Bool.not_true, Bool.false_eq_true, if_false, hn, ne_eq, not_true_eq_false]

theorem unitBits_eq (a n : Nat) (oct : Bool) :
    unitBits a n oct = (if oct then 8 * (a % 64) else 9 * (a % 64), if oct then 8 * n else 9 * n) := by
  cases oct <;> rfl

/-- Settles O55: the frames by their header and data phase, the accesses by what each space's access gives. -/
theorem debugPortAccesses : Obligations.DebugPortAccesses := by
  intro reg seq mark par data rq addr size oct value s hm hc d r bits receipt
  refine ⟨fun hp hd => ⟨fun hok hf ha hr => ?_, fun hok => debugFrameRead_bad hp hd hok,
    fun hok hf ha hr => ⟨fun v hv hn => ?_, fun v hv hs hl hk hdv => ?_, fun hv => ?_⟩, ?_, ?_⟩, fun hp => ?_,
    fun q hq => ?_, fun hreach win off ht => ?_⟩
  · obtain ⟨t, ht, hmem, haddr, hdata, hans⟩ := debugFrameRead_answers hp hd hok hf ha hr
    refine ⟨t, ht, hmem, haddr, hdata, _, hans, responseBits_portBits 0 seq, rfl, ?_⟩
    rw [← portRead_data hr]
    exact fun j hj => withParity_quarters _ hj
  · obtain ⟨u, hu, hmem, hdbu⟩ := debugFrameWrite_accepted data hp hd hok hf ha hr
    obtain ⟨hmem', heff⟩ := writeData_new hr hdbu hf ha hv hn
    exact ⟨_, hu, hmem'.trans hmem, heff⟩
  · obtain ⟨u, hu, hmem, hdbu⟩ := debugFrameWrite_accepted data hp hd hok hf ha hr
    obtain ⟨haddr, hdata, hacc, hrec⟩ := writeData_again hr hdbu hv hs hl hk hdv
    exact ⟨_, hu, haddr, hdata, hacc.trans ha, hrec⟩
  · obtain ⟨u, hu, hmem, hdbu⟩ := debugFrameWrite_accepted data hp hd hok hf ha hr
    obtain ⟨haddr, hdata, hacc, hfr⟩ := writeData_fault (r := reg.toNat) (seq := seq) hdbu hf hv
    exact ⟨_, hu, haddr, hdata, hacc.trans ha, hfr⟩
  · obtain ⟨u, hu, hmem, hacc, hfault, -⟩ := goodWrite_dctl seq (v := 1) (by decide) hp hd
    exact ⟨u, by rw [← hu]; rfl, hacc, hfault, hmem⟩
  · obtain ⟨u, hu, hmem, hacc, hfault, hreason⟩ := goodWrite_dctl seq (v := 2) (by decide) hp hd
    exact ⟨u, by rw [← hu]; rfl, hacc, hfault, hreason, hmem⟩
  · simp only [exec, execDebugBreak, hp, if_true]
    rfl
  · intro a n view sec ends
    have hn : cmdUnits q.cmd = n := cmdUnits_eq q.cmd
    refine ⟨fun hdone hp => ⟨fun hsec hpol p hmem hsp _ => debugAccess_refused hq hdone hp hsec hpol hmem hsp,
      fun hpol => ⟨?_, ?_, ?_⟩⟩, fun hdone => ?_⟩
    · intro hsp ht hal hw hwait lo w
      have hb : unitBits a (cmdUnits q.cmd) (cmdView q.cmd) = (lo, w) := by
        rw [hn, unitBits_eq]
        rfl
      refine ⟨fun hwr hbad => ?_, fun hwr => ?_⟩
      · have h := debugPhysicalAccess_reads hq hdone hsp hp hpol ht (hn ▸ hal) hw hwait hwr (by rw [hb]; exact hbad)
        rw [hb, field_eq_div_mod] at h
        exact h
      · obtain ⟨t, he, hdbu, hother, hline⟩ :=
          debugPhysicalAccess_writes hm hq hdone hsp hp hpol ht (hn ▸ hal) hw hwait hwr
        rw [hb] at hline
        exact ⟨t, he, hdbu, hother, fun j _ => hline j⟩
    · intro tile i k hsp hsz hv ht ha
      refine ⟨fun hh => debugCoreAccess_running hq hdone hsp hp hpol hsz hv ht ha hh, fun hh hsec => ?_⟩
      have hrun := debugCoreAccess_halted hq hdone hsp hp hpol hsz hv ht ha hh hsec
      refine ⟨fun (hkind : s.dbu.addr / 64 % 4 = 0) (hwr : cmdWr q.cmd = false) => ?_,
        fun (hkind : s.dbu.addr / 64 % 4 = 0) (hwr : cmdWr q.cmd = true) hregs => ?_,
        fun (hkind : s.dbu.addr / 64 % 4 = 3) (hx : s.dbu.addr % 64 = 0) (hwr : cmdWr q.cmd = true) => ?_⟩
      · refine ⟨_, hrun, ?_⟩
        rw [hwr, if_neg Bool.false_ne_true, hkind, coreRead_general]
        exact ⟨rfl, performed_dbu hq rfl⟩
      · refine ⟨_, hrun, ?_⟩
        rw [if_pos hwr, hkind, coreWrite_general]
        refine ⟨performed_dbu hq rfl, ?_⟩
        have hk := coreAt_setCore hc i fun k => k.write (a % 64) (BitVec.ofNat 72 d.data)
        exact (congrArg (Core.read · _) hk).trans (read_write _ hregs (Nat.mod_lt _ (by decide)))
      · refine ⟨_, hrun, ?_⟩
        rw [if_pos hwr, hkind, hx, coreWrite_pc]
        refine ⟨performed_dbu hq rfl, ?_⟩
        have hk := coreAt_setCore hc i fun k => { k with pc := bundleAddr d.data, dly := 0 }
        exact ⟨congrArg Core.pc hk, congrArg Core.dly hk⟩
    · intro tile k way cache hsp hsz hwr ht ha hh htag hway f hf hsec
      exact debugL1Read_word hq hdone hsp hp hpol (l1Access_word hsz hwr ht ha hh htag hway hf hsec)
    · obtain hr | hr := eq_or_ne q.reason 0
      · refine ⟨_, accessComplete_done hq hdone hr, rfl, rfl, fun _ => ⟨rfl, rfl, ?_⟩, fun h => absurd hr h⟩
        rw [← hn]
        rfl
      · obtain ⟨t, he, hmem, hacc, hfault⟩ := accessComplete_failed hq hdone hr
        exact ⟨t, he, hmem, hacc, fun h => absurd h hr, fun _ => hfault⟩
  · have hrun := registerWrite_control (size := size) (oct := oct) (value := value) hreach ht
    obtain ⟨hnone, hsome⟩ := writeReg_by_rule (s := s) (rq := rq) (win := win) (off := off)
      (n := accessWidth (2 ^ size.toNat) oct false) (v := value.toNat % 2 ^ accessWidth (2 ^ size.toNat) oct false)
    intro w run v
    refine ⟨fun hg => hrun.trans (congrArg _ (hnone hg)), fun g hg => ?_⟩
    obtain ⟨howner, hsize, hput⟩ := hsome g hg
    exact ⟨fun hw => hrun.trans (congrArg _ (howner hw)), fun hw hn => hrun.trans (congrArg _ (hsize hw hn)),
      fun hw hn => hrun.trans (congrArg _ (hput hw hn))⟩

end Sys2Proof.Machine
end

section
/-! The links of the host groups and network ports: what their records, their reports and the resets of their interfaces
leave unchanged. -/

namespace Sys2Proof.Machine

variable {s t : State}

/-- A table with one key changed by a function. -/
theorem mget_mmod {α : Type} [DecidableEq α] {d : α} {m : SMap α} (h : mwf d m = true) (i j : Nat) (f : α → α) :
    mget d (mmod d m i f) j = if j = i then f (mget d m i) else mget d m j := by
  split
  · next hj => exact hj ▸ mget_mset_same h
  · next hj => exact mget_mset_ne h hj

theorem groupAt_setGroup (h : mwf {} s.prt.groups = true) (g j : Nat) (f : GroupLink → GroupLink) :
    groupAt (setGroup g f s) j = if j = g then f (groupAt s g) else groupAt s j := mget_mmod h g j f

theorem portAt_setPort (h : mwf {} s.prt.ports = true) (p j : Nat) (f : Port → Port) :
    portAt (setPort p f s) j = if j = p then f (portAt s p) else portAt s j := mget_mmod h p j f

theorem setPort_wf (h : mwf {} s.prt.ports = true) (p : Nat) (f : Port → Port) :
    mwf {} (setPort p f s).prt.ports = true := mmod_wf h

theorem quadAt_setQuad (h : mwf {} s.prt.quads = true) (q j : Nat) (f : QuadBuf → QuadBuf) :
    quadAt (setQuad q f s) j = if j = q then f (quadAt s q) else quadAt s j := mget_mmod h q j f

theorem viAt_setVi (h : mwf {} s.vif.vis = true) (v j : Nat) (f : Vi → Vi) :
    viAt (setVi v f s) j = if j = v then f (viAt s v) else viAt s j := mget_mmod h v j f

/-! ### What no command of a link changes -/

/-- On the way from `s` to `t` the image in use, the start state, the power stage, the clocks and memory stay. -/
structure LinkStays (s t : State) : Prop where
  cfg : t.cfg = s.cfg
  nv : t.nv = s.nv
  pwr : t.pwr = s.pwr
  isl : t.isl = s.isl
  mem : t.mem = s.mem

theorem LinkStays.refl (s : State) : LinkStays s s := ⟨rfl, rfl, rfl, rfl, rfl⟩

theorem LinkStays.trans {u : State} (h : LinkStays s t) (h' : LinkStays t u) : LinkStays s u :=
  ⟨h'.cfg.trans h.cfg, h'.nv.trans h.nv, h'.pwr.trans h.pwr, h'.isl.trans h.isl, h'.mem.trans h.mem⟩

theorem LinkStays.image (h : LinkStays s t) : image t = image s := by simp only [Machine.image, h.cfg, h.nv]

theorem LinkStays.sec (h : LinkStays s t) (id o n : Nat) : sec t id o n = sec s id o n := by
  simp only [Machine.sec, h.image]

theorem LinkStays.secX (h : LinkStays s t) (id o n dflt : Nat) : secX t id o n dflt = secX s id o n dflt := by
  simp only [Machine.secX, h.image]

theorem LinkStays.nlane (h : LinkStays s t) (p : Nat) : nlane t p = nlane s p := h.sec ..

theorem LinkStays.portRate (h : LinkStays s t) (p : Nat) : portRate t p = portRate s p := h.sec ..

theorem LinkStays.maxGen (h : LinkStays s t) (g : Nat) : maxGen t g = maxGen s g := h.sec ..

theorem LinkStays.pfcen (h : LinkStays s t) (p : Nat) : pfcen t p = pfcen s p := h.secX ..

theorem LinkStays.xoffLine (h : LinkStays s t) (p : Nat) : xoffLine t p = xoffLine s p := by
  unfold Machine.xoffLine portShare
  rw [h.nlane, h.secX]

theorem LinkStays.occupancy (h : LinkStays s t) (hq : ∀ q, (quadAt t q).ingress = (quadAt s q).ingress) (p : Nat) :
    occupancy t p = occupancy s p := by
  unfold Machine.occupancy portQuads portQuad portPresent
  simp only [h.sec, h.nlane, hq]

theorem LinkStays.serving (h : LinkStays s t) : serving t = serving s := by
  simp only [Machine.serving, h.cfg, h.pwr]

theorem LinkStays.viGroup (h : LinkStays s t) (v : Nat) : viGroup t v = viGroup s v := h.sec ..

theorem LinkStays.nvi (h : LinkStays s t) : nvi t = nvi s := h.sec ..

theorem report_stays (r : Report) (s : State) : LinkStays s (report r s) :=
  ⟨report_cfg s r, report_nv s r, report_pwr s r, report_isl s r, report_mem s r⟩

/-! ### The reports of the ports -/

/-- A report that is made at most once a second notes its time or its count, and is then made or not (R373). -/
theorem limited_cases (code inst : Nat) (fields : Nat → List (Nat × Nat)) (s : State) :
    ∃ l r, limited code inst fields s = { s with prt := { s.prt with limits := l } } ∨
      limited code inst fields s = report r { s with prt := { s.prt with limits := l } } := by
  unfold limited
  extract_lets key now
  split
  next last n _ =>
  extract_lets due new s₁
  refine ⟨s₁.prt.limits, mkReport Unit.prt Cls.reported code inst (fields (n + 1)), ?_⟩
  split
  · exact .inr rfl
  · exact .inl rfl

section
variable (code inst : Nat) (fields : Nat → List (Nat × Nat)) (s : State)

@[simp] theorem limited_groups : (limited code inst fields s).prt.groups = s.prt.groups := by
  obtain ⟨l, r, h | h⟩ := limited_cases code inst fields s <;> simp [h]

@[simp] theorem limited_ports : (limited code inst fields s).prt.ports = s.prt.ports := by
  obtain ⟨l, r, h | h⟩ := limited_cases code inst fields s <;> simp [h]

@[simp] theorem limited_quads : (limited code inst fields s).prt.quads = s.prt.quads := by
  obtain ⟨l, r, h | h⟩ := limited_cases code inst fields s <;> simp [h]

@[simp] theorem limited_pfc : (limited code inst fields s).prt.pfc = s.prt.pfc := by
  obtain ⟨l, r, h | h⟩ := limited_cases code inst fields s <;> simp [h]

@[simp] theorem limited_vif : (limited code inst fields s).vif = s.vif := by
  obtain ⟨l, r, h | h⟩ := limited_cases code inst fields s <;> simp [h]

@[simp] theorem limited_hperst : (limited code inst fields s).hperst = s.hperst := by
  obtain ⟨l, r, h | h⟩ := limited_cases code inst fields s <;> simp [h]

theorem limited_stays : LinkStays s (limited code inst fields s) := by
  obtain ⟨l, r, h | h⟩ := limited_cases code inst fields s
  · rw [h]
    exact ⟨rfl, rfl, rfl, rfl, rfl⟩
  · rw [h]
    exact .trans (t := { s with prt := { s.prt with limits := l } }) ⟨rfl, rfl, rfl, rfl, rfl⟩ (report_stays r _)

end

/-- The first report of a code and number is made (R373). -/
theorem limited_first {code inst : Nat} {fields : Nat → List (Nat × Nat)}
    (h : mget (none, 0) s.prt.limits (4096 * code + inst) = (none, 0)) :
    (limited code inst fields s).hlt = (report (mkReport Unit.prt Cls.reported code inst (fields 1)) s).hlt ∧
      (limited code inst fields s).prt.limits =
        mset (none, 0) s.prt.limits (4096 * code + inst) (some s.isl.chron, 0) := by
  unfold limited
  dsimp only
  rw [h]
  simp only [if_true, report_prt]
  exact ⟨report_hlt rfl, trivial⟩

/-- Where no report has been made yet, one is made, and one of another code or number can follow it (R373). -/
theorem limited_pair {code inst code' inst' : Nat} {l l' : List (Nat × Nat)} {u : State} (h : s.prt.limits = [])
    (hne : 4096 * code' + inst' ≠ 4096 * code + inst)
    (hl : u.prt.limits = (limited code inst (fun _ => l) s).prt.limits)
    (hh : u.hlt = (limited code inst (fun _ => l) s).hlt) :
    (limited code' inst' (fun _ => l') u).hlt = (report (mkReport Unit.prt Cls.reported code' inst' l')
      (report (mkReport Unit.prt Cls.reported code inst l) s)).hlt := by
  obtain ⟨hhlt, hlim⟩ := limited_first (s := s) (code := code) (inst := inst) (fields := fun _ => l) (by rw [h]; rfl)
  have hu : mget (none, 0) u.prt.limits (4096 * code' + inst') = (none, 0) := by
    rw [hl, hlim, mget_mset_ne (by rw [h]; rfl) hne, h]
    rfl
  exact (limited_first hu).1.trans (report_hlt (hh.trans hhlt))

/-! ### The lanes of a link that comes up -/

/-- On the way from `s` to `t` only lanes change. -/
structure LanesOnly (s t : State) : Prop extends LinkStays s t where
  groups : t.prt.groups = s.prt.groups
  ports : t.prt.ports = s.prt.ports
  limits : t.prt.limits = s.prt.limits
  pfc : t.prt.pfc = s.prt.pfc
  hlt : t.hlt = s.hlt
  ingress : ∀ q, (quadAt t q).ingress = (quadAt s q).ingress

/-- A link that comes up changes the lanes of its quads alone. -/
theorem lockLanes_lanesOnly (h : mwf {} s.prt.quads = true) (first n : Nat) : LanesOnly s (lockLanes first n s) := by
  refine (List.foldlRecOn (motive := fun t => mwf {} t.prt.quads = true ∧ LanesOnly s t) _ _
    ⟨h, ⟨.refl s, rfl, rfl, rfl, rfl, rfl, fun _ => rfl⟩⟩ fun t ht i _ => ?_).2
  obtain ⟨hwf, hstays, hgroups, hports, hlimits, hpfc, hhlt, hin⟩ := ht
  refine ⟨mset_wf hwf, hstays.trans ⟨rfl, rfl, rfl, rfl, rfl⟩, hgroups, hports, hlimits, hpfc, hhlt, fun q => ?_⟩
  rw [quadAt_setQuad hwf]
  split
  · next hq => exact hq ▸ hin q
  · exact hin q

/-! ### The pauses that a port asks for -/

/-- A port below XOFF, or without PFC classes, asks for no pause. -/
theorem flowControl_below {p : Nat}
    (h : pfcen s p = 0 ∨ ((portAt s p).xoff = false ∧ occupancy s p < xoffLine s p)) : flowControl p s = s := by
  unfold flowControl
  dsimp only
  split
  · rfl
  · next hon =>
    obtain ⟨hx, ho⟩ := h.resolve_left fun h => hon (.inl h)
    simp [hx, ho]

/-- A port that is up and reaches XOFF pauses its partner (R370). -/
theorem flowControl_reached {p : Nat} (hp : pfcen s p ≠ 0) (hu : (portAt s p).up = true)
    (hx : (portAt s p).xoff = false) (ho : xoffLine s p ≤ occupancy s p) :
    flowControl p s = sendPfc p 65535 (setPort p (fun x => { x with xoff := true }) s) := by
  unfold flowControl
  simp [hp, hu, hx, ho]

/-- The flow control of a port changes its record and the newest PFC frame alone. -/
theorem flowControl_effect (h : mwf {} s.prt.ports = true) (p : Nat) :
    let t := flowControl p s
    LinkStays s t ∧ t.prt.groups = s.prt.groups ∧ t.hlt = s.hlt ∧ ∀ j, j ≠ p → portAt t j = portAt s j := by
  have hsend (n : Nat) (f : Port → Port) (j : Nat) (hj : j ≠ p) :
      portAt (sendPfc p n (setPort p f s)) j = portAt s j := by
    unfold sendPfc
    rw [portAt_setPort (mmod_wf h), if_neg hj]
    exact (portAt_setPort h p j f).trans (if_neg hj)
  unfold flowControl
  dsimp only
  split
  · exact ⟨.refl s, rfl, rfl, fun _ _ => rfl⟩
  · split
    · exact ⟨⟨rfl, rfl, rfl, rfl, rfl⟩, rfl, rfl, hsend _ _⟩
    · split
      · exact ⟨⟨rfl, rfl, rfl, rfl, rfl⟩, rfl, rfl, hsend _ _⟩
      · exact ⟨.refl s, rfl, rfl, fun _ _ => rfl⟩

/-! ### The resets of the interfaces of a group -/

/-- On the way from `s` to `t` only interfaces, doorbells, culverts and bound lines change. -/
structure HostsOnly (s t : State) : Prop extends LinkStays s t where
  hlt : t.hlt = s.hlt
  prt : t.prt = s.prt
  hperst : t.hperst = s.hperst

theorem HostsOnly.refl (s : State) : HostsOnly s s := ⟨.refl s, rfl, rfl, rfl⟩

theorem HostsOnly.trans {u : State} (h : HostsOnly s t) (h' : HostsOnly t u) : HostsOnly s u :=
  ⟨h.toLinkStays.trans h'.toLinkStays, h'.hlt.trans h.hlt, h'.prt.trans h.prt, h'.hperst.trans h.hperst⟩

theorem ringDoorbell_hostsOnly (src code : Nat) (sec : Bool) (s : State) : HostsOnly s (ringDoorbell src code sec s) :=
  ⟨⟨rfl, rfl, rfl, rfl, rfl⟩, rfl, rfl, rfl⟩

theorem dropRequests_hostsOnly (g : Nat) (s : State) : HostsOnly s (dropRequests g s) :=
  ⟨⟨rfl, rfl, rfl, rfl, rfl⟩, rfl, rfl, rfl⟩

/-- The reads that a reset of an interface drops. -/
theorem dropReads_effect (v : Nat) (s : State) :
    HostsOnly s (dropReads v s) ∧
      (dropReads v s).vif.vis = mmod {} s.vif.vis v fun x => { x with waits := [], reads := [] } := by
  have h : ∀ l : List Nat, HostsOnly s (l.foldl (fun s _ => answerAlso v .unsupported s) s) ∧
      (l.foldl (fun s _ => answerAlso v .unsupported s) s).vif.vis = s.vif.vis := fun l =>
    List.foldlRecOn (motive := fun t => HostsOnly s t ∧ t.vif.vis = s.vif.vis) l _ ⟨.refl s, rfl⟩
      fun t ht _ _ => ⟨ht.1.trans ⟨⟨rfl, rfl, rfl, rfl, rfl⟩, rfl, rfl, rfl⟩, ht.2⟩
  obtain ⟨hhosts, hvis⟩ := h (List.range ((viAt s v).waits.length + (viAt s v).reads.length))
  refine ⟨hhosts.trans ⟨⟨rfl, rfl, rfl, rfl, rfl⟩, rfl, rfl, rfl⟩, ?_⟩
  simp only [dropReads, setVi, hvis]

/-- The transfers that a reset of an interface ends. -/
theorem resetCulverts_effect (v : Nat) (s : State) :
    HostsOnly s (resetCulverts v s) ∧ (resetCulverts v s).vif = s.vif := by
  refine List.foldlRecOn (motive := fun t => HostsOnly s t ∧ t.vif = s.vif) _ _ ⟨.refl s, rfl⟩ fun t ht c _ => ?_
  split
  · exact ht
  · split
    · exact ⟨ht.1.trans ⟨⟨rfl, rfl, rfl, rfl, rfl⟩, rfl, rfl, rfl⟩, ht.2⟩
    · exact ht

/-- A reset of an interface leaves it in reset, and every other interface as it was (R349, R350). -/
theorem resetVi_effect (h : mwf {} s.vif.vis = true) (flr : Bool) (v : Nat) :
    HostsOnly s (resetVi flr v s) ∧ mwf {} (resetVi flr v s).vif.vis = true ∧
      ((viAt (resetVi flr v s) v).reset = true) ∧ ∀ u, u ≠ v → viAt (resetVi flr v s) u = viAt s u := by
  obtain ⟨hdrop, hvis⟩ := dropReads_effect v s
  have hwf : mwf {} (dropReads v s).vif.vis = true := hvis ▸ mmod_wf h
  unfold resetVi
  generalize dropReads v s = s₁ at *
  extract_lets s₀ s₂ pf vis s₃
  have h₃ : HostsOnly s₁ s₃ ∧ s₃.vif.vis = mmod {} s₁.vif.vis v (afterReset flr s₁.isl.chron) := by
    unfold s₃
    split
    · exact ⟨⟨⟨rfl, rfl, rfl, rfl, rfl⟩, rfl, rfl, rfl⟩, rfl⟩
    · exact ⟨⟨⟨rfl, rfl, rfl, rfl, rfl⟩, rfl, rfl, rfl⟩, rfl⟩
  generalize s₃ = s₃ at *
  obtain ⟨hcul, hvif⟩ := resetCulverts_effect v (ringDoorbell (viRstsrc s₃ v) 0o703 false s₃)
  rw [ringDoorbell_vif] at hvif
  generalize hend : resetCulverts v (ringDoorbell (viRstsrc s₃ v) 0o703 false s₃) = e at *
  have hat u : viAt e u = if u = v then afterReset flr s₁.isl.chron (viAt s₁ v) else viAt s₁ u := by
    rw [viAt, hvif, h₃.2]
    exact mget_mmod hwf v u _
  refine ⟨(hdrop.trans h₃.1).trans ((ringDoorbell_hostsOnly ..).trans hcul), ?_, ?_, fun u hu => ?_⟩
  · rw [hvif, h₃.2]
    exact mmod_wf hwf
  · rw [hat, if_pos rfl]
    rfl
  · rw [hat, if_neg hu, viAt, hvis]
    exact (mget_mmod h v u _).trans (if_neg hu)

/-- The interfaces of a list are reset one after another, and each of them stays in reset. -/
theorem resetVis_effect (l : List Nat) : ∀ s : State, mwf {} s.vif.vis = true →
    HostsOnly s (l.foldl (fun s u => resetVi false u s) s) ∧
      ∀ u, u ∈ l ∨ (viAt s u).reset = true → (viAt (l.foldl (fun s u => resetVi false u s) s) u).reset = true := by
  induction l with
  | nil => exact fun s _ => ⟨.refl s, fun u hu => hu.resolve_left List.not_mem_nil⟩
  | cons v l ih =>
    intro s hwf
    obtain ⟨hhosts, hwf', hself, hothers⟩ := resetVi_effect hwf false v
    rw [List.foldl_cons]
    generalize resetVi false v s = s₁ at *
    obtain ⟨hrest, hin⟩ := ih s₁ hwf'
    refine ⟨hhosts.trans hrest, fun u hu => hin u ?_⟩
    by_cases huv : u = v
    · exact .inr (huv ▸ hself)
    · rw [hothers u huv]
      exact hu.imp_left fun hm => (List.mem_cons.1 hm).resolve_left huv

/-- A group reset changes interfaces, doorbells, culverts and bound lines alone, and leaves every interface of the group in
reset while services run (R351). -/
theorem groupReset_effect (h : mwf {} s.vif.vis = true) (g : Nat) :
    HostsOnly s (groupReset g s) ∧
      (serving s = true → ∀ u < nvi s, viGroup s u = g → (viAt (groupReset g s) u).reset = true) := by
  unfold groupReset afterLock
  split
  · next hs => exact ⟨.refl s, fun hon => by simp [hon] at hs⟩
  · have hmem u (hu : u < nvi s) (hg : viGroup s u = g) : u ∈ visWhere s fun u => viGroup s u == g := by
      simp [visWhere, hu, hg]
    generalize (visWhere s fun u => viGroup s u == g) = l at hmem
    obtain ⟨hhosts, hin⟩ := resetVis_effect l s h
    exact ⟨hhosts.trans (dropRequests_hostsOnly g _), fun _ u hu hg => hin u (.inl (hmem u hu hg))⟩

end Sys2Proof.Machine
end

section
/-! What the commands of the link of a host group do. -/

namespace Sys2Proof.Machine

variable {s : State}

theorem perstBit_set : ∀ g : GroupId, (BitVec.ofNat 8 (2 ^ g.val)).getLsbD g.val = true := by decide

/-- A group whose link has a width and a rate; at width 0 the link is down. -/
def linkAt (w r : Nat) (x : GroupLink) : GroupLink := { x with width := w, rate := r }

/-- The report of a link of a group that goes down (R362). -/
def groupDownReport (g : GroupId) (x : GroupLink) : Report :=
  mkReport Unit.prt Cls.reported Code.prtLinkDown (96 + g.val) [(0, 1), (g.val, 3), (x.width, 4), (x.rate, 4)]

/-- A change of a group's record leaves the other groups and the ports. -/
def OnlyGroup (g : GroupId) (s t : State) : Prop :=
  (∀ j, j ≠ g.val → groupAt t j = groupAt s j) ∧ t.prt.ports = s.prt.ports ∧ t.mem = s.mem

theorem setGroup_onlyGroup (h : mwf {} s.prt.groups = true) (g : GroupId) (f : GroupLink → GroupLink) :
    OnlyGroup g s (setGroup g.val f s) :=
  ⟨fun j hj => (groupAt_setGroup h g.val j f).trans (if_neg hj), rfl, rfl⟩

/-- The link of a group that is up goes down, and the interfaces of the group are reset (R351, R362). -/
theorem groupLost_effect (hg : mwf {} s.prt.groups = true) (hv : mwf {} s.vif.vis = true) {g : GroupId}
    (hx : (groupAt s g.val).width ≠ 0) :
    let t := groupReset g.val (groupDown g s)
    groupAt t g.val = { groupAt s g.val with width := 0, rate := 0 } ∧ OnlyGroup g s t ∧ t.hperst = s.hperst ∧
      (serving s = true → ∀ u < nvi s, viGroup s u = g.val → (viAt t u).reset = true) ∧
      (s.prt.limits = [] → t.hlt = (report (groupDownReport g (groupAt s g.val)) s).hlt) := by
  have hdown : groupDown g s = linkReport Code.prtLinkDown (.group g) (groupAt s g.val).width (groupAt s g.val).rate
      (setGroup g.val (linkAt 0 0) s) := by
    unfold groupDown
    exact if_neg hx
  rw [hdown, linkReport]
  dsimp only
  have hself := (groupAt_setGroup hg g.val g.val (linkAt 0 0)).trans (if_pos rfl)
  obtain ⟨hothers, hports, -⟩ := setGroup_onlyGroup hg g (linkAt 0 0)
  have hset : LinkStays s (setGroup g.val (linkAt 0 0) s) := ⟨rfl, rfl, rfl, rfl, rfl⟩
  have hlimits : (setGroup g.val (linkAt 0 0) s).prt.limits = s.prt.limits := rfl
  generalize hd : (fun _ : Nat => [(0, 1), (g.val, 3), ((groupAt s g.val).width, 4), ((groupAt s g.val).rate, 4)]) = fs
  have hstays := hset.trans (limited_stays Code.prtLinkDown (96 + g.val) fs (setGroup g.val (linkAt 0 0) s))
  obtain ⟨hhosts, hreset⟩ := groupReset_effect
    (s := limited Code.prtLinkDown (96 + g.val) fs (setGroup g.val (linkAt 0 0) s)) (by rw [limited_vif]; exact hv) g.val
  have hat j : groupAt (groupReset g.val (limited Code.prtLinkDown (96 + g.val) fs
      (setGroup g.val (linkAt 0 0) s))) j = groupAt (setGroup g.val (linkAt 0 0) s) j := by
    simp only [groupAt, hhosts.prt, limited_groups]
  refine ⟨(hat _).trans hself, ⟨fun j hj => (hat j).trans (hothers j hj), ?_, hhosts.mem.trans hstays.mem⟩, ?_,
    fun hon u hu hgr => hreset ?_ u ?_ ?_, fun hfirst => ?_⟩
  · rw [hhosts.prt, limited_ports, hports]
  · rw [hhosts.hperst, limited_hperst, setGroup_hperst]
  · rw [hstays.serving, hon]
  · rw [hstays.nvi]
    exact hu
  · rw [hstays.viGroup, hgr]
  · rw [hhosts.hlt, (limited_first (by rw [hlimits, hfirst]; rfl)).1, ← hd]
    exact report_hlt rfl

/-- HPERST_RISE of a group in reset (R23, R361). -/
theorem hperstRise_effect (hg : mwf {} s.prt.groups = true) {g : GroupId} (hp : perstHigh s g.val = false) :
    ∃ t, exec (.hperstRise g) s = .next t ∧ perstHigh t g.val = true ∧ OnlyGroup g s t ∧
      groupAt t g.val = { groupAt s g.val with noflit := false } := by
  refine ⟨setGroup g.val (fun x => { x with noflit := false })
    { s with hperst := s.hperst ||| BitVec.ofNat 8 (2 ^ g.val) }, ?_, ?_, ?_, ?_⟩
  · simp only [exec, execHperstRise, hp, Bool.false_eq_true, if_false]
  · rw [perstHigh, setGroup_hperst, BitVec.getLsbD_or, perstBit_set, Bool.or_true]
  · exact setGroup_onlyGroup (s := { s with hperst := s.hperst ||| BitVec.ofNat 8 (2 ^ g.val) }) hg g _
  · exact (groupAt_setGroup (s := { s with hperst := s.hperst ||| BitVec.ofNat 8 (2 ^ g.val) }) hg _ _ _).trans
      (if_pos rfl)

/-- HPERST_FALL of a group that is up (R23, R351). -/
theorem hperstFall_effect (hg : mwf {} s.prt.groups = true) (hv : mwf {} s.vif.vis = true) {g : GroupId}
    (hx : (groupAt s g.val).width ≠ 0) (hp : perstHigh s g.val = true) (hpres : groupPresent s g.val = true) :
    ∃ t, exec (.hperstFall g) s = .next t ∧ perstHigh t g.val = false ∧
      groupAt t g.val = { groupAt s g.val with width := 0, rate := 0 } ∧ OnlyGroup g s t ∧
      (s.prt.limits = [] → t.hlt = (report (groupDownReport g (groupAt s g.val)) s).hlt) := by
  have hrun : exec (.hperstFall g) s =
      .next (groupReset g.val (groupDown g { s with hperst := s.hperst &&& ~~~(BitVec.ofNat 8 (2 ^ g.val)) })) := by
    have hpres' : groupPresent { s with hperst := s.hperst &&& ~~~(BitVec.ofNat 8 (2 ^ g.val)) } g.val = true := hpres
    simp only [exec, execHperstFall, hp, hpres', Bool.not_true, Bool.false_eq_true, if_false]
  obtain ⟨hself, honly, hperst, -, hhlt⟩ :=
    groupLost_effect (s := { s with hperst := s.hperst &&& ~~~(BitVec.ofNat 8 (2 ^ g.val)) }) hg hv hx
  refine ⟨_, hrun, ?_, hself, honly, fun h => (hhlt h).trans (report_hlt rfl)⟩
  rw [perstHigh, hperst, BitVec.getLsbD_and, BitVec.getLsbD_not, perstBit_set, Bool.not_true, Bool.and_false,
    Bool.and_false]

/-- What a group that comes up reports: its link, and that it is degraded below its full width or highest rate. -/
def upReports (g : GroupId) (w r full : Nat) (s : State) : State :=
  let t := limited Code.prtLinkUp (96 + g.val) (fun _ => [(0, 1), (g.val, 3), (w, 4), (r, 4)]) s
  if w < full ∨ r < maxGen t g.val then
    limited Code.prtLinkDegraded (96 + g.val) (fun _ => [(g.val, 3), (w, 4), (r, 4)]) t
  else t

/-- The first reports of a group that comes up, in their order, and what they leave (R362, R373). -/
theorem upReports_effect (g : GroupId) (w r full : Nat) (s : State) :
    let t := upReports g w r full s
    LinkStays s t ∧ t.prt.groups = s.prt.groups ∧ t.prt.ports = s.prt.ports ∧
      (s.prt.limits = [] →
        let up := report (mkReport Unit.prt Cls.reported Code.prtLinkUp (96 + g.val)
          [(0, 1), (g.val, 3), (w, 4), (r, 4)]) s
        t.hlt = (if w < full ∨ r < maxGen s g.val
          then report (mkReport Unit.prt Cls.reported Code.prtLinkDegraded (96 + g.val)
            [(g.val, 3), (w, 4), (r, 4)]) up else up).hlt) := by
  have hup := limited_stays Code.prtLinkUp (96 + g.val) (fun _ => [(0, 1), (g.val, 3), (w, 4), (r, 4)]) s
  unfold upReports
  dsimp only
  rw [hup.maxGen]
  split
  · have hne : 4096 * Code.prtLinkDegraded + (96 + g.val) ≠ 4096 * Code.prtLinkUp + (96 + g.val) := by
      simp [Code.prtLinkDegraded, Code.prtLinkUp]
    exact ⟨hup.trans (limited_stays ..), by rw [limited_groups, limited_groups], by rw [limited_ports, limited_ports],
      fun h => limited_pair h hne rfl rfl⟩
  · exact ⟨hup, limited_groups .., limited_ports .., fun h => (limited_first (by rw [h]; rfl)).1⟩

/-- PRT_LINK_UP of a group at a new width or rate, in order of its two reports (R360–R362). -/
theorem groupLinkUp_effect (hg : mwf {} s.prt.groups = true) (hq : mwf {} s.prt.quads = true) {g : GroupId}
    {w r : BitVec 4} (hl : lanesOn s = true) (hpres : groupPresent s g.val = true) (hp : perstHigh s g.val = true)
    (hn : (groupAt s g.val).noflit = false)
    (hnew : (groupAt s g.val).width ≠ w.toNat ∨ (groupAt s g.val).rate ≠ r.toNat)
    (hgone : ∀ q ∈ groupQuads s g.val, quadGone s q = false) (hw : 1 ≤ w.toNat) (hwf : w.toNat ≤ fullWidth s g.val)
    (hr : 1 ≤ r.toNat) (hrm : r.toNat ≤ maxGen s g.val) :
    ∃ t, exec (.prtLinkUp (.group g) w r) s = .next t ∧ OnlyGroup g s t ∧
      groupAt t g.val = { groupAt s g.val with width := w.toNat, rate := r.toNat } ∧
      (s.prt.limits = [] →
        let up := report (mkReport Unit.prt Cls.reported Code.prtLinkUp (96 + g.val)
          [(0, 1), (g.val, 3), (w.toNat, 4), (r.toNat, 4)]) s
        t.hlt = (if w.toNat < fullWidth s g.val ∨ r.toNat < maxGen s g.val
          then report (mkReport Unit.prt Cls.reported Code.prtLinkDegraded (96 + g.val)
            [(g.val, 3), (w.toNat, 4), (r.toNat, 4)]) up else up).hlt) := by
  have hrun : exec (.prtLinkUp (.group g) w r) s =
      .next (upReports g w.toNat r.toNat (fullWidth s g.val)
        (lockLanes (4 * groupQuad (setGroup g.val (linkAt w.toNat r.toNat) s) g.val) (2 ^ (w.toNat - 1))
          (setGroup g.val (linkAt w.toNat r.toNat) s))) := by
    have hany : (groupQuads s g.val).any (quadGone s) = false :=
      List.any_eq_false.2 fun q hq => by simp [hgone q hq]
    have hsame : ((groupAt s g.val).width == w.toNat && (groupAt s g.val).rate == r.toNat) = false := by
      rcases hnew with h | h <;> simp [h]
    have hw0 : (w.toNat == 0) = false := beq_false_of_ne (by omega)
    have hr0 : (r.toNat == 0) = false := beq_false_of_ne (by omega)
    simp only [exec, execPrtLinkUp, hl, hpres, hp, hn, hany, hsame, hw0, hr0, decide_eq_false (Nat.not_lt.2 hwf),
      decide_eq_false (Nat.not_lt.2 hrm), Bool.not_true, Bool.false_eq_true, if_false, Bool.or_false, linkReport,
      upReports]
    rfl
  have hset := setGroup_onlyGroup hg g (linkAt w.toNat r.toNat)
  have hself := (groupAt_setGroup hg g.val g.val (linkAt w.toNat r.toNat)).trans (if_pos rfl)
  have hs₁ : LinkStays s (setGroup g.val (linkAt w.toNat r.toNat) s) := ⟨rfl, rfl, rfl, rfl, rfl⟩
  have hlimits : (setGroup g.val (linkAt w.toNat r.toNat) s).prt.limits = s.prt.limits := rfl
  have hhlt := setGroup_hlt s g.val (linkAt w.toNat r.toNat)
  have hlanes := lockLanes_lanesOnly (s := setGroup g.val (linkAt w.toNat r.toNat) s) hq
    (4 * groupQuad (setGroup g.val (linkAt w.toNat r.toNat) s) g.val) (2 ^ (w.toNat - 1))
  refine ⟨_, hrun, ?_⟩
  clear hrun
  generalize lockLanes _ _ _ = s₂ at *
  generalize setGroup g.val (linkAt w.toNat r.toNat) s = s₁ at *
  obtain ⟨hothers, hports, -⟩ := hset
  obtain ⟨hstays, hgroups', hports', hup⟩ := upReports_effect g w.toNat r.toNat (fullWidth s g.val) s₂
  have hat j : groupAt (upReports g w.toNat r.toNat (fullWidth s g.val) s₂) j = groupAt s₁ j := by
    simp only [groupAt, hgroups', hlanes.groups]
  refine ⟨⟨fun j hj => (hat j).trans (hothers j hj), hports'.trans (hlanes.ports.trans hports),
    (hs₁.trans (hlanes.toLinkStays.trans hstays)).mem⟩, (hat _).trans hself, fun h => ?_⟩
  rw [hup (by rw [hlanes.limits, hlimits, h]), (hs₁.trans hlanes.toLinkStays).maxGen]
  have hhlt₂ : s₂.hlt = s.hlt := hlanes.hlt.trans hhlt
  split
  · exact report_hlt (report_hlt hhlt₂)
  · exact report_hlt hhlt₂

/-- PRT_LINK_NOFLIT of a group in Detect (R361). -/
theorem prtLinkNoflit_effect (hg : mwf {} s.prt.groups = true) {g : GroupId} (hl : lanesOn s = true)
    (hpres : groupPresent s g.val = true) (hp : perstHigh s g.val = true) (hn : (groupAt s g.val).noflit = false)
    (hx : (groupAt s g.val).width = 0) :
    ∃ t, exec (.prtLinkNoflit g) s = .next t ∧ OnlyGroup g s t ∧
      groupAt t g.val = { groupAt s g.val with noflit := true } ∧
      (s.prt.limits = [] → t.hlt = (report (mkReport Unit.prt Cls.reported Code.prtLinkNoflit (96 + g.val)
        [(g.val, 3)]) s).hlt) := by
  let f := fun x : GroupLink => { x with noflit := true }
  have hself : groupAt (setGroup g.val f s) g.val = f (groupAt s g.val) :=
    (groupAt_setGroup hg _ _ f).trans (if_pos rfl)
  obtain ⟨hothers, hports, hmem⟩ := setGroup_onlyGroup hg g f
  refine ⟨limited Code.prtLinkNoflit (96 + g.val) (fun _ => [(g.val, 3)]) (setGroup g.val f s), ?_,
    ⟨fun j hj => ?_, ?_, (limited_stays ..).mem.trans hmem⟩, ?_, fun h => ?_⟩
  · simp [exec, execPrtLinkNoflit, hl, hpres, hp, hn, groupUp, hx, f]
  · simp only [groupAt, limited_groups]
    exact hothers j hj
  · rw [limited_ports, hports]
  · simp only [groupAt, limited_groups]
    exact hself
  · exact (limited_first (by rw [show (setGroup g.val f s).prt.limits = [] from h]; rfl)).1.trans (report_hlt rfl)

end Sys2Proof.Machine
end

section
/-! What the commands of the link of a network port and of a lane do. -/

namespace Sys2Proof.Machine

variable {s : State}

/-- The report of a link of a port that comes up or goes down (R360, R373). -/
def portReport (s : State) (code : Nat) (p : PortId) : Report :=
  mkReport Unit.prt Cls.reported code (104 + p.val) [(1, 1), (p.val, 6), (nlane s p.val, 4), (portRate s p.val, 4)]

/-- A port that sends a PFC frame notes its time (R370). -/
theorem portAt_sendPfc (h : mwf {} s.prt.ports = true) (p quanta : Nat) :
    portAt (sendPfc p quanta s) p = { portAt s p with pfcAt := s.isl.chron } :=
  (mget_mmod h p p fun x => { x with pfcAt := s.isl.chron }).trans (if_pos rfl)

/-- PRT_LINK_UP of a port that is down (R360, R370). -/
theorem portLinkUp_effect (hp : mwf {} s.prt.ports = true) (hq : mwf {} s.prt.quads = true) {p : PortId}
    (w r : BitVec 4) (hl : lanesOn s = true) (hpres : portPresent s p.val = true) (hup : (portAt s p.val).up = false)
    (hgone : ∀ q ∈ portQuads s p.val, quadGone s q = false) :
    let y := portAt s p.val
    let on := { y with up := true, frames := 0 }
    ∃ t, exec (.prtLinkUp (.port p) w r) s = .next t ∧
      (pfcen s p.val = 0 ∨ (y.xoff = false ∧ occupancy s p.val < xoffLine s p.val) →
        portAt t p.val = on ∧ t.prt.pfc = s.prt.pfc) ∧
      (pfcen s p.val ≠ 0 → y.xoff = false → xoffLine s p.val ≤ occupancy s p.val →
        portAt t p.val = { on with xoff := true, pfcAt := s.isl.chron } ∧
        t.prt.pfc = some (p.val, pfcen s p.val, 65535)) ∧
      (s.prt.limits = [] → t.hlt = (report (portReport s Code.prtLinkUp p) s).hlt) ∧
      (∀ j, j ≠ p.val → portAt t j = portAt s j) ∧ t.prt.groups = s.prt.groups ∧ t.mem = s.mem := by
  intro y on
  have hrun : exec (.prtLinkUp (.port p) w r) s = .next
      (let s₁ := setPort p.val (fun x => { x with up := true, frames := 0 }) s
       let s₂ := lockLanes (sec s₁ 4 (129 + 16 * p.val) 1) (nlane s₁ p.val) s₁
       flowControl p.val (limited Code.prtLinkUp (104 + p.val)
        (fun _ => [(1, 1), (p.val, 6), (nlane s₂ p.val, 4), (portRate s₂ p.val, 4)]) s₂)) := by
    have hany : (portQuads s p.val).any (quadGone s) = false :=
      List.any_eq_false.2 fun q hq => by simp [hgone q hq]
    simp only [exec, execPrtLinkUp, hl, hpres, hup, hany, Bool.not_true, Bool.or_false, Bool.false_eq_true, if_false,
      linkReport]
  refine ⟨_, hrun, ?_⟩
  extract_lets s₁ s₂
  have hat₁ j : portAt s₁ j = if j = p.val then on else portAt s j := portAt_setPort hp p.val j _
  have hwf₁ : mwf {} s₁.prt.ports = true := setPort_wf hp _ _
  have hlanes : LanesOnly s₁ s₂ := lockLanes_lanesOnly (s := s₁) hq _ _
  have hstays₂ : LinkStays s s₂ := LinkStays.trans (t := s₁) ⟨rfl, rfl, rfl, rfl, rfl⟩ hlanes.toLinkStays
  have hin : ∀ q, (quadAt s₂ q).ingress = (quadAt s q).ingress := hlanes.ingress
  have hpfc : s₂.prt.pfc = s.prt.pfc := hlanes.pfc
  have hlimits : s₂.prt.limits = s.prt.limits := hlanes.limits
  have hgroups : s₂.prt.groups = s.prt.groups := hlanes.groups
  have hhlt : s₂.hlt = s.hlt := hlanes.hlt
  rw [hstays₂.nlane, hstays₂.portRate]
  clear hrun
  generalize s₂ = s₂ at *
  generalize s₁ = s₁ at *
  have hstays := hstays₂.trans (limited_stays Code.prtLinkUp (104 + p.val)
    (fun _ => [(1, 1), (p.val, 6), (nlane s p.val, 4), (portRate s p.val, 4)]) s₂)
  generalize hs₃ : limited Code.prtLinkUp (104 + p.val)
    (fun _ => [(1, 1), (p.val, 6), (nlane s p.val, 4), (portRate s p.val, 4)]) s₂ = s₃ at *
  have hports : s₃.prt.ports = s₁.prt.ports := by rw [← hs₃, limited_ports, hlanes.ports]
  have hat j : portAt s₃ j = if j = p.val then on else portAt s j := by rw [portAt, hports]; exact hat₁ j
  have hself : portAt s₃ p.val = on := (hat _).trans (if_pos rfl)
  have hwf : mwf {} s₃.prt.ports = true := hports ▸ hwf₁
  have hocc : occupancy s₃ p.val = occupancy s p.val :=
    hstays.occupancy (fun q => by rw [← hs₃, quadAt, limited_quads]; exact hin q) p.val
  obtain ⟨hfstays, hfgroups, hfhlt, hfothers⟩ := flowControl_effect hwf p.val
  refine ⟨fun h => ?_, fun hen hx ho => ?_, fun h => ?_, fun j hj => ?_, ?_, ?_⟩
  · rw [flowControl_below]
    · exact ⟨hself, by rw [← hs₃, limited_pfc, hpfc]⟩
    · rw [hstays.pfcen, hself, hocc, hstays.xoffLine]
      exact h
  · rw [flowControl_reached (by rw [hstays.pfcen]; exact hen) (by rw [hself]) (by rw [hself]; exact hx)
      (by rw [hocc, hstays.xoffLine]; exact ho)]
    refine ⟨?_, congrArg (fun n => some (p.val, n, 65535)) (hstays.pfcen p.val)⟩
    rw [portAt_sendPfc (setPort_wf hwf _ _), portAt_setPort hwf, if_pos rfl, hself, setPort_isl, hstays.isl]
  · rw [hfhlt, ← hs₃, (limited_first (by rw [hlimits, h]; rfl)).1]
    exact report_hlt hhlt
  · rw [hfothers j hj, hat, if_neg hj]
  · rw [hfgroups, ← hs₃, limited_groups, hgroups]
  · rw [hfstays.mem, hstays.mem]

/-- A port whose link goes down loses the frame in transmission, and reports one that was still on the wire (R369). -/
theorem abortFrame_effect (h : mwf {} s.prt.ports = true) (p : Nat) :
    let t := abortFrame p s
    LinkStays s t ∧ t.prt.quads = s.prt.quads ∧ mwf {} t.prt.ports = true ∧
      portAt t p = { portAt s p with tx := none } ∧
      ((∀ len stop, (portAt s p).tx = some (len, stop) → stop ≤ s.isl.chron) →
        t.hlt = s.hlt ∧ t.prt.limits = s.prt.limits) ∧
      (∀ len stop, (portAt s p).tx = some (len, stop) → s.isl.chron < stop →
        t = limited Code.prtTxAbort (104 + p) (fun _ => [(p, 6), (len, 14)])
          (setPort p (fun x => { x with tx := none }) s)) := by
  have hset : portAt (setPort p (fun x => { x with tx := none }) s) p = { portAt s p with tx := none } :=
    (portAt_setPort h p p _).trans (if_pos rfl)
  have hstays : LinkStays s (setPort p (fun x => { x with tx := none }) s) := ⟨rfl, rfl, rfl, rfl, rfl⟩
  unfold abortFrame
  cases htx : (portAt s p).tx with
  | none =>
    refine ⟨.refl s, rfl, h, ?_, fun _ => ⟨rfl, rfl⟩, fun len stop he => nomatch he⟩
    dsimp only
    rw [← htx]
  | some f =>
    obtain ⟨len, stop⟩ := f
    dsimp only
    split
    · next hlt =>
      refine ⟨hstays.trans (limited_stays ..), limited_quads .., ?_, ?_, fun hdue => ?_, fun len' stop' he _ => ?_⟩
      · rw [limited_ports]
        exact setPort_wf h _ _
      · rw [portAt, limited_ports]
        exact hset
      · exact absurd (hdue len stop rfl) (Nat.not_le.2 hlt)
      · obtain ⟨rfl, rfl⟩ := Prod.mk.inj (Option.some.inj he)
        rfl
    · next hge =>
      refine ⟨hstays, rfl, setPort_wf h _ _, hset, fun _ => ⟨rfl, rfl⟩, fun len' stop' he hlt => ?_⟩
      obtain ⟨rfl, rfl⟩ := Prod.mk.inj (Option.some.inj he)
      exact absurd hlt hge

/-- What a port whose link is down keeps: its pauses end with the link. -/
def portDark (x : Port) : Port := { x with up := false, xoff := false, pause := [], paused := 0, long' := 0 }

/-- PRT_LINK_DOWN of a port that is up, with its reports in their order (R369, R371). -/
theorem portLinkDown_effect (h : mwf {} s.prt.ports = true) {p : PortId} (hup : (portAt s p.val).up = true) :
    let y := portAt s p.val
    ∃ t, exec (.prtLinkDown (.port p)) s = .next t ∧ t.prt.quads = s.prt.quads ∧ t.mem = s.mem ∧
      portAt t p.val = { y with up := false, xoff := false, tx := none, pause := [], paused := 0, long' := 0 } ∧
      (s.prt.limits = [] →
        (∀ len stop, y.tx = some (len, stop) → s.isl.chron < stop →
          t.hlt = (report (portReport s Code.prtLinkDown p) (report (mkReport Unit.prt Cls.reported Code.prtTxAbort
            (104 + p.val) [(p.val, 6), (len, 14)]) s)).hlt) ∧
        ((∀ len stop, y.tx = some (len, stop) → stop ≤ s.isl.chron) →
          t.hlt = (report (portReport s Code.prtLinkDown p) s).hlt)) := by
  intro y
  have hrun : exec (.prtLinkDown (.port p)) s = .next (linkReport Code.prtLinkDown (.port p) 0 0
      (setPort p.val portDark (abortFrame p.val s))) := by
    simp only [exec, execPrtLinkDown, portDown, hup, Bool.not_true, Bool.false_eq_true, if_false]
    rfl
  obtain ⟨hstays, hquads, hwf, hself, hdue, hwire⟩ := abortFrame_effect h p.val
  refine ⟨_, hrun, ?_⟩
  clear hrun
  rw [linkReport]
  generalize abortFrame p.val s = s₁ at *
  have hset := (portAt_setPort hwf p.val p.val portDark).trans (if_pos rfl)
  have hstays₂ : LinkStays s (setPort p.val portDark s₁) := hstays.trans ⟨rfl, rfl, rfl, rfl, rfl⟩
  have hquads₂ : (setPort p.val portDark s₁).prt.quads = s.prt.quads := hquads
  have hlimits₂ : (setPort p.val portDark s₁).prt.limits = s₁.prt.limits := rfl
  have hhlt₂ := setPort_hlt s₁ p.val portDark
  generalize setPort p.val portDark s₁ = s₂ at *
  rw [hstays₂.nlane, hstays₂.portRate]
  refine ⟨by rw [limited_quads, hquads₂], (hstays₂.trans (limited_stays ..)).mem, ?_,
    fun hfirst => ⟨fun len stop htx hlt => ?_, fun hall => ?_⟩⟩
  · rw [portAt, limited_ports]
    exact hset.trans (by rw [hself]; rfl)
  · have hone := hwire len stop htx hlt
    have hne : 4096 * Code.prtLinkDown + (104 + p.val) ≠ 4096 * Code.prtTxAbort + (104 + p.val) := by
      simp [Code.prtLinkDown, Code.prtTxAbort]
    refine (limited_pair (s := setPort p.val (fun x => { x with tx := none }) s) hfirst hne
      (hlimits₂.trans (by rw [hone])) (hhlt₂.trans (by rw [hone]))).trans (report_hlt (report_hlt rfl))
  · obtain ⟨hh, hl⟩ := hdue hall
    exact (limited_first (by rw [hlimits₂, hl, hfirst]; rfl)).1.trans (report_hlt (hhlt₂.trans hh))

/-- PRT_FEC_HIGH of a port that is up (R364, R373). -/
theorem prtFecHigh_effect {p : PortId} (co un : BitVec 18) (hup : (portAt s p.val).up = true) :
    (secX s 4 (132 + 16 * p.val) 1 0 = 1 → exec (.prtFecHigh p co un) s = .next s) ∧
    (secX s 4 (132 + 16 * p.val) 1 0 = 0 → portSpeed s p.val * 10 ^ 9 < co.toNat * 5120 * 10 ^ 4 →
      ∃ t, exec (.prtFecHigh p co un) s = .next t ∧ t.prt.ports = s.prt.ports ∧ t.mem = s.mem ∧
        (s.prt.limits = [] → t.hlt = (report (mkReport Unit.prt Cls.reported Code.prtFecHigh (104 + p.val)
          [(p.val, 6), (co.toNat, 18), (un.toNat, 18)]) s).hlt)) := by
  refine ⟨fun hby => ?_, fun hby hmany => ?_⟩
  · simp only [exec, execPrtFecHigh, hup, fecHigh, hby]
    rfl
  · have hhigh : fecHigh s p.val co.toNat = true := by
      simp only [fecHigh, hby, hmany, decide_true]
      rfl
    refine ⟨limited Code.prtFecHigh (104 + p.val) (fun _ => [(p.val, 6), (co.toNat, 18), (un.toNat, 18)]) s, ?_,
      limited_ports .., (limited_stays ..).mem, fun h => (limited_first (by rw [h]; rfl)).1⟩
    simp only [exec, execPrtFecHigh, hup, hhigh, Bool.not_true, Bool.or_false, Bool.false_eq_true, if_false]

/-- What a fault of a lane, loss of signal or of lock, leaves of the lanes of its quad (R373). -/
def lanesAfter (los : Bool) (m : BitVec 4) (b : QuadBuf) : QuadBuf :=
  if los then { b with los := b.los ||| m } else { b with lock := b.lock &&& ~~~m }

/-- PRT_LANE_FAULT of a lane of a present group or port (R358, R373). -/
theorem prtLaneFault_effect (hq : mwf {} s.prt.quads = true) {lane : Fin 96} {los : Bool} (hl : lanesOn s = true)
    (hused : laneUsed s lane.val = true)
    (hstart : if los then (quadAt s (lane.val / 4)).los &&& BitVec.ofNat 4 (2 ^ (lane.val % 4)) = 0
      else (quadAt s (lane.val / 4)).lock &&& BitVec.ofNat 4 (2 ^ (lane.val % 4)) ≠ 0) :
    ∃ t, exec (.prtLaneFault lane los) s = .next t ∧ t.mem = s.mem ∧ t.prt.ports = s.prt.ports ∧
      quadAt t (lane.val / 4) = lanesAfter los (BitVec.ofNat 4 (2 ^ (lane.val % 4))) (quadAt s (lane.val / 4)) ∧
      (s.prt.limits = [] → t.hlt = (report (mkReport Unit.prt Cls.reported Code.prtLaneFault lane.val
        [(lane.val, 7), (if los then 0 else 1, 1), (1, 18)]) s).hlt) := by
  generalize hm : BitVec.ofNat 4 (2 ^ (lane.val % 4)) = m at *
  have hstarts : (if los then ((quadAt s (lane.val / 4)).los &&& m) == 0
      else ((quadAt s (lane.val / 4)).lock &&& m) != 0) = true := by
    cases los
    · exact bne_iff_ne.2 hstart
    · exact beq_iff_eq.2 hstart
  refine ⟨limited Code.prtLaneFault lane.val (fun n => [(lane.val, 7), (b2n (!los), 1), (satW 18 n, 18)])
    (setQuad (lane.val / 4) (lanesAfter los m) s), ?_, (limited_stays ..).mem, limited_ports .., ?_, fun h => ?_⟩
  · simp only [exec, execPrtLaneFault, hl, hused, hm, hstarts, Bool.not_true, Bool.or_false, Bool.false_eq_true, if_false]
    rfl
  · rw [quadAt, limited_quads]
    exact (quadAt_setQuad hq _ _ _).trans (if_pos rfl)
  · refine (limited_first (by rw [show (setQuad _ _ s).prt.limits = [] from h]; rfl)).1.trans ?_
    have hb : b2n (!los) = if los then 0 else 1 := by cases los <;> rfl
    rw [hb]
    exact report_hlt rfl

/-- Settles O48: each clause is the lemma above for its command; the reports of a command come in the order in which the
model makes them. -/
theorem linksComeUpAndGoDown : Obligations.LinksComeUpAndGoDown := by
  intro g p w r lane co un s hg hp hq hv x y b m rep other
  refine ⟨fun hlow => hperstRise_effect hg hlow, fun hx => ⟨?_, fun hhigh hpres => hperstFall_effect hg hv hx hhigh hpres⟩,
    fun hl hpres hhigh hn => ⟨fun hnew hgone hw hwf hr hrm => ?_, fun hx => prtLinkNoflit_effect hg hl hpres hhigh hn hx⟩,
    fun hl hpres hup hgone => portLinkUp_effect hp hq w r hl hpres hup hgone,
    fun hup => ⟨portLinkDown_effect hp hup, prtFecHigh_effect co un hup⟩,
    fun hl hused los hstart => prtLaneFault_effect hq hl hused hstart⟩
  · obtain ⟨hself, honly, -, hreset, hhlt⟩ := groupLost_effect hg hv hx
    refine ⟨groupReset g.val (groupDown g s), ?_, hself, honly, hreset, hhlt⟩
    have hup : groupUp s g.val = true := bne_iff_ne.2 hx
    simp only [exec, execPrtLinkDown, hup, if_true]
  · exact groupLinkUp_effect hg hq hl hpres hhigh hn hnew hgone hw hwf hr hrm

end Sys2Proof.Machine
end

section
/-! The health unit and the logbook: how a report is accepted, how its record is committed, signalled and latched. -/

namespace Sys2Proof.Machine

variable {s : State}

/-! ### The acceptance of a report -/

/-- A report changes no count, no queued log entry and no replacement cause (R455). -/
theorem report_health (r : Report) (s : State) :
    (report r s).hlt.cnt = s.hlt.cnt ∧ (report r s).hlt.logq = s.hlt.logq ∧ (report r s).hlt.repl = s.hlt.repl := by
  unfold report
  dsimp only
  split <;> exact ⟨rfl, rfl, rfl⟩

/-- A report folds into the newest record of its unit, number, class and code (R406). -/
theorem folds_iff {r : Report} : folds r s = true ↔ (r.cls = Cls.corrected ∨ r.cls = Cls.reported) ∧
    ∃ x, s.hlt.newest = some x ∧ x.unit = r.unit ∧ x.inst = r.inst ∧ x.cls = r.cls ∧ x.code = r.code ∧ x.rep < 65535 := by
  unfold folds
  cases s.hlt.newest with
  | none => simp
  | some n => simp [and_assoc]

/-- A report for whose record there is room joins the log queue (R405, R406). -/
theorem logReport_room {r : Report} (h : s.hlt.logq.length < 64) :
    ∃ nw no, logReport r s = ({ s with hlt := { s.hlt with
      logq := s.hlt.logq ++ [⟨r, s.nv.opsec, fracNow s, s.nv.pcc, folds r s⟩], newest := nw } }, no) := by
  unfold logReport
  rw [if_neg (by omega)]
  extract_lets f e
  split
  · exact ⟨_, _, rfl⟩
  · exact ⟨_, _, rfl⟩

/-- A report for whose record there is no room is counted as lost (R407). -/
theorem logReport_full {r : Report} (h : 64 ≤ s.hlt.logq.length) : logReport r s =
    ({ s with hlt := { s.hlt with lost := satW 36 (s.hlt.lost + 1), lostPend := satW 18 (s.hlt.lostPend + 1) } },
      none) := by
  unfold logReport
  rw [if_pos h]

/-- What placing a report in the log queue leaves unchanged. -/
theorem logReport_stays (r : Report) (s : State) :
    let t := (logReport r s).1
    t.mem = s.mem ∧ t.nv = s.nv ∧ t.cfg = s.cfg ∧ t.hlt.cnt = s.hlt.cnt ∧ t.hlt.waiting = s.hlt.waiting := by
  rcases Nat.lt_or_ge s.hlt.logq.length 64 with h | h
  · obtain ⟨nw, no, he⟩ := logReport_room (r := r) h
    rw [he]
    exact ⟨rfl, rfl, rfl, rfl, rfl⟩
  · rw [logReport_full h]
    exact ⟨rfl, rfl, rfl, rfl, rfl⟩

/-- A count that meets no threshold makes no report (R463). -/
theorem thresholdMet_unmet {u was n : Nat} (h : cthresh s u = 0 ∨ n ≠ cthresh s u) : thresholdMet u was n s = s := by
  unfold thresholdMet
  rw [if_neg]
  rintro ⟨hz, hn, -⟩
  exact h.elim hz fun hne => hne hn

/-- What a count that meets its threshold leaves unchanged (R463, R464). -/
theorem thresholdMet_stays (u was n : Nat) (s : State) :
    let t := thresholdMet u was n s
    t.mem = s.mem ∧ t.nv.records = s.nv.records ∧ t.hlt.cnt = s.hlt.cnt ∧ t.hlt.logq = s.hlt.logq := by
  unfold thresholdMet
  split
  · obtain ⟨hcnt, hlogq, -⟩ := report_health (mkReport Unit.hlt Cls.wear Code.hltThreshold u [(u, 5), (n, 36)])
      { s with nv := { s.nv with causes := s.nv.causes ||| 64#8 } }
    exact ⟨report_mem .., by rw [report_nv], hcnt, hlogq⟩
  · exact ⟨rfl, rfl, rfl, rfl⟩

/-- A count that is no corrected one or meets no threshold only changes the count (R456, R463). -/
theorem setCount_unmet {u c n : Nat} (h : c ≠ Cls.corrected ∨ cthresh s u = 0 ∨ n ≠ cthresh s u) :
    setCount u c n s = { s with hlt := { s.hlt with cnt := mset 0 s.hlt.cnt (8 * u + c) n } } := by
  unfold setCount
  dsimp only
  split
  · next hc => exact thresholdMet_unmet (s := { s with hlt := _ }) (h.resolve_left fun hn => hn hc)
  · rfl

theorem setCount_stays (u c n : Nat) (s : State) :
    let t := setCount u c n s
    t.mem = s.mem ∧ t.nv.records = s.nv.records ∧ t.hlt.cnt = mset 0 s.hlt.cnt (8 * u + c) n ∧
      t.hlt.logq = s.hlt.logq := by
  unfold setCount
  dsimp only
  split
  · exact thresholdMet_stays u _ n { s with hlt := _ }
  · exact ⟨rfl, rfl, rfl, rfl⟩

/-- A replacement cause sets its bit and asserts REPLACE_REQ (R464). -/
theorem assertReplace_effect {b : Nat} (hb : b < 8) (s : State) :
    let t := assertReplace b s
    t.mem = s.mem ∧ t.nv.records = s.nv.records ∧ t.hlt = { s.hlt with repl := t.hlt.repl } ∧
      t.hlt.repl.getLsbD b = true ∧ t.hlt.repl.getLsbD 7 = true := by
  have hbit : ∀ b < 8, (BitVec.ofNat 8 (2 ^ b)).getLsbD b = true := by decide
  have hreq : (128#8).getLsbD 7 = true := by decide
  have hlsb : (s.hlt.repl ||| BitVec.ofNat 8 (2 ^ b) ||| 128#8).getLsbD b = true ∧
      (s.hlt.repl ||| BitVec.ofNat 8 (2 ^ b) ||| 128#8).getLsbD 7 = true := by
    simp only [BitVec.getLsbD_or, hbit b hb, hreq, Bool.or_true, Bool.true_or, and_self]
  unfold assertReplace
  dsimp only
  split
  · exact ⟨rfl, rfl, rfl, hlsb⟩
  · exact ⟨rfl, rfl, rfl, hlsb⟩

/-- The causes of HLT_REPL lie below REPLACE_REQ (R464). -/
theorem replBit_lt {code b : Nat} (h : replBit code = some b) : b < 8 := by
  unfold replBit at h
  repeat' split at h
  all_goals simp_all <;> omega

/-- REPORT_ACCEPT of a report that the log queue, the counts and the replacement causes take (R405–R407, R456, R464). -/
theorem acceptReport_effect (hc : mwf 0 s.hlt.cnt = true) (r : Report) :
    let t := acceptReport r s
    let k := 8 * r.unit + r.cls
    let c := min (mget 0 s.hlt.cnt k + 1) (2 ^ 36 - 1)
    t.mem = s.mem ∧ t.nv.records = s.nv.records ∧ mget 0 t.hlt.cnt k = c ∧ t.hlt.logq = (logReport r s).1.hlt.logq ∧
      (r.cls ≠ Cls.corrected ∨ cthresh s r.unit = 0 ∨ c ≠ cthresh s r.unit →
        t.hlt.waiting = s.hlt.waiting ∧ t.hlt.lost = (logReport r s).1.hlt.lost) ∧
      ∀ b, replBit r.code = some b → t.hlt.repl.getLsbD b = true ∧ t.hlt.repl.getLsbD 7 = true := by
  intro t k c
  obtain ⟨hmem, hnv, hcfg, hcnt, hwait⟩ := logReport_stays r s
  have hacc : ∃ sg, t = (replBit r.code).elim id assertReplace
      (countReport r { (logReport r s).1 with hlt := { (logReport r s).1.hlt with signals := sg } }) := by
    unfold t acceptReport
    refine ⟨(logReport r s).1.hlt.signals ++ signalsOf r (logReport r s).2 (logReport r s).1, ?_⟩
    cases replBit r.code <;> rfl
  obtain ⟨sg, ht⟩ := hacc
  generalize (logReport r s).1 = s₁ at *
  have hval : satW 36 (mget 0 s₁.hlt.cnt (8 * r.unit + r.cls) + 1) = c := by rw [hcnt]; rfl
  obtain ⟨hmem₂, hrec₂, hcnt₂, hlogq₂⟩ :=
    setCount_stays r.unit r.cls c { s₁ with hlt := { s₁.hlt with signals := sg } }
  have hun₂ : r.cls ≠ Cls.corrected ∨ cthresh s r.unit = 0 ∨ c ≠ cthresh s r.unit →
      setCount r.unit r.cls c { s₁ with hlt := { s₁.hlt with signals := sg } } =
        { s₁ with hlt := { s₁.hlt with signals := sg, cnt := mset 0 s₁.hlt.cnt (8 * r.unit + r.cls) c } } := by
    have hth : cthresh { s₁ with hlt := { s₁.hlt with signals := sg } } r.unit = cthresh s r.unit := by
      simp only [cthresh, secX, image, hcfg, hnv]
    exact fun h => setCount_unmet (by rw [hth]; exact h)
  unfold countReport at ht
  rw [hval] at ht
  generalize setCount r.unit r.cls c { s₁ with hlt := { s₁.hlt with signals := sg } } = s₂ at *
  have hone : mget 0 s₂.hlt.cnt k = c := by
    rw [hcnt₂]
    exact mget_mset_same (by rw [hcnt]; exact hc)
  have hwait₂ (h : r.cls ≠ Cls.corrected ∨ cthresh s r.unit = 0 ∨ c ≠ cthresh s r.unit) :
      s₂.hlt.waiting = s.hlt.waiting ∧ s₂.hlt.lost = s₁.hlt.lost := by
    rw [hun₂ h]
    exact ⟨hwait, rfl⟩
  generalize t = t at *
  subst ht
  cases hb : replBit r.code with
  | none => exact ⟨hmem₂.trans hmem, hrec₂.trans (congrArg _ hnv), hone, hlogq₂, hwait₂, fun b hb => nomatch hb⟩
  | some b =>
    obtain ⟨hm, hr, hh, hlsb, hreq⟩ := assertReplace_effect (replBit_lt hb) s₂
    simp only [Option.elim]
    rw [hh]
    exact ⟨hm.trans (hmem₂.trans hmem), hr.trans (hrec₂.trans (congrArg _ hnv)), hone, hlogq₂, hwait₂,
      fun b' hb' => Option.some.inj hb' ▸ ⟨hlsb, hreq⟩⟩

/-- REPORT_ACCEPT takes the oldest report (R405–R407, R456, R464). -/
theorem reportAccept_effect (hc : mwf 0 s.hlt.cnt = true) {r : Report} {rest : List Report}
    (hw : s.hlt.waiting = r :: rest) :
    let k := 8 * r.unit + r.cls
    let c := min (mget 0 s.hlt.cnt k + 1) (2 ^ 36 - 1)
    ∃ t, exec .reportAccept s = .next t ∧ t.mem = s.mem ∧ t.nv.records = s.nv.records ∧ mget 0 t.hlt.cnt k = c ∧
      (r.cls ≠ Cls.corrected ∨ cthresh s r.unit = 0 ∨ c ≠ cthresh s r.unit → t.hlt.waiting = rest) ∧
      (s.hlt.logq.length < 64 → ∃ e, t.hlt.logq = s.hlt.logq ++ [e] ∧ e.rep = r ∧ e.opsec = s.nv.opsec ∧ e.pcc = s.nv.pcc ∧
        (e.fold = true ↔ (r.cls = Cls.corrected ∨ r.cls = Cls.reported) ∧ ∃ x, s.hlt.newest = some x ∧ x.unit = r.unit ∧
          x.inst = r.inst ∧ x.cls = r.cls ∧ x.code = r.code ∧ x.rep < 65535)) ∧
      (64 ≤ s.hlt.logq.length → t.hlt.logq = s.hlt.logq ∧
        (r.cls ≠ Cls.corrected → t.hlt.lost = min (s.hlt.lost + 1) (2 ^ 36 - 1))) ∧
      ∀ b, replBit r.code = some b → t.hlt.repl.getLsbD b = true ∧ t.hlt.repl.getLsbD 7 = true := by
  intro k c
  obtain ⟨hmem, hrec, hcnt, hlogq, hun, hrepl⟩ :=
    acceptReport_effect (s := { s with hlt := { s.hlt with waiting := rest } }) hc r
  refine ⟨acceptReport r { s with hlt := { s.hlt with waiting := rest } }, ?_, hmem, hrec, hcnt,
    fun h => (hun h).1, fun h => ?_, fun h => ?_, hrepl⟩
  · simp only [exec, execReportAccept, hw]
  · obtain ⟨nw, no, he⟩ := logReport_room (s := { s with hlt := { s.hlt with waiting := rest } }) (r := r) h
    rw [he] at hlogq
    exact ⟨_, hlogq, rfl, rfl, rfl, folds_iff⟩
  · have he := logReport_full (s := { s with hlt := { s.hlt with waiting := rest } }) (r := r) h
    rw [he] at hlogq hun
    exact ⟨hlogq, fun hcls => (hun (.inl hcls)).2⟩

end Sys2Proof.Machine
end

section
/-! The commit of records, the signals of the health unit, the operating second and the readout latch. -/

namespace Sys2Proof.Machine

variable {s : State}

/-! ### The commit of a record -/

/-- CHECK covers the words of a record before it (R404). -/
theorem recCheck_check (r : LogRec) (c : Nat) : recCheck { r with check := c } = recCheck r := by
  unfold recCheck recWords
  rfl

/-- A record just written reads back with its CHECK (R404). -/
theorem recAt_putRec (h : mwf {} s.nv.records = true) (n : Nat) (r : LogRec) :
    recAt (putRec n r s) n = { r with check := recCheck r } := mget_mset_same h

/-- No LGB_LOST report is due where none was lost since the last (R407). -/
theorem flushLost_none (h : s.hlt.lostPend = 0) : flushLost s = s := if_pos (.inl h)

/-- The record that a new log entry makes (R403). -/
def newRec (e : LogEntry) : LogRec :=
  { opsec := e.opsec, pcc := e.pcc, unit := e.rep.unit, cls := e.rep.cls, code := e.rep.code, inst := e.rep.inst
    lastsec := e.opsec, data := e.rep.data, rep := 1, frac := e.frac, state := 10 }

/-- The commit of a new record, under LGB_TOTAL and with the alert of its class (R405, R413). -/
theorem commitEntry_new (h : mwf {} s.nv.records = true) {e : LogEntry} (hf : e.fold = false) :
    let t := commitEntry e s
    t.hlt = s.hlt ∧ t.mem = s.mem ∧ t.nv.total = (s.nv.total + 1) % 2 ^ 72 ∧
      recAt t s.nv.total = { newRec e with check := recCheck (newRec e) } ∧
      (alertClass e.rep.cls = true → t.lgb.alert = true ∧ t.nv.alertSeq = some s.nv.total) ∧
      (alertClass e.rep.cls = false → t.lgb.alert = s.lgb.alert ∧ t.nv.alertSeq = s.nv.alertSeq) := by
  have hrec : ∀ t : State, t.nv.records = (putRec s.nv.total (newRec e) s).nv.records →
      recAt t s.nv.total = { newRec e with check := recCheck (newRec e) } := fun t ht => by
    rw [recAt, ht]
    exact recAt_putRec h s.nv.total (newRec e)
  unfold commitEntry
  rw [hf]
  simp only [Bool.false_eq_true, if_false]
  cases alertClass e.rep.cls
  · exact ⟨rfl, rfl, rfl, hrec _ rfl, nofun, fun _ => ⟨rfl, rfl⟩⟩
  · exact ⟨rfl, rfl, rfl, hrec _ rfl, fun _ => ⟨rfl, rfl⟩, nofun⟩

/-- The commit of a folded entry counts one more report in the newest record (R406). -/
theorem commitEntry_fold (h : mwf {} s.nv.records = true) {e : LogEntry} (hf : e.fold = true) :
    let t := commitEntry e s
    let r := { recAt s (s.nv.total - 1) with rep := satW 16 ((recAt s (s.nv.total - 1)).rep + 1), lastsec := e.opsec }
    t.hlt = s.hlt ∧ t.mem = s.mem ∧ t.nv.total = s.nv.total ∧
      recAt t (s.nv.total - 1) = { r with check := recCheck r } := by
  unfold commitEntry
  rw [if_pos hf]
  exact ⟨rfl, rfl, rfl, recAt_putRec h _ _⟩

/-- LOG_COMMIT of the oldest entry where no lost report is due (R404–R406, R413). -/
theorem logCommit_effect (h : mwf {} s.nv.records = true) {e : LogEntry} {rest : List LogEntry}
    (hq : s.hlt.logq = e :: rest) (hl : s.hlt.lostPend = 0) :
    ∃ t, exec .logCommit s = .next t ∧ t.hlt.logq = rest ∧ t.mem = s.mem ∧
      (e.fold = false →
        let r := recAt t s.nv.total
        t.nv.total = (s.nv.total + 1) % 2 ^ 72 ∧ r.opsec = e.opsec ∧ r.pcc = e.pcc ∧ r.unit = e.rep.unit ∧
        r.cls = e.rep.cls ∧ r.code = e.rep.code ∧ r.inst = e.rep.inst ∧ r.lastsec = e.opsec ∧ r.data = e.rep.data ∧
        r.rep = 1 ∧ r.frac = e.frac ∧ r.state = 10 ∧ r.check = recCheck r ∧
        (e.rep.cls ∈ [2, 3, 4] → t.lgb.alert = true ∧ t.nv.alertSeq = some s.nv.total) ∧
        (e.rep.cls ∈ [0, 1] → t.lgb.alert = s.lgb.alert ∧ t.nv.alertSeq = s.nv.alertSeq)) ∧
      (e.fold = true → t.nv.total = s.nv.total ∧ (recAt t (s.nv.total - 1)).lastsec = e.opsec ∧
        (recAt t (s.nv.total - 1)).rep = min ((recAt s (s.nv.total - 1)).rep + 1) 65535 ∧
        (recAt t (s.nv.total - 1)).check = recCheck (recAt t (s.nv.total - 1))) := by
  let s₁ : State := { s with hlt := { s.hlt with logq := rest } }
  have hrun (hh : (commitEntry e s₁).hlt = s₁.hlt) : exec .logCommit s = .next (commitEntry e s₁) := by
    have hlost : (commitEntry e s₁).hlt.lostPend = 0 := by rw [hh]; exact hl
    simp only [exec, execLogCommit, commitOne, hq]
    rw [flushLost_none hlost]
  cases hf : e.fold
  · obtain ⟨hh, hmem, htotal, hrec, hdrives, hquiet⟩ := commitEntry_new (s := s₁) h hf
    refine ⟨_, hrun hh, by rw [hh], hmem, fun _ => ?_, nofun⟩
    dsimp only
    rw [show s.nv.total = s₁.nv.total from rfl, hrec]
    refine ⟨htotal, rfl, rfl, rfl, rfl, rfl, rfl, rfl, rfl, rfl, rfl, rfl,
      (recCheck_check ..).symm, fun hcls => hdrives ?_,
      fun hcls => hquiet ?_⟩
    · simp only [List.mem_cons, List.not_mem_nil, or_false] at hcls
      rcases hcls with h | h | h <;> rw [h] <;> rfl
    · simp only [List.mem_cons, List.not_mem_nil, or_false] at hcls
      rcases hcls with h | h <;> rw [h] <;> rfl
  · obtain ⟨hh, hmem, htotal, hrec⟩ := commitEntry_fold (s := s₁) h hf
    refine ⟨_, hrun hh, by rw [hh], hmem, nofun, fun _ => ?_⟩
    rw [show s.nv.total = s₁.nv.total from rfl, hrec]
    exact ⟨htotal, rfl, rfl, (recCheck_check ..).symm⟩

/-! ### The signals of the health unit -/

/-- HEALTH_SIGNAL_POST of the oldest signal (R459, R460). -/
theorem healthSignalPost_effect {g : Signal} {rest : List Signal} (hg : s.hlt.signals = g :: rest)
    (hs : serving s = true) :
    let s1 := { s with hlt := { s.hlt with signals := rest } }
    (ringRoom s g.queue = true → elementHeld s g.queue = true →
      exec .healthSignalPost s = .next (wakeElement g.queue s)) ∧
    (ringRoom s g.queue = true → elementHeld s g.queue = false →
      exec .healthSignalPost s = .next (writeElement (slcReq (queueSec s g.queue)) g.queue
        (signalBits g (sigLost s g.w)) (setSigLost g.w 0 s1))) ∧
    (ringRoom s g.queue = false → sigLost s g.w ≠ 0 → exec .healthSignalPost s =
      .next (setSigLost g.w (min (sigLost s g.w + 1) (2 ^ 18 - 1)) s1)) ∧
    (ringRoom s g.queue = false → sigLost s g.w = 0 → exec .healthSignalPost s = .next (report
      (mkReport Unit.hlt Cls.reported Code.hltSignalLost 0 [(g.w, 2), (g.queue, 20)]) (setSigLost g.w 1 s1))) := by
  intro s1
  simp only [exec, execHealthSignalPost, hg, hs, Bool.not_true, Bool.false_eq_true, if_false]
  refine ⟨fun hroom hheld => ?_, fun hroom hheld => ?_, fun hroom hn => ?_, fun hroom hn => ?_⟩
  · rw [if_pos hroom, if_pos hheld]
  · rw [if_pos hroom, if_neg (by rw [hheld]; exact Bool.false_ne_true)]
  · rw [if_neg (by rw [hroom]; exact Bool.false_ne_true), reportIf, if_neg (by simpa using hn)]
    rfl
  · rw [if_neg (by rw [hroom]; exact Bool.false_ne_true), reportIf, if_pos (by simpa using hn), hn]
    rfl

/-! ### The operating second and the readout latch -/

/-- OPSEC_TICK adds an operating second (R409). -/
theorem opsecTick_effect (hp : s.cfg.phase ≠ .dark) :
    ∃ t, exec .opsecTick s = .next t ∧ t.nv.opsec = (s.nv.opsec + 1) % 2 ^ 36 ∧
      s.lgb.secFrom + 1000000000 ≤ t.isl.chron ∧ t.mem = s.mem := by
  have hon : healthOn s = true := bne_iff_ne.2 hp
  let t := s.lgb.secFrom + 1000000000
  refine ⟨{ reachTime t s with
    nv := { s.nv with opsec := (s.nv.opsec + 1) % 2 ^ 36 }, lgb := { s.lgb with secFrom := t } }, ?_, rfl,
    Nat.le_max_right .., rfl⟩
  simp only [exec, execOpsecTick, hon, Bool.not_true, Bool.false_eq_true, if_false]
  rfl

/-- LGB_RIDX_WRITE of the owner latches the record that it names (R410). -/
theorem lgbRidxWrite_effect {rq : Req} {n : Double} (hr : reach rq s = true) (ho : rq.sec = blockSec s Unit.lgb) :
    exec (.lgbRidxWrite rq n) s = .next { s with lgb := { s.lgb with own := latchRec s n.toNat } } := by
  simp only [exec, execLgbRidxWrite, ridxWrite, ownedWrite_owner hr ho]

end Sys2Proof.Machine
end

section
/-! The SMBus target: what each of its commands answers and changes. -/

namespace Sys2Proof.Machine

variable {s : State}

/-! ### Octets and words -/

/-- A word as its octets, least significant first (R411). -/
theorem wordOctets_eq (w : Nat) :
    wordOctets w = [w % 256, w / 2 ^ 8 % 256, w / 2 ^ 16 % 256, w / 2 ^ 24 % 256, w / 2 ^ 32 % 16] := by
  simp only [wordOctets, splitUnits, field_eq_div_mod]
  simp [List.range_succ]

/-- The octets of a word depend on its 36 bits alone. -/
theorem wordOctets_mod (w : Nat) : wordOctets (w % 2 ^ 36) = wordOctets w := by
  rw [wordOctets_eq, wordOctets_eq]
  simp only [List.cons.injEq, and_true]
  omega

/-- A double as its two words (R411). -/
theorem doubleOctets_eq (d : Nat) :
    doubleOctets d = wordOctets (d % 2 ^ 36) ++ wordOctets (d / 2 ^ 36 % 2 ^ 36) := by
  simp only [doubleOctets, field_eq_div_mod, pow_zero, Nat.div_one]

/-- The word of the octets of a number is its low 36 bits (R411). -/
theorem octetWord_octets (x : Nat) : octetWord ((List.range 5).map fun i => x / 2 ^ (8 * i) % 256) = x % 2 ^ 36 := by
  simp [octetWord, List.range_succ, joinUnits, field_eq_div_mod]
  omega

/-- The octets that a host sends of a number of `8 * n` bits. -/
theorem octets_toNat {w : Nat} (v : BitVec w) (n : Nat) :
    ((List.range n).map fun i => v.extractLsb' (8 * i) 8).map BitVec.toNat =
      (List.range n).map fun i => v.toNat / 2 ^ (8 * i) % 256 := by
  simp only [List.map_map]
  refine List.map_congr_left fun i _ => ?_
  simp [BitVec.extractLsb'_toNat, Nat.shiftRight_eq_div_pow]

/-- The two words of ten octets (R411). -/
theorem doubleWords_octets (x : Nat) :
    let os := (List.range 10).map fun i => x / 2 ^ (8 * i) % 256
    octetWord (os.take 5) = x % 2 ^ 36 ∧ octetWord (os.drop 5) = x / 2 ^ 40 % 2 ^ 36 := by
  refine ⟨octetWord_octets x, (congrArg octetWord ?_).trans (octetWord_octets (x / 2 ^ 40))⟩
  simp [List.range_succ, Nat.div_div_eq_div_mul]

/-! ### Block reads and block writes -/

/-- The octets of a block read and their PEC, as the target gives them (R411). -/
def blockGiven (s : State) (cmd : Nat) (a : List Nat) (t : State) : State :=
  { t with lgb := { t.lgb with
    answer := a, pec := pecOf ([2 * s.lgb.addr, cmd, 2 * s.lgb.addr + 1, a.length] ++ a), acked := true } }

theorem smbDo_responds (h : smbResponds s = true) (act : State → State) : smbDo act s = act s := if_pos h

theorem smbRead_responds (h : smbResponds s = true) (cmd : Nat) (os : State → List Nat) :
    smbRead cmd os s = .next (blockGiven s cmd (os s) s) := congrArg _ (smbDo_responds h _)

/-- A block write has a wrong count or PEC (R411, R412). -/
def BlockWrong (s : State) (cmd n : Nat) (v : List (BitVec 8)) (pec : Option (BitVec 8)) : Prop :=
  v.length ≠ n ∨ ∃ x, pec = some x ∧ x.toNat ≠ pecOf ([2 * s.lgb.addr, cmd, v.length] ++ v.map BitVec.toNat)

theorem blockWrong_iff {cmd n : Nat} {v : List (BitVec 8)} {pec : Option (BitVec 8)} :
    BlockWrong s cmd n v pec ↔ ¬ (v.length = n ∧ pecGood s cmd v pec = true) := by
  unfold BlockWrong pecGood
  cases pec with
  | none => simp
  | some x => simp [imp_iff_not_or]

/-- A block write of a wrong count or PEC is not acknowledged and changes nothing (R411, R412). -/
theorem smbWrite_wrong (h : smbResponds s = true) {cmd n : Nat} {v : List (BitVec 8)} {pec : Option (BitVec 8)}
    (hw : BlockWrong s cmd n v pec) (act : List Nat → State → State) :
    smbWrite cmd n v pec act s = .next (smbAnswer [] false s) := by
  rw [smbWrite, smbDo_responds h, if_neg (blockWrong_iff.1 hw)]

/-- Any other block write acts. -/
theorem smbWrite_right (h : smbResponds s = true) {cmd n : Nat} {v : List (BitVec 8)} {pec : Option (BitVec 8)}
    (hw : ¬ BlockWrong s cmd n v pec) (act : List Nat → State → State) :
    smbWrite cmd n v pec act s = .next (act (v.map BitVec.toNat) s) := by
  rw [smbWrite, smbDo_responds h, if_pos (not_not.1 (mt blockWrong_iff.2 hw))]

/-- A block write that is refused whatever its octets are is not acknowledged and changes nothing. -/
theorem smbWrite_refused (h : smbResponds s = true) {cmd n : Nat} {v : List (BitVec 8)} {pec : Option (BitVec 8)}
    {act : List Nat → State → State} (ha : act (v.map BitVec.toNat) s = smbAnswer [] false s) :
    smbWrite cmd n v pec act s = .next (smbAnswer [] false s) := by
  by_cases hw : BlockWrong s cmd n v pec
  · exact smbWrite_wrong h hw act
  · rw [smbWrite_right h hw, ha]

/-! ### The registers that the target reads -/

theorem regValue_hubIdent (s : State) : regValue s Unit.hub 0 = 0o112226030200 := rfl

theorem regView_cfgState (s : State) (sec : Bool) :
    regView s sec Unit.cfg 0 = some (roReg [(cfgStateWord s, 36)]) := rfl

theorem regView_ridx (s : State) (sec : Bool) : regView s sec Unit.lgb 0o20 = some
    { wide := true, readBy := some (blockSec s Unit.lgb), writeBy := some (blockSec s Unit.lgb)
      value := s.lgb.own.idx % 2 ^ 72, put := ridxWrite } := rfl

/-- The state that the target reads in: the readout registers of the logbook are its own (R410). -/
def readoutOfTarget (s : State) : State := { s with lgb := { s.lgb with own := s.lgb.smb } }

/-- SMB_REGISTER_READ of a register that the target may read and that a read leaves as it is (R412). -/
theorem smbRegisterRead_effect (h : smbResponds s = true) (hok : s.lgb.selOk = true) {r r' : RegView}
    (hr : regView s false s.lgb.selWin s.lgb.selOff = some r)
    (hr' : regView (readoutOfTarget s) false s.lgb.selWin s.lgb.selOff = some r') (hwide : r'.wide = r.wide)
    (hmay : worldRule r'.readBy smbReq = true) (hread : r'.onRead = fun _ s => s) :
    exec .smbRegisterRead s = .next (blockGiven s 0o41
      (if r.wide then doubleOctets r'.value else wordOctets r'.value) s) := by
  have hv : readReg smbReq false s.lgb.selWin s.lgb.selOff (if r.wide then 72 else 36) (readoutOfTarget s) =
      (readoutOfTarget s, r'.value, .done) := by
    simp [readReg, show regView (readoutOfTarget s) smbReq.sec s.lgb.selWin s.lgb.selOff = some r' from hr', hmay,
      hread, RegView.bits, hwide]
  unfold readoutOfTarget at hv
  rw [show exec .smbRegisterRead s = execSmbRegisterRead s from rfl, execSmbRegisterRead, smbDo_responds h,
    if_neg (by simp [hok]), hr]
  simp only [Option.map_some, Option.getD_some]
  rw [hv]
  rfl

/-- SMB_REGISTER_READ of CFG_STATE (R412). -/
theorem smbRegisterRead_cfgState (h : smbResponds s = true) (hok : s.lgb.selOk = true) (hw : s.lgb.selWin = Unit.cfg)
    (ho : s.lgb.selOff = 0) :
    exec .smbRegisterRead s = .next (blockGiven s 0o41 (wordOctets (cfgStateWord s)) s) := by
  have hv : packFields [(cfgStateWord s, 36)] = cfgStateWord s % 2 ^ 36 := by simp [packFields]
  have hr u : regView u false s.lgb.selWin s.lgb.selOff = some (roReg [(cfgStateWord u, 36)]) := by
    rw [hw, ho, regView_cfgState]
  rw [smbRegisterRead_effect h hok (hr s) (hr _) rfl rfl rfl, ← wordOctets_mod (cfgStateWord s), ← hv]
  rfl

/-- SMB_REGISTER_READ of LGB_RIDX gives the target's own latch (R410, R412). -/
theorem smbRegisterRead_ridx (h : smbResponds s = true) (hok : s.lgb.selOk = true) (hw : s.lgb.selWin = Unit.lgb)
    (ho : s.lgb.selOff = 0o20) :
    exec .smbRegisterRead s = .next (blockGiven s 0o41 (doubleOctets (s.lgb.smb.idx % 2 ^ 72)) s) := by
  have hr u := regView_ridx u false
  rw [← hw, ← ho] at hr
  rw [smbRegisterRead_effect h hok (hr s) (hr _) rfl rfl rfl]
  rfl

end Sys2Proof.Machine
end

section
/-! The block writes of the SMBus target, and the statement of the logbook and the management port. -/

namespace Sys2Proof.Machine

variable {s : State}

/-- SMB_LATCH_RECORD latches the record of the double that the octets spell (R410). -/
theorem smbLatchRecord_effect (h : smbResponds s = true) (v : BitVec 80) {pec : Option (BitVec 8)}
    (hw : ¬ BlockWrong s 0o21 10 ((List.range 10).map fun i => v.extractLsb' (8 * i) 8) pec) :
    exec (.smbLatchRecord ((List.range 10).map fun i => v.extractLsb' (8 * i) 8) pec) s = .next (smbAnswer [] true
      { s with lgb := { s.lgb with
        smb := latchRec s (v.toNat % 2 ^ 36 + v.toNat / 2 ^ 40 % 2 ^ 36 * 2 ^ 36) } }) := by
  obtain ⟨hlow, hhigh⟩ := doubleWords_octets v.toNat
  simp only [exec, execSmbLatchRecord, smbWrite_right h hw, octets_toNat, hlow, hhigh]

/-- SMB_REGISTER_SELECT of a register of the windows PWR, CFG, LGB and HLT (R412). -/
theorem smbRegisterSelect_effect (h : smbResponds s = true) (v : BitVec 40) {pec : Option (BitVec 8)}
    (hwin : v.toNat / 2 ^ 30 % 2 ^ 6 ∈ [Unit.pwr, Unit.cfg, Unit.lgb, Unit.hlt])
    (hw : ¬ BlockWrong s 0o40 5 ((List.range 5).map fun i => v.extractLsb' (8 * i) 8) pec) :
    exec (.smbRegisterSelect ((List.range 5).map fun i => v.extractLsb' (8 * i) 8) pec) s = .next (smbAnswer [] true
      { s with lgb := { s.lgb with
        selWin := v.toNat / 2 ^ 30 % 2 ^ 6, selOff := v.toNat % 2 ^ 24, selOk := true } }) := by
  have hfield : v.toNat % 2 ^ 36 / 2 ^ 30 % 2 ^ 6 = v.toNat / 2 ^ 30 % 2 ^ 6 := by omega
  have hoff : v.toNat % 2 ^ 36 % 2 ^ 24 = v.toNat % 2 ^ 24 := by omega
  simp only [List.mem_cons, List.not_mem_nil, or_false] at hwin
  simp only [exec, execSmbRegisterSelect, smbWrite_right h hw, octets_toNat, octetWord_octets, field_eq_div_mod,
    pow_zero, Nat.div_one, hfield, hoff]
  rw [if_pos hwin]

/-- SMB_REGISTER_SELECT of another window is not acknowledged (R412). -/
theorem smbRegisterSelect_other (h : smbResponds s = true) (v : BitVec 40) (pec : Option (BitVec 8))
    (hwin : v.toNat / 2 ^ 30 % 2 ^ 6 ∉ [Unit.pwr, Unit.cfg, Unit.lgb, Unit.hlt]) :
    exec (.smbRegisterSelect ((List.range 5).map fun i => v.extractLsb' (8 * i) 8) pec) s =
      .next (smbAnswer [] false s) := by
  have hfield : v.toNat % 2 ^ 36 / 2 ^ 30 % 2 ^ 6 = v.toNat / 2 ^ 30 % 2 ^ 6 := by omega
  simp only [List.mem_cons, List.not_mem_nil, or_false] at hwin
  simp only [exec, execSmbRegisterSelect]
  refine smbWrite_refused h ?_
  simp only [octets_toNat, octetWord_octets, field_eq_div_mod, hfield]
  rw [if_neg hwin]

/-- SMB_REGISTER_WRITE of a selected image update register (R76, R412). -/
theorem smbRegisterWrite_effect (h : smbResponds s = true) (v : BitVec 40) {pec : Option (BitVec 8)}
    (hw : ¬ BlockWrong s 0o42 5 ((List.range 5).map fun i => v.extractLsb' (8 * i) 8) pec) (hok : s.lgb.selOk = true)
    (hup : updRegister s.lgb.selWin s.lgb.selOff = true) :
    exec (.smbRegisterWrite ((List.range 5).map fun i => v.extractLsb' (8 * i) 8) pec) s = .next (smbAnswer [] true
      (writeReg smbReq s.lgb.selWin s.lgb.selOff 36 (v.toNat % 2 ^ 36) s).1) := by
  simp only [exec, execSmbRegisterWrite, smbWrite_right h hw, octets_toNat, octetWord_octets, hup, hok, Bool.and_self,
    if_true]

/-- SMB_REGISTER_WRITE with no such register selected is not acknowledged (R76, R412). -/
theorem smbRegisterWrite_other (h : smbResponds s = true) (os : List (BitVec 8)) (pec : Option (BitVec 8))
    (hno : s.lgb.selOk = false ∨ updRegister s.lgb.selWin s.lgb.selOff = false) :
    exec (.smbRegisterWrite os pec) s = .next (smbAnswer [] false s) := by
  simp only [exec, execSmbRegisterWrite]
  refine smbWrite_refused h (if_neg ?_)
  rcases hno with hno | hno <;> simp [hno]

/-- Block writes of a wrong count or PEC are not acknowledged and change nothing (R411, R412). -/
theorem smbWrites_wrong (h : smbResponds s = true) (os : List (BitVec 8)) (pec : Option (BitVec 8)) :
    (BlockWrong s 0o21 10 os pec → exec (.smbLatchRecord os pec) s = .next (smbAnswer [] false s)) ∧
    (BlockWrong s 0o40 5 os pec → exec (.smbRegisterSelect os pec) s = .next (smbAnswer [] false s)) ∧
    (BlockWrong s 0o42 5 os pec → exec (.smbRegisterWrite os pec) s = .next (smbAnswer [] false s)) := by
  refine ⟨fun hw => ?_, fun hw => ?_, fun hw => ?_⟩
  · simp only [exec, execSmbLatchRecord, smbWrite_wrong h hw]
  · simp only [exec, execSmbRegisterSelect, smbWrite_wrong h hw]
  · simp only [exec, execSmbRegisterWrite, smbWrite_wrong h hw]

/-- SMB_REGISTER_READ with no register selected is not acknowledged (R412). -/
theorem smbRegisterRead_none (h : smbResponds s = true) (hok : s.lgb.selOk = false) :
    exec .smbRegisterRead s = .next (smbAnswer [] false s) := by
  simp only [exec, execSmbRegisterRead, smbDo_responds h, hok, Bool.not_false, if_true]

/-- SMB_READ_RECORD gives the latched record and latches the next one (R410). -/
theorem smbReadRecord_effect (h : smbResponds s = true) :
    exec .smbReadRecord s = .next (blockGiven s 0o22 (wordOctets s.lgb.smb.rstat ++ s.lgb.smb.words.flatMap
      fun w => wordOctets w.toNat) { s with lgb := { s.lgb with smb := latchRec s ((s.lgb.smb.idx + 1) % 2 ^ 72) } }) :=
  congrArg _ (smbDo_responds h _)

/-- SMB_ALERT_RESPONSE of a target that drives SMB_ALERT_N (R411, R413). -/
theorem smbAlertResponse_driven (h : smbResponds s = true) (ha : s.lgb.alert = true) :
    exec .smbAlertResponse s = .next { s with
      lgb := { s.lgb with alert := false, answer := [2 * s.lgb.addr], pec := pecOf [25, 2 * s.lgb.addr], acked := true }
      nv := { s.nv with alertAns := s.nv.alertSeq } } := by
  have hlow : smbAlertLow s = true := by simp only [smbAlertLow, ha, h, Bool.and_self]
  simp only [exec, execSmbAlertResponse, hlow, if_true]
  rfl

/-- SMB_ALERT_RESPONSE of a target that does not drive it is not acknowledged (R413). -/
theorem smbAlertResponse_released (ha : s.lgb.alert = false) :
    exec .smbAlertResponse s = .next (smbAnswer [] false s) := by
  have hhigh : smbAlertLow s = false := by simp only [smbAlertLow, ha, Bool.false_and]
  simp only [exec, execSmbAlertResponse, hhigh, Bool.false_eq_true, if_false]

/-- The octets of the tile map (R412). -/
theorem tileMap_octets (s : State) :
    (List.range 4).flatMap (fun d => wordOctets (cfgTilesWord s d)) ++ wordOctets (field (availMask s) 0 36) ++
        wordOctets (field (availMask s) 36 12) =
      (List.range 4).flatMap (fun d => wordOctets (cfgTilesWord s d)) ++ wordOctets (availMask s % 2 ^ 36) ++
        wordOctets (availMask s / 2 ^ 36 % 2 ^ 12) := by
  simp only [field_eq_div_mod, pow_zero, Nat.div_one]

/-- The block reads of registers and counts (R411, R412). -/
theorem smbReads_effect (h : smbResponds s = true) :
    exec .smbReadIdent s = .next (blockGiven s 0o1 (wordOctets 0o112226030200) s) ∧
    exec .smbReadAssetTag s =
      .next (blockGiven s 0o2 ((List.range 16).map fun i => sec s 0 0 16 / 2 ^ (8 * i) % 256) s) ∧
    exec .smbReadStartState s =
      .next (blockGiven s 0o3 (wordOctets (cfgStateWord s) ++ wordOctets (cfgPccWord s)) s) ∧
    exec .smbReadTileMap s = .next (blockGiven s 0o4 ((List.range 4).flatMap (fun d => wordOctets (cfgTilesWord s d)) ++
      wordOctets (availMask s % 2 ^ 36) ++ wordOctets (availMask s / 2 ^ 36 % 2 ^ 12)) s) ∧
    exec .smbReadLogCounts s = .next (blockGiven s 0o20 (doubleOctets s.nv.total ++ wordOctets (s.nv.opsec % 2 ^ 36) ++
      wordOctets (s.hlt.lost % 2 ^ 36)) s) ∧
    exec .smbReadAlertSequence s = .next (blockGiven s 0o43 (doubleOctets (s.nv.alertSeq.getD 0)) s) := by
  refine ⟨smbRead_responds h _ _, ?_, smbRead_responds h _ _, ?_, smbRead_responds h _ _, smbRead_responds h _ _⟩
  · refine (smbRead_responds h _ _).trans ?_
    simp only [splitUnits, field_eq_div_mod]
    rfl
  · rw [← tileMap_octets]
    exact smbRead_responds h _ _

/-- Settles O53: each clause is the lemma above for its command; the octets of a word are those of R411. -/
theorem logbookAndManagementPort : Obligations.LogbookAndManagementPort := by
  intro rq n os pec s hrec hcnt w5 d10
  have hw5 : w5 = wordOctets := funext fun w => (wordOctets_eq w).symm
  have hd10 : d10 = doubleOctets := funext fun d => by rw [doubleOctets_eq, ← hw5]
  refine ⟨fun r rest hw => reportAccept_effect hcnt hw, fun e rest hq hl => logCommit_effect hrec hq hl,
    fun g rest hg hs => healthSignalPost_effect hg hs, opsecTick_effect, fun hr ho => lgbRidxWrite_effect hr ho,
    fun h => ?_⟩
  rw [hd10, hw5]
  intro gives block wrong
  obtain ⟨hident, htag, hstate, htiles, hcounts, halert⟩ := smbReads_effect h
  obtain ⟨hlatch, hselect, hwrite⟩ := smbWrites_wrong h os pec
  refine ⟨hident, htag, hstate, htiles, hcounts, halert, smbReadRecord_effect h, hlatch, hselect, hwrite,
    fun v hw => smbLatchRecord_effect h v hw,
    fun v => ⟨fun hw hwin => smbRegisterSelect_effect h v hwin hw, fun hwin => smbRegisterSelect_other h v pec hwin,
      fun hw hok hup => smbRegisterWrite_effect h v hw hok hup, fun hno => smbRegisterWrite_other h _ pec hno⟩,
    smbRegisterRead_none h, fun hok hwin hoff => smbRegisterRead_cfgState h hok hwin hoff,
    fun hok hwin hoff => smbRegisterRead_ridx h hok hwin hoff, fun ha => smbAlertResponse_driven h ha,
    fun ha => smbAlertResponse_released ha⟩

end Sys2Proof.Machine
end

section
/-! A fill beside a neighbour whose table of frames lists one frame twice. -/

namespace Sys2Proof.Machine

/-- A store of core 0 that waits for line 1. -/
def storeOfLine1 : Miss :=
  { id := 0, cyc := 0, kind := .line, addr := 64, size := 8, oct := false, side := false, sec := false
    accs := [{ store := true, lo := 0, width := 72, val := 7 }] }

/-- The copy of line 1 in the neighbour's frame 8. -/
def neighbourCopy : CLine := { line := 1, bits := 5 }

/-- Core 0 waits for the line that its neighbour holds; the neighbour's table of frames, which no hypothesis of the
statement asks to be canonical, lists the frame twice. -/
def twiceListed : State :=
  { cfg := { phase := .run }
    cores := [(0, { misses := [storeOfLine1] }), (1, { dcache := [(8, some neighbourCopy), (8, some neighbourCopy)] })] }

/-- The state is canonical in the model's own sense, which does not speak of the frames of a core. -/
theorem twiceListed_canonical : Canonical twiceListed := by
  have hregs : ∀ i, (coreAt twiceListed i).regs = [] := fun i => by
    unfold coreAt twiceListed
    simp only [mget]
    repeat' split
    all_goals rfl
  rw [canonical_iff]
  exact ⟨rfl, ⟨by decide +kernel, fun i => by rw [hregs]; rfl⟩, rfl, rfl, rfl, rfl, rfl, rfl,
    ⟨rfl, fun _ => ⟨rfl, rfl, rfl⟩⟩, rfl, ⟨rfl, fun _ => rfl⟩, rfl, rfl, rfl, rfl, rfl, rfl⟩

/-- The neighbour still reads the frame as it was. -/
def neighbourKeeps : Host.Outcome State Fault Refusal → Bool
  | .next t => mget none (coreAt t 1).dcache 8 == some neighbourCopy
  | _ => false

/-- Refutes O20: the tables of the core that fills are canonical, but those of its siblings need not be. The directory
takes away one entry of the frame in `twiceListed`, and the second entry still answers; `twiceListed_canonical` says that
the model's `Canonical` does not exclude such a state either. -/
theorem not_missesComplete : ¬ Obligations.MissesComplete := by
  intro h
  obtain ⟨-, -, hfill, -⟩ := h ⟨0, 0⟩ 0 storeOfLine1 twiceListed (by decide +kernel) (by decide +kernel)
    (by decide +kernel) (by decide +kernel) (by decide +kernel)
  have hempty : mget none (coreAt twiceListed 0).dcache 8 = none := by decide +kernel
  have hcopy : dFrame twiceListed 1 1 = some (8, neighbourCopy) := by decide +kernel
  have hsource : ∀ j ∈ siblings 0, j ≠ 1 →
      dFrame twiceListed j 1 = none ∧ evictFind (coreAt twiceListed j) 1 = none := by
    decide +kernel
  obtain ⟨hplaced, -⟩ := hfill 5 8 (.inl rfl) (by decide +kernel) (by decide +kernel)
    (by decide +kernel) (by decide +kernel)
    (.inl ⟨1, by decide, 8, neighbourCopy, hcopy, rfl, by decide +kernel, rfl, hsource⟩)
    (.inr (.inr ⟨rfl, by decide +kernel, ⟨0, by decide +kernel, rfl⟩, fun v hv => nomatch hempty.symm.trans hv⟩))
  obtain ⟨t, ht, -, -, -, -, hgone, -⟩ := hplaced (.inl hempty)
  have hkeeps : neighbourKeeps (exec (.missFillComplete ⟨0, 0⟩ 0) twiceListed) = true := by decide +kernel
  rw [ht, neighbourKeeps, hgone rfl 1 (by decide) 8 neighbourCopy hcopy] at hkeeps
  exact absurd hkeeps (by decide)

end Sys2Proof.Machine
end

section
/-! Mains loss and mains return: the entry to DARK leaves the stored vault images, and a ride begins, ends and becomes a
vault. -/

namespace Sys2Proof.Machine

variable {s : State}

/-! ### The stored vault images -/

/-- The two vault slots and which of them is the newest. -/
def vaultSlots (s : State) : Option VaultImage × Option VaultImage × Option Bool :=
  (s.nv.slot0, s.nv.slot1, s.nv.newest)

theorem vaultSlots_of_nv {t : State} (h : t.nv = s.nv) : vaultSlots t = vaultSlots s := by
  simp only [vaultSlots, h]

@[simp] theorem report_vaultSlots (r : Report) (s : State) : vaultSlots (report r s) = vaultSlots s :=
  vaultSlots_of_nv (report_nv s r)

theorem thresholdMet_vaultSlots (u was n : Nat) (s : State) : vaultSlots (thresholdMet u was n s) = vaultSlots s := by
  unfold thresholdMet
  split
  · exact report_vaultSlots _ _
  · rfl

theorem setCount_vaultSlots (u c n : Nat) (s : State) : vaultSlots (setCount u c n s) = vaultSlots s := by
  unfold setCount
  dsimp only
  split
  · exact thresholdMet_vaultSlots _ _ _ _
  · rfl

@[simp] theorem assertReplace_vaultSlots (b : Nat) (s : State) : vaultSlots (assertReplace b s) = vaultSlots s := by
  unfold assertReplace
  dsimp only
  split <;> rfl

/-- The acceptance of a report leaves the stored vault images (R456). -/
theorem acceptReport_vaultSlots (r : Report) (s : State) : vaultSlots (acceptReport r s) = vaultSlots s := by
  obtain ⟨-, hnv, -⟩ := logReport_stays r s
  unfold acceptReport
  dsimp only
  split
  · exact (setCount_vaultSlots ..).trans (vaultSlots_of_nv hnv)
  · exact (assertReplace_vaultSlots ..).trans ((setCount_vaultSlots ..).trans (vaultSlots_of_nv hnv))

theorem acceptAll_vaultSlots (rs : List Report) (s : State) : vaultSlots (acceptAll rs s) = vaultSlots s := by
  induction rs generalizing s with
  | nil => rfl
  | cons r rs ih => exact (ih _).trans (acceptReport_vaultSlots r s)

/-- The commit of a record leaves the stored vault images (R405). -/
theorem commitEntry_vaultSlots (e : LogEntry) (s : State) : vaultSlots (commitEntry e s) = vaultSlots s := by
  unfold commitEntry
  dsimp only
  split
  · rfl
  · split <;> rfl

theorem commitOne_vaultSlots (s : State) : vaultSlots (commitOne s) = vaultSlots s := by
  unfold commitOne
  split
  · rfl
  · exact commitEntry_vaultSlots _ _

theorem commitAll_vaultSlots (n : Nat) (s : State) : vaultSlots (commitAll n s) = vaultSlots s := by
  induction n generalizing s with
  | zero => rfl
  | succ n ih => exact (ih _).trans (commitOne_vaultSlots s)

/-- An interrupted image update leaves the stored vault images (R77). -/
theorem partialUpdate_slots (s : State) :
    ((partialUpdate s).slot0, (partialUpdate s).slot1, (partialUpdate s).newest) = vaultSlots s := by
  unfold partialUpdate
  split
  · dsimp only
    split <;> rfl
  · rfl

/-- The entry to DARK leaves the stored vault images (R42, R54). -/
@[simp] theorem goDark_vaultSlots (s : State) : vaultSlots (goDark s) = vaultSlots s := by
  refine (partialUpdate_slots _).trans ((commitAll_vaultSlots _ _).trans ?_)
  exact (acceptAll_vaultSlots _ _).trans (acceptAll_vaultSlots _ _)

@[simp] theorem darkOnLoss_vaultSlots (s : State) : vaultSlots (darkOnLoss s) = vaultSlots s := goDark_vaultSlots s

/-! ### The declaration of a loss -/

/-- What abandoning a reprobe changes: what PWR_RSV shows of it (R39). -/
theorem abandonReprobe_changes (s : State) :
    ∃ b n, abandonReprobe s = { s with pwr := { s.pwr with reprobing := b, pstat := n } } := by
  unfold abandonReprobe
  split
  · exact ⟨_, _, rfl⟩
  · exact ⟨_, _, rfl⟩

/-- A loss before RUN takes the module to DARK at once (R42). -/
theorem declareLoss_early (crit : Nat) (h : s.cfg.phase ∈ [Phase.charge, .probe, .load, .test, .lock]) :
    (declareLoss crit s).cfg.phase = .dark ∧ vaultSlots (declareLoss crit s) = vaultSlots s := by
  obtain ⟨b, n, ha⟩ := abandonReprobe_changes { s with pwr := { s.pwr with loss := true, crit := crit } }
  have hd : declareLoss crit s =
      darkOnLoss (abandonReprobe { s with pwr := { s.pwr with loss := true, crit := crit } }) := by
    unfold declareLoss
    rw [ha]
    simp only [List.mem_cons, List.not_mem_nil, or_false] at h
    rcases h with h | h | h | h | h <;> simp only [h]
  rw [hd, ha]
  exact ⟨rfl, darkOnLoss_vaultSlots _⟩

/-- A loss in RUN or HELM-ONLY begins a ride, which remembers the state that it left (R40, R41). -/
theorem declareLoss_serving (crit : Nat) (h : s.cfg.phase = .run ∨ s.cfg.phase = .helm) :
    let t := declareLoss crit s
    t.cfg.phase = .ride ∧ t.pwr.rideFrom = s.isl.chron ∧ t.pwr.loss = true ∧ t.pwr.crit = crit ∧
      t.pwr.rideHelm = (s.cfg.phase == .helm) ∧ t.pwr.discon = s.pwr.discon ∧ t.mem = s.mem ∧ t.cores = s.cores := by
  obtain ⟨b, n, ha⟩ := abandonReprobe_changes { s with pwr := { s.pwr with loss := true, crit := crit } }
  unfold declareLoss
  rw [ha]
  rcases h with h | h <;> simp [h]

/-- MAINS_LOSS by a criterion that applies, outside DARK, declares the loss (R31). -/
theorem mainsLoss_applies {crit : Fin 5} (hd : s.cfg.phase ≠ .dark) (h : criterionApplies crit.val s = true) :
    exec (.mainsLoss crit) s = .next (declareLoss crit.val s) :=
  if_neg (by simp [hd, h])

/-- Settles O21: a loss before RUN is an entry to DARK, which leaves what the vault has stored. -/
theorem lossBeforeServiceEndsInDark : Obligations.LossBeforeServiceEndsInDark := by
  intro crit s hphase hcrit
  by_cases hdark : s.cfg.phase = .dark
  · exact ⟨s, if_pos (.inl hdark), hdark, rfl, rfl, rfl, fun _ => rfl⟩
  · have happlies : criterionApplies crit.val s = true := hcrit.resolve_left hdark
    have hearly : s.cfg.phase ∈ [Phase.charge, .probe, .load, .test, .lock] := (List.mem_cons.1 hphase).resolve_left hdark
    obtain ⟨hgone, hslots⟩ := declareLoss_early crit.val hearly
    simp only [vaultSlots, Prod.mk.injEq] at hslots
    obtain ⟨hslot0, hslot1, hnewest⟩ := hslots
    exact ⟨_, mainsLoss_applies hdark happlies, hgone, hslot0, hslot1, hnewest, fun h => absurd h hdark⟩

/-! ### The ride -/

/-- VAULT begins with its sequence entered; clock and memory stay (R43). -/
theorem enterVault_effect (s : State) :
    let t := enterVault s
    t.cfg.phase = .vault ∧ t.pwr.vault = .entered ∧ t.isl = s.isl ∧ t.mem = s.mem := by
  obtain ⟨b, n, ha⟩ := abandonReprobe_changes s
  unfold enterVault
  rw [ha]
  simp

/-- RIDE_TIME_EXPIRY ends the ride in VAULT, no sooner than RIDE_TIME after the loss (R43). -/
theorem rideTimeExpiry_vault (h : s.cfg.phase = .ride) :
    ∃ t, exec .rideTimeExpiry s = .next t ∧ t.cfg.phase = .vault ∧ t.pwr.vault = .entered ∧
      s.pwr.rideFrom + rideTime s ≤ t.isl.chron ∧ t.mem = s.mem := by
  obtain ⟨hphase, hvault, hisl, hmem⟩ := enterVault_effect (reachTime (s.pwr.rideFrom + rideTime s) s)
  refine ⟨_, if_pos h, hphase, hvault, ?_, hmem⟩
  rw [hisl]
  exact Nat.le_max_right ..

/-- Valid mains ends the loss and the disconnection, and its sample is recorded (R32). -/
def mainsBack (inp : MainsInput) (s : State) : State :=
  takeInput inp { s with pwr := { s.pwr with loss := false, discon := false } }

/-- MAINS_VALID_AGAIN in RIDE: the vault starts where RIDE_TIME has expired, else the module resumes (R41, R43). -/
theorem mainsValidAgain_ride {inp : MainsInput} (h : s.cfg.phase = .ride) (hv : validAgain inp s = true) :
    exec (.mainsValidAgain inp) s = .next (if s.pwr.rideFrom + rideTime s ≤ s.isl.chron then enterVault (mainsBack inp s)
      else report (mkReport Unit.pwr Cls.reported Code.pwrMainsReturn 78 [(satW 36 (s.isl.chron - s.pwr.rideFrom), 36)])
        { mainsBack inp s with cfg := { s.cfg with phase := if s.pwr.rideHelm then .helm else .run } }) := by
  simp only [exec, execMainsValidAgain, hv, h, Bool.not_true, Bool.false_eq_true, if_false]
  rw [apply_ite Host.Outcome.next]
  rfl

/-- Mains back before RIDE_TIME resumes the state that the ride left (R41). -/
theorem mainsValidAgain_inTime {inp : MainsInput} (h : s.cfg.phase = .ride) (hv : validAgain inp s = true)
    (ht : s.isl.chron < s.pwr.rideFrom + rideTime s) :
    ∃ t, exec (.mainsValidAgain inp) s = .next t ∧ t.cfg.phase = (if s.pwr.rideHelm then .helm else .run) ∧
      t.pwr.loss = false ∧ t.pwr.vin = inp.vin.toNat ∧ t.mem = s.mem ∧ t.cores = s.cores := by
  refine ⟨_, mainsValidAgain_ride h hv, ?_⟩
  rw [if_neg (Nat.not_le.2 ht)]
  simp [mainsBack, takeInput]

/-- Mains back after RIDE_TIME comes too late: the vault starts (R43). -/
theorem mainsValidAgain_late {inp : MainsInput} (h : s.cfg.phase = .ride) (hv : validAgain inp s = true)
    (ht : s.pwr.rideFrom + rideTime s ≤ s.isl.chron) :
    ∃ t, exec (.mainsValidAgain inp) s = .next t ∧ t.cfg.phase = .vault := by
  refine ⟨_, mainsValidAgain_ride h hv, ?_⟩
  rw [if_pos ht]
  exact (enterVault_effect _).1

/-- MAINS_VALID_AGAIN in DARK: the module leaves for CHARGE (R32, R54). -/
theorem mainsValidAgain_dark {inp : MainsInput} (h : s.cfg.phase = .dark) (hv : validAgain inp s = true) :
    exec (.mainsValidAgain inp) s = .next (leaveDark inp.dc s) := by
  simp only [exec, execMainsValidAgain, hv, h, Bool.not_true, Bool.false_eq_true, if_false]

/-- Settles O22: a loss in service begins a ride, whose end is the service again or the vault. -/
theorem rideAndReturn : Obligations.RideAndReturn := by
  intro crit inp s
  refine ⟨fun hserv hcrit => ?_, fun hride => ⟨rideTimeExpiry_vault hride, fun ht hv => mainsValidAgain_inTime hride hv ht,
    fun ht hv => mainsValidAgain_late hride hv ht⟩, fun hdark hv => mainsValidAgain_dark hdark hv⟩
  have hlit : s.cfg.phase ≠ .dark := by rcases hserv with h | h <;> simp [h]
  obtain ⟨hphase, hfrom, hloss, hcause, hhelm, -, hmem, hcores⟩ := declareLoss_serving crit.val hserv
  exact ⟨_, mainsLoss_applies hlit hcrit, hphase, hfrom, hloss, hcause, hhelm, hmem, hcores⟩

end Sys2Proof.Machine
end

section
/-! The input and the conditions of R50 to R52 that are reported. -/

namespace Sys2Proof.Machine

variable {s : State}

/-! ### The line class and the input -/

/-- REQUIRED depends on the image in use alone (R36, R37). -/
theorem requiredEnergy_congr {t : State} (hc : t.cfg.copy = s.cfg.copy) (hnv : t.nv = s.nv) (line : Nat) :
    requiredEnergy t line = requiredEnergy s line := by
  simp only [requiredEnergy, vaultRegions, nreg, sec, secX, image, hc, hnv]

/-- The class that a held condition of R30 changes to. -/
theorem newLine_some {line c : Nat} {inp : MainsInput} (h : (line = 1 ∧ inp.dc = true ∧ c = 3) ∨
    (line = 1 ∧ inp.dc = false ∧ 184 ≤ inp.vin.toNat ∧ c = 2) ∨
    (line ≠ 1 ∧ inp.dc = false ∧ inp.vin.toNat < 176 ∧ c = 1)) : newLine line inp = some c := by
  unfold newLine
  rcases h with ⟨hl, hd, hc⟩ | ⟨hl, hd, hv, hc⟩ | ⟨hl, hd, hv, hc⟩
  · simp [hl, hd, hc]
  · simp [hl, hd, hv, hc]
  · simp [hl, hd, hv, hc]

/-- The sample of a changed class, with REQUIRED and READY for it (R30, R36). -/
def lineChanged (inp : MainsInput) (c : Nat) (s : State) : State :=
  recomputeRequired (takeInput inp { s with pwr := { s.pwr with line := c } })

theorem lineChanged_effect (inp : MainsInput) (c : Nat) (s : State) :
    let t := lineChanged inp c s
    t.pwr.line = c ∧ t.pwr.required = requiredEnergy s c ∧ t.pwr.ready = decide (requiredEnergy s c ≤ s.pwr.usable) ∧
      t.pwr.vin = inp.vin.toNat ∧ t.mem = s.mem :=
  ⟨rfl, requiredEnergy_congr rfl rfl c, by rw [← requiredEnergy_congr (s := s) rfl rfl c]; rfl, rfl, rfl⟩

/-- What a report of a short reservoir changes of the power stage and of memory: nothing (R38). -/
@[simp] theorem rsvShort_pwr (s : State) : (rsvShort s).pwr = s.pwr := report_pwr ..

@[simp] theorem rsvShort_mem (s : State) : (rsvShort s).mem = s.mem := report_mem ..

theorem runOrHelm_of_serving (h : s.cfg.phase = .run ∨ s.cfg.phase = .helm) : runOrHelm s = true := by
  rcases h with h | h <;> simp [runOrHelm, h]

/-- PWR_LINE_CHANGE to another class (R30). -/
theorem pwrLineChange_effect {inp : MainsInput} {c : Nat} (h : s.cfg.phase = .run ∨ s.cfg.phase = .helm)
    (hc : newLine s.pwr.line inp = some c) : ∃ t, exec (.pwrLineChange inp) s = .next t ∧
      t.pwr = (lineChanged inp c s).pwr ∧ t.mem = (lineChanged inp c s).mem := by
  simp only [exec, execPwrLineChange, runOrHelm_of_serving h, hc, Bool.not_true, Bool.false_eq_true, if_false]
  refine ⟨_, rfl, ?_⟩
  split
  · simp [lineChanged]
  · simp [lineChanged]

/-- An input in the rated range is no excursion (R31). -/
theorem excursion_of_inRange {inp : MainsInput} (h : inRange inp = true) : excursion inp = false := by
  simp only [excursion, h, Bool.not_true, Bool.false_and]

/-- PWR_INPUT_RANGE of an excursion reports it once (R31). -/
theorem pwrInputRange_excursion {inp : MainsInput} (hd : s.cfg.phase ≠ .dark) (hl : s.pwr.loss = false)
    (he : excursion inp = true) :
    let u := { takeInput inp s with pwr := { (takeInput inp s).pwr with excur := true } }
    exec (.pwrInputRange inp) s = .next (if s.pwr.excur then u else report (mkReport Unit.pwr Cls.reported
      Code.pwrInputRange 78 [(inp.vin.toNat, 10), (if inp.dc then 0 else inp.freq.toNat, 9)]) u) := by
  simp only [exec, execPwrInputRange, beq_eq_false_iff_ne.2 hd, hl, he, Bool.or_self, Bool.false_eq_true, if_false, if_true]
  cases s.pwr.excur <;> rfl

/-- PWR_INPUT_RANGE of an input back in the rated range records it (R31). -/
theorem pwrInputRange_back {inp : MainsInput} (hd : s.cfg.phase ≠ .dark) (hl : s.pwr.loss = false)
    (hr : inRange inp = true) : exec (.pwrInputRange inp) s = .next (takeInput inp s) := by
  simp only [exec, execPwrInputRange, beq_eq_false_iff_ne.2 hd, hl, hr, excursion_of_inRange hr, Bool.or_self,
    Bool.false_eq_true, if_false, if_true]

/-! ### Temperatures and coolant -/

/-- PWR_THERM_HIGH from 105 °C only reports (R50). -/
theorem pwrThermHigh_effect (quad : Option QuadId) {tj : BitVec 8} (hd : s.cfg.phase ≠ .dark) (h : 145 ≤ tj.toNat) :
    exec (.pwrThermHigh quad tj) s = .next (report (mkReport Unit.pwr Cls.reported Code.pwrThermHigh
      ((quad.map fun q => 53 + q.val).getD 52) [((quad.map fun q => 53 + q.val).getD 52, 7), (tj.toNat, 8)]) s) := by
  have hact : ¬ (s.cfg.phase = .dark ∨ tj.toNat < 145) := not_or.2 ⟨hd, Nat.not_lt.2 h⟩
  cases quad <;> exact if_neg hact

/-- RSV_HOT from 75 °C stops the charging and reports (R50). -/
theorem rsvHot_effect {temp : BitVec 8} (hd : s.cfg.phase ≠ .dark) (h : 115 ≤ temp.toNat) :
    exec (.rsvHot temp) s = .next (report (mkReport Unit.pwr Cls.protect Code.rsvHot 79 [(temp.toNat, 8)])
      { s with pwr := { s.pwr with chargeOff := true } }) := by
  exact if_neg (not_or.2 ⟨hd, Nat.not_lt.2 h⟩)

/-- PWR_COOLANT records the measurement, and reports it as it leaves the limits of R52. -/
theorem pwrCoolant_effect {inlet flow : BitVec 8} {held : Bool} {out : Prop} [Decidable out] (hd : s.cfg.phase ≠ .dark)
    (ho : out ↔ inlet.toNat < 45 ∨ 85 < inlet.toNat ∨ (flow.toNat < 20 ∧ held = true)) :
    let t := { s with pwr := { s.pwr with coolOut := decide out, inlet := inlet.toNat, flow := flow.toNat } }
    exec (.pwrCoolant inlet flow held) s = .next (if out ∧ s.pwr.coolOut = false then
      report (mkReport Unit.pwr Cls.reported Code.pwrCoolant 81 [(inlet.toNat, 8), (flow.toNat, 8)]) t else t) := by
  have hout : (decide (inlet.toNat < 45) || decide (85 < inlet.toNat) || (decide (flow.toNat < 20) && held)) =
      decide out := by
    rw [Bool.eq_iff_iff, decide_eq_true_iff, ho]
    simp [or_assoc]
  simp only [exec, execPwrCoolant, hd, if_false, hout, reportIf, Bool.and_eq_true, decide_eq_true_eq, Bool.not_eq_true']

/-- Settles O23: each clause is the lemma above for its command. -/
theorem inputConditionsAreReported : Obligations.InputConditionsAreReported := by
  intro inp quad tj temp inlet flow held s
  refine ⟨fun hserv c hc => ?_, fun hd => ⟨fun hl he => pwrInputRange_excursion hd hl he,
    fun hl hr => pwrInputRange_back hd hl hr, fun h => pwrThermHigh_effect quad hd h, fun h => rsvHot_effect hd h, ?_⟩,
    fun h => if_pos h⟩
  · obtain ⟨t, ht, hpwr, hmem⟩ := pwrLineChange_effect hserv (newLine_some hc)
    refine ⟨t, ht, ?_⟩
    rw [hpwr, hmem]
    exact lineChanged_effect inp c s
  · exact pwrCoolant_effect hd Iff.rfl

end Sys2Proof.Machine
end

section
/-! The start states, from CHARGE to LOCK. -/

namespace Sys2Proof.Machine

variable {s : State}

/-! ### Reports that are made on a condition -/

theorem reportIf_cases (c : Bool) (r : Report) (s : State) : reportIf c r s = report r s ∨ reportIf c r s = s := by
  cases c
  · exact .inr rfl
  · exact .inl rfl

section
variable (c : Bool) (r : Report) (s : State)

@[simp] theorem reportIf_cfg : (reportIf c r s).cfg = s.cfg := by rcases reportIf_cases c r s with h | h <;> simp [h]

@[simp] theorem reportIf_nv : (reportIf c r s).nv = s.nv := by rcases reportIf_cases c r s with h | h <;> simp [h]

@[simp] theorem reportIf_pwr : (reportIf c r s).pwr = s.pwr := by rcases reportIf_cases c r s with h | h <;> simp [h]

@[simp] theorem reportIf_isl : (reportIf c r s).isl = s.isl := (reportIf_frame c r s).2.1

@[simp] theorem reportIf_mem : (reportIf c r s).mem = s.mem := (reportIf_frame c r s).2.2.1

end

/-! ### CHARGE and PROBE -/

/-- CHARGE_COMPLETE while charging goes on enters PROBE (R54). -/
theorem chargeComplete_effect (h : s.cfg.phase = .charge) (ho : s.pwr.chargeOff = false) :
    exec .chargeComplete s = .next { s with cfg := { s.cfg with phase := .probe } } :=
  if_pos ⟨h, by simp [ho]⟩

/-- CHARGE_TIMEOUT enters PROBE after 20 s at the soonest, and keeps the voltage (R55). -/
theorem chargeTimeout_effect (cv : BitVec 16) (h : s.cfg.phase = .charge) :
    ∃ t, exec (.chargeTimeout cv) s = .next t ∧ t.cfg.phase = .probe ∧ t.pwr.tmoVolt = some cv.toNat ∧
      20000000000 ≤ t.isl.chron :=
  ⟨_, if_pos h, rfl, rfl, Nat.le_max_right ..⟩

/-- PROBE_MEASUREMENT enters LOAD with the address, the line class and the reservoir as measured (R22, R29, R33, R55). -/
theorem probeMeasurement_effect (straps : BitVec 3) (inp : MainsInput) (v : ProbeSamples) (temp : BitVec 8)
    (h : s.cfg.phase = .probe) : ∃ t, exec (.probeMeasurement straps inp v temp) s = .next t ∧ t.cfg.phase = .load ∧
      t.lgb.addr = 0o130 + straps.toNat ∧ t.pwr.line = lineClass inp ∧
      (s.pwr.tmoVolt = none → t.pwr.usable = (measure v temp.toNat).usable) ∧
      (s.pwr.tmoVolt ≠ none → t.pwr.usable = 0 ∧ t.pwr.pstat = 3) := by
  refine ⟨_, if_pos h, rfl, rfl, rfl, fun hn => ?_, fun hs => ?_⟩
  · simp [hn]
  · simp [Option.isSome_iff_ne_none.2 hs]

/-! ### LOAD -/

/-- What LOAD_ENTRY counts: the start configuration and the power cycles. -/
def startCount (s : State) : Cfg × Nat := (s.cfg, s.nv.pcc)

theorem startCount_of_eq {t : State} (hc : t.cfg = s.cfg) (hnv : t.nv = s.nv) : startCount t = startCount s := by
  simp only [startCount, hc, hnv]

theorem report_startCount (r : Report) (s : State) : startCount (report r s) = startCount s :=
  startCount_of_eq (report_cfg ..) (report_nv ..)

theorem recoverNewest_startCount (s : State) : startCount (recoverNewest s) = startCount s := by
  unfold recoverNewest
  split
  · rfl
  · extract_lets n r u
    split
    · rfl
    · exact (report_startCount ..).trans rfl

theorem alertAtLoad_startCount (s : State) : startCount (alertAtLoad s) = startCount s := by
  unfold alertAtLoad
  split
  · rfl
  · extract_lets due
    split <;> rfl

theorem assertReplace_startCount (b : Nat) (s : State) : startCount (assertReplace b s) = startCount s := by
  unfold assertReplace
  extract_lets m u
  split <;> rfl

/-- LOAD_ENTRY counts the power cycle (R56). -/
theorem loadEntry_effect (h : s.cfg.phase = .load) (hi : s.cfg.loadIn = false) :
    ∃ t, exec .loadEntry s = .next t ∧ t.cfg.loadIn = true ∧ t.nv.pcc = min (s.nv.pcc + 1) (2 ^ 36 - 1) := by
  have hact : ¬ (s.cfg.phase ≠ .load ∨ s.cfg.loadIn = true) := by simp [h, hi]
  suffices ∃ t, exec .loadEntry s = .next t ∧
      startCount t = ({ s.cfg with loadIn := true }, min (s.nv.pcc + 1) (2 ^ 36 - 1)) by
    obtain ⟨t, ht, hcount⟩ := this
    simp only [startCount, Prod.mk.injEq] at hcount
    exact ⟨t, ht, by rw [hcount.1], hcount.2⟩
  change ∃ t, execLoadEntry s = .next t ∧ _
  unfold execLoadEntry
  rw [if_neg hact]
  extract_lets _ _ s₀ s₁ s₂ s₃ _ s₄ s₅ s₆ img
  refine ⟨_, rfl, ?_⟩
  have h₁ : startCount s₁ = startCount s₀ := startCount_of_eq (by simp [s₁, flashWornCheck, rsvWornCheck])
    (by simp [s₁, flashWornCheck, rsvWornCheck])
  have h₂ : startCount s₂ = startCount s₁ := by
    unfold s₂
    split
    · rfl
    · exact report_startCount ..
  have h₃ : startCount s₃ = startCount s₂ := (alertAtLoad_startCount _).trans (recoverNewest_startCount _)
  have h₄ : startCount s₄ = startCount s₃ := by
    unfold s₄
    split
    · rfl
    · exact startCount_of_eq rfl rfl
  have h₅ : startCount s₅ = startCount s₄ := by
    unfold s₅
    split
    · exact assertReplace_startCount ..
    · rfl
  have h₆ : startCount s₆ = startCount s₅ := by
    unfold s₆
    split
    · exact assertReplace_startCount ..
    · rfl
  have hlast : startCount s₆ = startCount s₀ := by rw [h₆, h₅, h₄, h₃, h₂, h₁]
  clear_value s₆ s₅ s₄ s₃ s₂ s₁
  exact (startCount_of_eq (s := s₆) rfl rfl).trans (hlast.trans rfl)

@[simp] theorem flashCopy_report (r : Report) (s : State) (b : Bool) : flashCopy (report r s) b = flashCopy s b := by
  simp only [flashCopy, report_nv]

/-- The use of a copy ends LOAD (R60). -/
theorem useCopy_effect (b : Bool) (s : State) :
    let t := useCopy b s
    t.mem = s.mem ∧ t.nv = s.nv ∧ t.cfg.phase = .test ∧ t.cfg.copy = (if b then 2 else 1) ∧
      t.cfg.seq = imgSeq (flashCopy s b) := by
  unfold useCopy
  split <;> exact ⟨rfl, rfl, rfl, rfl, rfl⟩

/-- Where both copies of the image fail, LOAD is held (R61). -/
theorem imageSelectVerify_none (h : s.cfg.phase = .load) (hi : s.cfg.loadIn = true) (hh : s.cfg.held = false)
    (hbad : ∀ b, (copyFault (flashCopy s b)).isSome = true) :
    ∃ t, exec .imageSelectVerify s = .next t ∧ t.mem = s.mem ∧ t.nv = s.nv ∧ t.cfg.phase = .load ∧ t.cfg.held = true ∧
      t.cfg.copy = s.cfg.copy := by
  have hact : ¬ (s.cfg.phase ≠ .load ∨ (!s.cfg.loadIn) = true ∨ s.cfg.held = true) := by simp [h, hi, hh]
  obtain ⟨f, hf⟩ := Option.isSome_iff_exists.1 (hbad (candidate s))
  obtain ⟨g, hg⟩ := Option.isSome_iff_exists.1 (hbad (!candidate s))
  simp only [exec, execImageSelectVerify]
  rw [if_neg hact]
  simp [verifyCopy, hf, hg, h]

/-- The candidate is used when it verifies, else the other copy when that does (R60). -/
theorem imageSelectVerify_uses (h : s.cfg.phase = .load) (hi : s.cfg.loadIn = true) (hh : s.cfg.held = false) {b : Bool}
    (hok : (copyFault (flashCopy s b)).isSome = false)
    (hb : b = candidate s ∨ (copyFault (flashCopy s (candidate s))).isSome = true) :
    ∃ t, exec .imageSelectVerify s = .next t ∧ t.mem = s.mem ∧ t.nv = s.nv ∧ t.cfg.phase = .test ∧
      t.cfg.copy = (if b then 2 else 1) ∧ t.cfg.seq = imgSeq (flashCopy s b) := by
  have hact : ¬ (s.cfg.phase ≠ .load ∨ (!s.cfg.loadIn) = true ∨ s.cfg.held = true) := by simp [h, hi, hh]
  have hnone : copyFault (flashCopy s b) = none := by simpa using hok
  simp only [exec, execImageSelectVerify]
  rw [if_neg hact]
  by_cases hc : b = candidate s
  · subst hc
    exact ⟨useCopy (candidate s) s, by simp [verifyCopy, hnone], useCopy_effect (candidate s) s⟩
  · obtain ⟨f, hf⟩ := Option.isSome_iff_exists.1 (hb.resolve_left hc)
    have hother : (!candidate s) = b := (Bool.eq_not_of_ne hc).symm
    obtain ⟨hmem, hnv, hused⟩ := useCopy_effect b (report (copyBad (candidate s) f) s)
    rw [flashCopy_report] at hused
    exact ⟨useCopy b (report (copyBad (candidate s) f) s), by simp [verifyCopy, hf, hother, hnone],
      hmem.trans (report_mem ..), hnv.trans (report_nv ..), hused⟩

/-! ### LOCK -/

/-- A table written at the first keys reads as it was written. -/
theorem mget_writeAll {α : Type} [DecidableEq α] {d : α} (g : Nat → α) {n k : Nat} (hk : k < n) :
    mget d ((List.range n).foldl (fun m t => mset d m t (g t)) []) k = g k := by
  induction n with
  | zero => omega
  | succ n ih =>
    have hwf := foldl_mset_wf (fun (m : SMap α) t => mset d m t (g t)) (fun _ _ h => mset_wf h) (List.range n) [] rfl
    rw [List.range_succ, List.foldl_append, List.foldl_cons, List.foldl_nil]
    by_cases h : k = n
    · rw [h, mget_mset_same hwf]
    · rw [mget_mset_ne hwf h, ih (by omega)]

/-- LOCK_SEQUENCE performs steps 1 to 5 where they are still due, and steps 6 to 8 unless it stops there (R66). -/
theorem lockSequence_effect (bt : List SubId) (run : LockRun) (h : s.cfg.phase = .lock) {s5 : State}
    (h5 : (if s.wld.locked then s else lockOpen bt run.badSets s) = s5) :
    exec (.lockSequence bt run) s = .next (if run.part then s5 else enterService (chooseAlternate (loadAll s5))) := by
  subst h5
  exact if_neg (not_not.2 h)

/-- Step 1 of LOCK takes the watermarks and the owners from the WORLDS section and locks them (R229, R231). -/
theorem lockWorlds_effect (s : State) :
    let t := lockWorlds s
    t.wld.locked = true ∧ t.wld.dwm = fld (image s) 1 0 4 ∧ t.wld.hwm = fld (image s) 1 4 4 ∧
      t.wld.kwm = fld (image s) 1 8 4 ∧ t.wld.blocks = BitVec.ofNat 16 (fld (image s) 1 12 4) ∧
      t.wld.quads = BitVec.ofNat 24 (fld (image s) 1 16 4) ∧ t.wld.tiles = BitVec.ofNat 48 (fld (image s) 1 24 8) ∧
      t.wld.iwm = fldX (image s) 1 20 4 4096 ∧ (∀ k < 48, mget 0 t.wld.twm k = fld (image s) 1 (32 + 2 * k) 2) ∧
      t.mem = s.mem ∧ t.cores = s.cores ∧ t.cfg = s.cfg := by
  simp only [lockWorlds, imgIrqWm, true_and, and_true]
  exact fun k hk => mget_writeAll (fun t => fld (image s) 1 (32 + 2 * t) 2) hk

/-- Step 7 of LOCK takes the alternate selected, or reports that none matches (R68, R69). -/
theorem chooseAlternate_some {a : Nat} (h : selectAlternate { s with cfg := { s.cfg with nalt := nalt s } } = some a) :
    chooseAlternate s = { s with cfg := { s.cfg with nalt := nalt s, cur := a } } := by
  unfold chooseAlternate
  extract_lets _ t
  change selectAlternate t = _ at h
  rw [h]

theorem chooseAlternate_none (h : selectAlternate { s with cfg := { s.cfg with nalt := nalt s } } = none) :
    chooseAlternate s = report (noAlternate { s with cfg := { s.cfg with nalt := nalt s } })
      { s with cfg := { s.cfg with nalt := nalt s, noAlt := true } } := by
  unfold chooseAlternate
  extract_lets _ t
  change selectAlternate t = _ at h
  rw [h]

/-- Settles O24: each state is left as the lemma above for its command says; step 1 of LOCK reads the WORLDS section. -/
theorem startRunsThroughItsStates : Obligations.StartRunsThroughItsStates := by
  intro cv straps inp v temp failed bt bs s
  refine ⟨fun h => ⟨chargeComplete_effect h, chargeTimeout_effect cv h⟩, probeMeasurement_effect straps inp v temp,
    loadEntry_effect, fun h hi hh => ?_, fun h => ⟨_, if_neg (not_not.2 h), rfl⟩, fun h => ?_, lockWorlds_effect s⟩
  · intro bad
    by_cases hall : ∀ b, bad b = true
    · obtain ⟨t, ht, hmem, hnv, hheld⟩ := imageSelectVerify_none h hi hh hall
      exact ⟨t, ht, hmem, hnv, fun _ _ => hheld, fun b hb => absurd (hall b) (by simp [hb])⟩
    · obtain ⟨b, hb, huse⟩ : ∃ b, bad b = false ∧ (b = candidate s ∨ bad (candidate s) = true) := by
        cases hc : bad (candidate s) with
        | false => exact ⟨_, hc, .inl rfl⟩
        | true =>
          obtain ⟨b, hb⟩ := not_forall.1 hall
          exact ⟨b, by simpa using hb, .inr rfl⟩
      obtain ⟨t, ht, hmem, hnv, -⟩ := imageSelectVerify_uses h hi hh hb huse
      refine ⟨t, ht, hmem, hnv, fun hA hB => (hall (Bool.forall_bool.2 ⟨hA, hB⟩)).elim, fun b' hb' huse' => ?_⟩
      obtain ⟨t', ht', -, -, hused⟩ := imageSelectVerify_uses h hi hh hb' huse'
      exact Host.Outcome.next.inj (ht.symm.trans ht') ▸ hused
  · intro s5 s6 s7
    have h5 : (if s.wld.locked then s else lockOpen bt bs s) = s5 := rfl
    have h6 : loadAll s5 = s6 := rfl
    clear_value s6 s5
    refine ⟨lockSequence_effect bt ⟨bs, true⟩ h h5, (lockSequence_effect bt ⟨bs, false⟩ h h5).trans ?_⟩
    cases hsel : selectAlternate s7 with
    | some a => rw [h6, chooseAlternate_some hsel]; rfl
    | none => rw [h6, chooseAlternate_none hsel]; rfl

end Sys2Proof.Machine
end

section
/-! The vault sequence and the reservoir: what the vault engine's reads and the islands that go off leave, and the commands
of VAULT and of PWR_CTL. -/

namespace Sys2Proof.Machine

variable {s : State}

/-! ### What the vault sequence leaves -/

/-- A fold of steps that each leave a view of the state leaves it. -/
theorem foldl_view {σ α β : Type} (view : σ → α) {f : σ → β → σ} (hf : ∀ s b, view (f s b) = view s) (l : List β) (s : σ) :
    view (l.foldl f s) = view s := by
  induction l generalizing s with
  | nil => rfl
  | cons b l ih => exact (ih (f s b)).trans (hf s b)

/-- What the tiles that lose their power leave: the start state, what outlives DARK, the power stage and the time. -/
def hubView (s : State) : Cfg × Persist × Power × Nat := (s.cfg, s.nv, s.pwr, s.isl.chron)

@[simp] theorem report_hubView (r : Report) (s : State) : hubView (report r s) = hubView s := by
  simp [hubView]

theorem endHolds_hubView (t : Nat) (s : State) : hubView (endHolds t s) = hubView s := by
  unfold endHolds
  extract_lets x s₁ s₂ s₃
  have h₁ : hubView s₁ = hubView s := foldl_view hubView (fun _ _ => report_hubView _ _) _ s
  have h₂ : hubView s₂ = hubView s₁ := foldl_view hubView (fun _ _ => report_hubView _ _) _ s₁
  have h₃ : hubView s₃ = hubView s₂ := foldl_view hubView (fun _ _ => report_hubView _ _) _ s₂
  exact h₃.trans (h₂.trans h₁)

theorem loseTile_hubView (t : Nat) (keep : Bool) (s : State) : hubView (loseTile t keep s) = hubView s := by
  unfold loseTile
  extract_lets s₁ s₂ s₃
  have h₂ : hubView s₂ = hubView s := foldl_view hubView (f := fun s c =>
    { s with cores := mmod {} s.cores (8 * t + c) Core.debugSide }) (fun _ _ => rfl) _ s₁
  clear_value s₂
  split <;> exact h₂

/-- The islands that go off leave the hub as it is, but for the note that they are off (R43). -/
theorem vaultIslands_effect (s : State) :
    let t := vaultIslands s
    t.cfg = s.cfg ∧ t.nv = s.nv ∧ t.isl.chron = s.isl.chron ∧ ∃ off, t.pwr = { s.pwr with vaultOff := off } := by
  unfold vaultIslands
  split
  · exact ⟨rfl, rfl, rfl, _, rfl⟩
  · extract_lets s₁
    have h₁ : hubView s₁ = hubView s := by
      refine foldl_view hubView (fun s t => ?_) _ s
      split
      · exact (loseTile_hubView ..).trans (endHolds_hubView ..)
      · rfl
    simp only [hubView, Prod.mk.injEq] at h₁
    obtain ⟨hcfg, hnv, hpwr, hchron⟩ := h₁
    clear_value s₁
    exact ⟨hcfg, hnv, hchron, true, congrArg (fun p : Power => { p with vaultOff := true }) hpwr⟩

/-- What the vault engine's reads leave: the start state, the power stage, the time and the stored images. -/
def readsView (s : State) : Cfg × Power × Nat × Option VaultImage × Option VaultImage × Option Bool :=
  (s.cfg, s.pwr, s.isl.chron, vaultSlots s)

@[simp] theorem report_readsView (r : Report) (s : State) : readsView (report r s) = readsView s := by
  simp [readsView]

theorem reportIf_readsView (c : Bool) (r : Report) (s : State) : readsView (reportIf c r s) = readsView s := by
  rcases reportIf_cases c r s with h | h <;> simp [h]

theorem downAccesses_readsView (n l code : Nat) (s : State) : readsView (downAccesses n l code s) = readsView s := by
  unfold downAccesses
  extract_lets u s₁ x due
  split
  · exact (report_readsView ..).trans rfl
  · rfl

theorem downRanges_readsView (rs : List (Nat × Nat)) (s : State) : readsView (downRanges rs s) = readsView s := by
  refine foldl_view readsView (fun s u => ?_) _ s
  split
  · rfl
  · exact downAccesses_readsView ..

theorem countSymbol_readsView (u d : Nat) (s : State) : readsView (countSymbol u d s) = readsView s := by
  unfold countSymbol
  extract_lets s₁
  split
  · exact (report_readsView ..).trans rfl
  · rfl

/-- A burst that is decoded without a write-back changes counts and reports (R380). -/
theorem decodeBurst_readsView (code l bits : Nat) (es : List (Nat × Nat)) (s : State) :
    readsView (decodeBurst false code l bits es s).1 = readsView s := by
  unfold decodeBurst
  extract_lets u
  split
  · rfl
  · simp only [Bool.false_eq_true, if_false]
    exact (report_readsView ..).trans (countSymbol_readsView ..)
  · rfl
  · exact report_readsView ..
  · exact (report_readsView ..).trans rfl

theorem wakeChan_readsView (c : Nat) (s : State) : readsView (wakeChan c s) = readsView s := by
  unfold wakeChan
  extract_lets s₁
  have h₁ : readsView s₁ = readsView s := by
    unfold s₁
    split
    · exact (foldl_view readsView (f := fun s u => restSub u s) (fun _ _ => rfl) _ _).trans rfl
    · rfl
  exact h₁

theorem wakeRanges_readsView (rs : List (Nat × Nat)) (s : State) : readsView (wakeRanges rs s) = readsView s := by
  refine foldl_view readsView (fun s c => ?_) _ s
  split
  · exact wakeChan_readsView ..
  · rfl

/-- The vault engine's reads change what the DRAM controller counts, stores and reports (R44, R380). -/
theorem vaultReads_readsView (whole : List (Nat × Nat)) (s : State) : readsView (vaultReads whole s).1 = readsView s := by
  unfold vaultReads
  extract_lets odd left
  refine (foldl_view (fun p : State × List (Nat × Option Nat) => readsView p.1)
    (fun p l => decodeBurst_readsView ..) odd _).trans ?_
  exact (downRanges_readsView ..).trans (wakeRanges_readsView ..)

theorem wearSlot_readsView (b : Bool) (s : State) : readsView (wearSlot b s) = readsView s := by
  cases b <;> rfl

theorem abandonVault_readsView (s : State) : readsView (abandonVault s) = readsView s := by
  unfold abandonVault
  split
  · exact (wearSlot_readsView ..).trans (vaultReads_readsView ..)
  · rfl

/-- The end of a vault or a protection action leaves the images as they are stored; the next start begins at once where
mains never failed (R47, R54). -/
theorem darkThenStart_effect (s : State) :
    let t := darkThenStart s
    t.cfg.phase = (if s.pwr.loss then .dark else .charge) ∧ vaultSlots t = vaultSlots s := by
  have h := abandonVault_readsView s
  simp only [readsView, Prod.mk.injEq] at h
  obtain ⟨-, hpwr, -, hslots⟩ := h
  unfold darkThenStart
  dsimp only
  rw [hpwr]
  split
  · exact ⟨rfl, (darkOnLoss_vaultSlots _).trans hslots⟩
  · exact ⟨rfl, (goDark_vaultSlots _).trans hslots⟩

/-! ### The commands of VAULT -/

/-- VAULT_REGION_STOP fixes the first incomplete region once the engine has written those before it (R45). -/
theorem vaultRegionStop_effect (i : Fin 16) (h : s.cfg.phase = .vault) (hv : s.pwr.vault = .stopped)
    (hn : s.pwr.vaultStop = none) :
    ∃ t, exec (.vaultRegionStop i) s = .next t ∧ t.pwr.vaultStop = some i.val ∧ t.pwr.vault = .stopped ∧
      vaultAt s i.val ≤ t.isl.chron ∧ t.cfg = s.cfg ∧ t.nv = s.nv := by
  obtain ⟨hcfg, hnv, hchron, off, hpwr⟩ := vaultIslands_effect (reachTime (vaultAt s i.val) s)
  refine ⟨_, if_pos ⟨h, hv, hn⟩, rfl, ?_, ?_, hcfg, hnv⟩
  · rw [hpwr]
    exact hv
  · rw [hchron]
    exact Nat.le_max_right ..

/-- VAULT_CLOSING_RECORD stores the image in the slot that does not hold the newest one and closes the vault (R45, R46). -/
theorem vaultClosingRecord_effect (h : s.cfg.phase = .vault) (hv : s.pwr.vault = .stopped) :
    let u := vaultIslands (reachTime (vaultAt s (s.pwr.vaultStop.getD 16)) s)
    ∃ t, exec .vaultClosingRecord s = .next t ∧ t.pwr.vault = .closed ∧ t.pwr.vaultEnd = u.isl.chron ∧
      (s.nv.newest = some false → t.nv.slot1 = some (makeImage u) ∧ t.nv.slot0 = s.nv.slot0 ∧ t.nv.newest = some true) ∧
      (s.nv.newest ≠ some false → t.nv.slot0 = some (makeImage u) ∧ t.nv.slot1 = s.nv.slot1 ∧ t.nv.newest = some false) := by
  intro u
  change ∃ t, execVaultClosingRecord s = .next t ∧ _
  unfold execVaultClosingRecord
  rw [if_pos ⟨h, hv⟩]
  extract_lets img tgt v full _ nv _ w w'
  have hu : u.nv = s.nv := (vaultIslands_effect _).2.1
  have htgt : tgt = (s.nv.newest == some false) := congrArg (fun n : Persist => n.newest == some false) hu
  have hread : readsView v = readsView u := vaultReads_readsView (readByNow u) u
  have hlast : readsView (flashWornCheck false (wearSlot tgt w')) = readsView w :=
    (reportIf_readsView ..).trans ((wearSlot_readsView ..).trans (report_readsView ..))
  refine ⟨_, rfl, ?_⟩
  generalize flashWornCheck false (wearSlot tgt w') = t at hlast
  simp only [readsView, vaultSlots, hu, Prod.mk.injEq] at hread hlast
  obtain ⟨-, -, hchron, hslot0, hslot1, -⟩ := hread
  obtain ⟨-, hpwr, -, ht0, ht1, hnewest⟩ := hlast
  refine ⟨congrArg Power.vault hpwr, (congrArg Power.vaultEnd hpwr).trans hchron, fun hn => ?_, fun hn => ?_⟩
  · have ht : tgt = true := htgt.trans (beq_iff_eq.2 hn)
    have hnv : nv = { v.nv with slot1 := some img } := if_pos ht
    exact ⟨ht1.trans (congrArg Persist.slot1 hnv), ht0.trans ((congrArg Persist.slot0 hnv).trans hslot0),
      hnewest.trans (congrArg some ht)⟩
  · have ht : tgt = false := htgt.trans (beq_eq_false_iff_ne.2 hn)
    have hnv : nv = { v.nv with slot0 := some img } := if_neg (Bool.eq_false_iff.1 ht)
    exact ⟨ht0.trans (congrArg Persist.slot0 hnv), ht1.trans ((congrArg Persist.slot1 hnv).trans hslot1),
      hnewest.trans (congrArg some ht)⟩

/-- VAULT_DARK_TIMER ends a closed vault: in DARK, or in CHARGE where mains never failed (R43, R47). -/
theorem vaultDarkTimer_effect (h : s.cfg.phase = .vault) (hv : s.pwr.vault = .closed) :
    ∃ t, exec .vaultDarkTimer s = .next t ∧ t.cfg.phase = (if s.pwr.loss then .dark else .charge) ∧
      t.nv.slot0 = s.nv.slot0 ∧ t.nv.slot1 = s.nv.slot1 := by
  obtain ⟨hphase, hslots⟩ := darkThenStart_effect (reachTime (s.pwr.vaultEnd + 5000000) s)
  simp only [vaultSlots, Prod.mk.injEq] at hslots
  exact ⟨_, if_pos ⟨h, hv⟩, hphase, hslots.1, hslots.2.1⟩

/-! ### The reservoir and PWR_CTL -/

/-- A write of PWR_CTL without DISCARD starts a reprobe where it asks for one (R39). -/
theorem reprobe_effect {rq : Req} {value : Word} (h : s.cfg.phase = .run ∨ s.cfg.phase = .helm) (hr : reach rq s = true)
    (ho : rq.sec = blockSec s Unit.pwr) (h1 : value.getLsbD 1 = false) (h0 : value.getLsbD 0 = true) :
    exec (.reprobe rq value) s =
      .next (if s.pwr.reprobing then s else { s with pwr := { s.pwr with reprobing := true } }) := by
  simp only [exec, execReprobe, pwrCtlWrite, ownedWrite_owner hr ho, runOrHelm_of_serving h, h1, h0, Bool.not_true,
    Bool.false_and, Bool.false_eq_true, if_false, if_true]
  rfl

/-- The erasure of both slots (R49). -/
theorem discardVaults_effect (s : State) :
    let t := discardVaults s
    t.nv.slot0 = none ∧ t.nv.slot1 = none ∧ t.nv.newest = none ∧ t.pwr.vDone = 0 ∧ t.mem = s.mem := by
  intro t
  have hview : readsView t = readsView { s with
      nv := { s.nv with slot0 := none, slot1 := none, newest := none }
      pwr := { s.pwr with vDone := 0, vPoison := 0, vSlot := false } } :=
    (reportIf_readsView ..).trans ((wearSlot_readsView ..).trans ((wearSlot_readsView ..).trans (report_readsView ..)))
  simp only [readsView, vaultSlots, Prod.mk.injEq] at hview
  obtain ⟨-, hpwr, -, hslot0, hslot1, hnewest⟩ := hview
  exact ⟨hslot0, hslot1, hnewest, congrArg Power.vDone hpwr, (reportIf_mem ..).trans (report_mem ..)⟩

/-- VAULT_DISCARD with the key value erases both slots (R49). -/
theorem vaultDiscard_effect {rq : Req} {value : Word} (h : s.cfg.phase = .run ∨ s.cfg.phase = .helm)
    (hr : reach rq s = true) (ho : rq.sec = blockSec s Unit.pwr) (h1 : value.getLsbD 1 = true)
    (hk : value.toNat / 2 ^ 18 = 0o123321) (h0 : value.getLsbD 0 = false) :
    exec (.vaultDiscard rq value) s = .next (discardVaults s) := by
  have hkey : field value.toNat 18 18 = 0o123321 := by
    rw [field, Nat.shiftRight_eq_div_pow, hk]
    rfl
  simp only [exec, execVaultDiscard, pwrCtlWrite, ownedWrite_owner hr ho, runOrHelm_of_serving h, h1, h0, hkey,
    Bool.not_true, bne_self_eq_false, Bool.and_false, Bool.false_eq_true, if_false, if_true]

/-- The reservoir as a reprobe has measured it, with READY for it (R36, R39). -/
def takeMeasured (m : Measured) (temp : Nat) (s : State) : State :=
  recomputeRequired { s with pwr := { s.pwr with
    reprobing := false, pstat := m.pstat, cap := m.cap, esr := m.esr, usable := m.usable, temp := temp
    worn := decide (m.usable < 900) } }

theorem takeMeasured_effect (m : Measured) (temp : Nat) (s : State) :
    let t := takeMeasured m temp s
    t.pwr.reprobing = false ∧ t.pwr.usable = m.usable ∧ t.pwr.cap = m.cap ∧
      t.pwr.ready = decide (requiredEnergy s s.pwr.line ≤ m.usable) :=
  ⟨rfl, rfl, rfl, congrArg (fun n => decide (n ≤ m.usable)) (requiredEnergy_congr rfl rfl _)⟩

/-- REPROBE_COMPLETE takes the measured reservoir, and reports one that is short or worn (R38, R39, R53). -/
theorem reprobeComplete_takes (v : ProbeSamples) (temp : BitVec 8) (h : s.cfg.phase = .run ∨ s.cfg.phase = .helm)
    (hr : s.pwr.reprobing = true) (hc : s.pwr.chargeOff = false) :
    ∃ t, exec (.reprobeComplete v temp) s = .next t ∧
      t.pwr = { (takeMeasured (measure v temp.toNat) temp.toNat s).pwr with
        foundReady := (takeMeasured (measure v temp.toNat) temp.toNat s).pwr.ready } := by
  have hact : (s.pwr.reprobing && runOrHelm s && !s.pwr.chargeOff) = true := by simp [hr, hc, runOrHelm_of_serving h]
  let w := takeMeasured (measure v temp.toNat) temp.toNat s
  let w' := { w with pwr := { w.pwr with foundReady := w.pwr.ready } }
  have he : exec (.reprobeComplete v temp) s = .next (rsvWornCheck (if w'.pwr.ready then w' else rsvShort w')) :=
    if_pos hact
  refine ⟨_, he, (reportIf_pwr ..).trans ?_⟩
  split
  · rfl
  · exact rsvShort_pwr w'

/-- REPROBE_COMPLETE gives CAP, USABLE and READY of the measured reservoir (R39). -/
theorem reprobeComplete_effect (v : ProbeSamples) (temp : BitVec 8) (h : s.cfg.phase = .run ∨ s.cfg.phase = .helm)
    (hr : s.pwr.reprobing = true) (hc : s.pwr.chargeOff = false) :
    ∃ t, exec (.reprobeComplete v temp) s = .next t ∧ t.pwr.reprobing = false ∧
      t.pwr.usable = (measure v temp.toNat).usable ∧ t.pwr.cap = (measure v temp.toNat).cap ∧
      t.pwr.ready = decide (requiredEnergy s s.pwr.line ≤ (measure v temp.toNat).usable) := by
  obtain ⟨t, ht, hpwr⟩ := reprobeComplete_takes v temp h hr hc
  refine ⟨t, ht, ?_⟩
  rw [hpwr]
  exact takeMeasured_effect (measure v temp.toNat) temp.toNat s

/-- REPROBE_PERIOD_EXPIRY under WAIT in HELM-ONLY starts a reprobe (R38). -/
theorem reprobePeriodExpiry_effect (h : s.cfg.phase = .helm) (hw : s.cfg.hwait = true) :
    ∃ t, exec .reprobePeriodExpiry s = .next t ∧ t.pwr.reprobing = true ∧
      s.pwr.waitFrom + reprobePeriod s ≤ t.isl.chron ∧ t.pwr.waitFrom = t.isl.chron := by
  refine ⟨_, if_pos ⟨h, hw⟩, ?_⟩
  unfold startReprobe
  split
  · exact ⟨by assumption, Nat.le_max_right .., rfl⟩
  · exact ⟨rfl, Nat.le_max_right .., rfl⟩

/-- Settles O25: each clause is the lemma above for its command. -/
theorem vaultAndReservoirCommands : Obligations.VaultAndReservoirCommands := by
  intro i rq value v temp s
  refine ⟨fun h hv => ⟨fun hn => vaultRegionStop_effect i h hv hn, vaultClosingRecord_effect h hv⟩,
    fun h hv => vaultDarkTimer_effect h hv, fun h hr ho => ⟨fun h1 h0 => reprobe_effect h hr ho h1 h0,
      fun h1 hk h0 => ⟨_, vaultDiscard_effect h hr ho h1 hk h0, discardVaults_effect s⟩,
      fun hp hc => reprobeComplete_effect v temp h hp hc⟩, fun h hw => reprobePeriodExpiry_effect h hw⟩

end Sys2Proof.Machine
end

section
/-! The protection actions of R50. -/

namespace Sys2Proof.Machine

variable {s : State}

/-! ### The input -/

/-- A protection action on the input in service disconnects it and begins a ride (R50). -/
theorem disconnectInput_effect (code : Nat) (m : BitVec 16) (h : s.cfg.phase = .run ∨ s.cfg.phase = .helm) :
    let t := disconnectInput code m s
    t.cfg.phase = .ride ∧ t.pwr.discon = true ∧ t.pwr.loss = true ∧ t.pwr.crit = 4 ∧ t.mem = s.mem := by
  have hlit : s.cfg.phase ≠ .dark := by rcases h with h | h <;> simp [h]
  unfold disconnectInput
  rw [if_neg hlit]
  extract_lets u _
  have hu : u.cfg = s.cfg := report_cfg ..
  obtain ⟨hphase, -, hloss, hcrit, -, hdiscon, hmem, -⟩ :=
    declareLoss_serving (s := { u with pwr := { u.pwr with discon := true } }) 4 (by rw [← hu] at h; exact h)
  exact ⟨hphase, hdiscon, hloss, hcrit, hmem.trans (report_mem ..)⟩

/-- PWR_SURGE above 480 V, INPUT_OVERCURRENT and PWR_STAGE_HOT from 105 °C act on the input (R50). -/
theorem inputActions_effect (m : BitVec 16) (h : s.cfg.phase = .run ∨ s.cfg.phase = .helm) :
    ∀ p ∈ [(Instr.pwrSurge m, 4801), (.inputOvercurrent m, 0), (.pwrStageHot m, 1050)], p.2 ≤ m.toNat →
      ∃ t, exec p.1 s = .next t ∧ t.cfg.phase = .ride ∧ t.pwr.discon = true ∧ t.pwr.loss = true ∧ t.pwr.crit = 4 ∧
        t.mem = s.mem := by
  simp only [List.forall_mem_cons, List.not_mem_nil, false_imp_iff, implies_true, and_true]
  refine ⟨fun hm => ?_, fun _ => ⟨_, rfl, disconnectInput_effect _ m h⟩, fun hm => ?_⟩
  · exact ⟨_, congrArg Host.Outcome.next (if_neg (Nat.not_le.2 hm)), disconnectInput_effect _ m h⟩
  · exact ⟨_, congrArg Host.Outcome.next (if_neg (Nat.not_lt.2 hm)), disconnectInput_effect _ m h⟩

/-! ### Rails and trips -/

/-- RAIL_OVERCURRENT of the hub rail or the DRAM rail ends the service (R47, R50, R54). -/
theorem railOvercurrent_hub {rail : Fin 78} (m : BitVec 16) (hd : s.cfg.phase ≠ .dark) (h : rail.val = 52 ∨ rail.val = 77) :
    ∃ t, exec (.railOvercurrent rail m) s = .next t ∧ t.cfg.phase = (if s.pwr.loss then .dark else .charge) := by
  refine ⟨_, (if_neg hd).trans (if_pos h), (darkThenStart_effect _).1.trans ?_⟩
  rw [report_pwr]

/-- RAIL_OVERCURRENT of a tile or quad rail reports and takes its island off (R50). -/
theorem railOvercurrent_island {rail : Fin 78} (m : BitVec 16) (hd : s.cfg.phase ≠ .dark) (hh : rail.val ≠ 52)
    (hm : rail.val ≠ 77) : exec (.railOvercurrent rail m) s = .next (islandOff rail.val
      (report (mkReport Unit.pwr Cls.protect Code.pwrOvercurrent rail.val [(rail.val, 7), (m.toNat, 16)]) s)) :=
  (if_neg hd).trans (if_neg (not_or.2 ⟨hh, hm⟩))

/-- PWR_THERM_TRIP of a tile or quad reports and takes its island off (R50). -/
theorem pwrThermTrip_island {isl : IslandId} {tj : BitVec 8} (hd : s.cfg.phase ≠ .dark) (hi : isl.val ≠ 52)
    (ht : 155 ≤ tj.toNat) : exec (.pwrThermTrip isl tj) s = .next (islandOff isl.val
      (report (mkReport Unit.pwr Cls.protect Code.pwrThermTrip isl.val [(isl.val, 7), (tj.toNat, 8)]) s)) := by
  have hact : ¬ (s.cfg.phase = .dark ∨ (isl.val = 52 ∧ s.cfg.phase = .vault) ∨ tj.toNat < 155) := by
    simp [hd, hi, Nat.not_lt.2 ht]
  exact (if_neg hact).trans (if_neg hi)

/-- PWR_THERM_TRIP of the hub in service begins VAULT (R50). -/
theorem pwrThermTrip_hub {isl : IslandId} {tj : BitVec 8} (hi : isl.val = 52) (ht : 155 ≤ tj.toNat)
    (h : s.cfg.phase ∈ [Phase.run, .helm, .ride]) :
    ∃ t, exec (.pwrThermTrip isl tj) s = .next t ∧ t.cfg.phase = .vault ∧ t.pwr.vault = .entered := by
  simp only [List.mem_cons, List.not_mem_nil, or_false] at h
  have hact : ¬ (s.cfg.phase = .dark ∨ (isl.val = 52 ∧ s.cfg.phase = .vault) ∨ tj.toNat < 155) := by
    rcases h with h | h | h <;> simp [h, Nat.not_lt.2 ht]
  have he : exec (.pwrThermTrip isl tj) s = .next (enterVault
      (report (mkReport Unit.pwr Cls.protect Code.pwrThermTrip isl.val [(isl.val, 7), (tj.toNat, 8)]) s)) := by
    refine (if_neg hact).trans ((if_pos hi).trans ?_)
    rw [report_cfg]
    rcases h with h | h | h <;> rw [h]
  obtain ⟨hphase, hvault, -⟩ := enterVault_effect
    (report (mkReport Unit.pwr Cls.protect Code.pwrThermTrip isl.val [(isl.val, 7), (tj.toNat, 8)]) s)
  exact ⟨_, he, hphase, hvault⟩

/-- VAULT_HUB_OVERHEAT ends VAULT (R50). -/
theorem vaultHubOverheat_effect {tj : BitVec 8} (h : s.cfg.phase = .vault) (ht : 165 ≤ tj.toNat) :
    ∃ t, exec (.vaultHubOverheat tj) s = .next t ∧ t.cfg.phase = (if s.pwr.loss then .dark else .charge) := by
  refine ⟨_, if_pos ⟨h, ht⟩, (darkThenStart_effect _).1.trans ?_⟩
  rw [report_pwr]

/-! ### The thermal throttle -/

/-- A report is made alike before and after a change of the islands. -/
theorem report_setIsl (r : Report) (s : State) (i : Islands) :
    report r { s with isl := i } = { report r s with isl := i } := by
  unfold report
  dsimp only
  split <;> rfl

/-- The mark of the throttle on a physical tile. -/
def markThrottle (p : Nat) (on : Bool) (s : State) : State :=
  { s with isl := { s.isl with hot := mset false s.isl.hot p on } }

/-- The throttle marks the physical tile; a logical tile there weighs its steps anew (R50, R80). -/
theorem setThrottle_effect (p : Nat) (on : Bool) (s : State) :
    (∀ t, logicalOf s p = some t → setThrottle p on s = resteer t (markThrottle p on s)) ∧
      (logicalOf s p = none → setThrottle p on s = markThrottle p on s) := by
  have he : setThrottle p on s = (match logicalOf s p with
    | none => markThrottle p on s
    | some t => resteer t (markThrottle p on s)) := rfl
  constructor
  · intro t h
    rw [he, h]
  · intro h
    rw [he, h]

/-- PWR_THERM_THROTTLE from 105 °C marks the tile, and reports where it was not marked (R50). -/
theorem pwrThermThrottle_effect (p : PTileId) {tj : BitVec 8} (hd : s.cfg.phase ≠ .dark) (ht : 145 ≤ tj.toNat) :
    let u := { s with isl := { s.isl with
      tj := mset 0 s.isl.tj p.val tj.toNat, hot := mset false s.isl.hot p.val true } }
    let v := if mget false s.isl.hot p.val then u
      else report (mkReport Unit.pwr Cls.protect Code.pwrThermThrottle p.val [(p.val, 7), (tj.toNat, 8)]) u
    (∀ t, logicalOf s p.val = some t → exec (.pwrThermThrottle p tj) s = .next (resteer t v)) ∧
      (logicalOf s p.val = none → exec (.pwrThermThrottle p tj) s = .next v) := by
  intro u v
  let r := mkReport Unit.pwr Cls.protect Code.pwrThermThrottle p.val [(p.val, 7), (tj.toNat, 8)]
  let w := reportIf (!mget false s.isl.hot p.val) r { s with isl := { s.isl with tj := mset 0 s.isl.tj p.val tj.toNat } }
  have he : exec (.pwrThermThrottle p tj) s = .next (setThrottle p.val true w) :=
    if_neg (not_or.2 ⟨hd, Nat.not_lt.2 ht⟩)
  have hw : logicalOf w p.val = logicalOf s p.val := by
    simp only [logicalOf, w, reportIf_cfg]
  have hv : markThrottle p.val true w = v := by
    unfold markThrottle v w
    rw [reportIf_isl]
    cases mget false s.isl.hot p.val
    · exact (report_setIsl r { s with isl := { s.isl with tj := mset 0 s.isl.tj p.val tj.toNat } } u.isl).symm
    · rfl
  obtain ⟨hsome, hnone⟩ := setThrottle_effect p.val true w
  rw [hw, hv] at hsome hnone
  exact ⟨fun t h => he.trans (congrArg _ (hsome t h)), fun h => he.trans (congrArg _ (hnone h))⟩

/-- THROTTLE_RELEASE below 95 °C takes the mark away (R50). -/
theorem throttleRelease_effect (p : PTileId) (ht : tjOf s p.val < 135) :
    let u := { s with isl := { s.isl with hot := mset false s.isl.hot p.val false } }
    (∀ t, logicalOf s p.val = some t → exec (.throttleRelease p) s = .next (resteer t u)) ∧
      (logicalOf s p.val = none → exec (.throttleRelease p) s = .next u) := by
  have he : exec (.throttleRelease p) s = .next (setThrottle p.val false s) := congrArg _ (if_neg (Nat.not_le.2 ht))
  obtain ⟨hsome, hnone⟩ := setThrottle_effect p.val false s
  exact ⟨fun t h => he.trans (congrArg _ (hsome t h)), fun h => he.trans (congrArg _ (hnone h))⟩

/-- Settles O26: each clause is the lemma above for its command. -/
theorem protectionActions : Obligations.ProtectionActions := by
  intro m rail isl p tj s
  refine ⟨inputActions_effect m, fun h => congrArg _ (if_pos h), fun h => congrArg _ (if_pos h), fun hd => ?_,
    throttleRelease_effect p, vaultHubOverheat_effect⟩
  exact ⟨railOvercurrent_island m hd, railOvercurrent_hub m hd, pwrThermTrip_island hd, pwrThermTrip_hub,
    pwrThermThrottle_effect p hd, fun h => if_pos (.inr h)⟩

end Sys2Proof.Machine
end

section
/-! The step rules of R80 and R84: how a tile is weighed, and how a tile and its one running neighbour come to rest. -/

namespace Sys2Proof.Machine

variable {s u : State}

/-! ### The records of tiles -/

theorem tileIsl_setTileIsl (h : mwf {} s.isl.tiles = true) (t j : Nat) (f : TileIsl → TileIsl) :
    tileIsl (setTileIsl t f s) j = if j = t then f (tileIsl s t) else tileIsl s j := mget_mmod h t j f

/-- On the way from `s` to `u` the step rules alone have changed the records of tiles: what runs, and where, stays. -/
structure StepsOnly (s u : State) : Prop where
  cfg : u.cfg = s.cfg
  nv : u.nv = s.nv
  hot : u.isl.hot = s.isl.hot
  wf : mwf {} u.isl.tiles = true
  state : ∀ j, (tileIsl u j).state = (tileIsl s j).state

theorem StepsOnly.refl (h : mwf {} s.isl.tiles = true) : StepsOnly s s := ⟨rfl, rfl, rfl, h, fun _ => rfl⟩

theorem StepsOnly.setTileIsl (h : StepsOnly s u) (t : Nat) {f : TileIsl → TileIsl} (hf : ∀ x, (f x).state = x.state) :
    StepsOnly s (setTileIsl t f u) := by
  refine ⟨h.cfg, h.nv, h.hot, mmod_wf h.wf, fun j => ?_⟩
  rw [tileIsl_setTileIsl h.wf]
  split
  next hj =>
    rw [hf, hj]
    exact h.state t
  next => exact h.state j

theorem StepsOnly.tileRunning (h : StepsOnly s u) (t : Nat) : tileRunning u t = tileRunning s t := by
  simp only [Machine.tileRunning, available, physOf, h.cfg, h.state]

theorem StepsOnly.neighbours (h : StepsOnly s u) (t : Nat) : neighbours u t = neighbours s t := by
  simp only [Machine.neighbours, adjacent, physOf, logicalOf, h.cfg, h.tileRunning]

theorem StepsOnly.runningNbrs (h : StepsOnly s u) (t : Nat) : runningNbrs u t = runningNbrs s t := by
  simp only [Machine.runningNbrs, h.neighbours]

theorem StepsOnly.stepGap (h : StepsOnly s u) : stepGap u = stepGap s := by
  simp only [Machine.stepGap, secX, image, h.cfg, h.nv]

theorem StepsOnly.throttled (h : StepsOnly s u) (t : Nat) : throttled u t = throttled s t := by
  simp only [Machine.throttled, physOf, h.cfg, h.hot]

/-- A new target changes the target and the change under way (R82). -/
theorem retarget_changes (v now : Nat) (x : TileIsl) :
    ∃ b n m, retarget v now x = { x with target := v, changing := b, volt := n, since := m } := by
  unfold retarget
  split
  next h => exact ⟨x.changing, x.volt, x.since, by rw [h]⟩
  next => exact ⟨_, _, _, rfl⟩

/-! ### One tile weighed -/

/-- Tile `t` takes its target and its causes, and places or releases its hold-downs. -/
def placeHolds (t : Nat) (s : State) : State :=
  (runningNbrs s t).foldl (fun s' n => holdDown s' t n
      (if (solveStep s t).2 < (stepSpan (tileIsl s' n)).2 then (solveStep s t).2 else 15))
    (setTileIsl t (fun x => { retarget (solveStep s t).1 s.isl.chron x with supplyBy := holdCauses s t }) s)

/-- Tile `t` is weighed once: the causes that cease and those that begin are reported (R87). -/
def weigh (t : Nat) (s : State) : State :=
  ((holdCauses s t).filter fun c => !(tileIsl s t).supplyBy.contains c).foldl
    (fun s c => report (supplyReport s t c true) s)
    (((tileIsl s t).supplyBy.filter fun c => !(holdCauses s t).contains c).foldl
      (fun s c => report (supplyReport s t c false) s) (placeHolds t s))

/-- The step rules weigh a running tile, and its neighbours after it where its target or a neighbour's record changes. -/
theorem steer_running (k : Nat) {t : Nat} (rest : List Nat) (h : tileRunning s t = true) :
    steer (k + 1) (t :: rest) s =
      if (solveStep s t).1 = (tileIsl s t).target ∧
          ((runningNbrs s t).filter fun n => decide (tileIsl s n ≠ tileIsl (weigh t s) n)) = [] then
        steer k rest (weigh t s)
      else steer k (rest ++ runningNbrs s t) (weigh t s) := by
  rw [steer, h]
  rfl

/-- What the reports of a tile weighed leave. -/
def stepsView (s : State) : Cfg × Persist × Islands := (s.cfg, s.nv, s.isl)

theorem report_stepsView (r : Report) (s : State) : stepsView (report r s) = stepsView s := by
  simp [stepsView]

theorem weigh_stepsView (t : Nat) (s : State) : stepsView (weigh t s) = stepsView (placeHolds t s) :=
  (foldl_view stepsView (fun _ _ => report_stepsView ..) _ _).trans
    (foldl_view stepsView (fun _ _ => report_stepsView ..) _ _)

theorem weigh_stays (t : Nat) (s : State) : (weigh t s).cfg = (placeHolds t s).cfg ∧
    (weigh t s).nv = (placeHolds t s).nv ∧ (weigh t s).isl = (placeHolds t s).isl := by
  simpa only [stepsView, Prod.mk.injEq] using weigh_stepsView t s

theorem StepsOnly.weigh {t : Nat} (h : StepsOnly s (placeHolds t u)) : StepsOnly s (weigh t u) := by
  obtain ⟨hcfg, hnv, hisl⟩ := weigh_stays t u
  refine ⟨hcfg.trans h.cfg, hnv.trans h.nv, by rw [hisl]; exact h.hot, by rw [hisl]; exact h.wf, fun j => ?_⟩
  rw [tileIsl, hisl]
  exact h.state j

theorem tileIsl_weigh (t j : Nat) (s : State) : tileIsl (weigh t s) j = tileIsl (placeHolds t s) j := by
  rw [tileIsl, (weigh_stays t s).2.2, tileIsl]

/-! ### A tile without a running neighbour -/

/-- A tile without a running neighbour takes the lower of its bound and its request (R80). -/
theorem resteer_alone {t : Nat} (hw : mwf {} s.isl.tiles = true) (hr : tileRunning s t = true)
    (hn : runningNbrs s t = []) :
    let y := tileIsl (resteer t s) t
    y.target = min (upperBound s t) (tileIsl s t).req ∧ y.step = (tileIsl s t).step ∧ y.supplyBy = [] := by
  have hnone : neighbours s t = (none, none) := by
    simp only [runningNbrs, List.append_eq_nil_iff, Option.toList_eq_nil_iff] at hn
    exact Prod.ext hn.1 hn.2
  have hsolve : (solveStep s t).1 = min (upperBound s t) (tileIsl s t).req := by
    simp only [solveStep, hn, List.map_nil, List.foldl_nil, Nat.zero_le, if_true, nearest, Nat.not_lt_zero, if_false]
    rw [if_neg (by omega)]
  have hcause : holdCauses s t = [] := by
    simp [holdCauses, hnone]
  have hsteer : resteer t s = weigh t s := by
    rw [resteer, hn, steer_running 63 [] hr, hn]
    simp [steer]
  obtain ⟨b, n, m, hx⟩ := retarget_changes (solveStep s t).1 s.isl.chron (tileIsl s t)
  dsimp only
  rw [hsteer, tileIsl_weigh, placeHolds, hn, List.foldl_nil, tileIsl_setTileIsl hw, if_pos rfl, hx, hsolve, hcause]
  exact ⟨rfl, rfl, rfl⟩

/-! ### A tile with one running neighbour, weighed -/

/-- The hold-down that tile `b` puts on tile `a`, and the one from the other side, in `a`'s record. -/
def holdFrom (s : State) (a b : Nat) (x : TileIsl) : Nat := if (neighbours s a).1 = some b then x.holdLo else x.holdHi
def holdBeyond (s : State) (a b : Nat) (x : TileIsl) : Nat := if (neighbours s a).1 = some b then x.holdHi else x.holdLo

theorem min_holds (s : State) (a b : Nat) (x : TileIsl) :
    min x.holdLo x.holdHi = min (holdFrom s a b x) (holdBeyond s a b x) := by
  unfold holdFrom holdBeyond
  split
  · rfl
  · exact Nat.min_comm ..

/-- The one running neighbour lies on the one side or on the other. -/
theorem neighbours_of_one {a b : Nat} (h : runningNbrs s a = [b]) :
    neighbours s a = (some b, none) ∨ neighbours s a = (none, some b) := by
  unfold runningNbrs at h
  rcases hn : neighbours s a with ⟨lo, hi⟩
  cases lo <;> cases hi <;> simp_all

/-- R80 and R84 for a tile with one running neighbour, whose steps span `span`: the target and the hold-down. -/
def pairStep (g bound req : Nat) (span : Nat × Nat) : Nat × Nat :=
  if span.2 - g ≤ min bound (span.1 + g) then (nearest (min bound req) (span.2 - g) (min bound (span.1 + g)), 15)
  else (min bound (min 15 span.1 + g), min bound (min 15 span.1 + g) + g)

theorem solveStep_pair {a b : Nat} (h : runningNbrs s a = [b]) : solveStep s a =
    pairStep (stepGap s) (upperBound s a) (tileIsl s a).req (stepSpan (tileIsl s b)) := by
  simp only [solveStep, h, List.map_cons, List.map_nil, List.foldl_cons, List.foldl_nil, Nat.zero_max]
  rfl

/-- The gap to a neighbour keeps a tile that wants step `want` at step `v` (R84, R87). -/
def gapHolds (g want v : Nat) (span : Nat × Nat) : Prop :=
  (v < want ∧ span.1 + g < want) ∨ (want < v ∧ want + g < span.2)

theorem holdCauses_pair {a b : Nat} (h : runningNbrs s a = [b]) :
    (holdFrom s a b (tileIsl s a) < min (tileIsl s a).req (tileIsl s a).ceil ∨
      gapHolds (stepGap s) (min (upperBound s a) (tileIsl s a).req) (solveStep s a).1 (stepSpan (tileIsl s b)) →
        holdCauses s a = [b]) ∧
    (¬ (holdFrom s a b (tileIsl s a) < min (tileIsl s a).req (tileIsl s a).ceil ∨
      gapHolds (stepGap s) (min (upperBound s a) (tileIsl s a).req) (solveStep s a).1 (stepSpan (tileIsl s b))) →
        holdCauses s a = []) := by
  unfold holdCauses holdFrom gapHolds
  rcases neighbours_of_one h with hn | hn
  · simp only [hn]
    constructor <;> intro hc <;> simpa using hc
  · simp only [hn]
    constructor <;> intro hc <;> simpa using hc

/-! ### The hold-down in a neighbour's record -/

/-- A record with the hold-down that tile `b` puts on tile `a`. -/
def putHold (s : State) (a b v : Nat) (x : TileIsl) : TileIsl :=
  if (neighbours s a).1 = some b then { x with holdLo := v } else { x with holdHi := v }

theorem holdDown_eq (s : State) (t n v : Nat) : holdDown s t n v = setTileIsl n (putHold s n t v) s := by
  unfold holdDown putHold
  split
  next lo hi h =>
  rw [h]
  split <;> rfl

/-- A hold-down changes nothing else of the record. -/
theorem putHold_cases (s : State) (a b v : Nat) (x : TileIsl) :
    ∃ lo hi, putHold s a b v x = { x with holdLo := lo, holdHi := hi } ∧ holdFrom s a b (putHold s a b v x) = v ∧
      holdBeyond s a b (putHold s a b v x) = holdBeyond s a b x := by
  unfold putHold holdFrom holdBeyond
  split
  · exact ⟨_, _, rfl, rfl, rfl⟩
  · exact ⟨_, _, rfl, rfl, rfl⟩

theorem putHold_eq_iff {a b v : Nat} {x : TileIsl} : putHold s a b v x = x ↔ v = holdFrom s a b x := by
  constructor
  · intro h
    obtain ⟨-, -, -, hv, -⟩ := putHold_cases s a b v x
    rw [← hv, h]
  · rintro rfl
    unfold putHold holdFrom
    split <;> rfl

/-! ### A tile and its one running neighbour -/

/-- Two running tiles, each the other's only running neighbour. -/
structure OnePair (s : State) (a b : Nat) : Prop where
  wf : mwf {} s.isl.tiles = true
  running : tileRunning s a = true
  running' : tileRunning s b = true
  nbrs : runningNbrs s a = [b]
  nbrs' : runningNbrs s b = [a]
  ne : b ≠ a

theorem OnePair.symm {a b : Nat} (h : OnePair s a b) : OnePair s b a :=
  ⟨h.wf, h.running', h.running, h.nbrs', h.nbrs, h.ne.symm⟩

/-- A record of tile `a` as it was in `s`, with target `v`, a hold-down `h` from its neighbour `b` and none from beyond. -/
structure TileAt (s : State) (a b v h : Nat) (x : TileIsl) : Prop where
  req : x.req = (tileIsl s a).req
  ceil : x.ceil = (tileIsl s a).ceil
  tempOn : x.tempOn = (tileIsl s a).tempOn
  tempHold : x.tempHold = (tileIsl s a).tempHold
  step : x.step = (tileIsl s a).step
  target : x.target = v
  hold : holdFrom s a b x = h
  beyond : holdBeyond s a b x = 15

/-- Tiles `a` and `b` on the way of the step rules from `s`, with their targets and hold-downs. -/
structure PairAt (s u : State) (a b va ha vb hb : Nat) : Prop where
  only : StepsOnly s u
  fst : TileAt s a b va ha (tileIsl u a)
  snd : TileAt s b a vb hb (tileIsl u b)

theorem PairAt.symm {a b va ha vb hb : Nat} (h : PairAt s u a b va ha vb hb) : PairAt s u b a vb hb va ha :=
  ⟨h.only, h.snd, h.fst⟩

/-- The bound of a tile but for the hold-downs on it (R80). -/
def soloBound (s : State) (a : Nat) : Nat :=
  min (min (tileIsl s a).ceil (if (tileIsl s a).tempOn then (tileIsl s a).tempHold else 15))
    (if throttled s a then 0 else 15)

theorem PairAt.upperBound {a b va ha vb hb : Nat} (h : PairAt s u a b va ha vb hb) :
    upperBound u a = min (soloBound s a) (min ha 15) := by
  obtain ⟨-, hceil, hon, hhold, -, -, hfrom, hbeyond⟩ := h.fst
  simp only [Machine.upperBound, soloBound]
  rw [min_holds s a b, hceil, hon, hhold, hfrom, hbeyond, h.only.throttled]
  exact (Nat.min_assoc ..).symm

/-- The target and the hold-down of tile `a`, from the records of both. -/
theorem PairAt.solveStep {a b va ha vb hb : Nat} (hp : OnePair s a b) (h : PairAt s u a b va ha vb hb) :
    solveStep u a = pairStep (stepGap s) (min (soloBound s a) (min ha 15)) (tileIsl s a).req
      (min (tileIsl s b).step vb, vb) := by
  rw [solveStep_pair ((h.only.runningNbrs a).trans hp.nbrs), h.upperBound, h.only.stepGap, h.fst.req, stepSpan,
    h.snd.step, h.snd.target]

/-- A tile of the pair takes its target `v`, and its neighbour the hold-down. -/
theorem PairAt.placeHolds {a b va ha vb hb v hd : Nat} (hp : OnePair s a b) (h : PairAt s u a b va ha vb hb)
    (hv : Machine.solveStep u a = (v, hd)) :
    PairAt s (placeHolds a u) a b v ha vb (if hd < vb then hd else 15) ∧
      tileIsl (placeHolds a u) b = putHold s b a (if hd < vb then hd else 15) (tileIsl u b) ∧
      (tileIsl (placeHolds a u) a).supplyBy = holdCauses u a := by
  obtain ⟨c, n, m, hx⟩ := retarget_changes v u.isl.chron (tileIsl u a)
  let w := setTileIsl a (fun x => { retarget v u.isl.chron x with supplyBy := holdCauses u a }) u
  have hw : StepsOnly s w := h.only.setTileIsl a fun x => by
    obtain ⟨_, _, _, hx⟩ := retarget_changes v u.isl.chron x
    rw [hx]
  have hwb : tileIsl w b = tileIsl u b := (tileIsl_setTileIsl h.only.wf a b _).trans (if_neg hp.ne)
  have hwa : tileIsl w a = { retarget v u.isl.chron (tileIsl u a) with supplyBy := holdCauses u a } :=
    (tileIsl_setTileIsl h.only.wf a a _).trans (if_pos rfl)
  have he : Machine.placeHolds a u = setTileIsl b (putHold s b a (if hd < vb then hd else 15)) w := by
    have hput : ∀ k, putHold w b a k = putHold s b a k := fun k => funext fun x => by simp only [putHold, hw.neighbours]
    unfold Machine.placeHolds
    rw [h.only.runningNbrs, hp.nbrs, List.foldl_cons, List.foldl_nil, holdDown_eq, hv, ← h.snd.target, ← hwb, hput]
    rfl
  have hea : tileIsl (Machine.placeHolds a u) a = tileIsl w a := by
    rw [he, tileIsl_setTileIsl hw.wf, if_neg hp.ne.symm]
  have heb : tileIsl (Machine.placeHolds a u) b = putHold s b a (if hd < vb then hd else 15) (tileIsl u b) := by
    rw [he, tileIsl_setTileIsl hw.wf, if_pos rfl, hwb]
  obtain ⟨lo, hi, hq, hfrom, hbeyond⟩ := putHold_cases s b a (if hd < vb then hd else 15) (tileIsl u b)
  rw [hwa, hx] at hea
  rw [← heb] at hfrom hbeyond
  obtain ⟨hreq, hceil, hon, hhold, hstep, -, hown, hother⟩ := h.fst
  obtain ⟨hreq', hceil', hon', hhold', hstep', htarget', -, hother'⟩ := h.snd
  refine ⟨⟨?_, ?_, ?_⟩, heb, by rw [hea]⟩
  · rw [he]
    exact hw.setTileIsl b fun x => by
      obtain ⟨_, _, hx, -⟩ := putHold_cases s b a (if hd < vb then hd else 15) x
      rw [hx]
  · rw [hea]
    exact ⟨hreq, hceil, hon, hhold, hstep, rfl, hown, hother⟩
  · refine ⟨?_, ?_, ?_, ?_, ?_, ?_, hfrom, hbeyond.trans hother'⟩ <;> rw [heb, hq] <;> assumption

/-- One weighing of a tile of the pair: the other one is weighed after it where the target or the hold-down changes. -/
theorem PairAt.weigh {a b va ha vb hb v hd : Nat} (hp : OnePair s a b) (h : PairAt s u a b va ha vb hb)
    (hv : Machine.solveStep u a = (v, hd)) :
    PairAt s (weigh a u) a b v ha vb (if hd < vb then hd else 15) ∧
      (tileIsl (weigh a u) b).supplyBy = (tileIsl u b).supplyBy ∧
      (tileIsl (weigh a u) a).supplyBy = holdCauses u a ∧
      ∀ k rest, steer (k + 1) (a :: rest) u =
        steer k (if v = va ∧ (if hd < vb then hd else 15) = hb then rest else rest ++ [b]) (weigh a u) := by
  obtain ⟨⟨honly, hfst, hsnd⟩, hnbr, hby⟩ := h.placeHolds hp hv
  obtain ⟨lo, hi, hq, -⟩ := putHold_cases s b a (if hd < vb then hd else 15) (tileIsl u b)
  rw [← tileIsl_weigh] at hfst hsnd hnbr hby
  have hstill : tileIsl u b = tileIsl (Machine.weigh a u) b ↔ (if hd < vb then hd else 15) = hb := by
    rw [hnbr, eq_comm, putHold_eq_iff, h.snd.hold]
  refine ⟨⟨honly.weigh, hfst, hsnd⟩, by rw [hnbr, hq], hby, fun k rest => ?_⟩
  rw [steer_running k rest ((h.only.tileRunning a).trans hp.running), h.only.runningNbrs, hp.nbrs, hv, h.fst.target]
  simp only [List.filter_eq_nil_iff, List.mem_singleton, forall_eq, decide_eq_true_eq, not_not, hstill]
  exact (apply_ite (fun r => steer k r (Machine.weigh a u)) _ _ _).symm

theorem steer_nil (k : Nat) (s : State) : steer k [] s = s := by
  cases k <;> rfl

/-- A tile of the pair whose target and whose neighbour's hold-down stay is settled. -/
theorem PairAt.settle {a b v h vb : Nat} (hp : OnePair s a b) (hu : PairAt s u a b v h vb 15)
    (hv : Machine.solveStep u a = (v, 15)) (k : Nat) (rest : List Nat) :
    steer (k + 1) (a :: rest) u = steer k rest (Machine.weigh a u) ∧ PairAt s (Machine.weigh a u) a b v h vb 15 ∧
      (tileIsl (Machine.weigh a u) b).supplyBy = (tileIsl u b).supplyBy := by
  obtain ⟨hpair, hby, -, hsteer⟩ := hu.weigh hp hv
  simp only [ite_self, and_self, if_true] at hpair hsteer
  exact ⟨hsteer k rest, hpair, hby⟩

/-- The causes that hold a tile of the pair: the neighbour, where its hold-down or the gap keeps the target away. -/
theorem PairAt.holdCauses {a b va ha vb hb v hd : Nat} (hp : OnePair s a b) (h : PairAt s u a b va ha vb hb)
    (hv : Machine.solveStep u a = (v, hd)) :
    let c := ha < min (tileIsl s a).req (tileIsl s a).ceil ∨ gapHolds (stepGap s)
      (min (min (soloBound s a) (min ha 15)) (tileIsl s a).req) v (min (tileIsl s b).step vb, vb)
    (c → Machine.holdCauses u a = [b]) ∧ (¬ c → Machine.holdCauses u a = []) := by
  have hc := holdCauses_pair ((h.only.runningNbrs a).trans hp.nbrs)
  have hfrom : holdFrom u a b (tileIsl u a) = ha := by
    simpa only [holdFrom, h.only.neighbours] using h.fst.hold
  rwa [hfrom, h.fst.req, h.fst.ceil, h.upperBound, h.only.stepGap, hv, stepSpan, h.snd.step, h.snd.target] at hc

/-! ### Targets and hold-downs in numbers -/

/-- A neighbour at rest within the gap of the bound leaves the step nearest to the one wanted (R84). -/
theorem pairStep_reach {g bound req q : Nat} (h : q ≤ bound + g) :
    pairStep g bound req (q, q) = (if min bound req + g < q then q - g
      else if q + g < min bound req then q + g else min bound req, 15) := by
  unfold pairStep nearest
  rw [if_pos (by dsimp only; omega)]
  congr 1
  dsimp only
  split_ifs <;> omega

/-- A tile at rest at the step it wants stays there where its neighbour comes within the gap (R84). -/
theorem pairStep_rest {g bound req p v q : Nat} (hq : q = min bound req) (hv : v ≤ q + g) (hq' : q ≤ v + g)
    (hp : q ≤ p + g) : pairStep g bound req (min p v, v) = (q, 15) := by
  unfold pairStep nearest
  rw [if_pos (by dsimp only; omega)]
  congr 1
  dsimp only
  split_ifs <;> omega

/-- A neighbour at rest beyond the gap of the bound is held down to it (R84). -/
theorem pairStep_beyond {g bound req q : Nat} (h : bound + g < q) (hq : q ≤ 15) :
    pairStep g bound req (q, q) = (bound, bound + g) := by
  unfold pairStep
  rw [if_neg (by dsimp only; omega)]
  congr 1 <;> dsimp only <;> omega

/-- A tile that its neighbour's target `v` keeps from the step it wants goes to the gap above it (R84). -/
theorem pairStep_capped {g bound req p v : Nat} (h : v + g ≤ min bound req) (hp : v ≤ p) :
    pairStep g bound req (min p v, v) = (v + g, 15) := by
  unfold pairStep nearest
  rw [if_pos (by dsimp only; omega)]
  congr 1
  dsimp only
  split_ifs <;> omega

/-- A tile whose neighbour's target is the gap above its bound goes to its bound (R84). -/
theorem pairStep_bound {g bound req q : Nat} (h : bound + g ≤ q) :
    pairStep g bound req (min q (bound + g), bound + g) = (bound, 15) := by
  unfold pairStep nearest
  rw [if_pos (by dsimp only; omega)]
  congr 1
  dsimp only
  split_ifs <;> omega

/-! ### The pair comes to rest -/

/-- Where the neighbour's step is within reach of the bound, it stays, and the tile takes the step nearest to the one it
wants, with the neighbour as its cause where that is another one (R80, R84, R87). -/
theorem resteer_reach {t n p q w v : Nat} (hp : OnePair s t n) (hs : PairAt s s t n p 15 q 15)
    (hstep : (tileIsl s t).step = p) (hstep' : (tileIsl s n).step = q) (hr : (tileIsl s t).req ≤ 15)
    (hq : q = min (upperBound s n) (tileIsl s n).req) (hpq : p ≤ q + stepGap s) (hqp : q ≤ p + stepGap s)
    (hreach : q ≤ upperBound s t + stepGap s) (hw : w = min (upperBound s t) (tileIsl s t).req)
    (hv : v = if w + stepGap s < q then q - stepGap s else if q + stepGap s < w then q + stepGap s else w) :
    PairAt s (resteer t s) t n v 15 q 15 ∧
      (tileIsl (resteer t s) t).supplyBy = if q ≤ w + stepGap s ∧ w ≤ q + stepGap s then [] else [n] := by
  have h₁ : solveStep s t = (v, 15) := by
    rw [hs.solveStep hp, ← hs.upperBound, hstep', Nat.min_self, pairStep_reach hreach, hv, hw]
  have hcause : holdCauses s t = if q ≤ w + stepGap s ∧ w ≤ q + stepGap s then [] else [n] := by
    obtain ⟨hsome, hnone⟩ := hs.holdCauses hp h₁
    rw [← hs.upperBound, ← hw, hstep', Nat.min_self] at hsome hnone
    simp only [gapHolds] at hsome hnone
    split_ifs with hin
    · exact hnone (by split_ifs at hv <;> omega)
    · exact hsome (by split_ifs at hv <;> omega)
  obtain ⟨hpair, -, hby, hsteer⟩ := hs.weigh hp h₁
  rw [ite_self] at hpair
  have hrest : ∀ {u}, PairAt s u t n v 15 q 15 → solveStep u n = (q, 15) := fun hu => by
    rw [hu.symm.solveStep hp.symm, ← hs.symm.upperBound, hstep]
    exact pairStep_rest hq (by split_ifs at hv <;> omega) (by split_ifs at hv <;> omega) hqp
  rw [← hcause, resteer, hp.nbrs, hsteer]
  by_cases hvp : v = p
  · obtain ⟨hsteer₂, hpair₂, hby₂⟩ := hpair.symm.settle hp.symm (hrest hpair) 62 []
    rw [if_pos ⟨hvp, ite_self _⟩, hsteer₂, steer_nil]
    exact ⟨hpair₂.symm, hby₂.trans hby⟩
  · obtain ⟨hsteer₂, hpair₂, hby₂⟩ := hpair.symm.settle hp.symm (hrest hpair) 62 [n]
    obtain ⟨hsteer₃, hpair₃, hby₃⟩ := hpair₂.settle hp.symm (hrest hpair₂.symm) 61 []
    rw [if_neg fun h => hvp h.1, List.singleton_append, hsteer₂, hsteer₃, steer_nil]
    exact ⟨hpair₃.symm, hby₃.trans (hby₂.trans hby)⟩

/-- Where the neighbour's step is beyond reach of the bound, the tile takes its bound and the neighbour is brought down to
the gap above it, with the tile as its cause (R80, R84, R87). -/
theorem resteer_beyond {t n p q : Nat} (hp : OnePair s t n) (hs : PairAt s s t n p 15 q 15)
    (hstep : (tileIsl s t).step = p) (hstep' : (tileIsl s n).step = q) (hq : q = min (upperBound s n) (tileIsl s n).req)
    (hq15 : q ≤ 15) (hqp : q ≤ p + stepGap s) (hbeyond : upperBound s t + stepGap s < q) :
    PairAt s (resteer t s) t n (upperBound s t) 15 (upperBound s t + stepGap s) 15 ∧
      (tileIsl (resteer t s) n).supplyBy = [t] := by
  have hb := hs.upperBound
  have hb' := hs.symm.upperBound
  generalize hU : upperBound s t = U at *
  have hUp : U ≤ p := by omega
  have h₁ : solveStep s t = (U, U + stepGap s) := by
    rw [hs.solveStep hp, ← hb, hstep', Nat.min_self, pairStep_beyond hbeyond hq15]
  obtain ⟨hpair₁, -, -, hsteer₁⟩ := hs.weigh hp h₁
  rw [if_pos hbeyond] at hpair₁ hsteer₁
  have hdown : min (soloBound s n) (min (U + stepGap s) 15) = U + stepGap s := by omega
  have hheld : ∀ {u vn}, PairAt s u t n U 15 vn (U + stepGap s) → solveStep u n = (U + stepGap s, 15) := fun hu => by
    rw [hu.symm.solveStep hp.symm, hdown, hstep]
    exact pairStep_capped (by omega) hUp
  obtain ⟨hpair₂, -, -, hsteer₂⟩ := hpair₁.symm.weigh hp.symm (hheld hpair₁)
  rw [ite_self] at hpair₂
  obtain ⟨hsteer₃, hpair₃, -⟩ := hpair₂.settle hp.symm (hheld hpair₂.symm) 61 [t]
  have h₄ : solveStep (weigh n (weigh n (weigh t s))) t = (U, 15) := by
    rw [hpair₃.symm.solveStep hp, ← hb, hstep']
    exact pairStep_bound (by omega)
  obtain ⟨hpair₄, -, -, hsteer₄⟩ := hpair₃.symm.weigh hp h₄
  rw [ite_self] at hpair₄
  have h₅ : solveStep (weigh t (weigh n (weigh n (weigh t s)))) n = (U + stepGap s, 15) := by
    rw [hpair₄.symm.solveStep hp.symm, ← hb', hstep]
    exact pairStep_capped (by omega) hUp
  obtain ⟨hpair₅, -, hby₅, hsteer₅⟩ := hpair₄.symm.weigh hp.symm h₅
  rw [ite_self] at hpair₅
  have hcause : holdCauses (weigh t (weigh n (weigh n (weigh t s)))) n = [t] :=
    (hpair₄.symm.holdCauses hp.symm h₅).1 (.inr (.inl ⟨by omega, by dsimp only; omega⟩))
  have hend : resteer t s = weigh n (weigh t (weigh n (weigh n (weigh t s)))) := by
    rw [resteer, hp.nbrs, hsteer₁, if_neg (by omega), List.singleton_append, hsteer₂, if_neg (by omega),
      List.singleton_append, hsteer₃, hsteer₄, if_neg (by rw [ite_self]; omega), List.nil_append, hsteer₅,
      if_pos ⟨rfl, ite_self _⟩, steer_nil]
  rw [hend]
  exact ⟨hpair₅.symm, hby₅.trans hcause⟩

/-- A neighbour that counts is running. -/
theorem tileRunning_of_nbr {t n : Nat} (h : runningNbrs s t = [n]) : tileRunning s n = true := by
  have hside : ∀ o : Option Nat, (o.bind fun m => if tileRunning s m then some m else none) = some n →
      tileRunning s n = true := fun o ho => by
    obtain ⟨m, -, hm⟩ := Option.bind_eq_some_iff.1 ho
    obtain ⟨hrun, hmn⟩ := (Option.ite_none_right_eq_some ..).1 hm
    exact Option.some.inj hmn ▸ hrun
  rcases neighbours_of_one h with hn | hn
  · exact hside _ (congrArg Prod.fst hn)
  · exact hside _ (congrArg Prod.snd hn)

/-- A tile at rest without hold-downs. -/
theorem TileAt.rest {t n v : Nat} (ht : (tileIsl s t).target = v) (hlo : (tileIsl s t).holdLo = 15)
    (hhi : (tileIsl s t).holdHi = 15) : TileAt s t n v 15 (tileIsl s t) := by
  refine ⟨rfl, rfl, rfl, rfl, rfl, ht, ?_, ?_⟩
  · unfold holdFrom
    split <;> assumption
  · unfold holdBeyond
    split <;> assumption

/-- Settles O28: a tile without a running neighbour takes what it wants; with one, the pair comes to rest as the two lemmas
above say. -/
theorem stepRules : Obligations.StepRules := by
  intro t s hwf hrun hrest x u g U W
  refine ⟨fun hn => resteer_alone hwf hrun hn, fun n q hn hn' hne => ?_⟩
  intro y hyt hys hq hxr hyr hxq hqx hlo hhi hlo' hhi'
  have hp : OnePair s t n := ⟨hwf, hrun, tileRunning_of_nbr hn, hn, hn', hne⟩
  have hs : PairAt s s t n x.step 15 q 15 := ⟨.refl hwf, .rest hrest hlo hhi, .rest hyt hlo' hhi'⟩
  rcases Nat.lt_or_ge (U + g) q with hbeyond | hreach
  · obtain ⟨hpair, hby⟩ := resteer_beyond hp hs rfl hys hq (hq.trans_le ((Nat.min_le_right ..).trans hyr)) hqx hbeyond
    exact ⟨hpair.fst.step, hpair.snd.step.trans hys, fun h => absurd h (Nat.not_le.2 hbeyond),
      fun _ => ⟨hpair.fst.target, hpair.snd.target, hby⟩⟩
  · obtain ⟨hpair, hby⟩ := resteer_reach hp hs rfl hys hxr hq hxq hqx hreach rfl rfl
    exact ⟨hpair.fst.step, hpair.snd.step.trans hys, fun _ => ⟨hpair.fst.target, hpair.snd.target, hby⟩,
      fun h => absurd h (Nat.not_lt.2 hreach)⟩

end Sys2Proof.Machine
end

section
/-! A shadow record whose ring lies in a channel of DRAM that is in self-refresh. -/

namespace Sys2Proof.Machine

/-- An image with a VIS section alone: VI 0 is a shadowed PF of group 0, and its records go to queue 3. -/
def oneShadowedVi : FlashCopy :=
  let header := [(24, 1), (25, 0), (26, 0), (27, 0)]
  let visEntry := [(192, 8), (193, 0), (194, 0), (195, 0), (200, 0), (201, 1), (202, 0), (203, 0)]
  let oneVi := [(256, 1), (257, 0)]
  let shadowedPf := [(1344, 0), (1345, 0), (1346, 0), (1347, 0), (1348, 1), (1349, 0)]
  let swq := [(1368, 3), (1369, 0), (1370, 0), (1371, 0)]
  header ++ visEntry ++ oneVi ++ shadowedPf ++ swq

/-- VI 0 is in service and its SWQ has room; the ring lies in line 0 of DRAM, whose channel is in self-refresh. -/
def asleepRing : State :=
  { cfg := { phase := .run, copy := 1 }
    nv := { copyA := oneShadowedVi }
    prt := { groups := [(0, { width := 3, rate := 1 })] }
    slc := { qrecs := [(3, some { rdram := true })] }
    drc := { chans := [(0, { sr := true })] } }

theorem asleepRing_canonical : Canonical asleepRing := by
  rw [canonical_iff]
  exact ⟨rfl, ⟨rfl, fun _ => rfl⟩, rfl, rfl, rfl, rfl, rfl, rfl, ⟨rfl, fun _ => ⟨rfl, rfl, rfl⟩⟩, by decide +kernel,
    ⟨rfl, fun _ => rfl⟩, rfl, rfl, by decide +kernel, rfl, rfl, rfl⟩

/-- The exit from self-refresh of channel 0 has been asked for (R397). -/
def exitAsked : Host.Outcome State Fault Refusal → Bool
  | .next t => (chanSt t 0).exit'
  | _ => false

/-- The host's write of the octets 0 to 7 of BAR0 of VI 0. -/
def shadowedBlock : Instr := .shadowWrite 0 0 ((List.range 8).map fun i => some ((0 : BitVec 64).extractLsb' (8 * i) 8))

/-- Refutes O44: where the ring of SWQ lies in a channel in self-refresh, as in `asleepRing`, the record that is posted
also starts the exit of the channel (R397), which the statement's next state leaves out. -/
theorem not_hostWritesReachTheInterface : ¬ Obligations.HostWritesReachTheInterface := by
  intro h
  obtain ⟨hservice, -⟩ := h 0 0 0 0 [] 0 asleepRing rfl rfl rfl
  obtain ⟨-, hshadowed⟩ := hservice (by decide +kernel)
  obtain ⟨hposted, -⟩ := hshadowed (by decide +kernel) (by decide +kernel) (by decide) shadowedBlock
    (List.mem_cons_self ..)
  have hmodel : exitAsked (exec shadowedBlock asleepRing) = true := by decide +kernel
  rw [hposted (by decide +kernel)] at hmodel
  exact absurd hmodel (by decide +kernel)

end Sys2Proof.Machine
end

section
/-! CFG_ALT and the image update registers (R72, R76, R77). -/

namespace Sys2Proof.Machine

variable {s : State}

/-! ### CFG_ALT -/

/-- A write of CFG_ALT with REQ, by the world that owns the CFG block (R72). -/
theorem cfgAltWrite_owner {rq : Req} {v : Word} (ho : rq.sec = blockSec s Unit.cfg) (hr : reach rq s = true)
    (hreq : v.getLsbD 3 = true) :
    exec (.cfgAltWrite rq v) s = .next (
      let r := v.toNat % 8
      if runOrHelm s = true ∧ r = s.cfg.cur then { s with cfg := { s.cfg with pend := false } }
      else if s.cfg.phase = .run ∧ (decide (r < s.cfg.nalt) && altMatches s r) = true then
        { s with cfg := { s.cfg with pend := true, palt := r } }
      else if s.cfg.phase = .helm ∧ (!s.cfg.noAlt) = true ∧ (decide (r < s.cfg.nalt) && altMatches s r) = true then
        { s with cfg := { s.cfg with cur := r } }
      else altRefused v.toNat s) := by
  have hbit : bitOf v.toNat 3 = true := hreq
  simp only [exec, execCfgAltWrite, altWrite]
  rw [ownedWrite_owner hr ho]
  simp [hbit]

/-! ### CFG_UPD_CTL -/

/-- The value of CFG_UPD_CTL as a sum of its fields. -/
theorem updValue_eq (op line : Nat) (b : Bool) (ho : op < 4) (hl : line < 2 ^ 20) :
    updValue op b line = line + (if b then 2 ^ 33 else 0) + 2 ^ 34 * op := by
  cases b <;> simp [updValue, packFields, b2n] <;> omega

/-- The fields of a value of CFG_UPD_CTL. -/
theorem updValue_fields (op line : Nat) (b : Bool) (ho : op < 4) (hl : line < 2 ^ 20) :
    bitOf (updValue op b line) 33 = b ∧ field (updValue op b line) 34 2 = op ∧ field (updValue op b line) 0 20 = line := by
  rw [updValue_eq op line b ho hl]
  simp only [bitOf, field, Nat.testBit_eq_decide_div_mod_eq, Nat.shiftRight_eq_div_pow]
  refine ⟨?_, ?_, ?_⟩
  · cases b <;> simp <;> omega
  · cases b <;> simp <;> omega
  · cases b <;> simp <;> omega

/-- An operation starts on a copy that is not in use (R76). -/
theorem updCtlWrite_starts {rq : Req} {op line : Nat} {b : Bool} (ho : rq.sec = blockSec s Unit.cfg)
    (hopen : updOpen s = true) (hop : op < 4) (hne : op ≠ 0) (hl : line < 2 ^ 20) (hbusy : s.cfg.updBusy = false)
    (hfree : s.cfg.copy ≠ (if b then 2 else 1)) :
    updCtlWrite rq (updValue op b line) s = { s with cfg := { s.cfg with
      updBusy := true, updOp := op, updB := b, updLine := line, updVal := updValue op b line } } := by
  obtain ⟨hb, hf, hline⟩ := updValue_fields op line b hop hl
  have hmay : mayWrite rq (blockSec s Unit.cfg) = true := by simp [mayWrite, ho]
  simp only [updCtlWrite, updWrite, hmay, hopen, hb, hf, hline, hbusy, if_true, beq_false_of_ne hfree, hne, Bool.and_false,
    Bool.or_false, Bool.false_eq_true, if_false]

/-- An operation on the copy in use is refused with RESULT 7 (R77). -/
theorem updCtlWrite_inUse {rq : Req} {op line : Nat} {b : Bool} (ho : rq.sec = blockSec s Unit.cfg)
    (hopen : updOpen s = true) (hop : op < 4) (hl : line < 2 ^ 20) (hheld : s.cfg.held = false)
    (huse : s.cfg.copy = (if b then 2 else 1)) :
    updCtlWrite rq (updValue op b line) s = report (updReport Code.cfgUpdRefused (updValue op b line) 7)
      { s with cfg := { s.cfg with updRes := 7 } } := by
  obtain ⟨hb, -, -⟩ := updValue_fields op line b hop hl
  have hmay : mayWrite rq (blockSec s Unit.cfg) = true := by simp [mayWrite, ho]
  simp only [updCtlWrite, updWrite, hmay, hopen, hb, hheld, huse, if_true, beq_self_eq_true, Bool.not_false, Bool.true_and,
    Bool.true_or]

/-- The three operations on a copy: the value that each writes starts it, or is refused for the copy in use. -/
theorem updCommands_effect (rq : Req) (b : Bool) (line : BitVec 20) (ho : rq.sec = blockSec s Unit.cfg)
    (hopen : updOpen s = true) :
    ∀ p ∈ [(Instr.cfgUpdErase rq b, 1, 0), (.cfgUpdWriteLine rq b line, 2, line.toNat), (.cfgUpdVerify rq b, 3, 0)],
      let value := p.2.2 + (if b then 2 ^ 33 else 0) + 2 ^ 34 * p.2.1
      (s.cfg.held = false → s.cfg.updBusy = false → s.cfg.copy ≠ (if b then 2 else 1) →
        exec p.1 s = .next { s with cfg := { s.cfg with
          updBusy := true, updOp := p.2.1, updB := b, updLine := p.2.2, updVal := value } }) ∧
      (s.cfg.held = false → s.cfg.copy = (if b then 2 else 1) →
        ∃ t, exec p.1 s = .next t ∧ t.cfg = { s.cfg with updRes := 7 } ∧ t.nv = s.nv) := by
  intro p hp
  have hrun : exec p.1 s = .next (updCtlWrite rq (updValue p.2.1 b p.2.2) s) ∧ p.2.1 < 4 ∧ p.2.1 ≠ 0 ∧ p.2.2 < 2 ^ 20 := by
    simp only [List.mem_cons, List.not_mem_nil, or_false] at hp
    rcases hp with rfl | rfl | rfl
    · exact ⟨rfl, (by decide : 1 < 4), (by decide : 1 ≠ 0), (by decide : 0 < 2 ^ 20)⟩
    · exact ⟨rfl, (by decide : 2 < 4), (by decide : 2 ≠ 0), line.isLt⟩
    · exact ⟨rfl, (by decide : 3 < 4), (by decide : 3 ≠ 0), (by decide : 0 < 2 ^ 20)⟩
  obtain ⟨hexec, hop, hne, hl⟩ := hrun
  intro value
  rw [hexec]
  refine ⟨fun _ hbusy hfree => ?_, fun hheld huse => ⟨_, rfl, ?_, ?_⟩⟩
  · rw [updCtlWrite_starts ho hopen hop hne hl hbusy hfree, updValue_eq _ _ _ hop hl]
  · rw [updCtlWrite_inUse ho hopen hop hl hheld huse, report_cfg]
  · rw [updCtlWrite_inUse ho hopen hop hl hheld huse, report_nv]

/-! ### CFG_UPD_COMPLETE -/

theorem flashCopy_of_nv {t : State} (h : t.nv = s.nv) (b : Bool) : flashCopy t b = flashCopy s b := by
  simp only [flashCopy, h]

@[simp] theorem flashCopy_wearBoot (s : State) (b : Bool) : flashCopy (wearBoot s) b = flashCopy s b := rfl

@[simp] theorem flashCopy_putCopy (b j : Bool) (c : FlashCopy) (s : State) :
    flashCopy (putCopy b c s) j = if j = b then c else flashCopy s j := by
  cases b <;> cases j <;> rfl

/-- The end of an operation that changes a copy: the wear of boot flash leaves the copies (R53, R77). -/
theorem updDone_copyChanged (b : Bool) (c : FlashCopy) (s : State) :
    let t := flashWornCheck false (wearBoot (updDone 1 (putCopy b c s)))
    flashCopy t b = c ∧ flashCopy t (!b) = flashCopy s (!b) ∧ t.cfg.updRes = 1 ∧ t.cfg.updBusy = false := by
  intro t
  have hcopy j : flashCopy t j = if j = b then c else flashCopy s j := by
    rw [flashCopy_of_nv (s := wearBoot (updDone 1 (putCopy b c s))) (t := t) (reportIf_nv ..), flashCopy_wearBoot, updDone,
      flashCopy_report]
    exact flashCopy_putCopy b j c s
  have hcfg : t.cfg = { s.cfg with updBusy := false, updRes := 1 } := by
    simp only [t, flashWornCheck, reportIf_cfg, wearBoot, updDone, report_cfg, putCopy]
  exact ⟨(hcopy b).trans (if_pos rfl), (hcopy (!b)).trans (if_neg (by cases b <;> decide)), by rw [hcfg], by rw [hcfg]⟩

/-- The use of a copy leaves the end of the operation that verified it, and ends a hold in LOAD (R61). -/
theorem useCopy_result (b : Bool) (s : State) :
    let t := useCopy b s
    t.cfg.updBusy = s.cfg.updBusy ∧ t.cfg.updRes = s.cfg.updRes ∧ t.cfg.held = false := by
  unfold useCopy
  split <;> exact ⟨rfl, rfl, rfl⟩

/-- RESULT of a verification is that of the first check of R58 that fails. -/
theorem verifyResult_copyFault (c : FlashCopy) :
    let len := imgLength c
    let whole := decide (imgOcts c 0 8 = magic ∧ imgLe c 8 4 = 1 ∧ len % 64 = 0 ∧ 1024 ≤ len ∧ len ≤ 67108864)
    let crc := decide (crc64 (imgOcts c 0 (len - 8)) = imgLe c (len - 8) 8)
    let key := decide (Sign.sha384 (imgOcts c 32 97) = Config.fusedKeyHash)
    let signed := Sign.verifies (Sign.sha384 (imgOcts c 0 (len - 128))) (imgOcts c 32 97) (imgOcts c (len - 128) 96)
    verifyResult (copyFault c) = if whole = false then 6 else if crc = false then 3 else if key = false then 4
      else if signed = false then 5 else if (malformedAt c).isSome then 6 else 2 := by
  intro len whole crc key signed
  have hwhole : (imgOcts c 0 8 ≠ magic ∨ imgLe c 8 4 ≠ 1 ∨ len % 64 ≠ 0 ∨ len < 1024 ∨ 67108864 < len) ↔ whole = false := by
    simp only [whole, decide_eq_false_iff_not, not_and_or, Nat.not_le]
  have hcrc : crc64 (imgOcts c 0 (len - 8)) ≠ imgLe c (len - 8) 8 ↔ crc = false := decide_eq_false_iff_not.symm
  have hkey : Sign.sha384 (imgOcts c 32 97) ≠ Config.fusedKeyHash ↔ key = false := decide_eq_false_iff_not.symm
  have hsigned : (!signed) = true ↔ signed = false := by rw [Bool.not_eq_true']
  unfold copyFault
  dsimp only
  split
  · next h => rw [if_pos (hwhole.1 h)]; rfl
  next h₁ =>
  rw [if_neg (mt hwhole.2 h₁)]
  split
  · next h => rw [if_pos (hcrc.1 h)]; rfl
  next h₂ =>
  rw [if_neg (mt hcrc.2 h₂)]
  split
  · next h => rw [if_pos (hkey.1 h)]; rfl
  next h₃ =>
  rw [if_neg (mt hkey.2 h₃)]
  split
  · next h => rw [if_pos (hsigned.1 h)]; rfl
  next h₄ =>
  rw [if_neg (mt hsigned.2 h₄)]
  cases malformedAt c <;> rfl

/-- A verification changes the reports alone. -/
theorem verifyCopy_effect (b : Bool) (s : State) :
    ∃ u, verifyCopy b s = (u, copyFault (flashCopy s b)) ∧ u.cfg = s.cfg ∧ u.nv = s.nv := by
  unfold verifyCopy
  cases copyFault (flashCopy s b) with
  | none => exact ⟨s, rfl, rfl, rfl⟩
  | some f => exact ⟨_, rfl, report_cfg .., report_nv ..⟩

/-- RESULT 2 is that of a valid copy alone. -/
theorem isNone_iff_verifyResult (f : Option (Nat × Nat × Nat)) : f.isNone = true ↔ verifyResult f = 2 := by
  cases f with
  | none => exact ⟨fun _ => rfl, fun _ => rfl⟩
  | some f =>
    refine ⟨(nomatch ·), fun h => ?_⟩
    simp only [verifyResult] at h
    split_ifs at h <;> exact absurd h (by decide)

/-- The end of a verification, with the use of a valid copy in a hold of LOAD (R61, R77). -/
theorem cfgUpdComplete_verifies (hbusy : s.cfg.updBusy = true) (hop : s.cfg.updOp = 3) :
    let r := verifyResult (copyFault (flashCopy s s.cfg.updB))
    ∃ t, exec .cfgUpdComplete s = .next t ∧ t.cfg.updBusy = false ∧ t.nv = s.nv ∧ t.cfg.updRes = r ∧
      if r = 2 ∧ s.cfg.held = true
        then t.cfg.phase = .test ∧ t.cfg.held = false ∧ t.cfg.copy = if s.cfg.updB then 2 else 1
        else t.cfg.phase = s.cfg.phase ∧ t.cfg.copy = s.cfg.copy := by
  intro r
  obtain ⟨u, hverify, hcfg, hnv⟩ := verifyCopy_effect s.cfg.updB s
  have hvalid : (copyFault (flashCopy s s.cfg.updB)).isNone = true ↔ r = 2 := isNone_iff_verifyResult _
  have hrun : exec .cfgUpdComplete s = .next (if r = 2 ∧ s.cfg.held = true then useCopy s.cfg.updB (updDone r u)
      else updDone r u) := by
    have hheld : (updDone r u).cfg.held = s.cfg.held := by simp only [updDone, report_cfg, hcfg]
    simp only [exec, execCfgUpdComplete, hbusy, hop, hverify, Bool.not_true, Bool.false_eq_true, if_false, Bool.and_eq_true,
      hvalid, Nat.reduceEqDiff]
    rw [show verifyResult (copyFault (flashCopy s s.cfg.updB)) = r from rfl, hheld]
  have hdone : (updDone r u).cfg = { s.cfg with updBusy := false, updRes := r } := by
    simp only [updDone, report_cfg, hcfg]
  have hdoneNv : (updDone r u).nv = s.nv := by simp only [updDone, report_nv, hnv]
  refine ⟨_, hrun, ?_⟩
  generalize updDone r u = w at *
  split
  · obtain ⟨-, husedNv, hphase, hcopy, -⟩ := useCopy_effect s.cfg.updB w
    obtain ⟨hkeptBusy, hkeptRes, hheld⟩ := useCopy_result s.cfg.updB w
    exact ⟨by rw [hkeptBusy, hdone], husedNv.trans hdoneNv, by rw [hkeptRes, hdone], hphase, hheld, hcopy⟩
  · exact ⟨by rw [hdone], hdoneNv, by rw [hdone], by rw [hdone], by rw [hdone]⟩

/-- Settles O27: CFG_ALT by its three cases, the operations by the value that starts them and by how each of them ends. -/
theorem configurationWrites : Obligations.ConfigurationWrites := by
  intro rq v b line s ho
  refine ⟨fun hserve hr => ⟨fun hreq hcur => ?_, fun hreq hrun hother hlt hmatch => ?_,
    fun hreq hhelm hno hother hlt hmatch => ?_, updCommands_effect rq b line ho ?_⟩,
    fun hbusy => ⟨fun hop => ?_, fun hop => ?_, fun hop => ?_⟩⟩
  · rw [cfgAltWrite_owner ho hr hreq]
    simp only [runOrHelm_of_serving hserve, hcur, and_self, if_true]
  · rw [cfgAltWrite_owner ho hr hreq]
    simp [hother, hrun, hlt, hmatch]
  · rw [cfgAltWrite_owner ho hr hreq]
    simp [hother, hhelm, hno, hlt, hmatch]
  · simp [updOpen, runOrHelm_of_serving hserve]
  · obtain ⟨hcopy, hkept, hres, hend⟩ := updDone_copyChanged s.cfg.updB [] s
    exact ⟨_, by simp only [exec, execCfgUpdComplete, hbusy, hop]; rfl, hcopy, hkept, hres, hend⟩
  · obtain ⟨hcopy, hkept, hres, hend⟩ := updDone_copyChanged s.cfg.updB (msetMany 255 (flashCopy s s.cfg.updB)
      (64 * s.cfg.updLine) ((List.range 64).map fun i => mget 0 s.cfg.updBuf i)) s
    exact ⟨_, by simp only [exec, execCfgUpdComplete, hbusy, hop]; rfl, hcopy, hkept, hres, hend⟩
  · obtain ⟨t, hrun, hend, hnv, hres, hused⟩ := cfgUpdComplete_verifies hbusy hop
    refine ⟨t, hrun, hend, hnv, hres.trans (verifyResult_copyFault _), ?_⟩
    rw [hres]
    exact hused

end Sys2Proof.Machine
end

section
/-! Host reads of BAR0 of an interface, and the registers with which its service acts on it (R340, R342, R343, R345). -/

namespace Sys2Proof.Machine

variable {s t : State}

/-! ### Reads of a shadow page -/

/-- The hub lines that hold `n` octets from offset `o` of the shadow page of VI `v`, bound for the port of its group's first
quad as those of its read `k` (R343). -/
def pageLines (s : State) (v k o n : Nat) : List BLine :=
  (List.range ((o + max n 1 - 1) / 64 + 1 - o / 64)).map fun i =>
    ⟨portOfLine (hubLine0 + viSpage s v + o / 64 + i), 0o200 + groupQuad s (viGroup s v), s.slc.cycle,
      .page v k i (hubLine0 + viSpage s v + o / 64 + i)⟩

/-- The lines of the reads `l`, numbered from `k`. -/
def allPageLines (s : State) (v k : Nat) (l : List WaitRead) : List BLine :=
  (l.zipIdx.map fun p => pageLines s v (k + p.2) p.1.off p.1.len).flatten

/-- The reads `l` join those whose lines cross, numbered in their order. -/
def takeReads (l : List WaitRead) (x : Vi) : Vi :=
  { x with
    reads := x.reads ++ l.zipIdx.map fun p => ⟨x.readNum + p.2, p.1.off, p.1.len, []⟩
    readNum := x.readNum + l.length }

theorem allPageLines_cons (s : State) (v k : Nat) (w : WaitRead) (l : List WaitRead) :
    allPageLines s v k (w :: l) = pageLines s v k w.off w.len ++ allPageLines s v (k + 1) l := by
  simp only [allPageLines, List.zipIdx_cons, List.map_cons, List.flatten_cons, Nat.add_zero, List.zipIdx_succ, List.map_map]
  congr 3
  funext p
  simp only [Function.comp_apply, Nat.add_assoc, Nat.add_comm p.2]

theorem takeReads_cons (w : WaitRead) (l : List WaitRead) (x : Vi) :
    takeReads (w :: l) x = takeReads l (takeReads [w] x) := by
  simp only [takeReads, List.zipIdx_cons, List.zipIdx_nil, List.map_cons, List.map_nil, Nat.add_zero, List.zipIdx_succ,
    List.map_map, List.append_assoc, List.cons_append, List.nil_append, List.length_cons, List.length_nil, Nat.zero_add,
    Nat.add_assoc, Nat.add_comm l.length]
  congr 4
  funext p
  simp only [Function.comp_apply, Nat.add_comm p.2]

/-- On the way from `s` to `t` the unit serves reads of VI `v`: their lines become bound, and its record changes. -/
structure Served (v : Nat) (lines : List BLine) (s t : State) : Prop where
  cfg : t.cfg = s.cfg
  nv : t.nv = s.nv
  isl : t.isl = s.isl
  mem : t.mem = s.mem
  ivc : t.ivc = s.ivc
  cycle : t.slc.cycle = s.slc.cycle
  bound : t.slc.bound = s.slc.bound ++ lines
  answers : t.vif.answers = s.vif.answers
  vis : mwf {} t.vif.vis = true

theorem Served.trans {v : Nat} {l l' : List BLine} {u : State} (h : Served v l s t) (h' : Served v l' t u) :
    Served v (l ++ l') s u where
  cfg := h'.cfg.trans h.cfg
  nv := h'.nv.trans h.nv
  isl := h'.isl.trans h.isl
  mem := h'.mem.trans h.mem
  ivc := h'.ivc.trans h.ivc
  cycle := h'.cycle.trans h.cycle
  bound := by rw [h'.bound, h.bound, List.append_assoc]
  answers := h'.answers.trans h.answers
  vis := h'.vis

theorem Served.pageLines {v : Nat} {l : List BLine} (h : Served v l s t) (k o n : Nat) :
    pageLines t v k o n = pageLines s v k o n := by
  have hsec id o n : sec t id o n = sec s id o n := by simp only [sec, image, h.cfg, h.nv]
  have hgroup g : groupQuad t g = groupQuad s g := by simp only [groupQuad, hsec]
  simp only [Machine.pageLines, viSpage, viGroup, viField, hsec, hgroup, h.cycle]

/-- A read that is served (R343). -/
theorem servePage_effect (h : mwf {} s.vif.vis = true) (v : Nat) (w : WaitRead) :
    Served v (pageLines s v (viAt s v).readNum w.off w.len) s (servePage v w s) ∧
      viAt (servePage v w s) v = takeReads [w] (viAt s v) :=
  ⟨⟨rfl, rfl, rfl, rfl, rfl, rfl, rfl, rfl, mset_wf h⟩, (viAt_setVi h v v _).trans (if_pos rfl)⟩

/-- Reads that are served one after another (R345). -/
theorem servePages_effect (v : Nat) (l : List WaitRead) : ∀ s : State, mwf {} s.vif.vis = true →
    Served v (allPageLines s v (viAt s v).readNum l) s (l.foldl (fun s w => servePage v w s) s) ∧
      viAt (l.foldl (fun s w => servePage v w s) s) v = takeReads l (viAt s v) := by
  induction l with
  | nil =>
    refine fun s h => ⟨⟨rfl, rfl, rfl, rfl, rfl, rfl, (List.append_nil _).symm, rfl, h⟩, ?_⟩
    simp only [List.foldl_nil, takeReads, List.zipIdx_nil, List.map_nil, List.append_nil, List.length_nil, Nat.add_zero]
  | cons w l ih =>
    intro s h
    obtain ⟨hone, hself⟩ := servePage_effect h v w
    rw [List.foldl_cons]
    generalize servePage v w s = s₁ at *
    obtain ⟨hrest, hall⟩ := ih s₁ hone.vis
    have hlines : allPageLines s₁ v (viAt s₁ v).readNum l = allPageLines s v ((viAt s v).readNum + 1) l := by
      simp only [allPageLines, hone.pageLines, hself, takeReads, List.length_cons, List.length_nil]
    rw [allPageLines_cons, ← hlines, takeReads_cons, ← hself]
    exact ⟨hone.trans hrest, hall⟩

/-! ### A host read of BAR0 -/

/-- A read within the window of a shadowed VI in service is served, where it need not wait (R343, R345). -/
theorem bar0Read_served {v off len : Nat} (hst : windowState s v = 1) (hin : off + max len 1 ≤ bar0Size s v)
    (hshadow : viShadowed s v = true) (hsync : viSync s v = false ∨ (viAt s v).sack = (viAt s v).spost) :
    bar0Read v off len s = servePage v ⟨off, len, (viAt s v).spost, s.isl.chron⟩ (noAnswers s) := by
  have hnow : (viSync s v && (viAt s v).sack != (viAt s v).spost) = false := by
    rcases hsync with h | h <;> simp [h]
  simp [bar0Read, hst, Nat.not_lt.2 hin, hshadow, hnow]

/-- A synchronous read of a VI whose SACK differs from SPOST waits (R345). -/
theorem bar0Read_waits {v off len : Nat} (hst : windowState s v = 1) (hin : off + max len 1 ≤ bar0Size s v)
    (hshadow : viShadowed s v = true) (hsync : viSync s v = true) (hne : (viAt s v).sack ≠ (viAt s v).spost) :
    bar0Read v off len s = noAnswers (setVi v (fun x => { x with
      waits := x.waits ++ [⟨off, len, (viAt s v).spost, s.isl.chron⟩] }) s) := by
  simp [bar0Read, hst, Nat.not_lt.2 hin, hshadow, hsync, hne]

/-- A VI not in service answers zeros (R349). -/
theorem bar0Read_zeros {v off len : Nat} (hst : windowState s v = 2) (hin : off + max len 1 ≤ bar0Size s v) :
    bar0Read v off len s = answerHost v (.normal (List.replicate len 0)) s := by
  simp [bar0Read, hst, Nat.not_lt.2 hin]

/-- A read of a VI in reset or D3hot, and one past the window, is an Unsupported Request (R338, R349). -/
theorem bar0Read_unsupported {v off len : Nat}
    (h : windowState s v = 3 ∨ (windowState s v ≠ 0 ∧ ¬ off + max len 1 ≤ bar0Size s v)) :
    bar0Read v off len s = answerHost v .unsupported s := by
  unfold bar0Read
  split
  · next h0 => simp [h0] at h
  · rfl
  · next h3 => rw [if_pos (Nat.not_le.1 (h.resolve_left h3).2)]

theorem noteUnsupported_other {v : Nat} (h : s.vif.answers.contains (v, .unsupported) = false) : noteUnsupported v s = s := by
  simp only [noteUnsupported, h, Bool.false_eq_true, and_false, if_false]

/-- The Unsupported Request that answers a request, which a reachable PF notes in its error status (R360, R363). -/
def refuseRequest (v : Nat) (s : State) : State :=
  let u := answerHost v .unsupported s
  if viReachable s v = true ∧ viVf s v = 0 then { u with vif := { u.vif with
    aers := mmod {} u.vif.aers (4 * viGroup s v + viPf s v) fun a => { a with unc := a.unc ||| BitVec.twoPow 32 20 } } }
  else u

theorem noteUnsupported_unsupported (v : Nat) (s : State) :
    noteUnsupported v (answerHost v .unsupported s) = refuseRequest v s := by
  have hreach : viReachable (answerHost v .unsupported s) v = viReachable s v := rfl
  have hvf : viVf (answerHost v .unsupported s) v = viVf s v := rfl
  have hanswer : (answerHost v .unsupported s).vif.answers.contains (v, .unsupported) = true := by simp [answerHost]
  unfold noteUnsupported refuseRequest aerError setAer
  rw [hanswer, hreach, hvf]
  by_cases hr : viReachable s v = true
  · by_cases hv : viVf s v = 0
    · simp only [hr, hv, and_self, if_true]
      rfl
    · simp only [hr, hv, and_false, if_false, and_self, if_true]
  · simp only [hr, false_and, if_false, Bool.false_eq_true]

/-- A VI that is disabled is not reachable. -/
theorem viReachable_of_windowState {v : Nat} (h : windowState s v = 0) : viReachable s v = false := by
  have hstate : viState s v = 0 := by
    unfold windowState at h
    split at h
    · cases h
    · exact h
  unfold viState at hstate
  split_ifs at hstate with h₁ h₂
  simpa using h₂

/-- The two commands with which a host reads BAR0. -/
def readCommands (s : State) (v : ViId) (off : Fin 16384) (len : Fin 4097) : List Instr :=
  [Instr.shadowRead v off len] ++
    (if serving s = true ∧ v.val < nvi s ∧ viGroup s v.val < 8 ∧ groupUp s (viGroup s v.val) = true
      then [Instr.hostConfigRequest (Fin.ofNat 8 (viGroup s v.val)) (.nonPosted false off len) v] else [])

theorem readCommands_run {v : ViId} {off : Fin 16384} {len : Fin 4097} {cmd : Instr} (h : cmd ∈ readCommands s v off len) :
    exec cmd s = .next (noteUnsupported v.val (bar0Read v.val off.val len.val s)) := by
  rcases List.mem_append.1 h with h | h
  · rw [List.mem_singleton.1 h]
    rfl
  · split at h
    · next hup =>
      obtain ⟨hserve, hv, hg, hlink⟩ := hup
      rw [List.mem_singleton.1 h]
      have hval : (Fin.ofNat 8 (viGroup s v.val)).val = viGroup s v.val := Nat.mod_eq_of_lt hg
      simp only [exec, execHostConfigRequest, hval, afterLock, hlink, hserve, decide_eq_false (Nat.not_le.2 hv),
        bne_self_eq_false, Bool.or_self, Bool.not_true, Bool.false_eq_true, if_false]
    · cases h

/-- A read through an enabled port of a disabled VI (R74). -/
theorem disabledRead_effect {v : Nat} (off len : Nat) (hst : windowState s v = 0) :
    (groupUp s (viGroup s v) = false →
      noteUnsupported v (bar0Read v off len s) = answerHost v .nothing s) ∧
    (groupUp s (viGroup s v) = true → serving s = true ∨ s.cfg.early = true →
      noteUnsupported v (bar0Read v off len s) = refuseRequest v s) ∧
    (groupUp s (viGroup s v) = true → serving s = false → s.cfg.early = false →
      noteUnsupported v (bar0Read v off len s) = answerHost v .unsupported (report
        (mkReport Unit.cfg Cls.reported Code.hostEarlyReq (viGroup s v) [(viGroup s v, 3), (0, 1)])
        { s with cfg := { s.cfg with early := true } })) := by
  have hread : bar0Read v off len s = unclaimedRead v s := by simp [bar0Read, hst]
  rw [hread]
  unfold unclaimedRead
  refine ⟨fun hdown => ?_, fun hup hquiet => ?_, fun hup hoff hearly => ?_⟩
  · rw [hdown]
    exact noteUnsupported_other (by simp [answerHost])
  · have hsame : (if afterLock s = true then s else earlyRequest (viGroup s v) 0 s) = s := by
      rcases hquiet with h | h <;> simp [afterLock, earlyRequest, h]
    rw [hup, hsame]
    exact noteUnsupported_unsupported v s
  · have hserve : serving (answerHost v .unsupported (report
        (mkReport Unit.cfg Cls.reported Code.hostEarlyReq (viGroup s v) [(viGroup s v, 3), (0, 1)])
        { s with cfg := { s.cfg with early := true } })) = false := by
      simpa [serving, answerHost] using hoff
    have hnext : (if afterLock s = true then s else earlyRequest (viGroup s v) 0 s) = report
        (mkReport Unit.cfg Cls.reported Code.hostEarlyReq (viGroup s v) [(viGroup s v, 3), (0, 1)])
        { s with cfg := { s.cfg with early := true } } := by simp [afterLock, earlyRequest, hoff, hearly]
    rw [hup, hnext]
    simp [noteUnsupported, viReachable, afterLock, hserve]

/-- The clauses of a host read of BAR0 of VI `v`, for either of its two commands. -/
theorem readCommands_effect (h : mwf {} s.vif.vis = true) {v : ViId} {off : Fin 16384} {len : Fin 4097} {cmd : Instr}
    (hcmd : cmd ∈ readCommands s v off len) (hst : windowState s v.val = 1)
    (hin : off.val + max len.val 1 ≤ bar0Size s v.val) (hshadow : viShadowed s v.val = true) :
    let x := viAt s v.val
    (viSync s v.val = false ∨ x.sack = x.spost →
      ∃ t, exec cmd s = .next t ∧ t.vif.answers = [] ∧ t.mem = s.mem ∧ t.ivc = s.ivc ∧
        t.slc.bound = s.slc.bound ++ pageLines s v.val x.readNum off.val len.val ∧
        viAt t v.val = { x with reads := x.reads ++ [⟨x.readNum, off.val, len.val, []⟩], readNum := x.readNum + 1 }) ∧
    (viSync s v.val = true → x.sack ≠ x.spost →
      ∃ t, exec cmd s = .next t ∧ t.vif.answers = [] ∧ t.mem = s.mem ∧ t.slc = s.slc ∧
        viAt t v.val = { x with waits := x.waits ++ [⟨off.val, len.val, x.spost, s.isl.chron⟩] }) := by
  intro x
  rw [readCommands_run hcmd]
  refine ⟨fun hsync => ?_, fun hsync hne => ?_⟩
  · rw [bar0Read_served hst hin hshadow hsync]
    obtain ⟨hserved, hself⟩ := servePage_effect (s := noAnswers s) h v.val
      ⟨off.val, len.val, (viAt s v.val).spost, s.isl.chron⟩
    rw [noteUnsupported_other (by rw [hserved.answers]; rfl)]
    exact ⟨_, rfl, hserved.answers, hserved.mem, hserved.ivc, hserved.bound, hself⟩
  · rw [bar0Read_waits hst hin hshadow hsync hne, noteUnsupported_other rfl]
    refine ⟨_, rfl, rfl, rfl, rfl, ?_⟩
    exact (viAt_setVi h v.val v.val fun y => { y with
      waits := y.waits ++ [⟨off.val, len.val, x.spost, s.isl.chron⟩] }).trans (if_pos rfl)

/-- A read to which its first line has come. -/
def PageRead.withLine (r : PageRead) (bits : Nat) : PageRead := { r with got := r.got ++ [(0, bits)] }

/-- A read that needs one line (R343). -/
theorem PageRead.count_oneLine {r : PageRead} (h : r.off / 64 = (r.off + max r.len 1 - 1) / 64) : r.count = 1 := by
  unfold PageRead.count
  omega

/-- The octets of a read whose one line has come. -/
theorem PageRead.octets_oneLine {r : PageRead} {bits : Nat} (hgot : r.got = [(0, bits)])
    (hone : r.off / 64 = (r.off + max r.len 1 - 1) / 64) :
    r.octets = (List.range r.len).map fun i => bits / 2 ^ (8 * ((r.off + i) % 64)) % 256 := by
  refine List.map_congr_left fun i hi => ?_
  have hline : (r.off + i) / 64 - r.off / 64 = 0 := by
    have := List.mem_range.1 hi
    omega
  simp [hgot, hline, field, Nat.shiftRight_eq_div_pow]

/-- The line that completes a read (R343). -/
theorem pageCarried_last {v num l : Nat} {r : PageRead} (hread : (viAt s v).reads.find? (fun y => y.num == num) = some r)
    (hgood : hubBad s l = false) (hall : (r.withLine (lineBits s l)).got.length = (r.withLine (lineBits s l)).count) :
    pageCarried v num 0 l s = answerAlso v (.normal (r.withLine (lineBits s l)).octets)
      (setVi v (fun x => { x with reads := x.reads.filter fun y => y.num != num }) s) := by
  simp only [pageCarried, hread, hgood]
  exact if_pos hall

/-- The line that a read of one line needs, when it is carried, answers the read (R343). -/
theorem carry_page {v : Nat} {r : PageRead} {b : BLine}
    (hread : (viAt s v).reads.find? (fun y => y.num == r.num) = some r) (hgot : r.got = [])
    (hone : r.off / 64 = (r.off + max r.len 1 - 1) / 64)
    (hb : b.cargo = .page v r.num 0 (hubLine0 + viSpage s v + r.off / 64))
    (hgood : hubBad s (hubLine0 + viSpage s v + r.off / 64) = false) :
    (carry b s).vif.answers = s.vif.answers ++ [(v, .normal ((List.range r.len).map fun i =>
      lineBits s (hubLine0 + viSpage s v + r.off / 64) / 2 ^ (8 * ((r.off + i) % 64)) % 256))] := by
  generalize hubLine0 + viSpage s v + r.off / 64 = l at *
  have hcarry : ∃ u, carry b s = pageCarried v r.num 0 l u ∧ viAt u v = viAt s v ∧ u.vif.answers = s.vif.answers ∧
      hubBad u l = hubBad s l ∧ lineBits u l = lineBits s l := by
    refine ⟨carried { touch l s with slc := { (touch l s).slc with bound := (touch l s).slc.bound.erase b } }, ?_, rfl, rfl,
      rfl, rfl⟩
    simp only [carry, cargoLine, mayAsk, hb, carriedLine, isDestLine, reached, Option.filter_some, Bool.false_eq_true,
      if_false, Option.toList_some, List.foldl_cons, List.foldl_nil]
  obtain ⟨u, hrun, hvi, hanswers, hbad, hbits⟩ := hcarry
  have hcount : (r.withLine (lineBits s l)).count = 1 := PageRead.count_oneLine hone
  have hocts := PageRead.octets_oneLine (r := r.withLine (lineBits s l)) (bits := lineBits s l)
    (by rw [PageRead.withLine, hgot]; rfl) hone
  have hlen : (r.withLine (lineBits s l)).got.length = 1 := by rw [PageRead.withLine, hgot]; rfl
  rw [hrun, pageCarried_last (by rw [hvi, hread]) (hbad.trans hgood) (by rw [hbits, hlen, hcount]), hbits]
  exact congrArg₂ (fun l o => l ++ [(v, HostAnswer.normal o)]) hanswers hocts

end Sys2Proof.Machine
end

section
/-! The registers with which the service of an interface acts on it (R340, R342, R345). -/

namespace Sys2Proof.Machine

variable {s t : State}

/-- A write of a control by a requester that may write it (R237, R412). -/
theorem ownedWrite_may {win off v : Nat} {own : Bool} {rq : Req} {act : State → State}
    (h : reach rq s = true ∧ (rq.sec = own ∨ rq.code = smbCode)) : ownedWrite win off own rq v act s = act s := by
  obtain ⟨hr, ho⟩ := h
  have hmay : mayWrite rq own = true := by rcases ho with h | h <;> simp [mayWrite, h]
  simp [ownedWrite, hr, hmay]

/-- A record of a VI with one more entry in its error log (R340). -/
def logEntry (code detail now : Nat) (x : Vi) : Vi :=
  { x with
    errs := mset {} x.errs (x.errcnt % 16) ⟨code, detail % 2 ^ 32, now % 2 ^ 64⟩, errcnt := (x.errcnt + 1) % 2 ^ 32 }

theorem viAt_errLog (h : mwf {} s.vif.vis = true) (v code detail : Nat) :
    viAt (errLog v code detail s) v = logEntry code detail s.isl.chron (viAt s v) :=
  (viAt_setVi h v v _).trans (if_pos rfl)

theorem logEntry_entry {x : Vi} (h : mwf {} x.errs = true) (code detail now : Nat) :
    mget {} (logEntry code detail now x).errs (x.errcnt % 16) = ⟨code, detail % 2 ^ 32, now % 2 ^ 64⟩ := mget_mset_same h

theorem viAt_report (r : Report) (s : State) (v : Nat) : viAt (report r s) v = viAt s v := by
  rw [viAt, report_vif, viAt]

/-- VIF_SYNC_TIMEOUT serves the oldest waiting read (R345). -/
theorem vifSyncTimeout_effect (h : mwf {} s.vif.vis = true) {v : ViId} (he : mwf {} (viAt s v.val).errs = true)
    {w : WaitRead} {rest : List WaitRead} (hw : (viAt s v.val).waits = w :: rest) :
    let x := viAt s v.val
    ∃ t, exec (.vifSyncTimeout v) s = .next t ∧ t.mem = s.mem ∧
      t.slc.bound = s.slc.bound ++ pageLines s v.val x.readNum w.off w.len ∧
      (viAt t v.val).reads = x.reads ++ [⟨x.readNum, w.off, w.len, []⟩] ∧
      (viAt t v.val).waits = rest ∧ w.at' + 1000000 ≤ t.isl.chron ∧ (viAt t v.val).errcnt = (x.errcnt + 1) % 2 ^ 32 ∧
      mget {} (viAt t v.val).errs (x.errcnt % 16) = ⟨5, w.off % 2 ^ 32, t.isl.chron % 2 ^ 64⟩ := by
  intro x
  obtain ⟨hserved, hself⟩ := servePage_effect (s := reachTime (w.at' + 1000000) s) h v.val w
  let r := viReport Code.vifSyncTimeout v.val [(v.val, 12), (w.off, 14), (x.spost, 16), (x.sack, 16)]
  let f := fun y : Vi => { y with waits := rest }
  have hrun : exec (.vifSyncTimeout v) s = .next (report r (errLog v.val 5 w.off (setVi v.val f
      (servePage v.val w (reachTime (w.at' + 1000000) s))))) := by
    simp only [exec, execVifSyncTimeout, hw, r, f, x]
  refine ⟨_, hrun, ?_⟩
  clear hrun
  generalize servePage v.val w (reachTime (w.at' + 1000000) s) = s₁ at *
  have hlast : viAt (report r (errLog v.val 5 w.off (setVi v.val f s₁))) v.val =
      logEntry 5 w.off s₁.isl.chron (f (takeReads [w] x)) := by
    rw [viAt_report, viAt_errLog (s := setVi v.val f s₁) (mmod_wf hserved.vis), viAt_setVi hserved.vis, if_pos rfl, hself]
    rfl
  simp only [hlast, report_mem, report_slc, report_isl]
  refine ⟨hserved.mem, hserved.bound, rfl, rfl, ?_, rfl, logEntry_entry he 5 w.off s₁.isl.chron⟩
  show _ ≤ s₁.isl.chron
  rw [hserved.isl]
  exact Nat.le_max_right ..

/-- VIF_SACK_WRITE serves the reads that wait for its value (R345). -/
theorem vifSackWrite_effect (h : mwf {} s.vif.vis = true) {v : ViId} {rq : Req} {value : Word}
    (ho : reach rq s = true ∧ (rq.sec = blockSec s Unit.vif ∨ rq.code = smbCode)) (hv : value.toNat % 2 ^ 12 = v.val)
    (hlt : v.val < nvi s) (hshadow : viShadowed s v.val = true) (hst : viState s v.val ≠ 0) :
    let x := viAt s v.val
    let n := value.toNat / 2 ^ 12 % 2 ^ 16
    let ready := x.waits.filter fun w => w.spost == n
    ∃ t, exec (.vifSackWrite rq value) s = .next t ∧ t.mem = s.mem ∧
      t.slc.bound = s.slc.bound ++ allPageLines s v.val x.readNum ready ∧
      viAt t v.val = takeReads ready { x with sack := n, waits := x.waits.filter fun w => w.spost != n } := by
  intro x n ready
  have hfv : field value.toNat 0 12 = v.val := by rw [field, Nat.shiftRight_zero, hv]
  have hfn : field value.toNat 12 16 = n := by rw [field, Nat.shiftRight_eq_div_pow]
  let f := fun x : Vi => { x with sack := n, waits := x.waits.filter fun w => w.spost != n }
  have hrun : exec (.vifSackWrite rq value) s = .next (ready.foldl (fun s w => servePage v.val w s) (setVi v.val f s)) := by
    simp only [exec, execVifSackWrite, sackWrite, vifWrite]
    rw [ownedWrite_may ho]
    simp only [hfv, hfn]
    rw [if_neg (by simp [hlt, hshadow, hst])]
  have hset : viAt (setVi v.val f s) v.val = f x := (viAt_setVi h _ _ _).trans (if_pos rfl)
  obtain ⟨hserved, hself⟩ := servePages_effect v.val ready (setVi v.val f s) (mmod_wf h)
  refine ⟨_, hrun, hserved.mem, ?_, by rw [hself, hset]⟩
  rw [hserved.bound, hset]
  rfl

/-- VIF_EPOST_WRITE adds an entry of the service to the error log (R340). -/
theorem vifEpostWrite_effect (h : mwf {} s.vif.vis = true) {v : ViId} (he : mwf {} (viAt s v.val).errs = true) {rq : Req}
    {value : Word} (ho : reach rq s = true ∧ (rq.sec = blockSec s Unit.vif ∨ rq.code = smbCode))
    (hv : value.toNat % 2 ^ 12 = v.val) (hlt : v.val < nvi s) (hc : 0o100000 ≤ value.toNat / 2 ^ 12 % 2 ^ 16) :
    let x := viAt s v.val
    ∃ t, exec (.vifEpostWrite rq value) s = .next t ∧ t.mem = s.mem ∧ t.vif.answers = s.vif.answers ∧
      (viAt t v.val).errcnt = (x.errcnt + 1) % 2 ^ 32 ∧
      mget {} (viAt t v.val).errs (x.errcnt % 16) = ⟨value.toNat / 2 ^ 12 % 2 ^ 16, 0, s.isl.chron % 2 ^ 64⟩ := by
  intro x
  have hfv : field value.toNat 0 12 = v.val := by rw [field, Nat.shiftRight_zero, hv]
  have hfc : field value.toNat 12 16 = value.toNat / 2 ^ 12 % 2 ^ 16 := by rw [field, Nat.shiftRight_eq_div_pow]
  refine ⟨errLog v.val (value.toNat / 2 ^ 12 % 2 ^ 16) 0 s, ?_, rfl, rfl, by rw [viAt_errLog h]; rfl,
    by rw [viAt_errLog h]; exact logEntry_entry he ..⟩
  simp only [exec, execVifEpostWrite, epostWrite, vifWrite]
  rw [ownedWrite_may ho]
  simp only [hfv, hfc]
  rw [if_neg (by omega)]

/-- DBPEND_READ returns 32 bits of the pending mask and clears them (R342). -/
theorem dbpendRead_effect (h : mwf {} s.vif.vis = true) {rq : Req} (v : ViId) (k : Fin 8)
    (ho : reach rq s = true ∧ (rq.sec = blockSec s Unit.vif ∨ rq.code = smbCode)) :
    let x := viAt s v.val
    ∃ t, exec (.dbpendRead rq v k) s = .next t ∧ t.mem = s.mem ∧
      t.answer.toNat = x.dbpend / 2 ^ (32 * k.val) % 2 ^ 32 ∧
      (∀ i, (viAt t v.val).dbpend.testBit i =
        (x.dbpend.testBit i && !(decide (32 * k.val ≤ i) && decide (i < 32 * k.val + 32)))) ∧
      ∀ u, u ≠ v.val → viAt t u = viAt s u := by
  intro x
  obtain ⟨hr, hmay⟩ := ho
  have hmay : mayWrite rq (blockSec s Unit.vif) = true := by rcases hmay with h | h <;> simp [mayWrite, h]
  let f := fun x : Vi => { x with dbpend := setField x.dbpend (32 * k.val) 32 0 }
  have hrun : exec (.dbpendRead rq v k) s =
      .next { setVi v.val f s with answer := BitVec.ofNat 72 (field x.dbpend (32 * k.val) 32) } := by
    simp only [exec, execDbpendRead, readDbpend, hr, hmay, Bool.not_true, Bool.false_eq_true, if_false, if_true]
    rfl
  have hat u : viAt { setVi v.val f s with answer := BitVec.ofNat 72 (field x.dbpend (32 * k.val) 32) } u =
      if u = v.val then f x else viAt s u := viAt_setVi h v.val u f
  refine ⟨_, hrun, rfl, ?_, fun i => ?_, fun u hu => (hat u).trans (if_neg hu)⟩
  · have hlt : field x.dbpend (32 * k.val) 32 < 2 ^ 72 :=
      Nat.lt_of_lt_of_le (Nat.mod_lt _ (by decide)) (by decide : 2 ^ 32 ≤ 2 ^ 72)
    exact (BitVec.toNat_ofNat ..).trans ((Nat.mod_eq_of_lt hlt).trans (by rw [field, Nat.shiftRight_eq_div_pow]))
  · rw [hat, if_pos rfl, testBit_setField]
    by_cases hi : 32 * k.val ≤ i ∧ i < 32 * k.val + 32
    · simp [hi]
    · rw [if_neg hi, ← Bool.decide_and, decide_eq_false hi, Bool.not_false, Bool.and_true]

/-- Settles O45: a read by the state of the VI as its window finds it, each register of the service by the lemma above for
it. -/
theorem hostReadsAndServiceWrites : Obligations.HostReadsAndServiceWrites := by
  intro v off len rq k value s hvis herrs x st lines g answers inWindow owns unsupported
  refine ⟨fun cmd hcmd => ⟨fun hst hin hshadow => readCommands_effect hvis hcmd hst hin hshadow, fun hst hin => ?_,
    fun hst => ?_, fun hst hdown => ?_, fun hst hup hquiet => ?_, fun hst hup hoff hearly => ?_⟩,
    fun r b hread hgot hone hb hgood => carry_page hread hgot hone hb hgood,
    fun w rest hw => vifSyncTimeout_effect hvis herrs hw,
    fun ho hv => ⟨fun hlt hshadow hon => vifSackWrite_effect hvis ho hv hlt hshadow hon,
      fun hlt hc => vifEpostWrite_effect hvis herrs ho hv hlt hc⟩,
    fun ho => dbpendRead_effect hvis v k ho⟩
  · rw [readCommands_run hcmd, bar0Read_zeros hst hin, noteUnsupported_other (by simp [answerHost])]
    rfl
  · rw [readCommands_run hcmd, bar0Read_unsupported hst, noteUnsupported_unsupported]
    rfl
  · rw [readCommands_run hcmd, (disabledRead_effect off.val len.val hst).1 hdown]
    rfl
  · rw [readCommands_run hcmd, (disabledRead_effect off.val len.val hst).2.1 hup hquiet]
    rfl
  · rw [readCommands_run hcmd, (disabledRead_effect off.val len.val hst).2.2 hup hoff hearly]
    rfl

end Sys2Proof.Machine
end

section
/-! What the reset of an interface clears and keeps, and what is reset with it (R349, R350, R351). -/

namespace Sys2Proof.Machine

variable {s t : State}

/-! ### The fields of the record of an interface -/

theorem LinkStays.viField (h : LinkStays s t) (v o n : Nat) : viField t v o n = viField s v o n :=
  h.sec 8 (1088 + 32 * v + o) n

theorem LinkStays.viPf (h : LinkStays s t) (v : Nat) : viPf t v = viPf s v := h.viField v 1 1

theorem LinkStays.viVf (h : LinkStays s t) (v : Nat) : viVf t v = viVf s v := h.viField v 2 2

theorem LinkStays.viRstsrc (h : LinkStays s t) (v : Nat) : viRstsrc t v = viRstsrc s v := h.viField v 20 4

/-- The number of the PF of an interface among those of all groups. -/
theorem LinkStays.pfNumber (h : LinkStays s t) (v : Nat) :
    4 * Machine.viGroup t v + Machine.viPf t v = 4 * Machine.viGroup s v + Machine.viPf s v := by
  rw [h.viGroup, h.viPf]

/-! ### One interface -/

/-- On the way from `s` to `t` the queues and the interrupt router stay. -/
def QueuesStay (s t : State) : Prop := t.slc.queues = s.slc.queues ∧ t.ivc = s.ivc

theorem QueuesStay.trans {u : State} (h : QueuesStay s t) (h' : QueuesStay t u) : QueuesStay s u :=
  ⟨h'.1.trans h.1, h'.2.trans h.2⟩

theorem dropReads_queues (v : Nat) (s : State) : QueuesStay s (dropReads v s) ∧ (dropReads v s).vif.aers = s.vif.aers := by
  have h : ∀ l : List Nat, QueuesStay s (l.foldl (fun s _ => answerAlso v .unsupported s) s) ∧
      (l.foldl (fun s _ => answerAlso v .unsupported s) s).vif.aers = s.vif.aers := fun l =>
    List.foldlRecOn (motive := fun t => QueuesStay s t ∧ t.vif.aers = s.vif.aers) l _ ⟨⟨rfl, rfl⟩, rfl⟩ fun _ ht _ _ => ht
  exact h (List.range ((viAt s v).waits.length + (viAt s v).reads.length))

theorem resetCulverts_queues (v : Nat) (s : State) : QueuesStay s (resetCulverts v s) := by
  refine List.foldlRecOn (motive := QueuesStay s) _ _ ⟨rfl, rfl⟩ fun t ht c _ => ?_
  split
  · exact ht
  · split <;> exact ht

/-- The part of a reset that clears the record of the interface and, of a PF, its virtual functions and error state. -/
def clearVi (flr : Bool) (v : Nat) (s : State) : State :=
  let s := setVi v (afterReset flr s.isl.chron) s
  if viVf s v = 0 then
    let pf := 4 * viGroup s v + viPf s v
    { s with vif := { s.vif with pfs := mset {} s.vif.pfs pf {}, aers := mset {} s.vif.aers pf {} } }
  else s

/-- A reset drops the reads of the interface, clears its record, rings its doorbell and ends the transfers of its
descriptors. -/
theorem resetVi_eq (flr : Bool) (v : Nat) (s : State) : resetVi flr v s =
    let c := clearVi flr v (dropReads v s)
    resetCulverts v (ringDoorbell (viRstsrc c v) 0o703 false c) := rfl

theorem clearVi_effect (flr : Bool) (v : Nat) (s : State) :
    LinkStays s (clearVi flr v s) ∧ QueuesStay s (clearVi flr v s) ∧
      (clearVi flr v s).vif.vis = mmod {} s.vif.vis v (afterReset flr s.isl.chron) ∧
      (clearVi flr v s).vif.aers =
        if viVf s v = 0 then mset {} s.vif.aers (4 * viGroup s v + viPf s v) {} else s.vif.aers := by
  have hvf : viVf (setVi v (afterReset flr s.isl.chron) s) v = viVf s v := rfl
  unfold clearVi
  dsimp only
  rw [hvf]
  split
  · exact ⟨⟨rfl, rfl, rfl, rfl, rfl⟩, ⟨rfl, rfl⟩, rfl, rfl⟩
  · exact ⟨⟨rfl, rfl, rfl, rfl, rfl⟩, ⟨rfl, rfl⟩, rfl, rfl⟩

/-- A reset of an interface: what it leaves of its record, its doorbell, the error state of a PF, and no queue changed (R349,
R350, R351). -/
theorem resetVi_record (h : mwf {} s.vif.vis = true) (flr : Bool) (v : Nat) :
    (resetVi flr v s).slc.queues = s.slc.queues ∧
      (resetVi flr v s).ivc.bells = s.ivc.bells ++ [⟨viRstsrc s v % 262144, 0o703, false⟩] ∧
      (∀ u, viAt (resetVi flr v s) u = if u = v then afterReset flr s.isl.chron (viAt s v) else viAt s u) ∧
      (resetVi flr v s).vif.aers =
        if viVf s v = 0 then mset {} s.vif.aers (4 * viGroup s v + viPf s v) {} else s.vif.aers := by
  obtain ⟨hdrop, hvis⟩ := dropReads_effect v s
  obtain ⟨hkept, haers⟩ := dropReads_queues v s
  rw [resetVi_eq]
  generalize dropReads v s = s₁ at *
  have hwf : mwf {} s₁.vif.vis = true := hvis ▸ mmod_wf h
  have hat₁ u : viAt s₁ u = if u = v then { viAt s v with waits := [], reads := [] } else viAt s u := by
    rw [viAt, hvis]
    exact mget_mmod h v u _
  obtain ⟨hstays, hkept₂, hvis₂, haers₂⟩ := clearVi_effect flr v s₁
  rw [hdrop.toLinkStays.viVf, hdrop.toLinkStays.pfNumber, haers] at haers₂
  generalize clearVi flr v s₁ = s₂ at *
  obtain ⟨hqueues, hivc⟩ := hkept.trans hkept₂
  dsimp only
  rw [hstays.viRstsrc, hdrop.toLinkStays.viRstsrc]
  obtain ⟨hqueues', hivc'⟩ := resetCulverts_queues v (ringDoorbell (viRstsrc s v) 0o703 false s₂)
  have hvif := (resetCulverts_effect v (ringDoorbell (viRstsrc s v) 0o703 false s₂)).2
  generalize resetCulverts v (ringDoorbell (viRstsrc s v) 0o703 false s₂) = e at *
  rw [ringDoorbell_vif] at hvif
  refine ⟨hqueues'.trans hqueues, ?_, fun u => ?_, ?_⟩
  · rw [hivc', ringDoorbell, hivc]
  · rw [viAt, hvif, hvis₂, mget_mmod hwf]
    refine ite_congr rfl (fun _ => ?_) fun hu => (hat₁ u).trans (if_neg hu)
    rw [hdrop.isl]
    exact (congrArg (afterReset flr s.isl.chron) ((hat₁ v).trans (if_pos rfl))).trans rfl
  · rw [hvif, haers₂]

/-! ### Several interfaces -/

/-- The interfaces of a list are reset one after another: each is left as one reset leaves it (R351). -/
theorem resetVis_record (l : List Nat) : ∀ s : State, mwf {} s.vif.vis = true → l.Nodup →
    let t := l.foldl (fun s u => resetVi false u s) s
    t.slc.queues = s.slc.queues ∧
      ∀ u, viAt t u = if u ∈ l then afterReset false s.isl.chron (viAt s u) else viAt s u := by
  induction l with
  | nil => exact fun s _ _ => ⟨rfl, fun u => rfl⟩
  | cons v l ih =>
    intro s h hnodup
    obtain ⟨hv, hl⟩ := List.nodup_cons.1 hnodup
    obtain ⟨hhosts, hwf, -⟩ := resetVi_effect h false v
    obtain ⟨hqueues, -, hat, -⟩ := resetVi_record h false v
    rw [List.foldl_cons]
    generalize resetVi false v s = s₁ at *
    obtain ⟨hqueues', hat'⟩ := ih s₁ hwf hl
    refine ⟨hqueues'.trans hqueues, fun u => ?_⟩
    rw [hat', hhosts.isl, hat]
    by_cases huv : u = v
    · subst huv
      simp [hv]
    · simp [huv]

/-- The error state of a PF that is among the interfaces reset, or that holds none, holds none afterwards (R351, R360). -/
theorem resetVis_aers (l : List Nat) : ∀ s : State, mwf {} s.vif.vis = true → mwf {} s.vif.aers = true → ∀ k,
    (mget {} s.vif.aers k = {} ∨ ∃ u ∈ l, viVf s u = 0 ∧ k = 4 * viGroup s u + viPf s u) →
      mget {} (l.foldl (fun s u => resetVi false u s) s).vif.aers k = {} := by
  induction l with
  | nil => exact fun s _ _ k hk => hk.resolve_right fun ⟨u, hu, _⟩ => absurd hu List.not_mem_nil
  | cons v l ih =>
    intro s h haers k hk
    obtain ⟨hhosts, hwf, -⟩ := resetVi_effect h false v
    obtain ⟨-, -, -, hone⟩ := resetVi_record h false v
    rw [List.foldl_cons]
    generalize resetVi false v s = s₁ at *
    have haers₁ : mwf {} s₁.vif.aers = true := by
      rw [hone]
      split
      · exact mset_wf haers
      · exact haers
    refine ih s₁ hwf haers₁ k ?_
    by_cases hnow : viVf s v = 0 ∧ k = 4 * viGroup s v + viPf s v
    · obtain ⟨hvf, rfl⟩ := hnow
      rw [hone, if_pos hvf]
      exact .inl (mget_mset_same haers)
    · rcases hk with hk | ⟨u, hu, hvf, rfl⟩
      · left
        rw [hone]
        split
        · next hvf => rw [mget_mset_ne haers fun he => hnow ⟨hvf, he⟩, hk]
        · exact hk
      · exact .inr ⟨u, (List.mem_cons.1 hu).resolve_left fun he => hnow (he ▸ ⟨hvf, rfl⟩),
          (hhosts.toLinkStays.viVf u).trans hvf, (hhosts.toLinkStays.pfNumber u).symm⟩

theorem visWhere_nodup (s : State) (p : Nat → Bool) : (visWhere s p).Nodup := List.nodup_range.filter _

theorem mem_visWhere {p : Nat → Bool} {u : Nat} : u ∈ visWhere s p ↔ u < nvi s ∧ p u = true := by
  simp [visWhere]

/-- A group reset while services run, of a state that differs from `s` in its links alone (R351). -/
theorem groupReset_record {w : State} (h : mwf {} s.vif.vis = true) (hon : serving s = true) (hw : LinkStays s w)
    (hvif : w.vif = s.vif) (hslc : w.slc = s.slc) (g : Nat) :
    let t := groupReset g w
    (t.mem = s.mem ∧ t.slc.queues = s.slc.queues) ∧
      ∀ u, if u < nvi s ∧ viGroup s u = g then viAt t u = afterReset false s.isl.chron (viAt s u) ∧
          (mwf {} s.vif.aers = true → viVf s u = 0 → aerOf t u = {})
        else viAt t u = viAt s u := by
  have hmem u : u ∈ visWhere w (fun u => viGroup w u == g) ↔ u < nvi s ∧ viGroup s u = g := by
    rw [mem_visWhere, hw.nvi, beq_iff_eq, hw.viGroup]
  have hnodup := visWhere_nodup w fun u => viGroup w u == g
  have hrun : groupReset g w = dropRequests g ((visWhere w fun u => viGroup w u == g).foldl (fun s u => resetVi false u s) w) := by
    simp only [groupReset, afterLock, hw.serving, hon, Bool.not_true, Bool.false_eq_true, if_false]
  rw [hrun]
  generalize (visWhere w fun u => viGroup w u == g) = l at *
  have hwf : mwf {} w.vif.vis = true := hvif ▸ h
  have hhosts := (resetVis_effect l w hwf).1
  obtain ⟨hqueues, hat⟩ := resetVis_record l w hwf hnodup
  have haer := resetVis_aers l w hwf
  have hdrop := dropRequests_hostsOnly g (l.foldl (fun s u => resetVi false u s) w)
  have hstays := (hw.trans hhosts.toLinkStays).trans hdrop.toLinkStays
  have hatw u : viAt w u = viAt s u := by rw [viAt, hvif, viAt]
  refine ⟨⟨hstays.mem, hqueues.trans (congrArg Slc.queues hslc)⟩, fun u => ?_⟩
  have hu : viAt (dropRequests g (l.foldl (fun s u => resetVi false u s) w)) u =
      if u ∈ l then afterReset false s.isl.chron (viAt s u) else viAt s u := by
    rw [← hatw, ← hw.isl]
    exact hat u
  obtain hm | hm := em (u ∈ l)
  · rw [if_pos ((hmem u).1 hm)]
    refine ⟨hu.trans (if_pos hm), fun haers hvf => ?_⟩
    rw [aerOf, (hhosts.toLinkStays.trans hdrop.toLinkStays).pfNumber]
    exact haer (hvif ▸ haers) _ (.inr ⟨u, hm, (hw.viVf u).trans hvf, rfl⟩)
  · rw [if_neg (mt (hmem u).2 hm)]
    exact hu.trans (if_neg hm)

end Sys2Proof.Machine
end

section
/-! The commands that reset interfaces, that end and report a reset, and the configuration requests of a host (R335, R349,
R350, R351, R353, R360, R363). -/

namespace Sys2Proof.Machine

variable {s : State}

/-- Memory and the queues stay. -/
def MemoryStays (s t : State) : Prop := t.mem = s.mem ∧ t.slc.queues = s.slc.queues

/-- VI `u` is in reset in `t`, with the record that a reset leaves of that in `s` (R349, R350). -/
def FreshlyReset (s t : State) (u : Nat) : Prop :=
  (viAt t u).reset = true ∧ (viAt t u).rdone = false ∧
    (viAt t u).flrgen = ((viAt s u).flrgen + 1) % 65536 ∧ (viAt t u).from' = s.isl.chron ∧ (viAt t u).errcnt = 0 ∧
    (viAt t u).errs = [] ∧ (viAt t u).dbval = [] ∧ (viAt t u).dbpend = 0 ∧ (viAt t u).spost = 0 ∧ (viAt t u).sack = 0 ∧
    (viAt t u).lost = false ∧ (viAt t u).waits = [] ∧ (viAt t u).reads = [] ∧ (viAt t u).bme = false ∧
    (viAt t u).msixEn = false ∧ (viAt t u).fmask = false ∧ (viAt t u).d3 = false ∧
    (viAt t u).vecs = ((viAt s u).vecs.map fun e => (e.1, ({ ccount := e.2.ccount, ctime := e.2.ctime } : Vec))).filter
      fun e => e.2 != {}

theorem freshlyReset_of {t : State} {u : Nat} {flr : Bool} (h : viAt t u = afterReset flr s.isl.chron (viAt s u)) :
    FreshlyReset s t u := by
  unfold FreshlyReset
  rw [h]
  exact ⟨rfl, rfl, rfl, rfl, rfl, rfl, rfl, rfl, rfl, rfl, rfl, rfl, rfl, rfl, rfl, rfl, rfl, rfl⟩

/-! ### What begins a reset -/

/-- FLR_ACCEPT of a reachable VF (R349). -/
theorem flrAccept_effect (h : mwf {} s.vif.vis = true) {v : ViId} (hr : viReachable s v.val = true)
    (hvf : viVf s v.val ≠ 0) :
    ∃ t, exec (.flrAccept v) s = .next t ∧ FreshlyReset s t v.val ∧ (viAt t v.val).mps = (viAt s v.val).mps ∧
      (viAt t v.val).aspmL1 = (viAt s v.val).aspmL1 ∧ (∀ u, u ≠ v.val → viAt t u = viAt s u) ∧ MemoryStays s t ∧
      t.ivc.bells = s.ivc.bells ++ [⟨viRstsrc s v.val % 262144, 0o703, false⟩] := by
  have hvf' : viVf (noAnswers s) v.val ≠ 0 := hvf
  have hrun : exec (.flrAccept v) s = .next (resetVi true v.val (noAnswers s)) := by
    simp only [exec, execFlrAccept, hr, if_true, resetFunction, hvf', if_false]
  obtain ⟨hqueues, hbells, hat, -⟩ := resetVi_record (s := noAnswers s) h true v.val
  obtain ⟨hhosts, -⟩ := resetVi_effect (s := noAnswers s) h true v.val
  have hself : viAt (resetVi true v.val (noAnswers s)) v.val = afterReset true s.isl.chron (viAt s v.val) :=
    (hat _).trans (if_pos rfl)
  refine ⟨_, hrun, freshlyReset_of hself, ?_, ?_, fun u hu => (hat u).trans (if_neg hu), ⟨hhosts.mem, hqueues⟩, hbells⟩
  · rw [hself]
    rfl
  · rw [hself]
    exact Bool.true_and _

/-- VF_ENABLE_CLEAR of a PF that is not in reset begins a reset of the VFs that it removes (R351). -/
theorem vfEnableClear_effect (h : mwf {} s.vif.vis = true) {g : GroupId} {f : Fin 4} (on : Bool) (num : Fin 1025)
    (hserve : serving s = true) (hup : groupUp s g.val = true) {pf : Nat} (hpf : pfVi s g.val f.val = some pf)
    (hreset : (viAt s pf).reset = false) :
    let old : Sriov := mget {} s.vif.pfs (4 * g.val + f.val)
    ∃ t, exec (.vfEnableClear g f on num) s = .next t ∧ MemoryStays s t ∧
      ∀ u, if u < nvi s ∧ viGroup s u = g.val ∧ viPf s u = f.val ∧ viVf s u ≠ 0 ∧
          (old.enable = true ∧ viVf s u ≤ old.numVfs) ∧ ¬(on = true ∧ viVf s u ≤ num.val)
        then FreshlyReset s t u else viAt t u = viAt s u := by
  intro old
  let gone : List Nat := visWhere s fun u => viGroup s u == g.val && viPf s u == f.val && viVf s u != 0 &&
    (old.enable && decide (viVf s u ≤ old.numVfs)) && !(on && decide (viVf s u ≤ num.val))
  let s₁ : State := { noAnswers s with vif := { (noAnswers s).vif with
    pfs := mset {} s.vif.pfs (4 * g.val + f.val) { old with enable := on, numVfs := num.val } } }
  have hrun : exec (.vfEnableClear g f on num) s = .next (gone.foldl (fun s u => resetVi false u s) s₁) := by
    simp only [exec, execVfEnableClear, afterLock, hserve, hup, Bool.not_true, Bool.or_self, Bool.false_eq_true, if_false, hpf,
      hreset]
    rfl
  have hgone u : u ∈ gone ↔ u < nvi s ∧ viGroup s u = g.val ∧ viPf s u = f.val ∧ viVf s u ≠ 0 ∧
      (old.enable = true ∧ viVf s u ≤ old.numVfs) ∧ ¬(on = true ∧ viVf s u ≤ num.val) := by
    rw [mem_visWhere]
    simp only [Bool.and_eq_true, beq_iff_eq, bne_iff_ne, decide_eq_true_eq, Bool.not_eq_true', Bool.and_eq_false_iff,
      decide_eq_false_iff_not, not_and_or, Bool.not_eq_true, and_assoc]
  obtain ⟨hqueues, hat⟩ := resetVis_record gone s₁ h (visWhere_nodup s _)
  have hhosts := (resetVis_effect gone s₁ h).1
  refine ⟨_, hrun, ⟨hhosts.mem, hqueues⟩, fun u => ?_⟩
  obtain hu | hu := em (u ∈ gone)
  · rw [if_pos ((hgone u).1 hu)]
    exact freshlyReset_of ((hat u).trans (if_pos hu))
  · rw [if_neg (mt (hgone u).2 hu)]
    exact (hat u).trans (if_neg hu)

/-- The link of a group that goes down changes the ports and the reports alone (R362). -/
theorem groupDown_effect (g : GroupId) (s : State) :
    LinkStays s (groupDown g s) ∧ (groupDown g s).vif = s.vif ∧ (groupDown g s).slc = s.slc := by
  unfold groupDown
  dsimp only
  split
  · exact ⟨.refl s, rfl, rfl⟩
  · rw [linkReport]
    generalize hset : setGroup g.val _ s = s₁
    have hs₁ : LinkStays s s₁ ∧ s₁.vif = s.vif ∧ s₁.slc = s.slc := hset ▸ ⟨⟨rfl, rfl, rfl, rfl, rfl⟩, rfl, rfl⟩
    obtain ⟨hstays, hvif, hslc⟩ := hs₁
    refine ⟨hstays.trans (limited_stays ..), (limited_vif ..).trans hvif, ?_⟩
    obtain ⟨l, r, h | h⟩ := limited_cases Code.prtLinkDown (96 + g.val)
      (fun _ => [(0, 1), (g.val, 3), ((groupAt s g.val).width, 4), ((groupAt s g.val).rate, 4)]) s₁
    · rw [h, ← hslc]
    · rw [h, report_slc, ← hslc]

/-- HOT_RESET and HPERST_FALL reset every interface of the group (R351). -/
theorem groupCommands_effect (h : mwf {} s.vif.vis = true) {g : GroupId} (hserve : serving s = true)
    (hup : groupUp s g.val = true) (hperst : perstHigh s g.val = true) (hpres : groupPresent s g.val = true) :
    ∀ cmd ∈ [Instr.hotReset g, .hperstFall g], ∃ t, exec cmd s = .next t ∧ MemoryStays s t ∧
      ∀ u, if u < nvi s ∧ viGroup s u = g.val then FreshlyReset s t u ∧ (viAt t u).mps = 0 ∧ (viAt t u).aspmL1 = false ∧
          (mwf {} s.vif.aers = true → viVf s u = 0 → aerOf t u = {})
        else viAt t u = viAt s u := by
  intro cmd hcmd
  have hrun : ∃ w, exec cmd s = .next (groupReset g.val w) ∧ LinkStays s w ∧ w.vif = s.vif ∧ w.slc = s.slc := by
    simp only [List.mem_cons, List.not_mem_nil, or_false] at hcmd
    rcases hcmd with rfl | rfl
    · exact ⟨s, by simp only [exec, execHotReset, hup, if_true], .refl s, rfl, rfl⟩
    · let s₁ : State := { s with hperst := s.hperst &&& ~~~(BitVec.ofNat 8 (2 ^ g.val)) }
      have hpres₁ : groupPresent s₁ g.val = true := hpres
      obtain ⟨hstays, hvif, hslc⟩ := groupDown_effect g s₁
      refine ⟨groupDown g s₁, ?_, LinkStays.trans (t := s₁) ⟨rfl, rfl, rfl, rfl, rfl⟩ hstays, hvif, hslc⟩
      simp only [exec, execHperstFall, hperst, Bool.not_true, Bool.false_eq_true, if_false]
      rw [hpres₁]
      rfl
  obtain ⟨w, hexec, hstays, hvif, hslc⟩ := hrun
  obtain ⟨hkept, hall⟩ := groupReset_record h hserve hstays hvif hslc g.val
  refine ⟨_, hexec, hkept, fun u => ?_⟩
  have hu := hall u
  generalize groupReset g.val w = t at *
  split
  · next hin =>
    rw [if_pos hin] at hu
    obtain ⟨hself, haer⟩ := hu
    exact ⟨freshlyReset_of hself, by rw [hself]; rfl, by rw [hself]; rfl, haer⟩
  · next hout => rwa [if_neg hout] at hu

/-! ### What ends and reports a reset -/

/-- VIF_RDONE_WRITE marks a VI in reset, and is reported for any other (R350). -/
theorem vifRdoneWrite_effect (h : mwf {} s.vif.vis = true) {v : ViId} {rq : Req} {value : Word} (hr : reach rq s = true)
    (ho : rq.sec = blockSec s Unit.vif) (hv : value.toNat % 2 ^ 12 = v.val) :
    (v.val < nvi s → (viAt s v.val).reset = true → ∃ t, exec (.vifRdoneWrite rq value) s = .next t ∧
      viAt t v.val = { viAt s v.val with rdone := true } ∧ MemoryStays s t) ∧
    (nvi s ≤ v.val ∨ (viAt s v.val).reset = false → exec (.vifRdoneWrite rq value) s = .next (report
      (mkReport Unit.vif Cls.reported Code.vifCtlBad v.val [(4, 24), (value.toNat, 36)]) s)) := by
  have hfv : field value.toNat 0 12 = v.val := by rw [field, Nat.shiftRight_zero, hv]
  have hrun : exec (.vifRdoneWrite rq value) s = .next
      (if decide (v.val < nvi s) && (viAt s v.val).reset then setVi v.val (fun x => { x with rdone := true }) s
        else vifCtlBad 4 value.toNat s) := by
    simp only [exec, execVifRdoneWrite, rdoneWrite, vifWrite]
    rw [ownedWrite_owner hr ho]
    simp only [hfv]
  rw [hrun]
  refine ⟨fun hlt hreset => ⟨_, by rw [if_pos (by simp [hlt, hreset])], (viAt_setVi h v.val v.val _).trans (if_pos rfl),
    rfl, rfl⟩, fun hno => ?_⟩
  have hbad : (decide (v.val < nvi s) && (viAt s v.val).reset) = false := by
    rcases hno with hno | hno
    · simp [Nat.not_lt.2 hno]
    · simp [hno]
  rw [hbad, if_neg Bool.false_ne_true, vifCtlBad, viReport, show value.toNat % 4096 = v.val from hv]

/-- VI_RESET_COMPLETE ends a reset that is done, once no culvert holds a descriptor of the VI (R350). -/
theorem viResetComplete_effect (h : mwf {} s.vif.vis = true) {v : ViId} (hreset : (viAt s v.val).reset = true)
    (hdone : (viAt s v.val).rdone = true) (hcul : culvertsOf s v.val = 0) :
    ∃ t, exec (.viResetComplete v) s = .next t ∧
      viAt t v.val = { viAt s v.val with reset := false, rdone := false, late := false, from' := 0 } ∧ MemoryStays s t := by
  refine ⟨setVi v.val (fun x => { x with reset := false, rdone := false, late := false, from' := 0 }) s, ?_,
    (viAt_setVi h v.val v.val _).trans (if_pos rfl), rfl, rfl⟩
  simp [exec, execViResetComplete, hreset, hdone, hcul]

/-- VIF_FLR_LATE reports a reset 90 ms old (R350). -/
theorem vifFlrLate_effect (h : mwf {} s.vif.vis = true) {v : ViId} (hreset : (viAt s v.val).reset = true)
    (hlate : (viAt s v.val).late = false) :
    let x := viAt s v.val
    ∃ t, exec (.vifFlrLate v) s = .next t ∧ x.from' + 90000000 ≤ t.isl.chron ∧
      viAt t v.val = { x with late := true } ∧ MemoryStays s t ∧
      t.hlt = (report (mkReport Unit.vif Cls.reported Code.vifFlrLate v.val
        [(v.val, 12), (x.flrgen, 16), (culvertsOf s v.val, 32)]) s).hlt := by
  intro x
  let s₁ := setVi v.val (fun x => { x with late := true }) (reachTime (x.from' + 90000000) s)
  let r := mkReport Unit.vif Cls.reported Code.vifFlrLate v.val [(v.val, 12), (x.flrgen, 16), (culvertsOf s v.val, 32)]
  have hrun : exec (.vifFlrLate v) s = .next (report r s₁) := by
    simp only [exec, execVifFlrLate, hreset, hlate, Bool.not_false, Bool.and_self, if_true]
    rfl
  have hself : viAt s₁ v.val = { x with late := true } :=
    (viAt_setVi (s := reachTime (x.from' + 90000000) s) h v.val v.val _).trans (if_pos rfl)
  refine ⟨_, hrun, ?_, (viAt_report ..).trans hself, ⟨report_mem .., congrArg Slc.queues (report_slc ..)⟩, report_hlt rfl⟩
  rw [report_isl]
  exact Nat.le_max_right ..

/-! ### Requests of a host -/

/-- A configuration request before service, and one to a VI in reset, is retried (R74, R349). -/
theorem configRequest_retried {v : ViId} {g : GroupId} (a : CfgAccess) (hup : groupUp s g.val = true)
    (h : serving s = false ∨ (v.val < nvi s ∧ viGroup s v.val = g.val ∧ (viAt s v.val).reset = true)) :
    exec (.hostConfigRequest g (.config a) v) s = .next (answerHost v.val .retry s) := by
  cases hserve : serving s with
  | false => simp [exec, execHostConfigRequest, hup, afterLock, hserve]
  | true =>
    obtain ⟨hlt, hg, hreset⟩ := h.resolve_left (by simp [hserve])
    simp [exec, execHostConfigRequest, hup, afterLock, hserve, Nat.not_le.2 hlt, hg, hreset]

/-- An AtomicOp is an Unsupported Request, which a reachable PF notes (R360). -/
theorem atomicRequest_effect {v : ViId} {g : GroupId} (hup : groupUp s g.val = true) (hserve : serving s = true) :
    ∃ t, exec (.hostConfigRequest g .atomic v) s = .next t ∧ MemoryStays s t ∧
      t.vif.answers = [(v.val, .unsupported)] ∧ t.vif.vis = s.vif.vis ∧
      (mwf {} s.vif.aers = true → viReachable s v.val = true → viVf s v.val = 0 →
        aerOf t v.val = { aerOf s v.val with unc := (aerOf s v.val).unc ||| BitVec.twoPow 32 20 }) ∧
      (viReachable s v.val = false ∨ viVf s v.val ≠ 0 → t.vif.aers = s.vif.aers) := by
  have hrun : exec (.hostConfigRequest g .atomic v) s = .next (refuseRequest v.val s) := by
    rw [← noteUnsupported_unsupported]
    simp [exec, execHostConfigRequest, hup, afterLock, hserve]
  refine ⟨_, hrun, ?_⟩
  unfold refuseRequest
  by_cases hpf : viReachable s v.val = true ∧ viVf s v.val = 0
  · dsimp only
    rw [if_pos hpf]
    refine ⟨⟨rfl, rfl⟩, rfl, rfl, fun haers _ _ => mget_mset_same haers, fun hno => ?_⟩
    rcases hno with h | h
    · rw [hpf.1] at h
      cases h
    · exact absurd hpf.2 h
  · dsimp only
    rw [if_neg hpf]
    exact ⟨⟨rfl, rfl⟩, rfl, rfl, fun _ hr hvf => absurd ⟨hr, hvf⟩ hpf, fun _ => rfl⟩

/-- A configuration request of a reachable VI that is not in reset is answered normally (R338). -/
theorem configRequest_run {v : ViId} {g : GroupId} (a : CfgAccess) (hup : groupUp s g.val = true)
    (hr : viReachable s v.val = true) (hg : viGroup s v.val = g.val) (hreset : (viAt s v.val).reset = false) :
    exec (.hostConfigRequest g (.config a) v) s =
      .next (answerAlso v.val (.normal (configAnswer a v.val s)) (applyAccess a g.val v.val (noAnswers s))) := by
  have hserve : afterLock s = true ∧ v.val < nvi s := by
    simp only [viReachable, Bool.and_eq_true, decide_eq_true_eq] at hr
    exact hr.1.1
  simp [exec, execHostConfigRequest, hup, hserve.1, Nat.not_le.2 hserve.2, hg, hreset, hr]

/-- The configuration request `a` through group `g` changes the record of VI `v` to `y` alone, and is answered normally. -/
def Sets (s : State) (g : GroupId) (v : ViId) (a : CfgAccess) (y : Vi) : Prop :=
  ∃ t, exec (.hostConfigRequest g (.config a) v) s = .next t ∧ viAt t v.val = y ∧
    (∀ u, u ≠ v.val → viAt t u = viAt s u) ∧ MemoryStays s t ∧ t.vif.answers = [(v.val, .normal [])]

/-- A write that changes the record of the VI by a function. -/
theorem sets_of (h : mwf {} s.vif.vis = true) {v : ViId} {g : GroupId} {a : CfgAccess} {f : Vi → Vi}
    (hrun : exec (.hostConfigRequest g (.config a) v) s =
      .next (answerAlso v.val (.normal (configAnswer a v.val s)) (applyAccess a g.val v.val (noAnswers s))))
    (hact : applyAccess a g.val v.val (noAnswers s) = setVi v.val f (noAnswers s)) (hans : configAnswer a v.val s = []) :
    Sets s g v a (f (viAt s v.val)) := by
  have hat u : viAt (setVi v.val f (noAnswers s)) u = if u = v.val then f (viAt s v.val) else viAt s u :=
    viAt_setVi (s := noAnswers s) h v.val u f
  refine ⟨_, hrun, ?_⟩
  rw [hact, hans]
  exact ⟨(hat _).trans (if_pos rfl), fun u hu => (hat u).trans (if_neg hu), ⟨rfl, rfl⟩, rfl⟩

/-- A write that a VF does not have changes nothing. -/
theorem setVi_id (h : mwf {} s.vif.vis = true) (v : Nat) : setVi v id s = s := by
  have hsame : mmod {} s.vif.vis v id = s.vif.vis := mset_same h
  rw [setVi, hsame]

/-- The items that a configuration write sets in every function, and those that it sets in a PF alone (R338, R360). -/
theorem configWrites_effect (h : mwf {} s.vif.vis = true) {v : ViId} {g : GroupId} (hup : groupUp s g.val = true)
    (hr : viReachable s v.val = true) (hg : viGroup s v.val = g.val) (hreset : (viAt s v.val).reset = false) :
    let x := viAt s v.val
    (∀ on mask, Sets s g v (.command on) { x with bme := on } ∧ Sets s g v (.power on) { x with d3 := on } ∧
      Sets s g v (.msix on mask) { x with msixEn := on, fmask := mask } ∧ (viVf s v.val ≠ 0 → Sets s g v (.aspm on) x)) ∧
    (viVf s v.val = 0 → ∀ on (w : BitVec 3) (n : BitVec 4), Sets s g v (.l0p on w) { x with l0p := on, l0pWidth := w } ∧
      Sets s g v (.aspm on) { x with aspmL1 := on } ∧
      (n.toNat ∈ [0, 1, 2, 5, 6, 9, 10, 13, 14] → Sets s g v (.timeout n on) { x with ctoVal := n, ctoOff := on })) := by
  intro x
  have hrun b := configRequest_run (a := b) hup hr hg hreset
  have hkind : viVf (noAnswers s) v.val = viVf s v.val := rfl
  refine ⟨fun on mask => ⟨?_, ?_, ?_, fun hvf => ?_⟩, fun hvf on w n => ⟨?_, ?_, fun hn => ?_⟩⟩
  · exact sets_of h (f := fun y => { y with bme := on }) (hrun _) rfl rfl
  · exact sets_of h (f := fun y => { y with d3 := on }) (hrun _) rfl rfl
  · exact sets_of h (f := fun y => { y with msixEn := on, fmask := mask }) (hrun _) rfl rfl
  · refine sets_of h (f := id) (hrun _) ?_ rfl
    rw [setVi_id (s := noAnswers s) h]
    simp only [applyAccess, hkind, beq_false_of_ne hvf, Bool.false_eq_true, if_false]
  · exact sets_of h (f := fun y => { y with l0p := on, l0pWidth := w }) (hrun _)
      (by simp only [applyAccess, hkind, hvf, beq_self_eq_true, if_true]) rfl
  · exact sets_of h (f := fun y => { y with aspmL1 := on }) (hrun _)
      (by simp only [applyAccess, hkind, hvf, beq_self_eq_true, if_true]) rfl
  · exact sets_of h (f := fun y => { y with ctoVal := n, ctoOff := on }) (hrun _)
      (by simp only [applyAccess, hkind, hvf, beq_self_eq_true, Bool.true_and, List.contains_iff_mem.2 hn, if_true]) rfl

/-- A read of the IDs of a function (R335). -/
theorem configAnswer_ids (s : State) (v : Nat) :
    configAnswer (.read .ids) v s = (List.range 4).map fun i =>
      (if viVf s v = 0 then pfField s v 4 2 + 2 ^ 16 * pfField s v 6 2 else 2 ^ 32 - 1) / 2 ^ (8 * i) % 256 := by
  simp only [configAnswer, configItem, splitUnits, field, Nat.shiftRight_eq_div_pow, beq_iff_eq]
  rfl

/-- Settles O47: what begins a reset by `resetVi_record` and its folds, what ends it and the requests of a host by the lemma
above for each. -/
theorem interfacesReset : Obligations.InterfacesReset := by
  intro v g f on num rq value a s h x fresh kept
  refine ⟨fun hr hvf => flrAccept_effect h hr hvf,
    fun hserve hup pf hpf hreset => vfEnableClear_effect h on num hserve hup hpf hreset,
    fun hserve hup hperst hpres => groupCommands_effect h hserve hup hperst hpres,
    fun hr ho hv => vifRdoneWrite_effect h hr ho hv,
    fun hreset hdone hcul => viResetComplete_effect h hreset hdone hcul,
    fun hreset hlate => vifFlrLate_effect h hreset hlate,
    fun hup => ⟨fun hretry => configRequest_retried a hup hretry, fun hserve => atomicRequest_effect hup hserve,
      fun hr hg hreset => ?_⟩⟩
  obtain ⟨hall, hpf⟩ := configWrites_effect h hup hr hg hreset
  refine ⟨hall, hpf, ?_⟩
  rw [configRequest_run (.read .ids) hup hr hg hreset, configAnswer_ids]
  rfl

end Sys2Proof.Machine
end

section
/-! A syllable that meets ILLEGAL or PRIV, and the syllables of the system group that act. -/

namespace Sys2Proof.Machine

variable {s : State} {x : Issue}

/-! ### A cause and the end of its bundle -/

/-- A value other than the default reads back, in a table of any form. -/
theorem mget_mset_listed {α : Type} [DecidableEq α] {d v : α} (hv : v ≠ d) (i : Nat) : ∀ t : SMap α,
    mget d (mset d t i v) i = v
  | [] => by simp [mset, mget, hv]
  | (k, w) :: t => by
    simp only [mset, if_neg hv]
    split
    · simp [mget]
    · next hik =>
      split
      · simp [mget]
      · next hne => simp only [mget, if_neg (Ne.symm hne), if_neg hik, mget_mset_listed hv i t]

/-- After a cause is added the core holds one. -/
theorem cause_addCause (i : Nat) (c : Cause) (s : State) : (coreAt (addCause i c s) i).cause.isSome = true := by
  let f : Core → Core := fun k => match k.cause with
    | none => { k with cause := some c }
    | some d => if c.rank < d.rank ∨ (c.rank = d.rank ∧ c.slot < d.slot) then { k with cause := some c } else k
  have hf : (f (coreAt s i)).cause.isSome = true := by
    simp only [f]
    split
    · rfl
    · next hd =>
      split
      · rfl
      · rw [hd]; rfl
  have hne : f (coreAt s i) ≠ {} := fun h => by rw [h] at hf; exact Bool.noConfusion hf
  have hget : coreAt (addCause i c s) i = f (coreAt s i) := mget_mset_listed hne i s.cores
  rw [hget, hf]

/-- A bundle that a cause stops takes nothing of what would follow it. -/
theorem endBundle_of_cause {i : Nat} {post : Nat → State → State} (h : (coreAt s i).cause.isSome = true) :
    endBundle i post s = endBundle i noPost s := by
  obtain ⟨c, hc⟩ := Option.isSome_iff_exists.1 h
  simp only [endBundle, hc]

theorem closeSyllable_addCause (x : Issue) (long : Bool) (post : Nat → State → State) (c : Cause) (s : State) :
    closeSyllable x long post (addCause (issueIx x) c s) = closeSyllable x long noPost (addCause (issueIx x) c s) := by
  simp only [closeSyllable, endBundle_of_cause (post := post) (cause_addCause (issueIx x) c s)]

/-! ### What a syllable that issues does -/

section
variable {c : Instr} {word dest : Nat} {ill : Core → Option Nat} {long : Bool} {act post : Nat → State → State}

/-- A syllable with an ILLEGAL code has no effect but that cause. -/
theorem issues_illegal {code : Nat} (h : MayIssue x s) (hc : ill (openedCore x s) = some code)
    (hrun : exec c s = .next (syllable x word ill long dest act post s)) :
    Issues c x long s (addCause (issueIx x) ⟨2, x.slot.val, 0, code, word⟩ (opened x s)) := by
  rw [Issues, hrun, syllable_issues h, runSyllable_illegal act hc, closeSyllable_addCause]

/-- A syllable of S3 without an ILLEGAL code acts, and its bundle is followed by what it asks for. -/
theorem exec_acts (h : MayIssue x s) (h3 : x.slot = 3) (hc : ill (openedCore x s) = none)
    (hrun : exec c s = .next (syllable x word ill long dest act post s)) :
    exec c s = .next (closeSyllable x long post (act (issueIx x) (opened x s))) := by
  rw [hrun, syllable_issues h, runSyllable_acts act hc (by rw [h3]; exact fun e => absurd e (by decide))]

/-- A syllable that its mode may not issue has no effect but PRIV. -/
theorem issues_refused {ok : Nat → State → Bool} {go : State → State} (h : MayIssue x s) (h3 : x.slot = 3)
    (hc : ill (openedCore x s) = none) (hok : ok (issueIx x) (opened x s) = false)
    (hrun : exec c s = .next (syllable x word ill long dest (fun i s => needMode i word (ok i s) go s) post s)) :
    Issues c x long s (addCause (issueIx x) ⟨3, 3, 1, 0, word⟩ (opened x s)) := by
  have hact : needMode (issueIx x) word (ok (issueIx x) (opened x s)) go (opened x s) =
      addCause (issueIx x) ⟨3, 3, 1, 0, word⟩ (opened x s) := by
    rw [needMode, hok, if_neg Bool.false_ne_true, s3Cause]
  rw [Issues, exec_acts h h3 hc hrun, hact, closeSyllable_addCause]

end

/-! ### The ILLEGAL codes -/

theorem slotCause_outside {slots : List Nat} (h : x.slot.val ∉ slots) : slotCause x slots = some 2 := by
  simp [slotCause, h]

theorem slotCause_inside {slots : List Nat} (h : x.slot.val ∈ slots) : slotCause x slots = none := by
  simp [slotCause, h]

theorem slotCause_three (h : x.slot = 3) : slotCause x [3] = none := slotCause_inside (by simp [h])

theorem regCause_outside {slots : List Nat} {f : RegForm} (h : x.slot.val ∉ slots) (hf : f.func ≠ 0o777#9) :
    regCause x slots f = some 2 := by
  rw [regCause, if_neg (fun c => hf c.1), slotCause_outside h, orCause]

theorem regCause_unlisted {slots : List Nat} {f : RegForm} (h : x.slot.val ∈ slots) (h0 : f.func ≠ 0)
    (hf : f.func ≠ 0o777#9) : regCause x slots f = some 3 := by
  rw [regCause, if_neg (fun c => hf c.1), slotCause_inside h]
  simpa [orCause, fieldCause, hf] using h0

theorem regCause_long {slots : List Nat} {f : RegForm} (h : x.slot = 3) (hf : f.func = 0o777#9) :
    regCause x slots f = some 4 := if_pos ⟨hf, h⟩

/-- A syllable of the control group with its fields in order in the delay of a taken branch. -/
theorem ctlCause_delay {ok : Bool} {k : Core} (h : x.slot = 3) (hok : ok = true) (hd : k.dly ≠ 0) :
    ctlCause x ok k = some 5 := by
  rw [ctlCause, slotCause_three h, hok, delayCause, if_pos hd]
  rfl

/-- The zero fields of a system-group syllable, of which imm15 is one where `i` says so. -/
theorem sysOk_of {m : ImmForm} {i : Bool} (hd : m.dest = 0) (ha : m.a = 0) (hi : i = false ∨ m.imm = 0) :
    sysOk m true true i = true := by
  rcases hi with hi | hi <;> simp [sysOk, hd, ha, hi]

theorem sysCause_none {ok : Bool} (h : x.slot = 3) (hok : ok = true) : sysCause x ok = none := by
  rw [sysCause, slotCause_three h, hok]
  rfl

theorem delayCause_in {k : Core} (h : k.dly ≠ 0) : delayCause k = some 5 := if_pos h

theorem delayCause_out {k : Core} (h : k.dly = 0) : delayCause k = none := if_neg fun c => c h

/-! ### The rows of each group in a slot that they do not list, or with a value that is not listed -/

theorem add_illegal (h : MayIssue x s) {wd : Width} {f : RegForm} {code : Nat} (hc : regCause x [0, 1] f = some code) :
    Issues (.add x wd f) x (f.func == 0o777#9) s (addCause (issueIx x)
      ⟨2, x.slot.val, 0, code, regWord (match wd with | .w => 0o002 | .d => 0o003) f⟩ (opened x s)) := by
  cases wd <;> exact issues_illegal (ill := fun _ => regCause x [0, 1] f) h hc rfl

theorem mul_illegal (h : MayIssue x s) {wd : Width} {f : RegForm} {code : Nat} (hc : regCause x [2] f = some code) :
    Issues (.mul x wd f) x (f.func == 0o777#9) s (addCause (issueIx x)
      ⟨2, x.slot.val, 0, code, regWord (match wd with | .w => 0o200 | .d => 0o201) f⟩ (opened x s)) := by
  cases wd <;> exact issues_illegal (ill := fun _ => regCause x [2] f) h hc rfl

theorem addi_illegal (h : MayIssue x s) {wd : Width} {m : ImmForm} {code : Nat} (hc : slotCause x [0, 1] = some code) :
    Issues (.addi x wd m) x false s (addCause (issueIx x)
      ⟨2, x.slot.val, 0, code, immWord (match wd with | .w => 0o102 | .d => 0o103) m⟩ (opened x s)) := by
  cases wd <;> exact issues_illegal (ill := fun _ => slotCause x [0, 1]) h hc rfl

theorem fadd_illegal (h : MayIssue x s) {wd : Width} {f : RegForm} {code : Nat} (hc : fpCause x f = some code) :
    Issues (.fadd x wd f) x false s (addCause (issueIx x)
      ⟨2, x.slot.val, 0, code, regWord (match wd with | .w => 0o300 | .d => 0o301) f⟩ (opened x s)) := by
  cases wd <;> exact issues_illegal (ill := fun _ => fpCause x f) h hc rfl

theorem unlistedOpcode_illegal (h : MayIssue x s) {word : Word} (hw : opcodeListed (word.toNat / 2 ^ 27) = false) :
    Issues (.unlistedOpcode x word) x false s (addCause (issueIx x) ⟨2, x.slot.val, 0, 1, word.toNat⟩ (opened x s)) := by
  refine issues_illegal (ill := fun _ => some 1) (dest := 0) (act := fun _ s => s) (post := noPost) h rfl ?_
  show execUnlistedOpcode x word s = _
  rw [execUnlistedOpcode, if_neg (by rw [hw]; exact Bool.false_ne_true)]

/-- Settles O7: each syllable by the cause that its row finds first; what follows its bundle is lost with it. -/
theorem illegalSyllables : Obligations.IllegalSyllables := by
  intro x wd f m a o off word s h k priv meets
  have notLong (hf : f.func ≠ 0o777#9) : (f.func == 0o777#9) = false := beq_eq_false_iff_ne.2 hf
  have outside (n : Nat) (hn : x.slot.val ≠ n) : slotCause x [n] = some 2 := slotCause_outside (by simpa using hn)
  have outside01 (hn : 2 ≤ x.slot.val) : x.slot.val ∉ [0, 1] := by simp; omega
  refine ⟨fun hn hf => notLong hf ▸ add_illegal h (regCause_outside (outside01 hn) hf),
    fun hn => addi_illegal h (slotCause_outside (outside01 hn)),
    fun hn hf => notLong hf ▸ mul_illegal h (regCause_outside (by simpa using hn) hf),
    fun hn => fadd_illegal h (by rw [fpCause, outside 2 hn, orCause]),
    fun hn => issues_illegal h (outside 3 hn) rfl,
    fun hn => issues_illegal h (by rw [ctlCause, outside 3 hn]; rfl) rfl,
    fun hn => issues_illegal h (by rw [sysCause, outside 3 hn]; rfl) rfl,
    fun hn h0 hf => notLong hf ▸ add_illegal h (regCause_unlisted (by simp; omega) h0 hf),
    fun h3 hf => (beq_iff_eq.2 hf : (f.func == 0o777#9) = true) ▸ add_illegal h (regCause_long h3 hf),
    fun hw => unlistedOpcode_illegal h hw, fun h3 hd => ?_, fun h3 hd hdest ha => ?_⟩
  · intro far near
    have delayed {ok : Bool} (hok : ok = true) : ctlCause x ok k = some 5 := ctlCause_delay h3 hok hd
    have late {ok : Bool} (hok : ok = true) (r : Option Nat) :
        orCause (orCause (sysCause x ok) (delayCause k)) r = some 5 := by
      rw [sysCause_none h3 hok, delayCause_in hd]; rfl
    refine ⟨issues_illegal h (delayed rfl) rfl, issues_illegal h (delayed rfl) rfl, issues_illegal h (delayed rfl) rfl,
      issues_illegal h (delayed rfl) rfl, issues_illegal h (delayed rfl) rfl, issues_illegal h (delayed rfl) rfl,
      fun hdest hb hf => ⟨issues_illegal h (delayed (by simp [hdest, hb, hf])) rfl,
        issues_illegal h (delayed (by simp [hdest, hb, hf])) rfl,
        fun ha => issues_illegal h (delayed (by simp [hdest, hb, hf, ha])) rfl⟩,
      fun ha => issues_illegal h (delayed (by simp [ha])) rfl,
      fun hdest ha => ⟨issues_illegal h (late (sysOk_of hdest ha (.inl rfl)) _) rfl, fun hi =>
        ⟨issues_illegal h (by rw [sysCause_none h3 (sysOk_of hdest ha (.inr hi)), delayCause_in hd]; rfl) rfl,
          issues_illegal h (late (sysOk_of hdest ha (.inr hi)) _) rfl⟩⟩⟩
  · have inTime {ok : Bool} (hok : ok = true) : orCause (sysCause x ok) (delayCause k) = none := by
      rw [sysCause_none h3 hok, delayCause_out hd]; rfl
    have fields := sysOk_of hdest ha (i := false) (.inl rfl)
    refine ⟨fun hw => issues_illegal h ?_ rfl, fun hsec hker himg => issues_refused h h3 ?_ hker rfl,
      fun hi hker => issues_refused h h3 (sysCause_none h3 (by rw [fields, decide_eq_true hi]; rfl)) hker rfl,
      fun hi => ⟨fun ho => issues_illegal h ?_ rfl, fun ho hw => issues_refused h h3 ?_ ?_ rfl, fun hker =>
        ⟨issues_refused h h3 (inTime (sysOk_of hdest ha (.inr hi))) hker rfl,
          issues_refused h h3 (sysCause_none h3 (sysOk_of hdest ha (.inr hi))) hker rfl⟩⟩⟩
    · rw [inTime fields, orCause, if_pos (by simpa using hw)]
    · rw [inTime fields, orCause, if_neg]
      show ¬(k.sec || !hasSecureImage s x.tile.val) = true
      simp [hsec, himg]
    · rw [inTime (sysOk_of hdest ha (.inr hi)), orCause, if_pos ho]
    · rw [inTime (sysOk_of hdest ha (.inr hi)), orCause, if_neg (by simp [ho])]
    · show (k.sec && k.kernel) = false
      rcases hw with hw | hw <;> simp [hw]

end Sys2Proof.Machine
end

section
/-! The syllables of the system group that act, and what follows the bundles of WAITM and DOZE. -/

namespace Sys2Proof.Machine

variable {s : State} {x : Issue}

/-- A NOP leaves the opened state (R106). -/
theorem nop_issues (h : MayIssue x s) : Issues (.nop x) x false s (opened x s) := by
  show Host.Outcome.next (syllable x 0 (fun _ => none) false 0 (fun _ s => s) noPost s) = _
  rw [syllable_issues h]
  simp [runSyllable]

/-- What is done unless the bundle is stopped. -/
theorem unlessStopped_acts {i : Nat} (h : stopped s i = false) (act : State → State) : unlessStopped i act s = act s := by
  rw [unlessStopped, h, if_neg Bool.false_ne_true]

/-- What a mode may issue. -/
theorem needMode_acts {i word : Nat} (h : stopped s i = false) (act : State → State) : needMode i word true act s = act s := by
  rw [needMode, if_pos rfl, h, if_neg Bool.false_ne_true]

/-- A broken sequence, or none, is closed with 0 and LB (R131). -/
theorem closeSeq_broken {i : Nat} (dest : BitVec 6)
    (h : (coreAt s i).seq = none ∨ ∃ b lines stores, (coreAt s i).seq = some ⟨b, true, lines, stores⟩) :
    closeSeq i dest s = result i 3 1 dest 0 (setCore i (fun c => { c with seq := none, lb := true }) s) := by
  rcases h with h | ⟨_, _, _, h⟩ <;> simp only [closeSeq, h]

/-- Settles O13: each syllable acts on the opened state, or asks for what follows its bundle. -/
theorem systemSyllables : Obligations.SystemSyllables := by
  intro x m s h i o k
  refine ⟨nop_issues h, fun h3 hrun => ?_⟩
  have go (act : State → State) : unlessStopped i act o = act o := unlessStopped_acts hrun act
  refine ⟨fun hd ha => ?_, fun hd ha hi => ?_, fun ha => ?_, fun ha hi => ?_⟩
  · have hnone : sysCause x (sysOk m true true false) = none := sysCause_none h3 (sysOk_of hd ha (.inl rfl))
    exact ⟨(exec_acts (c := .sysc x m) h h3 hnone rfl).trans rfl, (exec_acts (c := .brk x m) h h3 hnone rfl).trans rfl⟩
  · have hnone : sysCause x (sysOk m true true true) = none := sysCause_none h3 (sysOk_of hd ha (.inr hi))
    refine ⟨?_, ?_, fun hk => ?_, (exec_acts h h3 hnone rfl).trans rfl⟩
    · exact (exec_acts h h3 hnone rfl).trans (by rw [go])
    · exact (exec_acts h h3 hnone rfl).trans (by rw [go]; rfl)
    · refine (exec_acts h h3 hnone rfl).trans ?_
      show Host.Outcome.next (closeSyllable x false enterDoze (needMode i _ k.kernel id o)) = _
      rw [hk, needMode_acts hrun, id]
  · have hnone : sysCause x (sysOk m false true false) = none := sysCause_none h3 (by simp [sysOk, ha])
    exact (exec_acts h h3 hnone rfl).trans rfl
  · have hnone : sysCause x (sysOk m false true true) = none := sysCause_none h3 (by simp [sysOk, ha, hi])
    have hrun' : exec (.ulk x m) s = .next (closeSyllable x false noPost (closeSeq i m.dest o)) :=
      (exec_acts h h3 hnone rfl).trans (by rw [go])
    refine ⟨fun b lines stores hseq => ?_, fun hseq => ?_⟩
    · have hseq' : (coreAt o i).seq = some ⟨b, false, lines, stores⟩ := hseq
      rw [Issues, hrun']
      simp only [closeSeq, hseq']
      rfl
    · rw [Issues, hrun', closeSeq_broken m.dest hseq]

end Sys2Proof.Machine
end

section
/-! What the trace of a core changes, and what follows the bundles of WAITM and DOZE. -/

namespace Sys2Proof.Machine

variable {s t u : State}

/-! ### The trace -/

/-- On the way from `s` to `t` the traces of cores and the records of tiles alone have changed. -/
structure TraceOnly (s t : State) : Prop where
  frame : ∃ cs ts, t = { s with cores := cs, tiles := ts }
  wf : mwf {} s.cores = true → mwf {} t.cores = true
  core : mwf {} s.cores = true → ∀ j, ∃ x, coreAt t j = { coreAt s j with trace := x }

theorem TraceOnly.refl (s : State) : TraceOnly s s := ⟨⟨_, _, rfl⟩, id, fun _ j => ⟨(coreAt s j).trace, rfl⟩⟩

theorem TraceOnly.trans (h : TraceOnly s t) (h' : TraceOnly t u) : TraceOnly s u := by
  refine ⟨?_, fun c => h'.wf (h.wf c), fun c j => ?_⟩
  · obtain ⟨cs, ts, rfl⟩ := h.frame
    obtain ⟨cs', ts', rfl⟩ := h'.frame
    exact ⟨cs', ts', rfl⟩
  · obtain ⟨x, hx⟩ := h.core c j
    obtain ⟨y, hy⟩ := h'.core (h.wf c) j
    exact ⟨y, by rw [hy, hx]⟩

theorem TraceOnly.ite {c : Prop} [Decidable c] (h : TraceOnly s t) (h' : TraceOnly s u) :
    TraceOnly s (if c then t else u) := by
  split
  · exact h
  · exact h'

theorem TraceOnly.foldl {β : Type} {f : State → β → State} (hf : ∀ s b, TraceOnly s (f s b)) (l : List β) (s : State) :
    TraceOnly s (l.foldl f s) := by
  induction l generalizing s with
  | nil => exact .refl s
  | cons b l ih => exact (hf s b).trans (ih (f s b))

theorem TraceOnly.setTile (i : Nat) (f : Tile → Tile) (s : State) : TraceOnly s (setTile i f s) :=
  ⟨⟨_, _, rfl⟩, id, fun _ j => ⟨(coreAt s j).trace, rfl⟩⟩

theorem TraceOnly.setCore (i : Nat) (f : CoreTrace → CoreTrace) (s : State) :
    TraceOnly s (setCore i (fun k => { k with trace := f k.trace }) s) := by
  refine ⟨⟨_, s.tiles, rfl⟩, setCore_wf, fun c j => ?_⟩
  by_cases hj : j = i
  · exact ⟨f (coreAt s i).trace, by rw [hj, coreAt_setCore c]⟩
  · exact ⟨(coreAt s j).trace, by rw [coreAt_setCore_ne c hj]⟩

theorem traceLost_traceOnly (t n reason : Nat) (s : State) : TraceOnly s (traceLost t n reason s) := .setTile ..

theorem changeTrace_traceOnly (i : Nat) (f : CoreTrace → CoreTrace) (s : State) : TraceOnly s (changeTrace i f s) := by
  unfold changeTrace
  exact .ite (.setCore ..) ((TraceOnly.setCore ..).trans (traceLost_traceOnly ..))

theorem bufPacket_traceOnly (t : Nat) (src : Option Nat) (p : List Word) (s : State) :
    TraceOnly s (bufPacket t src p s) := by
  have hlost : TraceOnly s (bufLost t src p s) := by
    have h := (TraceOnly.setTile t (fun x => { x with lostBuf := x.lostBuf + p.length }) s).trans
      (traceLost_traceOnly t p.length 1 _)
    unfold bufLost
    cases src with
    | none => exact h
    | some c => exact h.trans (.setCore _ (fun y => { y with full := true, base := none }) _)
  exact .ite (.ite (.setTile ..) hlost) (.setTile ..)

theorem roundTile_traceOnly (t n room : Nat) (s : State) : TraceOnly s (roundTile t n room s).1 := by
  induction n generalizing room s with
  | zero => exact .refl s
  | succ n ih =>
    unfold roundTile
    split
    · exact .refl s
    · split
      · exact ((TraceOnly.setTile ..).trans (bufPacket_traceOnly ..)).trans (ih ..)
      · exact .refl s

theorem roundCores_traceOnly (t : Nat) (cs : List Nat) (room : Nat) (s : State) :
    TraceOnly s (roundCores t cs room s) := by
  induction cs generalizing room s with
  | nil => exact .refl s
  | cons c cs ih =>
    unfold roundCores
    split
    · exact ih ..
    · next p ps _ =>
      split
      · exact ((TraceOnly.setCore _ (fun y => { y with fifo := ps }) s).trans (bufPacket_traceOnly ..)).trans (ih ..)
      · exact ih ..

theorem wakeRounds_traceOnly (t n : Nat) (s : State) : TraceOnly s (wakeRounds t n s) := by
  induction n generalizing s with
  | zero => exact .refl s
  | succ n ih =>
    have hround : TraceOnly s (wakeRound t s) :=
      ((roundTile_traceOnly t 4 4 s).trans (roundCores_traceOnly ..)).trans (.setTile ..)
    exact .ite (hround.trans (ih _)) (.refl s)

theorem catchUp_traceOnly (t : Nat) (s : State) : TraceOnly s (catchUp t s) :=
  (wakeRounds_traceOnly ..).trans (.setTile ..)

/-- What a core emits changes its trace, and what its tile's wake unit holds (R414). -/
theorem traceCore_traceOnly (i : Nat) (f : Nat → CoreTrace → CoreTrace) (s : State) : TraceOnly s (traceCore i f s) := by
  refine .ite ?_ (.refl s)
  unfold traceEmit
  exact (catchUp_traceOnly ..).trans ((TraceOnly.ite ((changeTrace_traceOnly ..).trans (changeTrace_traceOnly ..))
    (.refl _)).trans (changeTrace_traceOnly ..))

/-- A packet of a tile's own changes no core but its trace (R422). -/
theorem traceTile_traceOnly (t st : Nat) (s : State) : TraceOnly s (traceTile t st s) :=
  (wakeRounds_traceOnly ..).trans (.setTile ..)

/-! ### WAITM and DOZE -/

theorem coreAt_waitStatus (hc : mwf {} s.cores = true) (i dest status : Nat) :
    coreAt (waitStatus i dest status s) i = { coreAt s i with
      nid := (coreAt s i).nid + 1
      flight := (coreAt s i).flight ++ [{ id := (coreAt s i).nid, reg := dest, slot := 3, due := (coreAt s i).cyc
                                          val := BitVec.ofNat 72 status, sec := (coreAt s i).sec
                                          issued := (coreAt s i).cyc - 1 }] } :=
  coreAt_setCore hc ..

/-- Where no offered delivery lies above its level, a core that enters doze dozes (R92, R254). -/
theorem enterDoze_dozes (hc : mwf {} s.cores = true) {i : Nat}
    (h : ∀ q ∈ (coreAt s i).offers, aboveLevel (coreAt s i) q.level = false) : (coreAt (enterDoze i s) i).dozing = true := by
  have htrace := traceCore_traceOnly i (fun ch t => emitState (i % 8) 0 ch t) s
  obtain ⟨y, hy⟩ := htrace.core hc i
  have hnone : offeredAbove (coreAt (traceCore i (fun ch t => emitState (i % 8) 0 ch t) s) i) = false := by
    rw [hy]
    exact List.any_eq_false.2 fun q hq => Bool.not_eq_true _ ▸ h q hq
  rw [enterDoze, hnone, if_neg Bool.false_ne_true, coreAt_setCore (htrace.wf hc)]

theorem startWait_set {m : ImmForm} {i : Nat} (h : (coreAt s i).flags.getLsbD (m.imm.toNat % 16) = true) :
    startWait m i s = if m.imm.toNat.testBit 4 then waitStatus i m.dest.toNat 1 s
      else setCore i (fun k => { k with
        flags := k.flags &&& ~~~(BitVec.ofNat 16 (2 ^ (m.imm.toNat % 16))), cleared := some (m.imm.toNat % 16) })
        (waitStatus i m.dest.toNat 1 s) := by
  have hflag : field m.imm.toNat 0 4 = m.imm.toNat % 16 := field_eq_div_mod .. |>.trans (by simp)
  unfold startWait
  dsimp only
  rw [hflag]
  exact if_pos h

theorem startWait_clear {m : ImmForm} {i : Nat} (h : (coreAt s i).flags.getLsbD (m.imm.toNat % 16) = false) :
    startWait m i s = setCore i (fun k => { k with
      wait := some ⟨m.imm.toNat % 16, m.imm.toNat.testBit 4, if m.imm.toNat / 32 % 1024 = 0 then none
        else some (tileChron s (i / 8) + 64 * (m.imm.toNat / 32 % 1024)), m.dest.toNat, k.safe⟩ }) s := by
  have hflag : field m.imm.toNat 0 4 = m.imm.toNat % 16 := field_eq_div_mod .. |>.trans (by simp)
  unfold startWait
  dsimp only
  rw [hflag, field_eq_div_mod]
  exact if_neg (by rw [h]; exact Bool.false_ne_true)

/-- Settles O14: WAITM by the flag as its wait finds it, DOZE by the offers. -/
theorem waitsAndDozeFreeze : Obligations.WaitsAndDozeFreeze := by
  intro i m s hc k w
  refine ⟨fun hset => ?_, fun hclear => ?_, enterDoze_dozes hc⟩
  · have hwait := coreAt_waitStatus hc i m.dest.toNat 1
    have hwf : mwf {} (waitStatus i m.dest.toNat 1 s).cores = true := setCore_wf hc
    rw [startWait_set hset]
    cases hkeep : w.testBit 4
    · rw [if_neg Bool.false_ne_true, if_neg Bool.false_ne_true, coreAt_setCore hwf, hwait]
      exact ⟨rfl, rfl, rfl⟩
    · rw [if_pos rfl, if_pos rfl, hwait]
      exact ⟨rfl, rfl, rfl⟩
  · rw [startWait_clear hclear, coreAt_setCore hc]

end Sys2Proof.Machine
end

section
/-! A fired source on its way to its core: launched, offered and entered. -/

namespace Sys2Proof.Machine

variable {s t u : State}

/-! ### A boundary that settles -/

/-- On the way from `s` to `t` memory stays, and the table of cores stays canonical. -/
structure CoreWork (s t : State) : Prop where
  mem : t.mem = s.mem
  wf : mwf {} s.cores = true → mwf {} t.cores = true

theorem CoreWork.refl (s : State) : CoreWork s s := ⟨rfl, id⟩

theorem CoreWork.trans (h : CoreWork s t) (h' : CoreWork t u) : CoreWork s u :=
  ⟨h'.mem.trans h.mem, fun c => h'.wf (h.wf c)⟩

theorem CoreWork.foldl {β : Type} {f : State → β → State} (hf : ∀ s b, CoreWork s (f s b)) (l : List β) (s : State) :
    CoreWork s (l.foldl f s) := by
  induction l generalizing s with
  | nil => exact .refl s
  | cons b l ih => exact (hf s b).trans (ih (f s b))

theorem CoreWork.setCore (i : Nat) (f : Core → Core) (s : State) : CoreWork s (setCore i f s) := ⟨rfl, setCore_wf⟩

theorem CoreWork.reportIf (b : Bool) (r : Report) (s : State) : CoreWork s (reportIf b r s) :=
  ⟨reportIf_mem .., fun c => by rw [(reportIf_frame b r s).1]; exact c⟩

theorem landOne_coreWork (i : Nat) (ready : List Landing) (l : Landing) (s : State) : CoreWork s (landOne i ready l s) := by
  unfold landOne
  dsimp only
  split
  · split
    · exact (CoreWork.setCore ..).trans (.setCore ..)
    · exact ((CoreWork.setCore ..).trans (.setCore ..)).trans ((CoreWork.reportIf ..).trans (.setCore ..))
  · exact .setCore ..

theorem landDue_coreWork (i : Nat) (s : State) : CoreWork s (landDue i s) := by
  unfold landDue
  split
  · exact .refl s
  · exact ((CoreWork.setCore ..).trans (.setCore ..)).trans (.foldl (fun _ _ => landOne_coreWork ..) _ _)

theorem settle_coreWork (i : Nat) (s : State) : CoreWork s (settle i s) := by
  have hseq (s : State) : CoreWork s (seqTimeout i s) := by
    unfold seqTimeout
    split
    · exact .setCore ..
    · exact .refl s
  have hdrought (s : State) : CoreWork s (drought i s) := by
    unfold drought
    dsimp only
    split
    · exact .refl s
    · exact (CoreWork.reportIf ..).trans (.setCore ..)
  exact ((landDue_coreWork i s).trans (hseq _)).trans (hdrought _)

theorem entryBoundary_coreWork (i : Nat) (s : State) : CoreWork s (entryBoundary i s).1 :=
  (CoreWork.setCore ..).trans (settle_coreWork ..)

/-! ### The entry sequence -/

/-- The entry sequence of R255, but for what it leaves in the trace. -/
theorem pushFrame_core (hc : mwf {} s.cores = true) (i kind vec off : Nat) (f : Frame) :
    ∃ x, coreAt (pushFrame i kind vec off f s) i =
      { (coreAt s i).setBank (coreAt s i).sec (fun b => { b with epc := (coreAt s i).pc }) with
        stack := f :: (coreAt s i).stack, kernel := true
        pc := (((coreAt s i).bankOf (coreAt s i).sec).vbase + off) % 2 ^ 48
        dly := 0, tgt := 0, drought := 0, cleared := none, passCmp := [], trace := x } := by
  obtain ⟨x, hx⟩ := (traceCore_traceOnly i (fun ch t => emitEvent (i % 8) kind vec (coreAt s i).pc (coreAt s i).pc
    ((((coreAt s i).bankOf (coreAt s i).sec).vbase + off) % 2 ^ 48) ch t) s).core hc i
  refine ⟨x, ?_⟩
  rw [pushFrame, coreAt_setCore ((traceCore_traceOnly ..).wf hc), hx]
  cases hsec : (coreAt s i).sec <;> simp [Core.setBank, hsec]

theorem pushFrame_effect (hc : mwf {} s.cores = true) (i kind vec off : Nat) (f : Frame) :
    let k := coreAt s i
    let k' := coreAt (pushFrame i kind vec off f s) i
    k'.stack = f :: k.stack ∧ k'.kernel = true ∧ k'.ex = k.ex ∧ k'.sec = k.sec ∧ k'.regs = k.regs ∧
      (if k.sec then k'.secB else k'.norB).epc = k.pc ∧
      k'.pc = ((if k.sec then k.secB else k.norB).vbase + off) % 2 ^ 48 ∧ k'.offers = k.offers := by
  intro k k'
  obtain ⟨x, hx⟩ := pushFrame_core hc i kind vec off f
  rw [show k' = _ from hx]
  cases hsec : k.sec <;> simp [k, Core.setBank, Core.bankOf, show (coreAt s i).sec = _ from hsec]

theorem pushFrame_mem (i kind vec off : Nat) (f : Frame) (s : State) : (pushFrame i kind vec off f s).mem = s.mem := by
  obtain ⟨cs, ts, h⟩ := (traceCore_traceOnly i (fun ch t => emitEvent (i % 8) kind vec (coreAt s i).pc (coreAt s i).pc
    ((((coreAt s i).bankOf (coreAt s i).sec).vbase + off) % 2 ^ 48) ch t) s).frame
  rw [pushFrame, setCore_mem, h]

/-- INTERRUPT_ENTRY of the best offer (R253, R255–R258). -/
theorem interruptEntry_effect (c : CoreId) {o : Offer}
    (hfree : boundaryFree s (coreIx c) = true)
    (hdue : interruptDue (entryBoundary (coreIx c) s).1 (coreIx c) = true)
    (hfault : stackFaultDue (entryBoundary (coreIx c) s).1 (coreIx c) = false)
    (htrap : (coreAt (entryBoundary (coreIx c) s).1 (coreIx c)).trapDue = false)
    (hbest : bestOffer (coreAt (entryBoundary (coreIx c) s).1 (coreIx c)) = some o) :
    let s' := (entryBoundary (coreIx c) s).1
    let k := coreAt s' (coreIx c)
    let q := mget {} s'.ivc.srcs o.src
    exec (.interruptEntry c) s = .next (pushFrame (coreIx c) 1 o.vec (0o4000 + 64 * o.vec)
      { level := some o.level, fault := false, resume := k.pc, pmode := k.kernel, ie := k.ie, src := o.src
        nmsg := q.nfired, ovf := q.ovf, waitm := (entryBoundary (coreIx c) s).2 }
      (setCore (coreIx c) (fun k => { k with offers := k.offers.filter fun p => p != o })
        { s' with ivc := { s'.ivc with srcs := mmod {} s'.ivc.srcs o.src fun q => { q with fired := false, nfired := 0 } } })) := by
  intro s' k q
  show execInterruptEntry c s = _
  simp only [execInterruptEntry, hfree, hdue, hfault, htrap, hbest, Bool.not_true, Bool.or_false, Bool.false_eq_true, if_false]
  rfl

/-! ### The crossing -/

theorem interruptDeliveryLaunch_effect {t : TileId} {src : Nat}
    (hw : s.ivc.wait.find? (fun q => (routeAt s q).tile == t.val) = some src) (hd : deliverable s t.val = true) :
    let s' := if (tileIsl s t.val).state = .nap then setTileIsl t.val (fun x => { x with exiting := true }) s else s
    exec (.interruptDeliveryLaunch t) s = .next { s' with
      ivc := { s'.ivc with wait := s'.ivc.wait.erase src, flying := s'.ivc.flying ++ [src] }
      slc := { s'.slc with xing := s'.slc.xing ++ [{ tile := t.val, intr := some src }] } } := by
  show execInterruptDeliveryLaunch t s = _
  simp only [execInterruptDeliveryLaunch, hw, hd, Bool.not_true, Bool.false_eq_true, if_false]

/-- A message has come where no earlier item of its tile's crossing is on its way. -/
theorem messageReady_of {t src : Nat} (h : ∀ n, (s.slc.xing.findIdx? fun x => x.tile == t && x.intr == some src) = some n →
    (s.slc.xing.take n).all (fun x => x.tile != t) = true) : messageReady s t src = true := by
  unfold messageReady
  split
  · rfl
  · next n hn =>
    rw [Bool.not_eq_true', List.any_eq_false]
    intro y hy
    simpa using List.all_eq_true.1 (h n hn) y hy

/-- A core that does not doze is offered a delivery and goes on. -/
theorem wakeIfOffered_awake {i : Nat} (h : (coreAt s i).dozing = false) : wakeIfOffered i s = s := by
  rw [wakeIfOffered, h, Bool.false_and, if_neg Bool.false_ne_true]

/-- Settles O33: the launch by the state of the tile, the offer once its message is ready, the entry by its sequence. -/
theorem deliveriesReachTheCore : Obligations.DeliveriesReachTheCore := by
  intro t c s hc
  refine ⟨fun src hw hd => ?_, fun src hf hbell hready => ?_, ?_⟩
  · have hrun := interruptDeliveryLaunch_effect hw hd
    refine ⟨fun hst => ?_, fun hst => ?_⟩
    · rw [if_neg (by rw [hst]; decide)] at hrun
      exact hrun
    · rw [if_pos hst] at hrun
      exact hrun
  · intro r i come
    have hmsg : ¬((!messageReady s t.val src) = true ∨ (s.slc.xing.any fun x => x.tile == t.val && x.bell == some src) = true) := by
      rw [messageReady_of hready, hbell]
      decide
    refine ⟨fun hst => ?_, fun hrun hawake => ?_⟩
    · show execInterruptDeliveryOffer t s = _
      simp only [execInterruptDeliveryOffer, hf, if_neg hmsg, if_pos hst]
      rfl
    · have hst : (tileIsl s t.val).state ≠ .nap := by
        intro hnap
        simp [tileRunning, hnap] at hrun
      have hcore : (coreAt (setCore i (fun k => { k with offers := k.offers ++ [⟨src, r.level, r.vec, (srcAt s src).order⟩] })
          (come { s with ivc := { s.ivc with flying := s.ivc.flying.erase src } })) i).dozing = false :=
        (congrArg Core.dozing (coreAt_setCore
          (s := come { s with ivc := { s.ivc with flying := s.ivc.flying.erase src } }) hc i _)).trans hawake
      show execInterruptDeliveryOffer t s = _
      simp only [execInterruptDeliveryOffer, hf, if_neg hmsg, if_neg hst, hrun, Bool.not_true, Bool.false_eq_true, if_false]
      exact congrArg Host.Outcome.next (wakeIfOffered_awake hcore)
  · intro i s' k o hfree hdue hfault htrap hbest
    have hc' : mwf {} s'.cores = true := (entryBoundary_coreWork i s).wf hc
    refine ⟨_, interruptEntry_effect c hfree hdue hfault htrap hbest, ?_⟩
    set v := setCore i (fun k => { k with offers := k.offers.filter fun p => p != o })
      { s' with ivc := { s'.ivc with srcs := mmod {} s'.ivc.srcs o.src fun q => { q with fired := false, nfired := 0 } } }
    have hv : coreAt v i = { k with offers := k.offers.filter fun p => p != o } := coreAt_setCore hc' i _
    have hvc : mwf {} v.cores = true := setCore_wf hc'
    have hmem (kind vec off : Nat) (f : Frame) : (pushFrame i kind vec off f v).mem = s.mem :=
      (pushFrame_mem ..).trans (entryBoundary_coreWork i s).mem
    obtain ⟨hstack, hkernel, hex, hsec, hregs, hepc, hpc, hoffers⟩ :=
      pushFrame_effect hvc i 1 o.vec (0o4000 + 64 * o.vec) _
    rw [hv] at hstack hex hsec hregs hepc hpc hoffers
    exact ⟨⟨_, hstack, rfl, rfl, rfl, rfl, rfl, rfl, rfl⟩, hkernel, hex, hsec, hregs, hepc, hpc, hoffers, hmem ..⟩

end Sys2Proof.Machine
end

section
/-! Step requests and changes, droops, junction samples and temperature holds, and the synchronisation (R80–R91). -/

namespace Sys2Proof.Machine

variable {s u : State}

/-! ### What the step rules and the holds leave -/

/-- The state but for the records of tiles, the pairs reported as too hot, and what a report changes. -/
def stepFrame (s : State) : State := { s with isl := { s.isl with tiles := [], high := [] }, hlt := {}, wld := {} }

theorem report_stepFrame (r : Report) (s : State) : stepFrame (report r s) = stepFrame s := by
  unfold report
  dsimp only
  split <;> rfl

theorem setTileIsl_stepFrame (t : Nat) (f : TileIsl → TileIsl) (s : State) : stepFrame (setTileIsl t f s) = stepFrame s :=
  rfl

theorem holdDown_stepFrame (s : State) (t n v : Nat) : stepFrame (holdDown s t n v) = stepFrame s := by
  rw [holdDown_eq, setTileIsl_stepFrame]

theorem weigh_stepFrame (t : Nat) (s : State) : stepFrame (weigh t s) = stepFrame s :=
  (foldl_view stepFrame (fun _ _ => report_stepFrame ..) _ _).trans
    ((foldl_view stepFrame (fun _ _ => report_stepFrame ..) _ _).trans
      (foldl_view stepFrame (fun _ _ => holdDown_stepFrame ..) _ _))

theorem steer_stepFrame (k : Nat) (ts : List Nat) (s : State) : stepFrame (steer k ts s) = stepFrame s := by
  induction k generalizing ts s with
  | zero => rfl
  | succ k ih =>
    cases ts with
    | nil => rfl
    | cons t rest =>
      cases hrun : tileRunning s t
      · rw [steer, hrun]
        exact ih ..
      · rw [steer_running k rest hrun]
        split <;> rw [ih, weigh_stepFrame]

theorem resteer_stepFrame (t : Nat) (s : State) : stepFrame (resteer t s) = stepFrame s := steer_stepFrame ..

theorem startTempHold_stepFrame (t o : Nat) (s : State) : stepFrame (startTempHold t o s) = stepFrame s := by
  unfold startTempHold
  dsimp only
  split
  · rfl
  · rw [resteer_stepFrame, report_stepFrame, setTileIsl_stepFrame]

theorem checkTemp_stepFrame (t : Nat) (s : State) : stepFrame (checkTemp t s) = stepFrame s := by
  refine foldl_view stepFrame (fun s o => ?_) _ _
  split
  · exact startTempHold_stepFrame ..
  · rfl

theorem markHot_stepFrame (p : Nat × Nat) (s : State) : stepFrame (markHot p s) = stepFrame s := by
  unfold markHot reportIf
  dsimp only
  split
  · exact report_stepFrame ..
  · rfl

theorem tjOf_of_stepFrame (h : stepFrame u = stepFrame s) (i : Nat) : tjOf u i = tjOf s i :=
  (congrArg (fun v : State => mget 0 v.isl.tj i) h :)

/-! ### Requests -/

/-- A change of a tile's record is what it makes of that record. -/
theorem setTileIsl_congr {t : Nat} {f g : TileIsl → TileIsl} (h : f (tileIsl s t) = g (tileIsl s t)) :
    setTileIsl t f s = setTileIsl t g s := by
  simp only [setTileIsl, mmod]
  rw [show f (mget {} s.isl.tiles t) = _ from h]
  rfl

/-- A write of ISL_TILE_CTL by the tile's world, on a tile of the schedule that can do what it asks (R80, R94, R96). -/
theorem tileCtlWrite_owner {rq : Req} {t v : Nat} (hr : reach rq s = true) (ho : rq.sec = tileSec s t)
    (hin : inMask s t = true) (hreload : v / 16 % 8 = 3 → cannotReload s t = false) :
    let s1 := setTileIsl t (fun x => { x with req := v % 16 }) s
    tileCtlWrite rq t v s =
      resteer t (if 3 < v / 16 % 8 then pstateRefused t v s1 else requestPstate t (v / 16 % 8) s1) := by
  have hfield : field v 4 3 = v / 16 % 8 := field_eq_div_mod ..
  have hreq : field v 0 4 = v % 16 := (field_eq_div_mod ..).trans (by simp)
  have hask : ¬(!inMask s t || (v / 16 % 8 == 3 && cannotReload s t)) = true := by
    rw [hin, Bool.not_true, Bool.false_or, Bool.and_eq_true, beq_iff_eq]
    rintro ⟨h3, hc⟩
    rw [hreload h3] at hc
    exact Bool.false_ne_true hc
  intro s1
  rw [tileCtlWrite, ownedWrite_owner hr ho]
  dsimp only
  rw [hfield, hreq, if_neg hask]

/-- A running tile takes the request (R94, R97). -/
theorem requestPstate_run {t : Nat} (p : Nat) (h : (tileIsl s t).state = .run) :
    requestPstate t p s = setTileIsl t (fun x => { x with pstate := p, pend := p }) s := by
  simp only [requestPstate, h]

theorem state_setReq (hw : mwf {} s.isl.tiles = true) (t v : Nat) :
    (tileIsl (setTileIsl t (fun x => { x with req := v }) s) t).state = (tileIsl s t).state := by
  rw [tileIsl_setTileIsl hw, if_pos rfl]

/-! ### Droops -/

theorem restretchPair_starts {t n : Nat} (hb : beyondRatio s t n = true) (hn : (tileIsl s n).stretch = []) :
    restretchPair t n s = report (nbrLimit (islOf s t) (islOf s n) 3 true (tileIsl s t).step (tileIsl s n).step)
      (setTileIsl n (fun y => { y with stretch := [t] }) s) := by
  have hset := setTileIsl_congr (s := s) (t := n) (f := fun y => { y with stretch := y.stretch ++ [t] })
    (g := fun y => { y with stretch := [t] }) (by rw [hn]; rfl)
  simp only [restretchPair, hb, hn, List.contains_nil, if_true]
  rw [if_neg (by decide), hset]

theorem restretchPair_rests {t n : Nat} (hb : beyondRatio s t n = false) (hn : (tileIsl s n).stretch = []) :
    restretchPair t n s = s := by
  simp only [restretchPair, hb, hn, List.contains_nil, beq_self_eq_true, if_true]

/-- A droop that would leave the one running neighbour at more than twice the tile's rate stretches the neighbour, and not
the tile (R85). -/
theorem droop_stretches {t n : Nat} {st : Nat} (hw : mwf {} s.isl.tiles = true) (hne : n ≠ t)
    (ht : tileRunning s t = true) (hn : tileRunning s n = true) (hns : (tileIsl s n).stretch = [])
    (hts : (tileIsl s t).stretch = [])
    (hfast : 2 * (stepMHz (tileIsl s t).step * (100 + ((tileIsl s n).droop - 1))) <
      stepMHz (tileIsl s n).step * (100 + st)) :
    let s1 := setTileIsl t (fun x => { x with droop := 1 + st }) s
    restretchPair n t (restretchPair t n s1) =
      report (nbrLimit (islOf s t) (islOf s n) 3 true (tileIsl s t).step (tileIsl s n).step)
        (setTileIsl n (fun y => { y with stretch := [t] }) s1) := by
  intro s1
  have hsteps : StepsOnly s s1 := (StepsOnly.refl hw).setTileIsl t fun _ => rfl
  have ht1 : tileIsl s1 t = { tileIsl s t with droop := 1 + st } := by rw [tileIsl_setTileIsl hw, if_pos rfl]
  have hn1 : tileIsl s1 n = tileIsl s n := by rw [tileIsl_setTileIsl hw, if_neg hne]
  have hb1 : beyondRatio s1 t n = true := by
    simp only [beyondRatio, hsteps.tileRunning, ht, hn, ht1, hn1, Nat.add_sub_cancel_left, Bool.true_and,
      Bool.and_eq_true, decide_eq_true_eq]
    exact ⟨by simp, hfast⟩
  have hstart := restretchPair_starts hb1 (by rw [hn1]; exact hns)
  rw [ht1, hn1] at hstart
  set s2 := setTileIsl n (fun y => { y with stretch := [t] }) s1
  rw [hstart]
  have hview (j : Nat) (r : Report) : tileIsl (report r s2) j = tileIsl s2 j := by simp only [tileIsl, report_isl]
  have ht2 : tileIsl s2 t = { tileIsl s t with droop := 1 + st } := by
    rw [tileIsl_setTileIsl hsteps.wf, if_neg (Ne.symm hne), ht1]
  have hn2 : tileIsl s2 n = { tileIsl s n with stretch := [t] } := by
    rw [tileIsl_setTileIsl hsteps.wf, if_pos rfl, hn1]
  refine restretchPair_rests ?_ (by rw [hview, ht2]; exact hts)
  simp only [beyondRatio, hview, ht2, hn2, Nat.add_sub_cancel_left, Bool.and_eq_false_iff, decide_eq_false_iff_not]
  right
  generalize stepMHz (tileIsl s t).step * (100 + ((tileIsl s n).droop - 1)) = p at hfast ⊢
  generalize stepMHz (tileIsl s n).step * (100 + st) = q at hfast ⊢
  omega

/-- The droop of a running tile is weighed against each adjacent tile, both ways (R85). -/
theorem supplyDroopStretch_run {t : TileId} {st : Fin 101} {on : Bool} (h : tileRunning s t.val = true) :
    exec (.supplyDroopStretch t st on) s = .next (((adjacent s t.val).1.toList ++ (adjacent s t.val).2.toList).foldl
      (fun u n => restretchPair n t.val (restretchPair t.val n u))
      (setTileIsl t.val (fun x => { x with droop := if on then 1 + st.val else 0 }) s)) := by
  show execSupplyDroopStretch t st on s = _
  exact if_neg (by rw [h]; decide)

/-! ### Temperatures -/

/-- A hold starts on a tile that has none, at its step (R86). -/
theorem startTempHold_first {t : Nat} (o : Nat) (hby : (tileIsl s t).tempBy = []) (hon : (tileIsl s t).tempOn = false) :
    startTempHold t o s = resteer t (report (tempReport s (islOf s t) o true)
      (setTileIsl t (fun y => { y with tempBy := [o], tempOn := true, tempHold := y.step }) s)) := by
  have hset := setTileIsl_congr (s := s) (t := t)
    (f := fun x => { x with tempBy := x.tempBy ++ [o], tempOn := true, tempHold := if x.tempOn then x.tempHold else x.step })
    (g := fun y => { y with tempBy := [o], tempOn := true, tempHold := y.step }) (by rw [hby, hon]; rfl)
  simp only [startTempHold, hby, List.contains_nil, Bool.false_eq_true, if_false]
  rw [← hset]

/-- A tile without a running neighbour that is too much hotter than the hub is held for it (R86). -/
theorem checkTemp_hub {t : Nat} (hn : runningNbrs s t = []) (hby : (tileIsl s t).tempBy = [])
    (hon : (tileIsl s t).tempOn = false) (hhot : tjOf s 52 + tempLimit s < tjOf s (islOf s t)) :
    checkTemp t s = resteer t (report (tempReport s (islOf s t) 52 true)
      (setTileIsl t (fun y => { y with tempBy := [52], tempOn := true, tempHold := y.step }) s)) := by
  simp only [checkTemp, tempPeers, hn, List.map_nil, List.nil_append, List.foldl_cons, List.foldl_nil, if_pos hhot]
  exact startTempHold_first 52 hby hon

/-- The tiles whose holds a sample of island `i` may start (R86). -/
def sampledTiles (s : State) (i : Nat) : List Nat :=
  if i = 52 then (List.range 48).filter (tileRunning s)
  else match logicalOf s i with
    | none => []
    | some t => if tileRunning s t then t :: runningNbrs s t else []

theorem junctionSample_run {isl : IslandId} {tj : BitVec 8} (hd : s.cfg.phase ≠ .dark) :
    let s1 := { s with isl := { s.isl with tj := mset 0 s.isl.tj isl.val tj.toNat } }
    let s2 := (sortBy (islOf s1) (sampledTiles s1 isl.val)).foldl (fun u t => checkTemp t u) s1
    exec (.junctionSample isl tj) s = .next ((hubPairs s2 isl.val).foldl (fun u p => markHot p u) s2) := by
  show execJunctionSample isl tj s = _
  rw [execJunctionSample, if_neg hd]
  rfl

/-- A sample is recorded (R86). -/
theorem junctionSample_records {isl : IslandId} {tj : BitVec 8} (hd : s.cfg.phase ≠ .dark) (hw : mwf 0 s.isl.tj = true) :
    ∃ u, exec (.junctionSample isl tj) s = .next u ∧ tjOf u isl.val = tj.toNat := by
  refine ⟨_, junctionSample_run hd, ?_⟩
  refine (tjOf_of_stepFrame ((foldl_view stepFrame (fun u p => markHot_stepFrame p u) _ _).trans
    (foldl_view stepFrame (fun u t => checkTemp_stepFrame t u) _ _)) _).trans (mget_mset_same hw)

/-- The sample of a running tile without a running neighbour that is too much hotter than the hub (R86). -/
theorem junctionSample_holds {isl : IslandId} {t : TileId} {tj : BitVec 8} (hd : s.cfg.phase ≠ .dark)
    (hw : mwf 0 s.isl.tj = true) (hi : isl.val < 52) (hlog : logicalOf s isl.val = some t.val)
    (hisl : islOf s t.val = isl.val) (hrun : tileRunning s t.val = true) (hn : runningNbrs s t.val = [])
    (hby : (tileIsl s t.val).tempBy = []) (hon : (tileIsl s t.val).tempOn = false)
    (hhot : tjOf s 52 + tempLimit s < tj.toNat) :
    let s1 := { s with isl := { s.isl with tj := mset 0 s.isl.tj isl.val tj.toNat } }
    let s2 := resteer t.val (report (tempReport s1 isl.val 52 true) (setTileIsl t.val (fun y =>
      { y with tempBy := [52], tempOn := true, tempHold := y.step }) s1))
    exec (.junctionSample isl tj) s = .next ((hubPairs s2 isl.val).foldl (fun u p => markHot p u) s2) := by
  intro s1 s2
  have hhub : tjOf s1 52 = tjOf s 52 := mget_mset_ne hw (by omega)
  have hown : tjOf s1 (islOf s1 t.val) = tj.toNat := by
    rw [show islOf s1 t.val = isl.val from hisl]
    exact mget_mset_same hw
  have hcheck : checkTemp t.val s1 = s2 := by
    rw [checkTemp_hub (s := s1) hn hby hon (by rw [hhub, hown]; exact hhot), show islOf s1 t.val = isl.val from hisl]
  have htiles : sampledTiles s1 isl.val = [t.val] := by
    rw [sampledTiles, if_neg (by omega), show logicalOf s1 isl.val = some t.val from hlog]
    dsimp only
    rw [show tileRunning s1 t.val = true from hrun, if_pos rfl, show runningNbrs s1 t.val = [] from hn]
  have hsort : sortBy (islOf s1) [t.val] = [t.val] := rfl
  have hall := junctionSample_run (isl := isl) (tj := tj) hd
  dsimp only at hall
  rw [htiles, hsort, List.foldl_cons, List.foldl_nil, hcheck] at hall
  exact hall

theorem stillHolding_none {t : Nat} (h : hotterThan s t (tempLimit s - 5) = none) : stillHolding s t = [] := by
  refine List.filter_eq_nil_iff.2 fun o _ ho => ?_
  rw [Bool.and_eq_true, List.contains_iff_mem] at ho
  exact List.find?_eq_none.1 h o ho.1 ho.2

theorem tempHoldRelease_on {t : TileId} (h : (tileIsl s t.val).tempOn = true) :
    exec (.tempHoldRelease t) s = .next (
      let x := tileIsl s t.val
      let ended := fun (os : List Nat) => os.foldl (fun u o => report (tempReport u (islOf u t.val) o false) u) s
      if stillHolding s t.val ≠ [] then setTileIsl t.val (fun y => { y with tempBy := stillHolding s t.val })
        (ended (x.tempBy.filter fun o => !(stillHolding s t.val).contains o))
      else if min x.req x.ceil ≤ x.tempHold + 1 then resteer t.val (setTileIsl t.val (fun y =>
        { y with tempHold := 15, tempOn := false, tempBy := [] }) (ended x.tempBy))
      else resteer t.val (setTileIsl t.val (fun y => { y with tempHold := y.tempHold + 1 }) s)) := by
  show execTempHoldRelease t s = _
  simp only [execTempHoldRelease, h, Bool.not_true, Bool.false_eq_true, if_false]
  split
  · rfl
  · split <;> rfl

/-! ### The synchronisation -/

theorem chronometerSync_run (hd : s.cfg.phase ≠ .dark) :
    exec (.chronometerSync []) s = .next (reachTime ((s.isl.chron + 65535) / 65536 * 65536) s) := by
  show execChronometerSync [] s = _
  rw [execChronometerSync, if_neg hd]
  rfl

/-- The difference of one running or napping tile is the one to slew away (R91). -/
theorem chronometerSync_tile {isl : IslandId} {t : TileId} (d : Int) (hw : mwf {} s.isl.tiles = true)
    (hd : s.cfg.phase ≠ .dark) (hi : isl.val < 52) (hlog : logicalOf s isl.val = some t.val)
    (hst : (tileIsl s t.val).state = .run ∨ (tileIsl s t.val).state = .nap) :
    ∃ u, exec (.chronometerSync [(isl, d)]) s = .next u ∧ (tileIsl u t.val).copyDiff = d ∧
      (tileIsl u t.val).copyAt = u.isl.chron := by
  set s1 := reachTime ((s.isl.chron + 65535) / 65536 * 65536) s with hs1
  have hlit : ¬((tileIsl s1 t.val).state = .darkKeep ∨ (tileIsl s1 t.val).state = .darkLose) := by
    show ¬((tileIsl s t.val).state = .darkKeep ∨ (tileIsl s t.val).state = .darkLose)
    rcases hst with h | h <;> rw [h] <;> decide
  have hsort : sortBy (fun e : IslandId × Int => e.1.val) [(isl, d)] = [(isl, d)] := rfl
  refine ⟨reportIf (decide (2 < d.natAbs)) (mkReport Unit.isl Cls.corrected Code.islChronSlew isl.val
      [(isl.val, 7), ((BitVec.ofInt 36 d).toNat, 36)]) (setTileIsl t.val (fun x =>
        { x with copyDiff := d, copyAt := s1.isl.chron, copyMin := tileChron s1 t.val }) s1), ?_, ?_⟩
  · show execChronometerSync [(isl, d)] s = _
    simp only [execChronometerSync, if_neg hd, hsort, List.foldl_cons, List.foldl_nil, if_pos hi, ← hs1,
      show logicalOf s1 isl.val = some t.val from hlog, if_neg hlit]
  · have hx := tileIsl_setTileIsl (s := s1) hw t.val t.val fun x =>
      { x with copyDiff := d, copyAt := s1.isl.chron, copyMin := tileChron s1 t.val }
    simp only [tileIsl, reportIf_isl] at hx ⊢
    rw [hx, if_pos trivial]
    exact ⟨rfl, rfl⟩

/-- Settles O29: each command by the lemma above for it. -/
theorem stepsAndTemperatureHolds : Obligations.StepsAndTemperatureHolds := by
  intro rq t v st on isl tj d s hw x
  refine ⟨fun hr ho hin hp hrun => ?_, fun hch => ?_, fun hrun => ⟨?_, ?_⟩, fun hd htj => ⟨junctionSample_records hd htj, ?_⟩,
    fun hon hhot => ?_, fun hon hstill => ?_, fun hon hcool hlow => ?_, fun o hon hcool hhigh hby => ?_,
    fun hd => ⟨⟨_, chronometerSync_run hd, ?_⟩, fun hi hlog hst => chronometerSync_tile d hw hd hi hlog hst⟩⟩
  · show Host.Outcome.next (tileCtlWrite rq t.val v.toNat s) = _
    rw [tileCtlWrite_owner hr ho hin (by omega), if_neg (by omega), requestPstate_run _ ((state_setReq hw ..).trans hrun), hp]
  · intro s1
    show execStepChangeComplete t s = _
    exact if_pos hch
  · exact supplyDroopStretch_run hrun
  · rintro n hadj hne hn rfl hns hxs hfast
    rw [supplyDroopStretch_run hrun, hadj]
    exact congrArg _ (droop_stretches hw hne hrun hn hns hxs hfast)
  · intro hi hlog hisl hrun hn hby hon hhot
    exact junctionSample_holds hd htj hi hlog hisl hrun hn hby hon hhot
  · show execTempHoldStepDown t s = _
    exact if_pos (by rw [hon, hhot]; rfl)
  · rw [tempHoldRelease_on hon]
    exact congrArg _ (if_pos hstill)
  · rw [tempHoldRelease_on hon, stillHolding_none hcool]
    exact congrArg _ ((if_neg fun h => h rfl).trans (if_neg (Nat.not_le.2 hlow)))
  · rw [tempHoldRelease_on hon, stillHolding_none hcool]
    refine congrArg _ ((if_neg fun h => h rfl).trans ((if_pos hhigh).trans ?_))
    rw [hby]
    rfl
  · simp only [reachTime]
    omega

end Sys2Proof.Machine
end

section
/-! What the step rules leave of a tile's record. -/

namespace Sys2Proof.Machine

variable {s u v : State}

/-- A tile's record without what the step rules change (R80, R82, R84, R85). -/
def ruleless (x : TileIsl) : TileIsl :=
  { x with target := 0, changing := false, volt := 0, since := 0, supplyBy := [], holdLo := 0, holdHi := 0, stretch := [] }

theorem setTileIsl_wf (h : mwf {} s.isl.tiles = true) (t : Nat) (f : TileIsl → TileIsl) :
    mwf {} (setTileIsl t f s).isl.tiles = true := mmod_wf h

/-- On the way from `s` to `u` only what the step rules change of the records of tiles has changed of them. -/
structure RulesOnly (s u : State) : Prop where
  wf : mwf {} s.isl.tiles = true → mwf {} u.isl.tiles = true
  record : mwf {} s.isl.tiles = true → ∀ j, ruleless (tileIsl u j) = ruleless (tileIsl s j)

theorem RulesOnly.refl (s : State) : RulesOnly s s := ⟨id, fun _ _ => rfl⟩

theorem RulesOnly.trans (h : RulesOnly s u) (h' : RulesOnly u v) : RulesOnly s v :=
  ⟨fun c => h'.wf (h.wf c), fun c j => (h'.record (h.wf c) j).trans (h.record c j)⟩

theorem RulesOnly.foldl {β : Type} {f : State → β → State} (hf : ∀ s b, RulesOnly s (f s b)) (l : List β) (s : State) :
    RulesOnly s (l.foldl f s) := by
  induction l generalizing s with
  | nil => exact .refl s
  | cons b l ih => exact (hf s b).trans (ih (f s b))

theorem RulesOnly.of_isl (h : u.isl.tiles = s.isl.tiles) : RulesOnly s u :=
  ⟨fun c => by rw [h]; exact c, fun _ j => by simp only [tileIsl, h]⟩

theorem RulesOnly.report (r : Report) (s : State) : RulesOnly s (report r s) := .of_isl (by rw [report_isl])

theorem RulesOnly.setTileIsl (t : Nat) {f : TileIsl → TileIsl} (hf : ∀ x, ruleless (f x) = ruleless x) (s : State) :
    RulesOnly s (setTileIsl t f s) := by
  refine ⟨mmod_wf, fun c j => ?_⟩
  rw [tileIsl_setTileIsl c]
  split
  next hj => rw [hf, hj]
  next => rfl

theorem RulesOnly.state (h : RulesOnly s u) (c : mwf {} s.isl.tiles = true) (j : Nat) :
    (tileIsl u j).state = (tileIsl s j).state := (congrArg TileIsl.state (h.record c j) :)

theorem RulesOnly.ceil (h : RulesOnly s u) (c : mwf {} s.isl.tiles = true) (j : Nat) :
    (tileIsl u j).ceil = (tileIsl s j).ceil := (congrArg TileIsl.ceil (h.record c j) :)

theorem holdDown_rulesOnly (s : State) (t n v : Nat) : RulesOnly s (holdDown s t n v) := by
  rw [holdDown_eq]
  refine .setTileIsl n (fun x => ?_) s
  unfold putHold
  split <;> rfl

theorem weigh_rulesOnly (t : Nat) (s : State) : RulesOnly s (weigh t s) := by
  have hplace : RulesOnly s (placeHolds t s) := by
    refine (RulesOnly.setTileIsl t (fun x => ?_) s).trans (.foldl (fun _ _ => holdDown_rulesOnly ..) _ _)
    obtain ⟨b, n, m, hx⟩ := retarget_changes (solveStep s t).1 s.isl.chron x
    rw [hx]
    rfl
  exact (hplace.trans (.foldl (fun _ _ => .report ..) _ _)).trans (.foldl (fun _ _ => .report ..) _ _)

theorem steer_rulesOnly (k : Nat) (ts : List Nat) (s : State) : RulesOnly s (steer k ts s) := by
  induction k generalizing ts s with
  | zero => exact .refl s
  | succ k ih =>
    cases ts with
    | nil => exact .refl s
    | cons t rest =>
      cases hrun : tileRunning s t
      · rw [steer, hrun]
        exact ih ..
      · rw [steer_running k rest hrun]
        split <;> exact (weigh_rulesOnly t s).trans (ih ..)

theorem resteer_rulesOnly (t : Nat) (s : State) : RulesOnly s (resteer t s) := steer_rulesOnly ..

theorem restretch_rulesOnly (t : Nat) (s : State) : RulesOnly s (restretch t s) := by
  refine .foldl (fun s n => ?_) _ _
  unfold restretchPair
  dsimp only
  split
  · exact .refl s
  · refine RulesOnly.trans ?_ (.report ..)
    exact .setTileIsl n (fun _ => by rfl) s

end Sys2Proof.Machine
end

section
/-! A hub cycle: its pattern, its grant or donation, and the tide boundary (R268, R276–R291). -/

namespace Sys2Proof.Machine

variable {s : State}

/-! ### The slots of an alternate -/

/-- The slot that a command runs stands in the sluice as its cycle begins. -/
def atSlot (k : Nat) (s : State) : State :=
  { s with slc := { s.slc with slot := k, cycle := s.slc.cycle + (k - s.slc.next) } }

/-- The cycle of a slot ends. -/
def slotEnds (k : Nat) (s : State) : State := { s with slc := { s.slc with next := k + 1, cycle := s.slc.cycle + 1 } }

/-- A slot of the running alternate whose entry has the kind of its command (R277, R280). -/
theorem alternateSlot_runs {k kind : Nat} {act : Nat → State → State} (hs : serving s = true) (hm : s.slc.mode = 1)
    (hk : s.slc.next ≤ k) (he : slotEntry s s.cfg.cur k / 2 ^ 34 % 4 = kind) :
    let e := slotEntry s s.cfg.cur k
    alternateSlot k kind act s = slotEnds k (act e (applyPattern s.cfg.cur (e / 2 ^ 22 % 2 ^ 12) (atSlot k s))) := by
  intro e
  have hkind : entKind e = kind := (field_eq_div_mod ..).trans he
  have hpat : entPat e = e / 2 ^ 22 % 2 ^ 12 := field_eq_div_mod ..
  rw [alternateSlot, if_neg (by rw [hm, hkind, hs]; simp; omega), hpat]
  rfl

theorem entRing_eq (e : Nat) : entRing e = e / 2 ^ 14 % 256 := field_eq_div_mod ..

theorem entDitch_eq (e : Nat) : entDitch e = e % 2 ^ 14 := (field_eq_div_mod ..).trans (by rw [pow_zero, Nat.div_one])

section
variable {k : Fin 65536} {e : Nat} {s1 : State} (hs : serving s = true) (hm : s.slc.mode = 1) (hk : s.slc.next ≤ k.val)
  (hentry : e = slotEntry s s.cfg.cur k.val) (hs1 : s1 = applyPattern s.cfg.cur (e / 2 ^ 22 % 2 ^ 12) (atSlot k.val s))
include hs hm hk hentry hs1

theorem slotGrant_runs (he : e / 2 ^ 34 % 4 = 0) : exec (.slotGrant k) s = .next (slotEnds k.val
    (if ditchEligible s1 (e % 2 ^ 14) then grant (e % 2 ^ 14) false s1 else donate (e / 2 ^ 14 % 256) s1)) := by
  subst hentry
  show Host.Outcome.next (alternateSlot k.val 0 _ s) = _
  rw [alternateSlot_runs hs hm hk he, entDitch_eq, entRing_eq, ← hs1]

theorem slotTransfer_runs (he : e / 2 ^ 34 % 4 = 1) : exec (.slotTransfer k) s = .next (slotEnds k.val s1) := by
  subst hentry
  show Host.Outcome.next (alternateSlot k.val 1 _ s) = _
  rw [alternateSlot_runs hs hm hk he, ← hs1]

theorem slotRefresh_runs (he : e / 2 ^ 34 % 4 = 2) : exec (.slotRefresh k) s = .next (slotEnds k.val
    (if drcPlace s1 = 0 then almanacRefresh (e % 2 ^ 14) s1 else s1)) := by
  subst hentry
  show Host.Outcome.next (alternateSlot k.val 2 _ s) = _
  rw [alternateSlot_runs hs hm hk he, entDitch_eq, ← hs1]

end

/-! ### The management schedule -/

/-- The grant of a management slot to ditch `d`, from which the pointer moves on (R291). -/
def mgmtGrant (d : Nat) (s : State) : State :=
  grant d false { s with slc := { s.slc with
    mgmtPtr := ((mgmtDitches s).find? fun x => decide (d < x)).getD ((mgmtDitches s).headD 0) } }

/-- A slot of the management schedule, by the first eligible ditch of its rotation (R291). -/
theorem mgmtSlot_run {k : Fin 65536} {o : Option Nat} (hs : serving s = true) (hm : s.slc.mode = 2) (hk : s.slc.next ≤ k.val)
    (ho : (rotateFrom (mgmtPattern (atSlot k.val s)).slc.mgmtPtr (mgmtDitches (mgmtPattern (atSlot k.val s)))).find?
      (ditchEligible (mgmtPattern (atSlot k.val s))) = o) :
    exec (.mgmtSlot k) s = .next (slotEnds k.val (o.elim (idleSlot (mgmtPattern (atSlot k.val s)))
      fun d => mgmtGrant d (mgmtPattern (atSlot k.val s)))) := by
  subst ho
  show execMgmtSlot k s = _
  rw [execMgmtSlot, if_neg (by rw [hm, hs]; simp; omega)]
  have hat : ({ s with slc := { s.slc with slot := k.val, cycle := s.slc.cycle + (k.val - s.slc.next) } } : State) =
    atSlot k.val s := rfl
  dsimp only
  rw [hat]
  generalize mgmtPattern (atSlot k.val s) = s1
  cases (rotateFrom s1.slc.mgmtPtr (mgmtDitches s1)).find? (ditchEligible s1) <;> rfl

theorem mem_rotateFrom {p d : Nat} {ds : List Nat} (h : d ∈ rotateFrom p ds) : d ∈ ds := by
  rcases List.mem_append.1 h with h | h <;> exact (List.mem_filter.1 h).1

/-- A management slot with no eligible ditch is idle. -/
theorem mgmtSlot_idle {k : Fin 65536} (hs : serving s = true) (hm : s.slc.mode = 2) (hk : s.slc.next ≤ k.val)
    (hnone : ∀ d ∈ mgmtDitches (mgmtPattern (atSlot k.val s)), ditchEligible (mgmtPattern (atSlot k.val s)) d = false) :
    exec (.mgmtSlot k) s = .next (slotEnds k.val (idleSlot (mgmtPattern (atSlot k.val s)))) := by
  rw [mgmtSlot_run hs hm hk (List.find?_eq_none.2 fun d hd => by rw [hnone d (mem_rotateFrom hd)]; exact Bool.false_ne_true),
    Option.elim_none]

/-- A management slot grants the first eligible ditch of its rotation. -/
theorem mgmtSlot_grants {k : Fin 65536} {d : Nat} (hs : serving s = true) (hm : s.slc.mode = 2) (hk : s.slc.next ≤ k.val)
    (hd : (rotateFrom (mgmtPattern (atSlot k.val s)).slc.mgmtPtr (mgmtDitches (mgmtPattern (atSlot k.val s)))).find?
      (ditchEligible (mgmtPattern (atSlot k.val s))) = some d) :
    exec (.mgmtSlot k) s = .next (slotEnds k.val (mgmtGrant d (mgmtPattern (atSlot k.val s)))) := by
  rw [mgmtSlot_run hs hm hk hd, Option.elim_some]

/-! ### The tide boundary -/

theorem tideBoundary_keeps (hm : s.slc.mode = 1 ∨ s.slc.mode = 2) (hs : serving s = true) (hv : s.cfg.phase ≠ .vault)
    (hl : leavesHelm s = false) (hp : s.cfg.pend = false) :
    exec .tideBoundary s = .next (countTide (boundaryCeilings s)) := by
  have hswitch : switchSchedule s = (s, false) := by
    simp only [switchSchedule, hl, hp, Bool.false_eq_true, and_false, if_false]
  show execTideBoundary s = _
  rw [execTideBoundary, if_neg (by rw [hs]; simp; omega), if_neg hv, hswitch]
  rfl

/-- The ceiling that a tile is given by those of the list that come to it, each available. -/
theorem ceil_setCeilings (t : Nat) (l : List Nat) : ∀ u : State, mwf {} u.isl.tiles = true →
    (∀ j, ceilingOf u j = ceilingOf s j) → (∀ j, available u j = available s j) → available s t = true →
    let w := l.foldl (fun u t => if available u t then setTileIsl t (fun x => { x with ceil := ceilingOf u t }) u else u) u
    mwf {} w.isl.tiles = true ∧ (tileIsl w t).ceil = if t ∈ l then ceilingOf s t else (tileIsl u t).ceil := by
  induction l with
  | nil => exact fun u hw _ _ _ => ⟨hw, by simp⟩
  | cons j l ih =>
    intro u hw hc ha hat
    rw [List.foldl_cons]
    cases hj : available u j
    · have hne : t ≠ j := fun e => by rw [e, ← ha, hj] at hat; exact Bool.false_ne_true hat
      rw [if_neg Bool.false_ne_true]
      simpa [hne] using ih u hw hc ha hat
    · rw [if_pos rfl]
      obtain ⟨hwf, hceil⟩ := ih (setTileIsl j (fun x => { x with ceil := ceilingOf u j }) u) (setTileIsl_wf hw ..) hc ha hat
      refine ⟨hwf, hceil.trans ?_⟩
      rw [tileIsl_setTileIsl hw, hc]
      by_cases hjt : t = j
      · simp [hjt]
      · simp [hjt]

/-- The ceilings of the line class and alternate in force take effect (R81). -/
theorem loadCeilings_ceil (hw : mwf {} s.isl.tiles = true) {t : Nat} (ht : t < 48) (ha : available s t = true) :
    (tileIsl (loadCeilings s) t).ceil = ceilingOf s t := by
  obtain ⟨hwf, hceil⟩ := ceil_setCeilings (s := s) t (List.range 48) s hw (fun _ => rfl) (fun _ => rfl) ha
  rw [if_pos (List.mem_range.2 ht)] at hceil
  refine (RulesOnly.ceil (.foldl (fun u j => ?_) _ _) hwf t).trans hceil
  split
  · exact steer_rulesOnly ..
  · exact .refl u

/-! ### Grants and donations -/

/-- The first element of a list of values of `g` that a test accepts. -/
theorem find?_map_range {n : Nat} {g : Nat → Nat} {p : Nat → Bool} {i : Nat} :
    ((List.range n).map g).find? p = some i ↔ ∃ j < n, i = g j ∧ p i = true ∧ ∀ j' < j, p (g j') = false := by
  rw [List.find?_eq_some_iff_getElem]
  simp only [List.length_map, List.length_range, List.getElem_map, List.getElem_range, Bool.not_eq_true']
  constructor
  · rintro ⟨hp, j, hj, rfl, hfirst⟩
    exact ⟨j, hj, rfl, hp, hfirst⟩
  · rintro ⟨j, hj, rfl, hp, hfirst⟩
    exact ⟨hp, j, hj, rfl, hfirst⟩

/-- The eligibility of a core queue (R276). -/
theorem eligible_coreQueue {q : Nat} {r : QRec} (hq : qrec s q = some r) (hr : r.culv = false) :
    eligible s q = true ↔ (qst s q).stop = false ∧ (qst s q).busy = false ∧ (qst s q).count ≠ 0 ∧
      diff17 (qst s q).dcount (qst s q).rcount < 2 ^ r.lsz ∧ inMask s r.tile = true ∧ tileRunning s r.tile = true ∧
      entryBegun s r.tile = false := by
  simp only [eligible, hq, hr, landFree, tileRunning, Bool.false_eq_true, if_false, Bool.and_eq_true, Bool.not_eq_true',
    bne_iff_ne, decide_eq_true_eq, Nat.sub_pos_iff_lt]
  tauto

theorem length_flatMap_range (n m : Nat) (g : Nat → Nat → BLine) :
    ((List.range n).flatMap fun e => (List.range m).map fun k => g e k).length = n * m := by
  simp [List.length_flatMap]

/-- The lines that a grant of `n` elements binds (R281, R282). -/
def grantLines (s : State) (q n : Nat) (r : QRec) : List BLine :=
  (List.range n).flatMap fun e => (List.range r.elines).map fun l =>
    let line := (if r.rdram then 0 else hubLine0) + r.rbase +
      (((qst s q).head + e) % 2 ^ 17 % 2 ^ (r.rsz + 4) * r.elines + l)
    ⟨portOfLine line, if r.culv then portCulvert r.cul else portCanal r.tile, s.slc.cycle, .elem q e l line⟩

/-- A grant to a ditch whose pick is queue index `i` (R281). -/
theorem grant_effect (hw : mwf {} s.slc.queues = true) (hd : mwf {} s.slc.ditches = true)
    (hv : mwf none s.slc.delivs = true) {d i : Nat} {r : QRec} (don : Bool) (hpick : pickQueue s (ditchAt s d) = some i)
    (hq : qrec s ((ditchAt s d).qfirst + i) = some r) :
    let q := (ditchAt s d).qfirst + i
    let n := min (min (ditchAt s d).burst (qst s q).count) (if r.culv then (ditchAt s d).burst else landFree r (qst s q))
    let u := grant d don s
    u.slc.bound = s.slc.bound ++ grantLines s q n r ∧ qst u q = { qst s q with busy := true } ∧
      mget none u.slc.delivs q = some ⟨n, n * r.elines, 0, 0, 0, false⟩ ∧ (ditchAt u d).last = i ∧ u.mem = s.mem := by
  intro q n u
  have hu : u = grant d don s := rfl
  simp only [grant, hpick, hq] at hu
  rw [hu]
  refine ⟨rfl, ?_, ?_, ?_, rfl⟩
  · exact (mget_mmod hw q q fun x => { x with busy := true }).trans (if_pos rfl)
  · refine (mget_mset_same hv).trans ?_
    rw [length_flatMap_range]
  · exact congrArg Ditch.last ((mget_mmod hd d d fun t => { t with
      last := i
      own := if don then t.own else satW 12 (t.own + 1)
      don := if don then satW 12 (t.don + 1) else t.don }).trans (if_pos rfl))

/-- A donation to the first eligible member of its ring (R287). -/
theorem donate_member {r i j : Nat} (hr : r ≠ 255) (hn : r < altNring s s.cfg.cur)
    (hj : j < (ringMembers s s.cfg.cur r).length)
    (hi : i = (mget 0 s.slc.rptr r + j) % (ringMembers s s.cfg.cur r).length)
    (he : ditchEligible s ((ringMembers s s.cfg.cur r).getD i 0) = true)
    (hfirst : ∀ j' < j, ditchEligible s ((ringMembers s s.cfg.cur r).getD
      ((mget 0 s.slc.rptr r + j') % (ringMembers s s.cfg.cur r).length) 0) = false) :
    donate r s = grant ((ringMembers s s.cfg.cur r).getD i 0) true { s with slc := { s.slc with
      cDon := s.slc.cDon + 1, rptr := mset 0 s.slc.rptr r ((i + 1) % (ringMembers s s.cfg.cur r).length) } } := by
  have hfind := (find?_map_range (g := fun j => (mget 0 s.slc.rptr r + j) % (ringMembers s s.cfg.cur r).length)
    (p := fun i => ditchEligible s ((ringMembers s s.cfg.cur r).getD i 0))).2 ⟨j, hj, hi, he, hfirst⟩
  rw [donate, if_neg (by omega)]
  simp only [hfind]

/-- A slot that no ditch can use (R287). -/
theorem donate_idle {r : Nat} (h : r = 255 ∨ altNring s s.cfg.cur ≤ r ∨
    ∀ d ∈ ringMembers s s.cfg.cur r, ditchEligible s d = false) : donate r s = idleSlot s := by
  rw [donate]
  split
  · rfl
  next hring =>
    have hall : ∀ d ∈ ringMembers s s.cfg.cur r, ditchEligible s d = false := by
      rcases h with h | h | h
      · exact absurd (.inl h) hring
      · exact absurd (.inr h) hring
      · exact h
    have hfind : ((List.range (ringMembers s s.cfg.cur r).length).map fun i =>
        (mget 0 s.slc.rptr r + i) % (ringMembers s s.cfg.cur r).length).find?
        (fun i => ditchEligible s ((ringMembers s s.cfg.cur r).getD i 0)) = none := by
      refine List.find?_eq_none.2 fun i hi => ?_
      obtain ⟨k, hk, rfl⟩ := List.mem_map.1 hi
      have hlt := Nat.mod_lt (mget 0 s.slc.rptr r + k) (Nat.lt_of_le_of_lt (Nat.zero_le k) (List.mem_range.1 hk))
      rw [List.getD_eq_getElem _ _ hlt, hall _ (List.getElem_mem hlt)]
      exact Bool.false_ne_true
    simp only [hfind]

/-! ### The one bound line of a pattern -/

section
variable {b : BLine} {a p : Nat} (hb : s.slc.bound = [b]) (hh : s.slc.headers = [])
include hb hh

/-- The pattern concerns the destination of the one bound line alone. -/
theorem applyPattern_one : applyPattern a p s =
    if patSource (newCycle (some (a, p)) s) a p b.dst = unconnected then newCycle (some (a, p)) s
    else connect [b] (patSource (newCycle (some (a, p)) s) a p b.dst) b.dst (newCycle (some (a, p)) s) := by
  have hwant : wanted s = [b.dst] := by
    simp only [wanted, hb, hh]
    rfl
  rw [applyPattern, hwant, hb]
  rfl

omit hb in
theorem takeHeader_none : takeHeader b.dst (newCycle (some (a, p)) s) = none := by
  have hnone : (newCycle (some (a, p)) s).slc.headers = [] := hh
  simp only [takeHeader, hnone, List.find?_nil]

/-- A pattern that connects another source to the destination leaves the line bound (R268). -/
theorem applyPattern_leaves (hne : patSource (newCycle (some (a, p)) s) a p b.dst ≠ b.src) :
    applyPattern a p s = newCycle (some (a, p)) s := by
  have hheld : oldestHeld (newCycle (some (a, p)) s) [b] (patSource (newCycle (some (a, p)) s) a p b.dst) b.dst = none := by
    simp [oldestHeld, Ne.symm hne]
  rw [applyPattern_one hb hh]
  split
  · rfl
  · simp only [connect, hheld, takeHeader_none hh]

/-- A pattern that connects the line's source to its destination carries the line, if it can leave (R268). -/
theorem applyPattern_carries (hs : b.src ≠ unconnected) (heq : patSource (newCycle (some (a, p)) s) a p b.dst = b.src)
    (hholds : holds (newCycle (some (a, p)) s) b = true)
    (hleave : canLeave (offered (spend b.dst (newCycle (some (a, p)) s))) b = true) :
    applyPattern a p s = carry b (offered (spend b.dst (newCycle (some (a, p)) s))) := by
  have hin : (newCycle (some (a, p)) s).slc.bound = [b] := hb
  have hheld : oldestHeld (newCycle (some (a, p)) s) [b] b.src b.dst = some b := by
    simp [oldestHeld, hin, hholds]
  rw [applyPattern_one hb hh, heq, if_neg hs]
  simp only [connect, hheld, takeHeader_none hh, hleave, if_true]

end

/-- Settles O36: the slots by their common run, the grant, the donation and the one bound line by the lemmas above. -/
theorem slotsRunTheSchedule : Obligations.SlotsRunTheSchedule := by
  refine ⟨fun k s hs => ?_, fun s hw hd hv => ⟨fun q r hq hr => eligible_coreQueue hq hr, fun d i => ?_, fun r i => ?_,
    fun a p b hb hh hsrc => ?_⟩⟩
  · intro at' ends
    have hat : at' = atSlot k.val := rfl
    have hends : ends = fun t => .next (slotEnds k.val t) := rfl
    clear_value at' ends
    subst hat hends
    refine ⟨fun hm hk => ⟨slotGrant_runs hs hm hk rfl rfl, slotTransfer_runs hs hm hk rfl rfl,
      slotRefresh_runs hs hm hk rfl rfl⟩, fun hm hk => ⟨mgmtSlot_idle hs hm hk, fun d => mgmtSlot_grants hs hm hk⟩,
      fun hm hvault hl hp => ⟨_, tideBoundary_keeps hm hs hvault hl hp, rfl⟩, fun hw hph t ht ha => ?_⟩
    · rw [boundaryCeilings, if_pos (runOrHelm_of_serving hph)]
      exact loadCeilings_ceil (s := { s with pwr := { s.pwr with ceilLow := s.pwr.line == 1 } }) hw ht ha
  · intro dt
    refine ⟨find?_map_range, fun don r hpick hq => ?_⟩
    exact grant_effect hw hd hv don hpick hq
  · intro ms p
    refine ⟨?_, fun h => donate_idle h⟩
    rintro hr hn ⟨j, hj, hi, he, hfirst⟩
    exact donate_member hr hn hj hi he hfirst
  · exact ⟨applyPattern_leaves hb hh, applyPattern_carries hb hh hsrc⟩

end Sys2Proof.Machine
end

section
/-! What leaves the clocks and the power states of the tiles as they are. -/

namespace Sys2Proof.Machine

variable {s₀ s : State}

/-- From `s₀` to `s` the island unit has not changed. -/
def SameIsl (s₀ s : State) : Prop := s.isl = s₀.isl

theorem SameIsl.refl (s : State) : SameIsl s s := rfl

theorem SameIsl.ite {x y : State} {c : Prop} [Decidable c] (hx : SameIsl s₀ x) (hy : SameIsl s₀ y) :
    SameIsl s₀ (if c then x else y) := by
  split
  · exact hx
  · exact hy

theorem SameIsl.foldl {β : Type} {f : State → β → State} {l : List β} (hf : ∀ s b, SameIsl s₀ s → SameIsl s₀ (f s b))
    (hs : SameIsl s₀ s) : SameIsl s₀ (l.foldl f s) := by
  induction l generalizing s with
  | nil => exact hs
  | cons b l ih => exact ih (hf s b hs)

theorem SameIsl.fst {α : Type} {x : α} (hs : SameIsl s₀ s) : SameIsl s₀ (s, x).1 := hs

theorem SameIsl.tileIsl (h : SameIsl s₀ s) (t : Nat) : Machine.tileIsl s t = Machine.tileIsl s₀ t := by
  simp only [Machine.tileIsl, show s.isl = s₀.isl from h]

theorem SameIsl.wf (h : SameIsl s₀ s) (hw : mwf {} s₀.isl.tiles = true) : mwf {} s.isl.tiles = true := by
  rw [show s.isl = s₀.isl from h, hw]

theorem SameIsl.sameButDrc {t : State} (hs : SameIsl s₀ s) (h : SameButDrc s t) : SameIsl s₀ t := by
  obtain ⟨d, rfl⟩ := h
  exact hs

theorem report_sameIsl {r : Report} (hs : SameIsl s₀ s) : SameIsl s₀ (report r s) := (report_isl s r).trans hs

theorem putLine_sameIsl {l v : Nat} (hs : SameIsl s₀ s) : SameIsl s₀ (putLine l v s) := (putLine_isl s l v).trans hs

theorem setCore_sameIsl {i : Nat} {f : Core → Core} (hs : SameIsl s₀ s) : SameIsl s₀ (setCore i f s) := hs

theorem setTile_sameIsl {t : Nat} {f : Tile → Tile} (hs : SameIsl s₀ s) : SameIsl s₀ (setTile t f s) := hs

theorem setSub_sameIsl {u : Nat} {f : SubCh → SubCh} (hs : SameIsl s₀ s) : SameIsl s₀ (setSub u f s) := hs

/-! ### The DRAM controller -/

theorem downAccess_sameIsl {l code : Nat} (hs : SameIsl s₀ s) : SameIsl s₀ (downAccess l code s) := by
  unfold downAccess downAccesses
  extract_lets _ s₁ _ _
  have h₁ : SameIsl s₀ s₁ := setSub_sameIsl hs
  exact .ite (report_sameIsl (setSub_sameIsl h₁)) h₁

theorem countSymbol_sameIsl {u d : Nat} (hs : SameIsl s₀ s) : SameIsl s₀ (countSymbol u d s) := by
  unfold countSymbol
  extract_lets s₁
  have h₁ : SameIsl s₀ s₁ := setSub_sameIsl hs
  have hfail : SameIsl s₀ { s₁ with nv := { s₁.nv with failDev := mset 0 s₁.nv.failDev u (d + 1) } } := h₁
  exact .ite (report_sameIsl hfail) h₁

theorem clearLine_sameIsl {l : Nat} (hs : SameIsl s₀ s) : SameIsl s₀ (clearLine l s) := hs

theorem enqueueWrite_sameIsl {rq : Req} {l : Nat} (hs : SameIsl s₀ s) : SameIsl s₀ (enqueueWrite rq l s) :=
  .ite hs (.ite hs hs)

/-- A line that is stored as a whole. -/
theorem storedLine_sameIsl {rq : Req} {l v : Nat} (hs : SameIsl s₀ s) :
    SameIsl s₀ (enqueueWrite rq l (putLine l v (clearLine l (keepReads l s)))) :=
  enqueueWrite_sameIsl (putLine_sameIsl (clearLine_sameIsl (setSub_sameIsl hs)))

theorem decodeLine_sameIsl {code l : Nat} (hs : SameIsl s₀ s) : SameIsl s₀ (decodeLine code l s).1 := by
  simp only [decodeLine, decodeBurst]
  split
  · exact hs
  · exact .fst (.ite (.ite (report_sameIsl (countSymbol_sameIsl hs))
      (storedLine_sameIsl (report_sameIsl (countSymbol_sameIsl hs)))) (report_sameIsl (countSymbol_sameIsl hs)))
  · exact .fst (setSub_sameIsl hs)
  · exact .fst (report_sameIsl hs)
  · exact .fst (report_sameIsl (setSub_sameIsl hs))

theorem readForWrite_sameIsl {l : Nat} (hs : SameIsl s₀ s) :
    SameIsl s₀ (if (takenOf s l).isSome then unclaim s else markIdle (subOf l) (readIssued l s)) := .ite hs hs

theorem acceptWrite_sameIsl {rq : Req} {l lo w v : Nat} (hs : SameIsl s₀ s) : SameIsl s₀ (acceptWrite rq l lo w v s) :=
  .ite (.ite (decodeLine_sameIsl (readForWrite_sameIsl hs)) (storedLine_sameIsl (decodeLine_sameIsl (readForWrite_sameIsl hs))))
    (storedLine_sameIsl hs)

theorem dramPut_sameIsl {rq : Req} {l lo w v : Nat} (hs : SameIsl s₀ s) : SameIsl s₀ (dramPut rq l lo w v s) :=
  .ite hs (.ite (report_sameIsl hs) (.ite (downAccess_sameIsl hs) (acceptWrite_sameIsl hs)))

/-! ### The caches of a tile's cores -/

theorem setFrame_sameIsl {i key : Nat} {f : Option CLine} (hs : SameIsl s₀ s) : SameIsl s₀ (setFrame i key f s) := hs

theorem coreFatal_sameIsl {i : Nat} {r : Report} (hs : SameIsl s₀ s) : SameIsl s₀ (coreFatal i r s) :=
  (ringDoorbell_isl ..).trans (setCore_sameIsl (report_sameIsl hs))

theorem parity_sameIsl {i key : Nat} {f : CLine} {refetch : Bool} (hs : SameIsl s₀ s) :
    SameIsl s₀ (parity i key f refetch s) :=
  .ite (.ite hs (coreFatal_sameIsl (setFrame_sameIsl hs))) (report_sameIsl (setCore_sameIsl hs))

theorem lockDropped_sameIsl {i op n : Nat} (hs : SameIsl s₀ s) : SameIsl s₀ (lockDropped i op n s) :=
  .ite hs (report_sameIsl (setCore_sameIsl hs))

theorem startWriteBack_sameIsl {i line bits : Nat} {sec served victim : Bool} (hs : SameIsl s₀ s) :
    SameIsl s₀ (startWriteBack i line bits sec served victim s) := hs

theorem unserve_sameIsl {i line : Nat} (hs : SameIsl s₀ s) : SameIsl s₀ (unserve i line s) := hs

theorem invalidateCopy_sameIsl {i line : Nat} (hs : SameIsl s₀ s) : SameIsl s₀ (invalidateCopy i line s) := by
  have hus : SameIsl s₀ (unserve i line s) := unserve_sameIsl hs
  simp only [invalidateCopy]
  split
  · exact hus
  · exact .ite (parity_sameIsl hus) (.ite
      (lockDropped_sameIsl (setFrame_sameIsl (.ite (startWriteBack_sameIsl hus) hus)))
      (setFrame_sameIsl (.ite (startWriteBack_sameIsl hus) hus)))

theorem storeInto_sameIsl {j key : Nat} {f : CLine} {p : PendStore} (hs : SameIsl s₀ s) :
    SameIsl s₀ (storeInto j key f p s) := hs

theorem storeIntoBuffer_sameIsl {j : Nat} {e : EvLine} {p : PendStore} (hs : SameIsl s₀ s) :
    SameIsl s₀ (storeIntoBuffer j e p s) := hs

theorem storeWritten_sameIsl {i : Nat} {p : PendStore} (hs : SameIsl s₀ s) : SameIsl s₀ (storeWritten i p s) := by
  simp only [storeWritten, withOutcome]
  split
  · exact dramPut_sameIsl hs
  · exact (dramPut_sameIsl (hs.sameButDrc (claim_same ..))).sameButDrc (unclaim_same _)

theorem storeBehind_sameIsl {i : Nat} {p : PendStore} (hs : SameIsl s₀ s) : SameIsl s₀ (storeBehind i p s) := by
  simp only [storeBehind]
  split
  · exact .ite (storeWritten_sameIsl hs) (setCore_sameIsl hs)
  · exact storeWritten_sameIsl hs

theorem ownDirty_sameIsl {i line : Nat} {sec : Bool} (hs : SameIsl s₀ s) : SameIsl s₀ (ownDirty i line sec s) := by
  simp only [ownDirty]
  split
  · exact setFrame_sameIsl hs
  · split
    · exact setCore_sameIsl hs
    · exact hs

theorem keepOlds_sameIsl {i line : Nat} {sel : MissAcc → Bool} {p : Nat × Nat × Nat} (hs : SameIsl s₀ s) :
    SameIsl s₀ (keepOlds i line sel p s) := by
  refine .foldl (fun s j hs => ?_) hs
  split
  · exact hs
  · exact setCore_sameIsl hs

theorem showCached_sameIsl {i : Nat} {p : PendStore} (hs : SameIsl s₀ s) : SameIsl s₀ (showCached i p s) := by
  refine .ite (.foldl (fun _ _ => invalidateCopy_sameIsl) (.ite (ownDirty_sameIsl (keepOlds_sameIsl hs)) (keepOlds_sameIsl hs))) ?_
  split
  · exact .foldl (fun _ _ => invalidateCopy_sameIsl) (storeInto_sameIsl (keepOlds_sameIsl hs))
  · exact .foldl (fun _ _ => invalidateCopy_sameIsl) (storeIntoBuffer_sameIsl (keepOlds_sameIsl hs))
  · exact storeBehind_sameIsl (keepOlds_sameIsl hs)

theorem breakReservations_sameIsl {t line : Nat} {except : Option Nat} (hs : SameIsl s₀ s) :
    SameIsl s₀ (breakReservations t except line s) := by
  refine .foldl (fun s c hs => .ite hs ?_) hs
  split
  · exact hs
  · exact .ite (setCore_sameIsl hs) hs

theorem writeTileBits_sameIsl {t line lo w v req : Nat} (hs : SameIsl s₀ s) :
    SameIsl s₀ (writeTileBits t line lo w v req s) := by
  have hbad (l : List Nat) : SameIsl s₀ (l.foldl (fun s i => report (tmemUncorrectable t line i req)
      (setTile t (fun x => { x with unc := satW 18 (x.unc + 1) }) s)) s) :=
    .foldl (fun _ _ hs => report_sameIsl (setTile_sameIsl hs)) hs
  have hclear (l : List Nat) (m) : SameIsl s₀ { l.foldl (fun s i => report (tmemUncorrectable t line i req)
      (setTile t (fun x => { x with unc := satW 18 (x.unc + 1) }) s)) s with tmErr := m } := hbad l
  exact .ite (hbad _) (putLine_sameIsl (hclear _ _))

theorem flushCore_sameIsl {i : Nat} (hs : SameIsl s₀ s) : SameIsl s₀ (flushCore i s) := by
  have hshown : SameIsl s₀ (showStores i s) := .foldl (fun _ _ hs => .ite (showCached_sameIsl hs)
    (breakReservations_sameIsl (writeTileBits_sameIsl hs))) (setCore_sameIsl hs)
  refine .foldl (fun _ _ hs => .ite (unserve_sameIsl (startWriteBack_sameIsl hs)) hs) (.foldl (fun s e hs => ?_) hshown)
  split
  · exact hs
  · exact .ite hs (.ite (parity_sameIsl hs) (startWriteBack_sameIsl (setFrame_sameIsl hs)))

/-- The dirty lines of a tile set out without a change of its state (R93). -/
theorem flushTile_sameIsl (t : Nat) (s : State) : SameIsl s (flushTile t s) :=
  .foldl (fun _ _ => flushCore_sameIsl) (.refl s)

/-! ### What crosses into a tile, and what a tile loses -/

theorem writeItem_sameIsl (x : XItem) (s : State) : SameIsl s (writeItem x s) := by
  have hparts : SameIsl s (x.parts.foldl (fun s p => writeTileBits x.tile x.line p.1 p.2.1 p.2.2 x.rq.code.toNat s) s) :=
    .foldl (fun _ _ => writeTileBits_sameIsl) (.refl s)
  exact .ite hparts (breakReservations_sameIsl hparts)

theorem answerStore_sameIsl (x : XItem) (hs : SameIsl s₀ s) : SameIsl s₀ (answerStore x s) := by
  simp only [answerStore]
  split
  · exact (gotMiss_isl ..).trans hs
  · exact hs

theorem arriveItem_sameIsl (x : XItem) (s : State) : SameIsl s (arriveItem x s) :=
  answerStore_sameIsl x (.ite (report_sameIsl (.refl s)) (.ite (.refl s) (writeItem_sameIsl x s)))

theorem loseTile_sameIsl (t : Nat) (keep : Bool) (s : State) : SameIsl s (loseTile t keep s) := by
  have hcores : SameIsl s ((List.range 8).foldl (fun s c => setCore (8 * t + c) Core.debugSide s)
      (unbindTile t (withdraw t s))) := .foldl (fun _ _ => setCore_sameIsl) rfl
  exact .ite (setTile_sameIsl hcores) hcores

theorem TraceOnly.sameIsl {t : State} (h : TraceOnly s t) : SameIsl s t := by
  obtain ⟨cs, ts, rfl⟩ := h.frame
  rfl

end Sys2Proof.Machine
end

section
/-! Nap, dark, and what crosses into a tile (R88–R97, R155, R283). -/

namespace Sys2Proof.Machine

variable {s : State} {t : Nat}

/-! ### Nap -/

/-- A tile whose crossings close is in the state that it enters (R87). -/
theorem releaseNeighbours_state (hw : mwf {} s.isl.tiles = true) (st : TileState) :
    (tileIsl (releaseNeighbours t st s) t).state = st := by
  unfold releaseNeighbours
  extract_lets x nbs s₁ s₂ s₃ s₄ isl s₅
  have hw₃ : mwf {} s₃.isl.tiles = true := (Keeps.foldl (fun _ _ hs => dropTempPeer_keeps (holdDown_keeps hs))
    (.foldl (fun _ _ => report_keeps) (.foldl (fun _ _ => report_keeps) (.refl s)))).islands hw
  have hw₄ : mwf {} s₄.isl.tiles = true := setTileIsl_wf hw₃ ..
  have hw₅ : mwf {} s₅.isl.tiles = true := hw₄
  have hrules : RulesOnly s₅ (nbs.foldl (fun s u => resteer u (restretch u s)) (restretch t s₅)) :=
    (restretch_rulesOnly ..).trans (.foldl (fun _ _ => (restretch_rulesOnly ..).trans (resteer_rulesOnly ..)) _ _)
  have h₅ : tileIsl s₅ t = tileIsl s₄ t := rfl
  rw [hrules.state hw₅, h₅, tileIsl_setTileIsl hw₃, if_pos rfl]

theorem napEntry_enters {t : TileId} (hs : serving s = true) (hr : tileRunning s t.val = true)
    (hp : (tileIsl s t.val).pend = 1) (he : entryBegun s t.val = true) (hq : quiet s t.val = true) :
    exec (.napEntry t) s = .next (traceTile t.val 2 (releaseNeighbours t.val .nap s)) := by
  show execNapEntry t s = _
  rw [execNapEntry, if_pos (by simp [hs, hr, hp, he, hq])]

theorem napExit_wakes {t : TileId} (ha : available s t.val = true) (hn : (tileIsl s t.val).state = .nap)
    (hx : (tileIsl s t.val).exiting = true) (h2 : (tileIsl s t.val).pend ≠ 2) (h3 : (tileIsl s t.val).pend ≠ 3) :
    exec (.napExit t) s = .next (wakeTile t.val s) := by
  show execNapExit t s = _
  rw [execNapExit, if_pos (by simp [ha, hn, hx, h2, h3])]

/-! ### Into the dark -/

theorem darkStep_held {keep : Bool} {l : Nat} {ls : List Nat} (h : heldStores s t = l :: ls) :
    darkStep t keep s = (l :: ls).foldl (fun s l => wakeLine l s) s := by
  simp only [darkStep, h]

/-- A dark request to a running tile, with no store held by its channel (R93). -/
theorem darkStep_run (keep : Bool) (hh : heldStores s t = []) (hr : (tileIsl s t).state = .run) :
    darkStep t keep s = if tileClean (flushTile t s) t then enterDark t keep (flushTile t s) else flushTile t s := by
  have hrun : (tileIsl (flushTile t s) t).state ≠ .nap := by
    rw [(flushTile_sameIsl t s).tileIsl, hr]
    decide
  simp only [darkStep, hh, if_neg hrun]

theorem darkEntry_run {t : TileId} (hs : serving s = true) (ha : available s t.val = true)
    (hp : (tileIsl s t.val).pend = 2 ∨ (tileIsl s t.val).pend = 3) (hr : (tileIsl s t.val).state = .run)
    (hc : (tileIsl s t.val).closing = false) (he : entryBegun s t.val = true) (hq : quiet s t.val = true) :
    exec (.darkEntry t) s = .next (darkStep t.val ((tileIsl s t.val).pend == 2) s) := by
  show execDarkEntry t s = _
  rw [execDarkEntry, if_neg (by simp [hc]), if_pos (by simpa [hs, ha, hr, he, hq] using hp)]

/-- A tile that goes dark has its power still, until the next DARK_ENTRY (R93). -/
theorem enterDark_effect (hw : mwf {} s.isl.tiles = true) (keep : Bool) :
    (tileIsl (enterDark t keep s) t).closing = true ∧
      (tileIsl (enterDark t keep s) t).state = if keep then .darkKeep else .darkLose := by
  have htrace : TraceOnly s (wakeSettle t (traceTile t (if keep then 3 else 4) s)) :=
    (traceTile_traceOnly ..).trans (wakeRounds_traceOnly ..)
  have hw₁ := htrace.sameIsl.wf hw
  have hwr := (releaseNeighbours_keeps (t := t) (st := if keep then .darkKeep else .darkLose) (.refl _)).islands hw₁
  have hstate := releaseNeighbours_state (t := t) hw₁ (if keep then .darkKeep else .darkLose)
  rw [enterDark, tileIsl_setTileIsl hwr, if_pos rfl]
  exact ⟨rfl, hstate⟩

/-! ### The power of a dark tile -/

/-- The cores of the tile that a list names are off once each of them keeps its debug side alone. -/
theorem debugSides_off {c : Nat} (l : List Nat) : ∀ u : State, mwf {} u.cores = true →
    (c ∈ l ∨ (coreAt u (8 * t + c)).on = false) →
    (coreAt (l.foldl (fun s c => setCore (8 * t + c) Core.debugSide s) u) (8 * t + c)).on = false := by
  induction l with
  | nil =>
    rintro u - (h | h)
    · exact absurd h (List.not_mem_nil)
    · exact h
  | cons d l ih =>
    intro u hw h
    refine ih _ (setCore_wf hw) ?_
    rw [List.mem_cons] at h
    by_cases hd : 8 * t + c = 8 * t + d
    · right
      rw [hd, coreAt_setCore hw]
      rfl
    · rw [coreAt_setCore_ne hw hd]
      rcases h with (rfl | h) | h
      · exact absurd rfl hd
      · exact .inl h
      · exact .inr h

theorem loseTile_cores_off (hw : mwf {} s.cores = true) (keep : Bool) {c : Nat} (hc : c < 8) :
    (coreAt (loseTile t keep s) (8 * t + c)).on = false := by
  have hcores : (loseTile t keep s).cores = ((List.range 8).foldl (fun s c => setCore (8 * t + c) Core.debugSide s)
      (unbindTile t (withdraw t s))).cores := by
    unfold loseTile
    extract_lets s₁ s₂ s₃
    have h₃ : s₃.cores = s₂.cores := setTile_cores ..
    refine Eq.trans ?_ h₃
    split <;> rfl
  rw [coreAt, hcores]
  exact debugSides_off (List.range 8) (unbindTile t (withdraw t s)) hw (.inl (List.mem_range.2 hc))

theorem removePower_state (hw : mwf {} s.isl.tiles = true) :
    (tileIsl (removePower t s) t).state = (tileIsl s t).state := by
  unfold removePower
  split
  · rfl
  · rw [(loseTile_sameIsl ..).tileIsl, tileIsl_setTileIsl hw, if_pos rfl]

/-- What a further DARK_ENTRY does to a tile that has gone dark (R93). -/
theorem darkEntry_closing {t : TileId} (hw : mwf {} s.isl.tiles = true) (hs : serving s = true)
    (hc : (tileIsl s t.val).closing = true) (hcores : mwf {} s.cores = true) :
    ∃ u, exec (.darkEntry t) s = .next u ∧ (tileIsl u t.val).closing = false ∧
      (tileIsl u t.val).state = (tileIsl s t.val).state ∧ ∀ c < 8, (coreAt u (8 * t.val + c)).on = false := by
  refine ⟨removePower t.val s, ?_, ?_, removePower_state hw, fun c hlt => ?_⟩
  · show execDarkEntry t s = _
    rw [execDarkEntry, if_pos (by simp [hs, hc])]
  · rw [removePower, if_neg (by simp [hc]), (loseTile_sameIsl ..).tileIsl, tileIsl_setTileIsl hw, if_pos rfl]
  · have hoff : mwf {} (setTileIsl t.val (fun x => { x with closing := false }) s).cores = true := hcores
    rw [removePower, if_neg (by simp [hc])]
    exact loseTile_cores_off hoff _ hlt

/-! ### Out of the dark -/

theorem darkExit_leaves {t : TileId} (ha : available s t.val = true) (hx : (tileIsl s t.val).exiting = true)
    (hin : inMask s t.val = true) (hs : serving s = true)
    (hd : (tileIsl s t.val).state = .darkKeep ∨ (tileIsl s t.val).state = .darkLose) :
    exec (.darkExit t) s = .next (darkLeave t.val (removePower t.val s)) := by
  show execDarkExit t s = _
  rw [execDarkExit, if_pos (by simpa [ha, hx, hin, hs] using hd)]

theorem darkLeave_kept (h : (tileIsl s t).state = .darkKeep) : darkLeave t s = traceDarkExit t (startTile t s) := by
  have hlose : (tileIsl s t).state ≠ .darkLose := by rw [h]; decide
  have hheld : reloadHeld s t = none := if_pos hlose
  simp only [darkLeave, hheld, leaveTileDark, if_neg hlose]

theorem darkLeave_reloads (h : (tileIsl s t).state = .darkLose) (hheld : reloadHeld s t = none) :
    darkLeave t s = traceDarkExit t (startTile t (reloadTile t s)) := by
  simp only [darkLeave, hheld, leaveTileDark, if_pos h]

theorem darkLeave_held {l : Nat} (hheld : reloadHeld s t = some l) :
    darkLeave t s = startExit (subOf l) (setTileIsl t (fun x => { x with exiting := true }) s) := by
  simp only [darkLeave, hheld]

/-! ### Crossings -/

theorem xingLate_inTime {cycles : Nat} (h : cycles ≤ 9) (a b : Nat) (s : State) : xingLate a b cycles s = s := by
  simp [xingLate, reportIf, h]

/-- The state in which the `i`-th item has left its crossing. -/
def withoutItem (i : Nat) (s : State) : State := { s with slc := { s.slc with xing := dropAt s.slc.xing i } }

/-- The state in which item `y` has come to its tile, but for its arrival flag (R88, R92). -/
def itemCome (y : XItem) (cycles : Nat) (s : State) : State :=
  let u := arriveItem y (xingLate 52 (islOf s y.tile) cycles s)
  if y.intr.isSome then wakeByMessage y.tile u else u

section
variable {i : Nat} {cyc : BitVec 18} {y : XItem} (hy : s.slc.xing[i]? = some y)
  (hfirst : (s.slc.xing.take i).all (fun z => z.tile != y.tile) = true) (ha : available s y.tile = true)
include hy hfirst ha

/-- An item without a flag arrives at an available tile as the first of its crossing (R88). -/
theorem crossing_arrives (hf : y.flag = none) :
    exec (.crossingItemArrival i cyc) s = .next (itemCome y cyc.toNat (withoutItem i s)) := by
  have hany : ((s.slc.xing.take i).any fun z => z.tile == y.tile) = false := by
    rw [List.any_eq_false]
    intro z hz
    simpa using List.all_eq_true.1 hfirst z hz
  have hav : available (withoutItem i s) y.tile = true := ha
  show execCrossingItemArrival i cyc s = _
  unfold withoutItem at hav ⊢
  simp only [execCrossingItemArrival, hy, hany, hav, hf, Bool.false_eq_true, if_false, Bool.not_true, itemCome]

/-- An item with a flag sets it at a tile that runs (R155). -/
theorem crossing_setsFlag {c f : Nat} (hf : y.flag = some (c, f))
    (hr : (tileIsl (itemCome y cyc.toNat (withoutItem i s)) y.tile).state = .run) :
    exec (.crossingItemArrival i cyc) s =
      .next (setArrival (8 * y.tile + c) f false (itemCome y cyc.toNat (withoutItem i s))) := by
  have hany : ((s.slc.xing.take i).any fun z => z.tile == y.tile) = false := by
    rw [List.any_eq_false]
    intro z hz
    simpa using List.all_eq_true.1 hfirst z hz
  have hav : available (withoutItem i s) y.tile = true := ha
  show execCrossingItemArrival i cyc s = _
  unfold withoutItem itemCome at *
  simp only [execCrossingItemArrival, hy, hany, hav, hf, hr, Bool.false_eq_true, if_false, Bool.not_true, true_or, if_true]

end

/-- An interrupt message that comes to a napping tile makes it leave nap (R92). -/
theorem itemCome_wakes {y : XItem} (hw : mwf {} s.isl.tiles = true) (hn : (tileIsl s y.tile).state = .nap)
    (hi : y.intr.isSome = true) (cycles : Nat) : (tileIsl (itemCome y cycles s) y.tile).exiting = true := by
  have hlate : SameIsl s (xingLate 52 (islOf s y.tile) cycles s) := by
    unfold xingLate SameIsl
    rw [reportIf_isl]
  have hsame : SameIsl s (arriveItem y (xingLate 52 (islOf s y.tile) cycles s)) := (arriveItem_sameIsl y _).trans hlate
  rw [itemCome, if_pos hi, wakeByMessage, if_pos (by rw [hsame.tileIsl, hn]), tileIsl_setTileIsl (hsame.wf hw), if_pos rfl]

/-- A line that a tile sent may be carried from now on (R161). -/
theorem crossing_toHub {i : Nat} {cyc : BitVec 18} {b : BLine} (hlen : s.slc.xing.length ≤ i)
    (hb : (hubBound s)[i - s.slc.xing.length]? = some b) (hcyc : cyc.toNat ≤ 9)
    (hfirst : ((hubBound s).takeWhile fun z => z != b).all (fun z => senderOf s z != senderOf s b) = true) :
    exec (.crossingItemArrival i cyc) s = .next { s with slc := { s.slc with toHub := (hubBound s).erase b } } := by
  have hany : (((hubBound s).takeWhile fun z => z != b).any fun z => senderOf s z == senderOf s b) = false := by
    rw [List.any_eq_false]
    intro z hz
    simpa using List.all_eq_true.1 hfirst z hz
  have hhub : arriveInHub b cyc.toNat s = { s with slc := { s.slc with toHub := (hubBound s).erase b } } := by
    simp only [arriveInHub, hany, Bool.false_eq_true, if_false, xingLate_inTime hcyc]
  rw [← hhub]
  show execCrossingItemArrival i cyc s = _
  simp only [execCrossingItemArrival, List.getElem?_eq_none hlen, hb]

/-- An item within its cycles comes to a running tile (R88, R89). -/
theorem itemCome_run {y : XItem} {cycles : Nat} (hcyc : cycles ≤ 9) (hr : (tileIsl s y.tile).state = .run) :
    itemCome y cycles s = answerStore y (writeItem y s) ∧ (tileIsl (itemCome y cycles s) y.tile).state = .run := by
  have harrive : arriveItem y s = answerStore y (writeItem y s) := by
    simp [arriveItem, tileAsleep, hr]
  have hrun : (tileIsl (arriveItem y s) y.tile).state = .run := by
    rw [(arriveItem_sameIsl y s).tileIsl, hr]
  have hawake : wakeByMessage y.tile (arriveItem y s) = arriveItem y s := if_neg (by rw [hrun]; decide)
  have hcome : itemCome y cycles s = arriveItem y s := by
    simp only [itemCome, xingLate_inTime hcyc, hawake, ite_self]
  exact ⟨hcome.trans harrive, by rw [hcome, hrun]⟩

/-- Settles O30: nap, dark and the crossings, clause by clause by the lemmas above. -/
theorem tilePowerStates : Obligations.TilePowerStates := by
  intro rq t v i cyc s hw x
  refine ⟨fun hr ho hin hrun hp hreload => ?_, fun hr ho hin hp => ?_, fun hr ho hin hnap hp => ?_,
    fun hs hr hp he hq => ⟨napEntry_enters hs hr hp he hq, releaseNeighbours_state hw _⟩,
    fun ha hn hx h2 h3 => napExit_wakes ha hn hx h2 h3, fun hs ha hp hr hc he hq => ?_,
    fun hs hc hcores => darkEntry_closing hw hs hc hcores, fun ha hx hin hs => ?_,
    fun y hy hfirst ha hn hi hf => ⟨_, crossing_arrives hy hfirst ha hf, itemCome_wakes (s := withoutItem i s) hw hn hi _⟩,
    fun b hlen hb hcyc hfirst => crossing_toHub hlen hb hcyc hfirst, fun y hy hfirst hcyc ha hr => ?_⟩
  · have hle : ¬ 3 < v.toNat / 16 % 8 := by
      simp only [List.mem_cons, List.not_mem_nil, or_false] at hp
      omega
    show Host.Outcome.next (tileCtlWrite rq t.val v.toNat s) = _
    rw [tileCtlWrite_owner hr ho hin hreload, if_neg hle, requestPstate_run _ ((state_setReq hw ..).trans hrun)]
  · show Host.Outcome.next (tileCtlWrite rq t.val v.toNat s) = _
    rw [tileCtlWrite_owner hr ho hin (by omega), if_pos hp]
  · show Host.Outcome.next (tileCtlWrite rq t.val v.toNat s) = _
    rw [tileCtlWrite_owner hr ho hin (by omega), if_neg (by omega), hp]
    simp only [requestPstate, (state_setReq hw ..).trans hnap]
    rfl
  · have hstep := darkEntry_run hs ha hp hr hc he hq
    refine ⟨fun l ls hl => by rw [hstep, darkStep_held hl], fun hl hclean => ?_, fun hl hclean hw₁ => ?_⟩
    · rw [hstep, darkStep_run _ hl hr, hclean, if_neg Bool.false_ne_true]
    · rw [hstep, darkStep_run _ hl hr, hclean, if_pos rfl]
      obtain ⟨hclosing, hstate⟩ := enterDark_effect (t := t.val) hw₁ (x.pend == 2)
      exact ⟨_, rfl, rfl, hclosing, hstate.trans (if_congr beq_iff_eq rfl rfl)⟩
  · intro p
    have hkeep : (tileIsl p t.val).state = x.state := removePower_state hw
    refine ⟨fun hd => ?_, fun hd hheld => ?_, fun l hd hheld => ?_⟩
    · rw [darkExit_leaves ha hx hin hs (.inl hd), darkLeave_kept (hkeep.trans hd)]
    · rw [darkExit_leaves ha hx hin hs (.inr hd), darkLeave_reloads (hkeep.trans hd) hheld]
    · rw [darkExit_leaves ha hx hin hs (.inr hd), darkLeave_held hheld]
  · obtain ⟨hcome, hrun⟩ := itemCome_run (s := withoutItem i s) hcyc hr
    refine ⟨fun hf => ?_, fun c f hf => ?_⟩
    · rw [crossing_arrives hy hfirst ha hf, hcome]
      rfl
    · rw [crossing_setsFlag hy hfirst ha hf hrun, hcome]
      rfl

end Sys2Proof.Machine
end

section
/-! A tile that is switched off and starts again within one command, where the map of tiles lists it twice. -/

namespace Sys2Proof.Machine

/-- The rail of physical tile 0 trips in HELM-ONLY. Logical tile 0 runs, with core 0 in the normal world; the map of
tiles, of which the model's `Canonical` does not speak, lists it twice, first without a physical tile. -/
def twiceMapped : State :=
  { pending := [.railOvercurrent 0 0]
    cfg := { phase := .helm, lmap := [(0, none), (0, some 0)] }
    isl := { tiles := [(0, { state := .run })] }
    cores := [(0, { on := true })] }

theorem twiceMapped_canonical : Canonical twiceMapped := by
  have hregs : ∀ i, (coreAt twiceMapped i).regs = [] := fun i => by
    unfold coreAt twiceMapped
    simp only [mget]
    repeat' split
    all_goals rfl
  rw [canonical_iff]
  exact ⟨rfl, ⟨by decide +kernel, fun i => by rw [hregs]; rfl⟩, rfl, by decide +kernel, rfl, rfl, rfl, rfl,
    ⟨rfl, fun _ => ⟨rfl, rfl, rfl⟩⟩, rfl, ⟨rfl, fun _ => rfl⟩, rfl, rfl, rfl, rfl, rfl, rfl⟩

/-- Core 0 is on, in the secure world. -/
def onAndSecure : Host.Outcome State Fault Refusal → Bool
  | .next t => (coreAt t 0).on && (coreAt t 0).sec
  | _ => false

/-- Refutes O59: in `twiceMapped` the trip switches tile 0 off (R50), but the second entry of the map makes it the
management tile, which starts at once (R70): its core comes up anew, in the other world, within the one step. -/
theorem not_worldsChangeOnlyByTheirRules : ¬ Obligations.WorldsChangeOnlyByTheirRules := by
  intro h
  have hmodel : onAndSecure (step twiceMapped) = true := by decide +kernel
  obtain ⟨t, ht, -⟩ := step_answers twiceMapped
  rw [ht, onAndSecure, Bool.and_eq_true] at hmodel
  obtain ⟨hon, hsec⟩ := hmodel
  have hwas : (coreAt twiceMapped 0).sec = false := by decide +kernel
  obtain ⟨-, hcores⟩ := h twiceMapped t twiceMapped_canonical ht
  rcases hcores 0 (by decide +kernel) hon (by rw [hsec, hwas]; decide) with
    hrun | hlock | ⟨x, f, rest, -, ⟨hcall, -⟩ | ⟨hret, -⟩⟩
  · exact hrun (by decide +kernel)
  · exact absurd hlock (by decide +kernel)
  · cases hcall
  · cases hret

end Sys2Proof.Machine
end

section
/-! How a core starts (R99, R135, R263). -/

namespace Sys2Proof.Machine

/-- A core without listed registers reads zero everywhere (R101). -/
theorem read_of_noRegs {k : Core} (h : k.regs = []) (r : BitVec 6) : k.read r = 0 := by
  unfold Core.read
  rw [h]
  exact ite_self _

theorem bne_zero_eq_decide (n : Nat) : (n != 0) = decide (n ≠ 0) := by
  cases n <;> rfl

/-- Settles O31: a start replaces the whole core but for its debug window, and each register it leaves out is at its
default. -/
theorem coreStartState : Obligations.CoreStartState := by
  unfold Obligations.CoreStartState
  intro i s hwf
  dsimp only [startCore]
  rw [coreAt_setCore hwf]
  generalize runImage s (i / 8) false = n
  generalize runImage s (i / 8) true = x
  generalize wdPeriod s = p
  refine ⟨rfl, rfl, ?_, rfl, ?_, read_of_noRegs rfl, rfl, rfl, rfl, rfl, rfl, rfl, rfl, rfl, rfl, rfl, rfl, rfl, rfl,
    rfl, ?_, ?_⟩
  case refine_1 => exact bne_zero_eq_decide _
  case refine_2 => exact fun hx hn => if_pos ⟨hx, hn⟩
  case refine_3 => exact bne_zero_eq_decide _
  case refine_4 => exact fun hp => ⟨if_neg hp, rfl⟩

end Sys2Proof.Machine
end

section
/-! The entry of an exception (R122, R123, R125). -/

namespace Sys2Proof.Machine

variable {s : State} {i : Nat}

/-! ### What is in flight -/

theorem later'_eq_nil_iff {k : Core} : k.later' = [] ↔ ∀ l ∈ k.flight, l.due ≤ k.cyc := by
  simp [Core.later']

/-- A core whose later results and held results cannot both be kept (R125). -/
theorem holdsBoth_eq_false {k : Core} (h : (∀ l ∈ k.flight, l.due ≤ k.cyc) ∨ k.held = []) :
    (!k.later'.isEmpty && !k.held.isEmpty) = false := by
  rcases h with h | h
  · rw [later'_eq_nil_iff.2 h]; rfl
  · rw [h]; exact Bool.and_false _

/-! ### ECAUSE -/

theorem b2n_cases (b : Bool) : b = true ∧ b2n b = 1 ∨ b = false ∧ b2n b = 0 := by
  cases b
  · exact .inr ⟨rfl, rfl⟩
  · exact .inl ⟨rfl, rfl⟩

/-- The fields of ECAUSE at their places (R122). -/
theorem ecauseWord_eq {vec code slot dly : Nat} (sp pmode : Bool) (hv : vec < 32) (hd : dly < 4) (hs : slot < 4)
    (hc : code < 2 ^ 15) :
    ecauseWord vec code slot dly sp pmode = BitVec.ofNat 36 (vec + (if pmode then 2 ^ 6 else 0) + 2 ^ 7 * dly +
      2 ^ 9 * slot + (if sp then 2 ^ 11 else 0) + 2 ^ 12 * code) := by
  unfold ecauseWord
  congr 1
  simp only [packFields]
  rcases b2n_cases sp with ⟨rfl, hsp⟩ | ⟨rfl, hsp⟩ <;> rcases b2n_cases pmode with ⟨rfl, hp⟩ | ⟨rfl, hp⟩ <;>
    simp only [hsp, hp, if_true, Bool.false_eq_true, if_false] <;> omega

/-! ### The core after the entry -/

/-- A core that has entered an exception, but for what the entry leaves in its trace. -/
def Core.entered (vec eval p tgt : Nat) (ec : Word) (k : Core) : Core :=
  let saved := fun (b : Bank) => { b with epc := p, etgt := tgt, ecause := ec, eval := eval % 2 ^ 48 }
  { (holdFlight k).breakSeq with
    secB := if k.sec then saved k.secB else k.secB, norB := if k.sec then k.norB else saved k.norB
    kernel := true, ex := true, pc := ((k.bankOf k.sec).vbase + 64 * vec) % 2 ^ 48, dly := 0, tgt := 0, drought := 0
    resend := false, cleared := none, passCmp := [] }

/-- SP of ECAUSE (R122, R162). -/
def entrySafe (k : Core) (dly : Nat) : Bool :=
  k.later'.isEmpty && k.missing.isEmpty && k.held.isEmpty && dly == 0 && k.seq.isNone

theorem entrySafe_iff {k : Core} {dly : Nat} : entrySafe k dly = true ↔
    (∀ l ∈ k.flight, l.due ≤ k.cyc) ∧ k.missing = [] ∧ k.held = [] ∧ dly = 0 ∧ k.seq = none := by
  simp only [entrySafe, Bool.and_eq_true, List.isEmpty_iff, beq_iff_eq, Option.isNone_iff_eq_none, later'_eq_nil_iff,
    and_assoc]

/-- With EX 0 and room for what is in flight, an exception enters. -/
theorem enterException_core (hc : mwf {} s.cores = true) (hex : (coreAt s i).ex = false)
    (hheld : (∀ l ∈ (coreAt s i).flight, l.due ≤ (coreAt s i).cyc) ∨ (coreAt s i).held = [])
    (vec code slot eval p dly tgt : Nat) :
    ∃ x, coreAt (enterException i vec code slot eval p dly tgt s) i =
      { (coreAt s i).entered vec eval p tgt
          (ecauseWord vec code slot dly (entrySafe (coreAt s i) dly) (coreAt s i).kernel) with trace := x } := by
  obtain ⟨x, hx⟩ := (traceCore_traceOnly i (fun ch y => emitEvent (i % 8) 0 vec (coreAt s i).pc p
    ((((coreAt s i).bankOf (coreAt s i).sec).vbase + 64 * vec) % 2 ^ 48) ch y) s).core hc i
  refine ⟨x, ?_⟩
  unfold enterException
  dsimp only
  rw [hex, holdsBoth_eq_false hheld, Bool.false_or, if_neg Bool.false_ne_true,
    coreAt_setCore ((traceCore_traceOnly ..).wf hc), hx]
  generalize coreAt s i = k
  rcases hsec : k.sec <;> simp [Core.entered, entrySafe, Core.setBank, Core.bankOf, holdFlight, Core.breakSeq, Core.later', hsec]

/-- The bank of the world that takes the exception. -/
theorem entered_bank (vec eval p tgt : Nat) (ec : Word) (k : Core) :
    (if k.sec then (k.entered vec eval p tgt ec).secB else (k.entered vec eval p tgt ec).norB) =
      { (if k.sec then k.secB else k.norB) with epc := p, etgt := tgt, ecause := ec, eval := eval % 2 ^ 48 } := by
  cases hsec : k.sec <;> simp [Core.entered, hsec]

theorem coreAt_congr {t u : State} (h : t.cores = u.cores) (j : Nat) : coreAt t j = coreAt u j :=
  congrArg (fun cs => mget ({} : Core) cs j) h

/-- What a halt by a fault leaves of a core. -/
theorem coreFatal_frame (hc : mwf {} s.cores = true) (r : Report) :
    ∃ w, coreAt (coreFatal i r s) i = { coreAt s i with fatal := true, slot := 0, cause := none, wd := w } := by
  have hwf : mwf {} (report r s).cores = true := by rw [report_cores]; exact hc
  have hcore : coreAt (report r s) i = coreAt s i := coreAt_congr (report_cores ..) i
  unfold coreFatal
  dsimp only
  rw [coreAt_congr (ringDoorbell_cores ..), coreAt_setCore hwf, hcore]
  exact ⟨_, rfl⟩

/-- A core that halts by a fault keeps its address and its mode. -/
theorem coreFatal_effect (hc : mwf {} s.cores = true) (r : Report) :
    let k' := coreAt (coreFatal i r s) i
    k'.fatal = true ∧ k'.pc = (coreAt s i).pc ∧ k'.ex = (coreAt s i).ex := by
  obtain ⟨w, hw⟩ := coreFatal_frame (i := i) hc r
  rw [hw]
  exact ⟨rfl, rfl, rfl⟩

theorem enterException_nested (hex : (coreAt s i).ex = true) (vec code slot eval p dly tgt : Nat) :
    ∃ ec, enterException i vec code slot eval p dly tgt s = doubleFault i ec p s := by
  unfold enterException
  dsimp only
  rw [hex, Bool.true_or, if_pos rfl]
  exact ⟨_, rfl⟩

/-- An open sequence breaks as the exception enters (R132). -/
theorem breakSeq_broken {k : Core} {q : LockSeq} (h : k.breakSeq.seq = some q) : q.broken = true := by
  obtain ⟨q₀, -, rfl⟩ := Option.map_eq_some_iff.1 h
  rfl

/-- Settles O15: with EX 0 from the core after the entry, with EX 1 from the core after the double fault. -/
theorem exceptionEntrySavesAndVectors : Obligations.ExceptionEntrySavesAndVectors := by
  unfold Obligations.ExceptionEntrySavesAndVectors
  intro i vec code slot eval p dly tgt s hc k k' b b'
  refine ⟨fun hex hheld hvec hdly hslot hcode => ?_, fun hex => ?_⟩
  · obtain ⟨x, hx⟩ := enterException_core hc hex hheld vec code slot eval p dly tgt
    have hb' : b' = { b with
        epc := p, etgt := tgt, eval := eval % 2 ^ 48
        ecause := ecauseWord vec code slot dly (entrySafe k dly) k.kernel } := by
      unfold b' k'
      rw [hx]
      exact entered_bank vec ..
    have hpc : ((k.bankOf k.sec).vbase + 64 * vec) % 2 ^ 48 = (b.vbase + 64 * vec) % 2 ^ 48 := rfl
    rw [hb', show k' = _ from hx]
    exact ⟨rfl, rfl, rfl, rfl, ⟨_, entrySafe_iff, ecauseWord_eq _ _ hvec hdly hslot hcode⟩, rfl, rfl, rfl, rfl, rfl, hpc,
      rfl, rfl, rfl, fun _ => breakSeq_broken⟩
  · obtain ⟨ec, hec⟩ := enterException_nested hex vec code slot eval p dly tgt
    obtain ⟨hfatal, hpc, hex'⟩ := coreFatal_effect hc
      (coreReport Cls.fatal Code.coreDoubleFault i [(field ec.toNat 0 27, 27), bundleField p])
    rw [show k' = _ from congrArg (coreAt · i) hec]
    exact ⟨hfatal, hpc, hex'.trans hex⟩

end Sys2Proof.Machine
end

section
/-! The end of a bundle, and the results that land before the next one (R117, R142–R145, R163). -/

namespace Sys2Proof.Machine

variable {s : State} {i : Nat}

/-! ### The end of a bundle -/

theorem coreAt_advance (hc : mwf {} s.cores = true) (i : Nat) :
    let k := coreAt s i
    let k' := coreAt (advance i s) i
    k'.cyc = k.cyc + 1 ∧ k'.regs = k.regs ∧ k'.lk = k.lk ∧ k'.flight = k.flight ∧ k'.slot = 0 ∧ k'.taken = none ∧
      (k'.pc, k'.dly, k'.tgt) = k.after ∧ k'.drought = if k.ie && !k.ex then k.drought + 1 else 0 := by
  dsimp only [advance]
  rw [coreAt_setCore hc]
  exact ⟨rfl, rfl, rfl, rfl, rfl, rfl, rfl, rfl⟩

theorem after_of_taken {k : Core} {t : Nat} (h : k.taken = some t) : k.after = ((k.pc + 16) % 2 ^ 48, 2, t) := by
  simp only [Core.after, h]

theorem after_of_plain {k : Core} (h : k.taken = none) (hd : k.dly = 0) : k.after = ((k.pc + 16) % 2 ^ 48, 0, 0) := by
  simp only [Core.after, h, hd, if_true]

theorem after_of_firstDelay {k : Core} (h : k.taken = none) (hd : k.dly = 2) :
    k.after = ((k.pc + 16) % 2 ^ 48, 1, k.tgt) := by
  simp [Core.after, h, hd]

theorem after_of_lastDelay {k : Core} (h : k.taken = none) (hd : k.dly = 1) : k.after = (k.tgt, 0, 0) := by
  simp [Core.after, h, hd]

/-! ### One landing -/

theorem landFlags_effect (l : Landing) (k : Core) :
    (landFlags l k).dz = (k.dz || l.dz) ∧ (landFlags l k).ov = (k.ov || l.ov) ∧
      (landFlags l k).fs = k.fs ||| BitVec.ofNat 36 (l.flags % 32) ∧ (landFlags l k).regs = k.regs ∧
      (landFlags l k).lk = k.lk ∧ (landFlags l k).flight = k.flight := by
  unfold landFlags
  dsimp only
  split <;> exact ⟨rfl, rfl, rfl, rfl, rfl, rfl⟩

theorem write_zero (k : Core) (v : Double) : k.write 0 v = k := rfl

theorem write_reg {k : Core} {r : Nat} (h0 : 0 < r) (h : r < 64) (v : Double) :
    k.write r v = { k with regs := mset 0 k.regs r v } := by
  rw [Core.write, if_neg (by omega), if_pos h]

theorem write_link (k : Core) (v : Double) : k.write 64 v = { k with lk := v &&& 0o7777777777777760#72 } := rfl

theorem landFlags_lc (l : Landing) (k : Core) : (landFlags l k).lc = k.lc := by
  unfold landFlags
  dsimp only
  split <;> rfl

/-- A write leaves DZ, OV, FS and what is in flight. -/
theorem write_frame (k : Core) (r : Nat) (v : Double) :
    (k.write r v).flight = k.flight ∧ (k.write r v).dz = k.dz ∧ (k.write r v).ov = k.ov ∧ (k.write r v).fs = k.fs := by
  unfold Core.write
  split
  · exact ⟨rfl, rfl, rfl, rfl⟩
  split
  · exact ⟨rfl, rfl, rfl, rfl⟩
  split <;> exact ⟨rfl, rfl, rfl, rfl⟩

/-- No result gives way to itself. -/
theorem yields_self (s : State) (l : Landing) : yields s l l = false := by simp [yields]

/-- Of two results due together on one register, that of the higher slot is written (R145). -/
theorem yields_slots {a b : Landing} (s : State) (hid : a.id ≠ b.id) (hdue : a.due = b.due) (hreg : a.reg = b.reg)
    (h0 : 0 < a.reg) (h64 : a.reg < 64) (hslot : a.slot ≠ b.slot) : yields s a b = decide (a.slot < b.slot) := by
  have hids : (a.id != b.id) = true := bne_iff_ne.2 hid
  have hpos : (a.reg != 0) = true := bne_iff_ne.2 (by omega)
  have hslots : (a.slot == b.slot) = false := beq_eq_false_iff_ne.2 hslot
  have hregs : (a.reg == b.reg) = true := beq_iff_eq.2 hreg
  simp only [yields, hids, hslots, hpos, hdue, hregs, beq_self_eq_true, Bool.true_and, Bool.false_and, Bool.or_false,
    decide_eq_true (show a.reg ≤ 64 by omega)]

/-- A result that gives way brings its flags and no value. -/
theorem landOne_loses {ready : List Landing} {l : Landing} (h : ready.filter (yields s l) ≠ []) :
    landOne i ready l s = setCore i (landFlags l) s := by
  unfold landOne
  dsimp only
  split
  · next hnone => exact absurd hnone h
  · rfl

/-- What becomes of a result that no other takes its register from. -/
theorem landOne_wins {ready : List Landing} {l : Landing} (h : ready.filter (yields s l) = []) :
    landOne i ready l s =
      match (ready.filter fun a => yields s a l).foldl (fun m a => max m (a.slot + 1)) 0 with
      | 0 => setCore i (fun k => k.write l.reg l.val) (setCore i (landFlags l) s)
      | lose + 1 => collide i l.reg l.slot lose false
          (setCore i (fun k => k.write l.reg l.val) (setCore i (landFlags l) s)) := by
  have h' : ready.filter (yields (setCore i (landFlags l) s) l) = [] := h
  simp only [landOne, h']
  rfl

/-- A result due alone is written. -/
theorem landOne_alone (l : Landing) :
    landOne i [l] l s = setCore i (fun k => k.write l.reg l.val) (setCore i (landFlags l) s) := by
  have hnone : [l].filter (yields s l) = [] := List.filter_singleton .. |>.trans (by rw [yields_self]; rfl)
  have hnone' : ([l].filter fun a => yields s a l) = [] := List.filter_singleton .. |>.trans (by rw [yields_self]; rfl)
  rw [landOne_wins hnone, hnone', List.foldl_nil]

/-- A result to which one other gives way is written, and the collision recorded. -/
theorem landOne_collides {ready : List Landing} {l a : Landing} (h : ready.filter (yields s l) = [])
    (ha : ready.filter (fun a => yields s a l) = [a]) :
    landOne i ready l s = collide i l.reg l.slot a.slot false
      (setCore i (fun k => k.write l.reg l.val) (setCore i (landFlags l) s)) := by
  rw [landOne_wins h, ha, List.foldl_cons, List.foldl_nil, Nat.zero_max]

theorem collide_effect (hc : mwf {} s.cores = true) (i reg win lose : Nat) (kind : Bool) :
    (coreAt (collide i reg win lose kind s) i).regs = (coreAt s i).regs ∧
      (coreAt (collide i reg win lose kind s) i).lc = true := by
  obtain ⟨hcores, -⟩ := reportIf_frame (!(coreAt s i).lc) (coreReport Cls.reported Code.coreLandingCollision i
    [(reg, 6), (win, 2), (lose, 2), (b2n kind, 1), bundleField (coreAt s i).pc]) s
  unfold collide
  dsimp only
  rw [coreAt_setCore (by rw [hcores]; exact hc), coreAt_congr hcores]
  exact ⟨rfl, rfl⟩

/-! ### What is due -/

/-- A result that lands at this boundary. -/
def landsNow (k : Core) (l : Landing) : Bool := decide (l.due ≤ k.cyc) && l.miss.isNone

theorem exitStatus_none {k : Core} (h : k.statDue = none) : exitStatus k = k := by
  simp only [exitStatus, h]

/-- Where no status is due, the results due leave those in flight and land one after the other. -/
theorem landNow_eq (hc : mwf {} s.cores = true) (hstat : (coreAt s i).statDue = none) :
    ∃ t, mwf {} t.cores = true ∧
      coreAt t i = { coreAt s i with flight := (coreAt s i).flight.filter fun l => !landsNow (coreAt s i) l } ∧
      landNow i s = ((coreAt s i).flight.filter (landsNow (coreAt s i))).foldl
        (fun u l => landOne i ((coreAt s i).flight.filter (landsNow (coreAt s i))) l u) t := by
  have hexit : coreAt (setCore i exitStatus s) i = coreAt s i := by rw [coreAt_setCore hc, exitStatus_none hstat]
  have hwf : mwf {} (setCore i exitStatus s).cores = true := setCore_wf hc
  refine ⟨setCore i (fun k => { k with flight := k.flight.filter fun l => !landsNow (coreAt s i) l })
    (setCore i exitStatus s), setCore_wf hwf, by rw [coreAt_setCore hwf, hexit], ?_⟩
  unfold landNow landsNow
  dsimp only
  rw [hexit]

/-- The core without the results that land now. -/
def withoutDue (k : Core) : Core := { k with flight := k.flight.filter fun l => !landsNow k l }

/-- What one result due alone leaves. -/
theorem landNow_single (hc : mwf {} s.cores = true) (hstat : (coreAt s i).statDue = none) {l : Landing}
    (hl : (coreAt s i).flight.filter (landsNow (coreAt s i)) = [l]) :
    coreAt (landNow i s) i = (landFlags l (withoutDue (coreAt s i))).write l.reg l.val := by
  obtain ⟨t, hwf, ht, hland⟩ := landNow_eq hc hstat
  rw [hland, hl, List.foldl_cons, List.foldl_nil, landOne_alone, coreAt_setCore (setCore_wf hwf), coreAt_setCore hwf, ht,
    withoutDue]

/-- The core after the landing of a result that wins a register and records the collision. -/
theorem landOne_collides_core (hc : mwf {} s.cores = true) {ready : List Landing} {l a : Landing}
    (h : ready.filter (yields s l) = []) (ha : ready.filter (fun a => yields s a l) = [a]) (h0 : 0 < l.reg) (h64 : l.reg < 64) :
    (coreAt (landOne i ready l s) i).regs = mset 0 (coreAt s i).regs l.reg l.val ∧
      (coreAt (landOne i ready l s) i).lc = true := by
  obtain ⟨hregs, hlc⟩ := collide_effect (s := setCore i (fun k => k.write l.reg l.val) (setCore i (landFlags l) s)) (i := i)
    (setCore_wf (setCore_wf hc)) l.reg l.slot a.slot false
  obtain ⟨-, -, -, hflags, -⟩ := landFlags_effect l (coreAt s i)
  rw [landOne_collides h ha]
  refine ⟨?_, hlc⟩
  rw [hregs, coreAt_setCore (setCore_wf hc), coreAt_setCore hc, write_reg h0 h64, hflags]

/-- Two results due together on one register, in either order of their slots: the winner's value stands. -/
theorem landNow_pair (hc : mwf {} s.cores = true) (hstat : (coreAt s i).statDue = none) {a b : Landing}
    (hab : (coreAt s i).flight.filter (landsNow (coreAt s i)) = [a, b]) (hid : a.id ≠ b.id) (hdue : a.due = b.due)
    (hreg : a.reg = b.reg) (h0 : 0 < a.reg) (h64 : a.reg < 64) (hslot : a.slot ≠ b.slot) :
    (coreAt (landNow i s) i).regs = mset 0 (coreAt s i).regs a.reg (if a.slot < b.slot then b.val else a.val) ∧
      (coreAt (landNow i s) i).lc = true := by
  obtain ⟨t, hwf, ht, hland⟩ := landNow_eq hc hstat
  have hyab (u : State) : yields u a b = decide (a.slot < b.slot) := yields_slots u hid hdue hreg h0 h64 hslot
  have hyba (u : State) : yields u b a = decide (b.slot < a.slot) :=
    yields_slots u hid.symm hdue.symm hreg.symm (hreg ▸ h0) (hreg ▸ h64) hslot.symm
  rw [hland, hab, List.foldl_cons, List.foldl_cons, List.foldl_nil]
  rcases Nat.lt_or_gt_of_ne hslot with hlt | hlt
  · have hlose : landOne i [a, b] a t = setCore i (landFlags a) t :=
      landOne_loses (by simp [yields_self, hyab, hlt])
    obtain ⟨-, -, -, hflags, -⟩ := landFlags_effect a (coreAt t i)
    obtain ⟨hregs, hlc⟩ := landOne_collides_core (s := setCore i (landFlags a) t) (i := i) (ready := [a, b]) (l := b) (a := a)
      (setCore_wf hwf) (by simp [yields_self, hyba, hlt.le]) (by simp [yields_self, hyab, hlt]) (hreg ▸ h0) (hreg ▸ h64)
    rw [hlose, if_pos hlt]
    rw [coreAt_setCore hwf, hflags, ht, ← hreg] at hregs
    exact ⟨hregs, hlc⟩
  · obtain ⟨hregs, hlc⟩ := landOne_collides_core (s := t) (i := i) (ready := [a, b]) (l := a) (a := b)
      hwf (by simp [yields_self, hyab, hlt.le]) (by simp [yields_self, hyba, hlt]) h0 h64
    set u := landOne i [a, b] a t
    have huwf : mwf {} u.cores = true := (landOne_coreWork ..).wf hwf
    have hlose : landOne i [a, b] b u = setCore i (landFlags b) u := landOne_loses (by simp [yields_self, hyba, hlt])
    obtain ⟨-, -, -, hflags, -⟩ := landFlags_effect b (coreAt u i)
    rw [hlose, if_neg hlt.not_gt, coreAt_setCore huwf, hflags, hregs, ht]
    exact ⟨rfl, (landFlags_lc ..).trans hlc⟩

/-- Settles O17: the end of a bundle by its address and delay state, a landing by the results due. -/
theorem bundlesEndAndResultsLand : Obligations.BundlesEndAndResultsLand := by
  unfold Obligations.BundlesEndAndResultsLand
  refine ⟨fun i s hc => ?_, fun c s hc hboundary hstat hrun => ?_⟩
  · intro k k'
    obtain ⟨hcyc, hregs, hlk, hflight, hslot, htaken, hafter, hdrought⟩ := coreAt_advance hc i
    have hnext {p d g : Nat} (h : k.after = (p, d, g)) : k'.pc = p ∧ k'.dly = d ∧ k'.tgt = g := by
      rw [h] at hafter
      simpa only [Prod.mk.injEq] using hafter
    refine ⟨hcyc, hregs, hlk, hflight, hslot, htaken, fun ht hd => ?_, fun ht hd => hnext (after_of_firstDelay ht hd),
      fun ht hd => ?_, fun t ht => hnext (after_of_taken ht), fun hie hex => ?_, fun hoff => ?_,
      fun j hj => coreAt_setCore_ne hc hj _⟩
    · obtain ⟨hpc, hdly, -⟩ := hnext (after_of_plain ht hd)
      exact ⟨hpc, hdly⟩
    · obtain ⟨hpc, hdly, -⟩ := hnext (after_of_lastDelay ht hd)
      exact ⟨hpc, hdly⟩
    · exact hdrought.trans (if_pos (by rw [hie, hex]; rfl))
    · exact hdrought.trans (if_neg (by rcases hoff with h | h <;> rw [h] <;> simp))
  · intro i k due
    have hexec : exec (.resultLanding c) s = .next (landNow i s) := by
      show execResultLanding c s = _
      rw [execResultLanding, if_pos hboundary, landDue, if_neg (by rw [hrun]; exact Bool.false_ne_true)]
    refine ⟨_, hexec, fun l hl => ?_, fun a b hab hid hdue hreg h0 h64 hslot =>
      landNow_pair hc hstat hab hid hdue hreg h0 h64 hslot⟩
    obtain ⟨hdz, hov, hfs, hregs, hlk, hflight⟩ := landFlags_effect l (withoutDue k)
    obtain ⟨hflight', hdz', hov', hfs'⟩ := write_frame (landFlags l (withoutDue k)) l.reg l.val
    rw [landNow_single hc hstat hl]
    refine ⟨hflight'.trans hflight, hdz'.trans hdz, hov'.trans hov, hfs'.trans hfs, fun hr => ?_, fun h0 h64 => ?_,
      fun hr => ?_⟩
    · rw [hr, write_zero]
      exact ⟨hregs, hlk⟩
    · rw [write_reg h0 h64]
      exact ⟨congrArg (mset 0 · l.reg l.val) hregs, hlk⟩
    · rw [hr, write_link]
      exact ⟨hregs, rfl⟩

end Sys2Proof.Machine
end

section
/-! The control group (R116–R118, R132). -/

namespace Sys2Proof.Machine

variable {s : State} {x : Issue}

theorem ctlCause_none {ok : Bool} {k : Core} (h3 : x.slot = 3) (hok : ok = true) (hd : k.dly = 0) : ctlCause x ok k = none := by
  rw [ctlCause, slotCause_three h3, hok, delayCause_out hd]
  rfl

/-- A syllable of the control group acts on the state in which an open sequence has broken (R132). -/
theorem control_issues {c : Instr} {word : Nat} {ok : Bool} {act : Nat → State → State} (h : MayIssue x s) (h3 : x.slot = 3)
    (hd : (openedCore x s).dly = 0) (hgo : stopped (opened x s) (issueIx x) = false) (hok : ok = true)
    (hrun : exec c s = control x word ok act s) :
    Issues c x false s (act (issueIx x) (setCore (issueIx x) Core.breakSeq (opened x s))) := by
  rw [Issues, exec_acts h h3 (ctlCause_none h3 hok hd) hrun, unlessStopped_acts hgo]
  rfl

/-- A conditional branch by its predicate: the outcome enters the trace (R116, R416). -/
theorem condBranch_issues {c : Instr} {op : Nat} {p : Double → Bool} {P : Prop} [Decidable P] {a : BitVec 6} {o : BitVec 21}
    (h : MayIssue x s) (h3 : x.slot = 3) (hd : (openedCore x s).dly = 0)
    (hgo : stopped (opened x s) (issueIx x) = false) (hrun : exec c s = condBranch op p x a o s) :
    let i := issueIx x
    let s1 := setCore i Core.breakSeq (opened x s)
    let k := coreAt s1 i
    (p (k.read a) = true ↔ P) →
      Issues c x false s
        (if P then branchTo i (bundleAt k.pc o.toInt) (traceBranch i true (traceIssue i k.pc s1))
          else traceBranch i false (traceIssue i k.pc s1)) := by
  intro i s1 k hP
  have hissue := control_issues h h3 hd hgo rfl hrun
  by_cases hp : P
  · rw [if_pos hp]
    have ht : p ((coreAt (setCore (issueIx x) Core.breakSeq (opened x s)) (issueIx x)).read a) = true := hP.2 hp
    simpa only [ht, if_true] using hissue
  · rw [if_neg hp]
    have ht : p ((coreAt (setCore (issueIx x) Core.breakSeq (opened x s)) (issueIx x)).read a) = false :=
      Bool.eq_false_iff.2 fun hc => hp (hP.1 hc)
    simpa only [ht, Bool.false_eq_true, if_false] using hissue

/-- Settles O11: each syllable is a control-group syllable that acts. -/
theorem branchesNameTheirTargets : Obligations.BranchesNameTheirTargets := by
  unfold Obligations.BranchesNameTheirTargets
  intro x off a o f m s s1 h h3 hd hgo i hs1
  subst hs1
  intro k plus goes links traced noted v
  have acts {c : Instr} {word : Nat} {ok : Bool} {act : Nat → State → State} (hok : ok = true)
      (hrun : exec c s = control x word ok act s) := control_issues h h3 hd hgo hok hrun
  have hbr := acts rfl (show exec (.br x off) s = execBr x off s from rfl)
  have hcall := acts rfl (show exec (.call x off) s = execCall x off s from rfl)
  refine ⟨hbr, condBranch_issues h h3 hd hgo (show _ = execBz x a o s from rfl) beq_iff_eq,
    condBranch_issues h h3 hd hgo (show _ = execBnz x a o s from rfl) bne_iff_ne,
    condBranch_issues h h3 hd hgo (show _ = execBltz x a o s from rfl) ?_,
    condBranch_issues h h3 hd hgo (show _ = execBgez x a o s from rfl) ?_, hcall, fun hdest hb hf => ?_,
    fun hdest ha hb hf => ?_, fun ha => ?_⟩
  · rw [BitVec.msb_eq_toInt, decide_eq_true_iff]
  · rw [Bool.not_eq_true', BitVec.msb_eq_toInt, decide_eq_false_iff_not, not_lt]
  · have hok : (f.dest == 0 && f.b == 0 && f.func == 0) = true := by simp [hdest, hb, hf]
    have hjr := acts hok (show exec (.jr x f) s = execJr x f s from rfl)
    have hcallr := acts hok (show exec (.callr x f) s = execCallr x f s from rfl)
    exact ⟨hjr, hcallr⟩
  · have hret := acts (by simp [hdest, ha, hb, hf]) (show exec (.ret x f) s = execRet x f s from rfl)
    exact hret
  · have hlapc := acts (by simp [ha]) (show exec (.lapc x m) s = execLapc x m s from rfl)
    exact hlapc

end Sys2Proof.Machine
end

section
/-! The special registers under MFS and MTS (R102, R103, R208). -/

namespace Sys2Proof.Machine

variable {s : State} {x : Issue} {m : ImmForm} {i n : Nat}

/-! ### The rows of the special-register table -/

theorem srRule_kernelRead (h : n ∈ [0o02, 0o03, 0o04, 0o05, 0o06, 0o07, 0o10, 0o20, 0o21, 0o22, 0o23, 0o24, 0o30]) :
    ∃ w o, srRule s i n = some ⟨(coreAt s i).kernel, w, o⟩ := by
  simp only [List.mem_cons, List.not_mem_nil, or_false] at h
  rcases h with rfl | rfl | rfl | rfl | rfl | rfl | rfl | rfl | rfl | rfl | rfl | rfl | rfl <;> exact ⟨_, _, rfl⟩

theorem srRule_kernelWrite (h : n ∈ [0o00, 0o03, 0o04, 0o05, 0o06, 0o07, 0o10, 0o20, 0o21]) :
    ∃ r, srRule s i n = some ⟨r, (coreAt s i).kernel, false⟩ := by
  simp only [List.mem_cons, List.not_mem_nil, or_false] at h
  rcases h with rfl | rfl | rfl | rfl | rfl | rfl | rfl | rfl | rfl <;> exact ⟨_, rfl⟩

theorem srRule_ways (h : n ∈ [0o22, 0o23]) :
    srRule s i n = some ⟨(coreAt s i).kernel, (coreAt s i).kernel && ownWorld s i, false⟩ := by
  simp only [List.mem_cons, List.not_mem_nil, or_false] at h
  rcases h with rfl | rfl <;> rfl

theorem srRule_readOnly (h : n ∈ [0o02, 0o12, 0o13, 0o24, 0o30]) : ∃ r, srRule s i n = some ⟨r, true, true⟩ := by
  simp only [List.mem_cons, List.not_mem_nil, or_false] at h
  rcases h with rfl | rfl | rfl | rfl | rfl <;> exact ⟨_, rfl⟩

theorem srRule_open (h : n ∈ [0o01, 0o14]) : srRule s i n = some ⟨true, true, false⟩ := by
  simp only [List.mem_cons, List.not_mem_nil, or_false] at h
  rcases h with rfl | rfl <;> rfl

theorem srRule_wra : srRule s i 0o11 = some ⟨(coreAt s i).kernel && (coreAt s i).sec,
    (coreAt s i).kernel && (coreAt s i).sec, false⟩ := rfl

/-- A number with a row is an assigned one. -/
theorem srNamed_of_rule {imm : BitVec 15} {r : SrRule} (h : srRule s i imm.toNat = some r) : srNamed imm = true := by
  unfold srRule at h
  dsimp only at h
  unfold srNamed
  generalize imm.toNat = n at h ⊢
  split at h
  case h_20 => exact absurd h (by simp)
  all_goals rfl

/-! ### The values that MFS lands -/

theorem cstatWord_eq (k : Core) :
    let bit := fun (c : Bool) => if c then 1 else 0
    cstatWord k = bit k.kernel + 2 * bit k.sec + 8 * bit k.lc + 16 * bit k.dr + 32 * bit k.dz + 64 * bit k.ov +
      128 * bit k.lb + 256 * bit k.ie + 512 * bit k.tlc + 1024 * bit k.tdr + 2048 * bit k.seq.isSome + 4096 * bit k.ex +
      8192 * bit (!k.held.isEmpty) := by
  have hbit (b : Bool) : b2n b % 2 = if b then 1 else 0 := by cases b <;> rfl
  simp only [cstatWord, packFields, pow_one, hbit]
  omega

theorem islOf_lt (s : State) (t : Nat) : islOf s t < 64 := by
  unfold islOf physOf
  cases mget none s.cfg.lmap t with
  | none => exact Nat.zero_lt_succ _
  | some p => exact p.isLt.trans (by decide)

theorem issueIx_lt (x : Issue) : issueIx x < 512 := by
  have htile := x.tile.isLt
  have hcore := x.core.isLt
  unfold issueIx
  omega

theorem cidWord_eq (h : i < 512) : cidWord s i = i + 512 * islOf s (i / 8) := by
  have hisl := islOf_lt s (i / 8)
  simp only [cidWord, packFields]
  omega

theorem srRead_cstat (s : State) (i : Nat) : srRead s i 0o00 = BitVec.ofNat 72 (cstatWord (coreAt s i)) := rfl

theorem srRead_fs (s : State) (i : Nat) : srRead s i 0o01 = (coreAt s i).fs.setWidth 72 := BitVec.ofNat_toNat ..

theorem srRead_ctx (s : State) (i : Nat) : srRead s i 0o03 = (coreAt s i).ctx.setWidth 72 := BitVec.ofNat_toNat ..

theorem srRead_ecause (s : State) (i : Nat) :
    srRead s i 0o07 = ((coreAt s i).bankOf (coreAt s i).sec).ecause.setWidth 72 := BitVec.ofNat_toNat ..

theorem srRead_cid (s : State) (x : Issue) :
    srRead s (issueIx x) 0o13 = BitVec.ofNat 72 (issueIx x + 512 * islOf s (issueIx x / 8)) :=
  congrArg (BitVec.ofNat 72) (cidWord_eq (issueIx_lt x))

theorem srRead_lk (s : State) (i : Nat) : srRead s i 0o14 = (coreAt s i).lk :=
  (BitVec.ofNat_toNat ..).trans (BitVec.setWidth_eq _)

/-! ### MFS -/

theorem mfs_lands {r : SrRule} (h : MayIssue x s) (h3 : x.slot = 3) (hgo : stopped (opened x s) (issueIx x) = false)
    (ha : m.a = 0) (hr : srRule (opened x s) (issueIx x) m.imm.toNat = some r) (hread : r.read = true) :
    ResultIssues (.mfs x m) x false 1 m.dest (srRead (opened x s) (issueIx x) m.imm.toNat) s := by
  have hcause : sysCause x (sysOk m false true false && srNamed m.imm) = none :=
    sysCause_none h3 (by rw [srNamed_of_rule hr]; simp [sysOk, ha])
  have hexec := exec_acts (c := .mfs x m) (ill := fun _ => _) h h3 hcause (show _ = execMfs x m s from rfl)
  rw [ResultIssues, Issues, hexec, hr, Option.map_some, Option.getD_some, hread, needMode_acts hgo, h3]
  rfl

theorem mfs_refused {r : SrRule} (h : MayIssue x s) (h3 : x.slot = 3) (ha : m.a = 0)
    (hr : srRule (opened x s) (issueIx x) m.imm.toNat = some r) (hread : r.read = false) :
    Issues (.mfs x m) x false s (addCause (issueIx x) ⟨3, 3, 1, 0, immWord 0o700 m⟩ (opened x s)) := by
  have hcause : sysCause x (sysOk m false true false && srNamed m.imm) = none :=
    sysCause_none h3 (by rw [srNamed_of_rule hr]; simp [sysOk, ha])
  have hexec := exec_acts (c := .mfs x m) (ill := fun _ => _) h h3 hcause (show _ = execMfs x m s from rfl)
  rw [Issues, hexec, hr, Option.map_some, Option.getD_some, hread, needMode, if_neg Bool.false_ne_true, s3Cause,
    closeSyllable_addCause]

/-! ### MTS -/

theorem mts_acts {r : SrRule} (h : MayIssue x s) (h3 : x.slot = 3) (hd : m.dest = 0)
    (hr : srRule (opened x s) (issueIx x) m.imm.toNat = some r) :
    Issues (.mts x m) x false s (needMode (issueIx x) (immWord 0o701 m) r.write
      (fun s => if r.ro then s else setCore (issueIx x) (fun k => { k with later := k.later ++ [(m.imm.toNat, k.read m.a)] }) s)
      (opened x s)) := by
  have hcause : sysCause x (sysOk m true false false && srNamed m.imm) = none :=
    sysCause_none h3 (by rw [srNamed_of_rule hr]; simp [sysOk, hd])
  have hexec := exec_acts (c := .mts x m) (ill := fun _ => _) h h3 hcause (show _ = execMts x m s from rfl)
  rw [Issues, hexec, hr, Option.getD_some]

theorem mts_writes {r : SrRule} (h : MayIssue x s) (h3 : x.slot = 3) (hgo : stopped (opened x s) (issueIx x) = false)
    (hd : m.dest = 0) (hr : srRule (opened x s) (issueIx x) m.imm.toNat = some r) (hw : r.write = true) (ho : r.ro = false) :
    Issues (.mts x m) x false s
      (setCore (issueIx x) (fun k => { k with later := k.later ++ [(m.imm.toNat, k.read m.a)] }) (opened x s)) := by
  have hacts := mts_acts h h3 hd hr
  rw [hw, needMode_acts hgo, ho, if_neg Bool.false_ne_true] at hacts
  exact hacts

theorem mts_ignored {r : SrRule} (h : MayIssue x s) (h3 : x.slot = 3) (hgo : stopped (opened x s) (issueIx x) = false)
    (hd : m.dest = 0) (hr : srRule (opened x s) (issueIx x) m.imm.toNat = some r) (hw : r.write = true) (ho : r.ro = true) :
    Issues (.mts x m) x false s (opened x s) := by
  have hacts := mts_acts h h3 hd hr
  rw [hw, needMode_acts hgo, ho, if_pos rfl] at hacts
  exact hacts

theorem mts_refused {r : SrRule} (h : MayIssue x s) (h3 : x.slot = 3) (hd : m.dest = 0)
    (hr : srRule (opened x s) (issueIx x) m.imm.toNat = some r) (hw : r.write = false) :
    Issues (.mts x m) x false s (addCause (issueIx x) ⟨3, 3, 1, 0, immWord 0o701 m⟩ (opened x s)) := by
  have hacts := mts_acts h h3 hd hr
  rw [hw, needMode, if_neg Bool.false_ne_true, s3Cause] at hacts
  exact hacts

/-- What a core's record becomes depends on the record alone. -/
theorem setCore_congr {f g : Core → Core} (h : f (coreAt s i) = g (coreAt s i)) : setCore i f s = setCore i g s := by
  unfold setCore mmod
  rw [show f (mget {} s.cores i) = _ from h]
  rfl

/-- Settles O12: by the row of the number in the special-register table. -/
theorem specialRegisterAccess : Obligations.SpecialRegisterAccess := by
  unfold Obligations.SpecialRegisterAccess
  intro x m s h h3 hgo i k b n lands bit
  refine ⟨fun ha => ?_, fun hd => ⟨fun hmay => ?_, fun hn => ?_, fun hno => ?_⟩⟩
  · have reads {c : Nat} {r : SrRule} {v : Double} (hn : m.imm.toNat = c) (hr : srRule (opened x s) i c = some r)
        (hread : r.read = true) (hv : srRead (opened x s) i c = v) : lands v :=
      hv ▸ hn ▸ mfs_lands h h3 hgo ha (hn ▸ hr) hread
    have privileged {c : Nat} {v : Double} (hk : k.kernel = true) (hn : m.imm.toNat = c)
        (hc : c ∈ [0o02, 0o03, 0o04, 0o05, 0o06, 0o07, 0o10, 0o20, 0o21, 0o22, 0o23, 0o24, 0o30])
        (hv : srRead (opened x s) i c = v) : lands v := by
      obtain ⟨w, o, hr⟩ := srRule_kernelRead (s := opened x s) (i := i) hc
      exact reads hn hr hk hv
    have hcstat := (srRead_cstat (opened x s) i).trans (congrArg (BitVec.ofNat 72) (cstatWord_eq k))
    refine ⟨fun hn => reads hn (r := ⟨true, k.kernel, false⟩) rfl rfl hcstat,
      fun hn => reads hn (srRule_open (by decide)) rfl (srRead_fs ..),
      fun hn => reads hn (r := ⟨true, true, true⟩) rfl rfl rfl,
      fun hn => reads hn (r := ⟨true, true, true⟩) rfl rfl (srRead_cid ..),
      fun hn => reads hn (srRule_open (by decide)) rfl (srRead_lk ..),
      fun hk => ⟨fun hn => privileged hk hn (by decide) (srRead_ctx ..), fun hn => privileged hk hn (by decide) rfl,
        fun hn => privileged hk hn (by decide) rfl, fun hn => privileged hk hn (by decide) rfl,
        fun hn => privileged hk hn (by decide) (srRead_ecause ..), fun hn => privileged hk hn (by decide) rfl,
        fun hn hsec => reads hn srRule_wra (Bool.and_eq_true_iff.2 ⟨hk, hsec⟩) rfl, fun hn => ?_⟩, fun hno => ?_⟩
    · refine privileged hk rfl ?_ rfl
      simp only [List.mem_cons, List.not_mem_nil, or_false, n] at hn ⊢
      omega
    · by_cases hwra : m.imm.toNat = 0o11
      · refine mfs_refused h h3 ha (hwra ▸ srRule_wra) ?_
        rcases hno with ⟨hk, -⟩ | ⟨hsec, -⟩
        · exact Bool.and_eq_false_iff.2 (.inl hk)
        · exact Bool.and_eq_false_iff.2 (.inr hsec)
      · obtain ⟨hk, hn⟩ := hno.resolve_right fun hsec => hwra hsec.2
        obtain ⟨w, o, hr⟩ := srRule_kernelRead (s := opened x s) (i := i) (n := m.imm.toNat) (by
          simp only [List.mem_cons, List.not_mem_nil, or_false, n] at hn ⊢
          omega)
        exact mfs_refused h h3 ha hr hk
  · have writes {r : SrRule} (hr : srRule (opened x s) i m.imm.toNat = some r) (hw : r.write = true) (ho : r.ro = false) :
        Issues (.mts x m) x false s (setCore i (fun c => { c with later := c.later ++ [(n, k.read m.a)] }) (opened x s)) := by
      rw [setCore_congr (g := fun c => { c with later := c.later ++ [(n, c.read m.a)] }) rfl]
      exact mts_writes h h3 hgo hd hr hw ho
    rcases hmay with ⟨hk, hn⟩ | hn | ⟨hk, hsec, hn⟩ | ⟨hk, hown, hn⟩
    · obtain ⟨r, hr⟩ := srRule_kernelWrite (s := opened x s) (i := i) hn
      exact writes hr hk rfl
    · exact writes (srRule_open hn) rfl rfl
    · exact writes (r := ⟨k.kernel && k.sec, k.kernel && k.sec, false⟩)
        ((show m.imm.toNat = 0o11 from hn) ▸ srRule_wra)
        (Bool.and_eq_true_iff.2 ⟨hk, hsec⟩) rfl
    · exact writes (srRule_ways hn) (Bool.and_eq_true_iff.2 ⟨hk, beq_iff_eq.2 hown⟩) rfl
  · obtain ⟨r, hr⟩ := srRule_readOnly (s := opened x s) (i := i) hn
    exact mts_ignored h h3 hgo hd hr rfl rfl
  · have refuses {r : SrRule} (hr : srRule (opened x s) i m.imm.toNat = some r) (hw : r.write = false) :=
      mts_refused h h3 hd hr hw
    by_cases hwra : m.imm.toNat = 0o11
    · refine refuses (r := ⟨k.kernel && k.sec, k.kernel && k.sec, false⟩) (hwra ▸ srRule_wra) ?_
      rcases hno with ⟨hk, -⟩ | ⟨hsec, -⟩ | ⟨-, hn⟩
      · exact Bool.and_eq_false_iff.2 (.inl hk)
      · exact Bool.and_eq_false_iff.2 (.inr hsec)
      · rw [show n = 0o11 from hwra] at hn
        exact absurd hn (by decide)
    · by_cases hway : n ∈ [0o22, 0o23]
      · refine refuses (srRule_ways hway) (Bool.and_eq_false_iff.2 ?_)
        rcases hno with ⟨hk, -⟩ | ⟨-, hn⟩ | ⟨hown, -⟩
        · exact .inl hk
        · exact absurd hn hwra
        · exact .inr (beq_eq_false_iff_ne.2 hown)
      · obtain ⟨hk, hn⟩ := hno.resolve_right fun hrest => hrest.elim (fun hsec => hwra hsec.2) fun hown => hway hown.2
        obtain ⟨r, hr⟩ := srRule_kernelWrite (s := opened x s) (i := i) (n := n) (by
          simp only [List.mem_cons, List.not_mem_nil, or_false, n] at hn hway ⊢
          omega)
        exact refuses hr hk

end Sys2Proof.Machine
end

section
/-! The integer group: the operations in exact arithmetic, and the forms that issue them (R104, R107, R109, R166,
R167). -/

namespace Sys2Proof.Machine

variable {s : State} {x : Issue} {n : Nat}

/-! ### The operations -/

theorem shiftCount_eq_countBits (b : BitVec n) : shiftCount b = countBits b := by
  unfold shiftCount countBits
  split <;> rfl

theorem calcAdd_exact (a b : BitVec n) : calcAdd n a b = BitVec.ofNat n (a.toNat + b.toNat) := by
  rw [calcAdd, BitVec.ofNat_add, BitVec.ofNat_toNat, BitVec.ofNat_toNat, BitVec.setWidth_eq, BitVec.setWidth_eq]

theorem calcSub_exact (a b : BitVec n) : calcSub n a b = BitVec.ofInt n (a.toInt - b.toInt) := by
  apply BitVec.eq_of_toInt_eq
  rw [calcSub, BitVec.toInt_sub, BitVec.toInt_ofInt]

theorem calcShl_exact (a b : BitVec n) : calcShl n a b = BitVec.ofNat n (a.toNat * 2 ^ countBits b) := by
  apply BitVec.eq_of_toNat_eq
  rw [calcShl, BitVec.toNat_shiftLeft, BitVec.toNat_ofNat, Nat.shiftLeft_eq, shiftCount_eq_countBits]

theorem calcShr_exact (a b : BitVec n) : calcShr n a b = BitVec.ofNat n (a.toNat / 2 ^ countBits b) := by
  apply BitVec.eq_of_toNat_eq
  rw [calcShr, BitVec.toNat_ushiftRight, BitVec.toNat_ofNat, Nat.shiftRight_eq_div_pow, shiftCount_eq_countBits,
    Nat.mod_eq_of_lt ((Nat.div_le_self ..).trans_lt a.isLt)]

theorem calcSar_exact (a b : BitVec n) : calcSar n a b = BitVec.ofInt n (a.toInt / 2 ^ countBits b) := by
  rw [calcSar, ← shiftCount_eq_countBits]
  rw [BitVec.sshiftRight, Int.shiftRight_eq_div_pow]
  norm_cast

theorem calcRol_exact (a b : BitVec n) :
    calcRol n a b = (a <<< (countBits b % n)) ||| (a >>> (n - countBits b % n)) := by
  rw [calcRol, BitVec.rotateLeft_def, Nat.mod_mod, shiftCount_eq_countBits]

theorem calcEq_exact (a b : BitVec n) : calcEq n a b = if a = b then 1 else 0 := by
  simp only [calcEq, truth, beq_iff_eq]

theorem calcLt_exact (a b : BitVec n) : calcLt n a b = if a.toInt < b.toInt then 1 else 0 := by
  simp only [calcLt, truth, BitVec.slt_iff_toInt_lt]

theorem calcLtu_exact (a b : BitVec n) : calcLtu n a b = if a.toNat < b.toNat then 1 else 0 := by
  simp only [calcLtu, truth, BitVec.ult_iff_toNat_lt]

/-- Where neither of two numbers is below the other they are one. -/
theorem calcMin_exact (a b : BitVec n) : calcMin n a b = if a.toInt ≤ b.toInt then a else b := by
  simp only [calcMin, BitVec.slt_iff_toInt_lt]
  rcases lt_trichotomy a.toInt b.toInt with h | h | h
  · rw [if_pos h, if_pos h.le]
  · rw [BitVec.eq_of_toInt_eq h, ite_self, ite_self]
  · rw [if_neg h.not_gt, if_neg h.not_ge]

theorem calcMax_exact (a b : BitVec n) : calcMax n a b = if a.toInt ≤ b.toInt then b else a := by
  simp only [calcMax, BitVec.slt_iff_toInt_lt]
  rcases lt_trichotomy a.toInt b.toInt with h | h | h
  · rw [if_pos h, if_pos h.le]
  · rw [BitVec.eq_of_toInt_eq h, ite_self, ite_self]
  · rw [if_neg h.not_gt, if_neg h.not_ge]

/-! ### The forms -/

theorem computes_issues {c : Instr} {word lat : Nat} {long : Bool} {dest : BitVec 6} {val : Core → Double} (h : MayIssue x s)
    (h2 : x.slot ≠ 2) (hrun : exec c s = .next (computes x word none long lat dest val s)) :
    ResultIssues c x long lat dest (val (openedCore x s)) s := by
  rw [ResultIssues, Issues, hrun, computes, syllable_issues h, runSyllable_acts _ rfl fun e => absurd e h2]

theorem regCause_none {slots : List Nat} {f : RegForm} (h : x.slot.val ∈ slots) (h3 : x.slot ≠ 3)
    (hf : f.func = 0 ∨ f.func = 0o777#9) : regCause x slots f = none := by
  rw [regCause, if_neg fun e => h3 e.2, slotCause_inside h]
  rcases hf with hf | hf <;> simp [orCause, fieldCause, hf]

/-- A register form of the integer group, by its operation in exact arithmetic. -/
theorem intReg_issues {c : Instr} {op : Nat} {g g' : (n : Nat) → BitVec n → BitVec n → BitVec n} {wd : Width} {f : RegForm}
    (h : MayIssue x s) (h01 : x.slot = 0 ∨ x.slot = 1) (hf : f.func = 0 ∨ f.func = 0o777#9)
    (hrun : exec c s = intReg op g x wd f s) (hg : ∀ (n : Nat) (a b : BitVec n), g n a b = g' n a b) :
    ResultIssues c x (f.func == 0o777#9) 1 f.dest (atWidth wd g' ((openedCore x s).read f.a)
      (if f.func = 0o777#9 then x.next.signExtend 72 else (openedCore x s).read f.b)) s := by
  obtain rfl : g = g' := funext fun n => funext fun a => funext fun b => hg n a b
  have hcause : regCause x [0, 1] f = none :=
    regCause_none (by rcases h01 with e | e <;> simp [e]) (by rcases h01 with e | e <;> simp [e]) hf
  rw [← alu_eq_atWidth]
  refine computes_issues (word := regWord (wOp op wd) f)
    (val := fun k => alu wd g (k.read f.a) (srcB k x f)) h (by rcases h01 with e | e <;> simp [e]) ?_
  rw [hrun, intReg, hcause]
  rfl

/-- An immediate form of the integer group. -/
theorem intImm_issues {c : Instr} {op : Nat} {g g' : (n : Nat) → BitVec n → BitVec n → BitVec n} {wd : Width} {f : ImmForm}
    (h : MayIssue x s) (h01 : x.slot = 0 ∨ x.slot = 1) (hrun : exec c s = intImm op g x wd f s)
    (hg : ∀ (n : Nat) (a b : BitVec n), g n a b = g' n a b) :
    ResultIssues c x false 1 f.dest (atWidth wd g' ((openedCore x s).read f.a) (f.imm.signExtend 72)) s := by
  obtain rfl : g = g' := funext fun n => funext fun a => funext fun b => hg n a b
  have hcause : slotCause x [0, 1] = none := slotCause_inside (by rcases h01 with e | e <;> simp [e])
  rw [← alu_eq_atWidth]
  refine computes_issues (word := immWord (wOp op wd) f)
    (val := fun k => alu wd g (k.read f.a) (immVal f)) h (by rcases h01 with e | e <;> simp [e]) ?_
  rw [hrun, intImm, hcause]

end Sys2Proof.Machine

namespace Sys2Proof

open Machine

/-- Settles O2: each form is the form of its operation. -/
theorem integerForms : Obligations.IntegerForms := by
  unfold Obligations.IntegerForms
  intro x wd f m s h h01
  have same (g : (n : Nat) → BitVec n → BitVec n → BitVec n) (n : Nat) (a b : BitVec n) : g n a b = g n a b := rfl
  have imm {c : Instr} {op : Nat} {g g' : (n : Nat) → BitVec n → BitVec n → BitVec n}
      (hg : ∀ (n : Nat) (a b : BitVec n), g n a b = g' n a b) (hrun : exec c s = intImm op g x wd m s) :=
    intImm_issues h h01 hrun hg
  refine ⟨fun hf => ?_, ?_⟩
  · have reg {c : Instr} {op : Nat} {g g' : (n : Nat) → BitVec n → BitVec n → BitVec n}
        (hg : ∀ (n : Nat) (a b : BitVec n), g n a b = g' n a b) (hrun : exec c s = intReg op g x wd f s) :=
      intReg_issues h h01 hf hrun hg
    simp only [Machine.integerForms, exactInt, List.zip_cons_cons, List.zip_nil_right, List.forall_mem_cons]
    refine ⟨reg (fun _ => calcAdd_exact) (show _ = execAdd x wd f s from rfl),
      reg (fun _ => calcSub_exact) (show _ = execSub x wd f s from rfl),
      reg (same calcAnd) (show _ = execAnd x wd f s from rfl),
      reg (same calcOr) (show _ = execOr x wd f s from rfl),
      reg (same calcXor) (show _ = execXor x wd f s from rfl),
      reg (same calcAndn) (show _ = execAndn x wd f s from rfl),
      reg (fun _ => calcShl_exact) (show _ = execShl x wd f s from rfl),
      reg (fun _ => calcShr_exact) (show _ = execShr x wd f s from rfl),
      reg (fun _ => calcSar_exact) (show _ = execSar x wd f s from rfl),
      reg (fun _ => calcRol_exact) (show _ = execRol x wd f s from rfl),
      reg (fun _ => calcEq_exact) (show _ = execCmpeq x wd f s from rfl),
      reg (fun _ => calcLt_exact) (show _ = execCmplt x wd f s from rfl),
      reg (fun _ => calcLtu_exact) (show _ = execCmpltu x wd f s from rfl),
      reg (fun _ => calcMin_exact) (show _ = execMin x wd f s from rfl),
      reg (fun _ => calcMax_exact) (show _ = execMax x wd f s from rfl), by simp⟩
  · simp only [immediateForms, exactInt, List.zip_cons_cons, List.zip_nil_right, List.forall_mem_cons]
    refine ⟨imm (fun _ => calcAdd_exact) (show _ = execAddi x wd m s from rfl),
      imm (fun _ => calcSub_exact) (show _ = execSubi x wd m s from rfl),
      imm (same calcAnd) (show _ = execAndi x wd m s from rfl),
      imm (same calcOr) (show _ = execOri x wd m s from rfl),
      imm (same calcXor) (show _ = execXori x wd m s from rfl),
      imm (same calcAndn) (show _ = execAndni x wd m s from rfl),
      imm (fun _ => calcShl_exact) (show _ = execShli x wd m s from rfl),
      imm (fun _ => calcShr_exact) (show _ = execShri x wd m s from rfl),
      imm (fun _ => calcSar_exact) (show _ = execSari x wd m s from rfl),
      imm (fun _ => calcRol_exact) (show _ = execRoli x wd m s from rfl),
      imm (fun _ => calcEq_exact) (show _ = execCmpeqi x wd m s from rfl),
      imm (fun _ => calcLt_exact) (show _ = execCmplti x wd m s from rfl),
      imm (fun _ => calcLtu_exact) (show _ = execCmpltui x wd m s from rfl),
      imm (fun _ => calcMin_exact) (show _ = execMini x wd m s from rfl),
      imm (fun _ => calcMax_exact) (show _ = execMaxi x wd m s from rfl), by simp⟩

end Sys2Proof
end

section
/-! The counts, the reversals and the CRC step (R168, R190–R192). -/

namespace Sys2Proof.Machine

variable {s : State} {x : Issue}

/-! ### The bits of an operand -/

/-- The low w bits of an operand are its low w bits. -/
theorem testBit_lowBits (wd : Width) (a : Double) {i : Nat} (h : i < widthBits wd) :
    (lowBits wd a).testBit i = a.getLsbD i := by
  cases wd
  · rw [lowBits, Nat.testBit_mod_two_pow, decide_eq_true (show i < 36 from h), Bool.true_and, BitVec.testBit_toNat]
  · exact BitVec.testBit_toNat a

theorem lowBits_lt (wd : Width) (a : Double) : lowBits wd a < 2 ^ widthBits wd := by
  cases wd
  · exact Nat.mod_lt _ (Nat.two_pow_pos 36)
  · exact a.isLt

/-! ### Counts -/

theorem popCount_eq (n v : Nat) : popCount n v = ((List.range n).filter fun i => v.testBit i).length := by
  induction n generalizing v with
  | zero => rfl
  | succ n ih =>
    have hrest : ((fun i => v.testBit i) ∘ Nat.succ) = fun i => (v / 2).testBit i := funext fun i => Nat.testBit_succ ..
    rw [popCount, ih, List.range_succ_eq_map, List.filter_cons, List.filter_map, hrest, Nat.testBit_zero]
    rcases Nat.mod_two_eq_zero_or_one v with h | h <;> simp [h, Nat.add_comm]

theorem trailZeros_eq (n v : Nat) : trailZeros n v = (List.range n).findIdx fun i => v.testBit i := by
  induction n generalizing v with
  | zero => rfl
  | succ n ih =>
    have hrest : ((fun i => v.testBit i) ∘ Nat.succ) = fun i => (v / 2).testBit i := funext fun i => Nat.testBit_succ ..
    rw [trailZeros, ih, List.range_succ_eq_map, List.findIdx_cons, List.findIdx_map, hrest, Nat.testBit_zero]
    rcases Nat.mod_two_eq_zero_or_one v with h | h <;> simp [h, Nat.add_comm]

theorem leadZeros_eq {n v : Nat} (h : v < 2 ^ n) :
    leadZeros n v = (List.range n).findIdx fun i => v.testBit (n - 1 - i) := by
  unfold leadZeros
  by_cases h0 : v = 0
  · rw [if_pos h0, List.findIdx_eq_length_of_false (by simp [h0]), List.length_range]
  · have hlog : v.log2 < n := (Nat.log2_lt h0).2 h
    rw [if_neg h0, eq_comm, List.findIdx_eq (by rw [List.length_range]; omega)]
    simp only [List.getElem_range]
    refine ⟨?_, fun j hj => ?_⟩
    · rw [show n - 1 - (n - 1 - v.log2) = v.log2 by omega]
      exact Nat.testBit_log2 h0
    · rw [Nat.testBit_lt_two_pow ((Nat.log2_lt h0).1 (by omega))]

/-! ### Reversals -/

theorem reverseBits_lt (n v : Nat) : reverseBits n v < 2 ^ n := by
  induction n generalizing v with
  | zero => exact Nat.one_pos
  | succ n ih =>
    have h := ih (v / 2)
    have h2 := Nat.mod_lt v (show 0 < 2 by decide)
    rw [reverseBits, pow_succ]
    nlinarith

theorem testBit_reverseBits (n v i : Nat) : (reverseBits n v).testBit i = (decide (i < n) && v.testBit (n - 1 - i)) := by
  induction n generalizing v i with
  | zero => exact Nat.zero_testBit i
  | succ n ih =>
    rw [reverseBits, Nat.mul_comm, Nat.testBit_two_pow_mul_add _ (reverseBits_lt ..), ih]
    rcases lt_trichotomy i n with hi | rfl | hi
    · rw [if_pos hi, decide_eq_true hi, decide_eq_true (hi.trans n.lt_succ_self), Nat.testBit_div_two,
        show n - 1 - i + 1 = n + 1 - 1 - i by omega]
    · rw [if_neg (lt_irrefl i), decide_eq_true i.lt_succ_self, Nat.sub_self, show i + 1 - 1 - i = 0 by omega,
        Nat.testBit_zero, Nat.testBit_zero, Nat.mod_mod, Bool.true_and]
    · rw [if_neg hi.not_gt, decide_eq_false (by omega), Bool.false_and]
      exact Nat.testBit_lt_two_pow ((Nat.mod_lt v (by decide)).trans_le (Nat.le_self_pow (by omega) 2))

theorem testBit_reverseUnits {u : Nat} (hu : 0 < u) (n v i : Nat) :
    (reverseUnits u n v).testBit i = (decide (i < u * n) && v.testBit (u * (i / u) + (u - 1 - i % u))) := by
  induction n generalizing v i with
  | zero => exact Nat.zero_testBit i
  | succ n ih =>
    rw [reverseUnits, Nat.add_comm, Nat.testBit_two_pow_mul_add _ (reverseBits_lt ..), testBit_reverseBits, ih,
      Nat.testBit_mod_two_pow, Nat.testBit_div_two_pow]
    rcases lt_or_ge i u with hi | hi
    · have hlt : i < u * (n + 1) := hi.trans_le (Nat.le_mul_of_pos_right u n.succ_pos)
      rw [if_pos hi, decide_eq_true hi, decide_eq_true (show u - 1 - i < u by omega), decide_eq_true hlt,
        Nat.div_eq_of_lt hi, Nat.mod_eq_of_lt hi, Nat.mul_zero, Nat.zero_add]
      rfl
    · obtain ⟨j, rfl⟩ := Nat.exists_eq_add_of_le hi
      have hlt : u + j < u * (n + 1) ↔ j < u * n := by rw [Nat.mul_succ]; omega
      rw [if_neg hi.not_gt, Nat.add_sub_cancel_left, decide_eq_decide.2 hlt, Nat.add_div_left _ hu, Nat.add_mod_left,
        Nat.mul_succ, show u * (j / u) + u + (u - 1 - j % u) = u * (j / u) + (u - 1 - j % u) + u by omega]

/-! ### The CRC step -/

theorem crcBits_eq (poly n c : Nat) : crcBits poly n c = (List.range n).foldl (fun c _ => crcBit poly c) c := by
  induction n generalizing c with
  | zero => rfl
  | succ n ih => rw [crcBits, ih, List.range_succ_eq_map, List.foldl_cons, List.foldl_map]

theorem crcOctets_eq (poly : Nat) (os : List Nat) (c : Nat) : crcOctets poly os c = os.foldl (crcOctet poly) c := by
  induction os generalizing c with
  | nil => rfl
  | cons o os ih => rw [crcOctets, ih, List.foldl_cons]

/-- An octet enters by its low eight bits. -/
theorem crcOctets_map (poly b k c : Nat) :
    crcOctets poly (splitUnits 8 k b) c = ((List.range k).map fun i => b / 2 ^ (8 * i) % 256).foldl
      (fun c o => (List.range 8).foldl (fun c _ => crcBit poly c) (c ^^^ o)) c := by
  have hunits : splitUnits 8 k b = (List.range k).map fun i => b / 2 ^ (8 * i) % 256 := by
    simp only [splitUnits, field_eq_div_mod]
    rfl
  rw [hunits, crcOctets_eq, List.foldl_map, List.foldl_map]
  simp only [crcOctet, crcBits_eq, Nat.mod_mod]

/-- The polynomial, the octets and the width that func of a CRC syllable selects (R191). -/
theorem crcStep_eq {poly : Nat} {f : BitVec 9} (hf : f.toNat < 8) (a b : Double) :
    crcStep poly f a b = BitVec.ofNat 72
      (((List.range (if f.toNat < 4 then 4 else 8)).map fun i => b.toNat / 2 ^ (8 * i) % 256).foldl
        (fun c o => (List.range 8).foldl (fun c _ => crcBit (crcSelect poly f) c) (c ^^^ o))
        (a.toNat % 2 ^ (if f.toNat % 4 = 1 then 64 else 32))) := by
  have hlen : (if bitOf f.toNat 2 then 8 else 4) = if f.toNat < 4 then 4 else 8 := by
    generalize f.toNat = n at hf
    interval_cases n <;> rfl
  rw [crcStep, hlen, crcOctets_map]

/-! ### The forms -/

/-- A form that reads srcA alone. -/
theorem intUnary_issues {c : Instr} {op : Nat} {val : Double → Double} {f : RegForm} {v : Double} (h : MayIssue x s)
    (h01 : x.slot = 0 ∨ x.slot = 1) (hf : f.func = 0) (hb : f.b = 0) (hrun : exec c s = intUnary op val x f s)
    (hv : val ((openedCore x s).read f.a) = v) : ResultIssues c x false 1 f.dest v s := by
  have hslot : slotCause x [0, 1] = none := slotCause_inside (by rcases h01 with e | e <;> simp [e])
  have hcause : unaryCause x [0, 1] f = none := by
    rw [unaryCause, if_neg (by rw [hf]; decide), hslot, hf, hb]
    rfl
  subst hv
  refine computes_issues (word := regWord op f) (val := fun k => val (k.read f.a)) h
    (by rcases h01 with e | e <;> simp [e]) ?_
  rw [hrun, intUnary, hcause]

theorem crc_issues {f : RegForm} (h : MayIssue x s) (h01 : x.slot = 0 ∨ x.slot = 1) (hf : f.func.toNat < 8)
    (hf3 : f.func.toNat % 4 ≠ 3) : ResultIssues (.crc x f) x false 2 f.dest
      (crcStep (crcPolyNow s (issueIx x) (openedCore x s)) f.func ((openedCore x s).read f.a) ((openedCore x s).read f.b)) s := by
  have hslot : slotCause x [0, 1] = none := slotCause_inside (by rcases h01 with e | e <;> simp [e])
  have hlong : f.func ≠ 0o777 := fun e => by rw [e] at hf; exact absurd hf (by decide)
  have hcause : crcCause x f = none := by
    rw [crcCause, if_neg hlong, hslot, decide_eq_true hf, bne_iff_ne.2 hf3]
    rfl
  refine computes_issues (word := regWord 0o046 f)
    (val := fun k => crcStep (crcPolyNow s (issueIx x) k) f.func (k.read f.a) (k.read f.b)) h
    (by rcases h01 with e | e <;> simp [e]) ?_
  show execCrc x f s = _
  rw [execCrc, hcause]

theorem popCount_lowBits (wd : Width) (a : Double) : popCount (widthBits wd) (lowBits wd a) = oneBits (widthBits wd) a := by
  rw [popCount_eq, oneBits]
  exact congrArg List.length (List.filter_congr fun i hi => testBit_lowBits wd a (List.mem_range.1 hi))

theorem findIdx_congr_mem {α : Type} {p q : α → Bool} {l : List α} (h : ∀ a ∈ l, p a = q a) : l.findIdx p = l.findIdx q := by
  induction l with
  | nil => rfl
  | cons a l ih =>
    rw [List.findIdx_cons, List.findIdx_cons, h a List.mem_cons_self, ih fun b hb => h b (List.mem_cons_of_mem a hb)]

theorem findIdx_range_congr {n : Nat} {p q : Nat → Bool} (h : ∀ i < n, p i = q i) :
    (List.range n).findIdx p = (List.range n).findIdx q :=
  findIdx_congr_mem fun i hi => h i (List.mem_range.1 hi)

/-- Settles O3: each form by its count, its reversal or its step. -/
theorem countsReversalsAndCrc : Obligations.CountsReversalsAndCrc := by
  unfold Obligations.CountsReversalsAndCrc
  intro x wd f s h h01
  refine ⟨fun hf hb => ?_, fun hf hf3 => ?_⟩
  · intro a w
    have unary {c : Instr} {op : Nat} {val : Double → Double} {v : Double} (hrun : exec c s = intUnary op val x f s)
        (hv : val a = v) := intUnary_issues h h01 hf hb hrun hv
    refine ⟨unary (show _ = execPar x wd f s from rfl) ?_, unary (show _ = execPopc x wd f s from rfl) ?_,
      unary (show _ = execCtz x wd f s from rfl) ?_, unary (show _ = execClz x wd f s from rfl) ?_,
      ⟨_, fun i hi => ?_, unary (show _ = execBrevO x f s from rfl) rfl⟩,
      ⟨_, fun i hi => ?_, unary (show _ = execBrevW x f s from rfl) rfl⟩⟩
    · rw [popCount_lowBits]
      rcases Nat.mod_two_eq_zero_or_one (oneBits w a) with e | e <;> rw [e] <;> rfl
    · rw [popCount_lowBits]
    · rw [trailZeros_eq, findIdx_range_congr fun i hi => testBit_lowBits wd a hi]
    · rw [leadZeros_eq (lowBits_lt wd a), findIdx_range_congr fun i hi => testBit_lowBits wd a (by omega)]
    · rw [BitVec.getLsbD_ofNat, testBit_reverseUnits (by decide), decide_eq_true hi]
      rfl
    · rw [BitVec.getLsbD_ofNat, testBit_reverseUnits (by decide), decide_eq_true hi]
      rfl
  · intro k poly bit octet octets
    have hcrc := crc_issues h h01 hf hf3
    have hpoly : crcSelect (crcPolyNow s (issueIx x) k) f.func = poly := rfl
    rw [crcStep_eq hf, hpoly] at hcrc
    exact hcrc

end Sys2Proof.Machine
end

section
/-! The floating-point group as it issues (R109, R110, R146, R177). -/

namespace Sys2Proof.Machine

variable {s : State} {x : Issue}

/-! ### Operands and rounding mode -/

theorem lowBits_eq_mod (wd : Width) (a : Double) : lowBits wd a = a.toNat % 2 ^ widthBits wd := by
  cases wd
  · rfl
  · exact (Nat.mod_eq_of_lt a.isLt).symm

theorem fpRead_eq (wd : Width) (k : Core) (r : BitVec 6) :
    fpRead wd k r = decodeF (fmtOf wd) ((k.read r).toNat % 2 ^ widthBits wd) := by
  rw [fpRead, lowBits_eq_mod]

theorem rndFor_eq (k : Core) (f : BitVec 9) :
    rndFor k f = if f = 0 then rndOf (k.fs.toNat / 2 ^ 14 % 4) else rndOf f.toNat := by
  rw [rndFor, field_eq_div_mod]
  rfl

/-! ### The causes that do not arise -/

theorem fpFuncOk_of {f : BitVec 9} (h : f = 0 ∨ 4 ≤ f.toNat ∧ f.toNat ≤ 7) : fpFuncOk f = true := by
  rcases h with rfl | ⟨h4, h7⟩
  · rfl
  · rw [fpFuncOk, decide_eq_true h4, decide_eq_true h7, Bool.and_self, Bool.or_true]

theorem fpCause_none {f : RegForm} (h2 : x.slot = 2) (hf : f.func = 0 ∨ 4 ≤ f.func.toNat ∧ f.func.toNat ≤ 7) :
    fpCause x f = none := by
  rw [fpCause, slotCause_inside (by simp [h2]), fpFuncOk_of hf]
  rfl

theorem fpUnaryCause_none {f : RegForm} (h2 : x.slot = 2) (hf : f.func = 0 ∨ 4 ≤ f.func.toNat ∧ f.func.toNat ≤ 7)
    (hb : f.b = 0) : fpUnaryCause x f = none := by
  rw [fpUnaryCause, slotCause_inside (by simp [h2]), fpFuncOk_of hf, hb]
  rfl

/-! ### The forms -/

/-- A floating-point syllable lands its result, with its flags, from S2. -/
theorem fpIssue_issues {c : Instr} {word lat : Nat} {ill : Option Nat} {busy : Bool} {dest : BitVec 6} {wd : Width}
    {val : Core → Nat × Nat} {r : Nat × Nat} (h : MayIssue x s) (hfree : S2Free x s) (h2 : x.slot = 2) (hill : ill = none)
    (hrun : exec c s = fpIssue x word ill lat busy dest wd val s) (hr : val (openedCore x s) = r) :
    Issues c x false s (launch (issueIx x) 2 lat dest.toNat (widthValue wd r.1)
      (fun l => { l with flags := r.2, fp := true, busy := busy }) (opened x s)) := by
  subst hr
  rw [Issues, hrun, fpIssue, syllable_issues h, runSyllable_acts _ hill fun _ => hfree, h2]
  rfl

/-- Settles O6: each form reads its operands, rounds as func or FS.RM says, and lands after its latency. -/
theorem floatingPointForms : Obligations.FloatingPointForms := by
  unfold Obligations.FloatingPointForms
  intro x wd f s h hfree h2 hf k m rm bits a b d lands
  have hrm : rndFor k f.func = rm := rndFor_eq k f.func
  have hread (r : BitVec 6) : fpRead wd k r = decodeF m (bits r) := fpRead_eq wd k r
  have hbits (r : BitVec 6) : lowBits wd (k.read r) = bits r := lowBits_eq_mod wd (k.read r)
  have run {c : Instr} {word lat : Nat} {busy : Bool} {u : Width} {val : Core → Nat × Nat} {r : Nat × Nat}
      (hrun : exec c s = fpIssue x word (fpCause x f) lat busy f.dest u val s) (hr : val k = r) : lands c u lat busy r :=
    fpIssue_issues h hfree h2 (fpCause_none h2 hf) hrun hr
  have binary {c : Instr} {op lat : Nat} {busy : Bool} {g : Fmt → Rnd → FVal → FVal → Nat × Nat}
      (hrun : exec c s = fpBinary op lat busy g x wd f s) : lands c wd lat busy (g m rm a b) :=
    run hrun (by rw [hrm, hread, hread])
  have onBits {c : Instr} {op : Nat} {g : Fmt → Nat → Nat → Nat × Nat} (hrun : exec c s = fpBits op g x wd f s) :
      lands c wd 4 false (g m (bits f.a) (bits f.b)) := run hrun (by rw [hbits, hbits])
  have fused {c : Instr} {op : Nat} {neg : Bool} (hrun : exec c s = fpFused op neg x wd f s) :
      lands c wd 5 false (fFma m rm (if neg then negate a else a) b d) := run hrun (by
    dsimp only
    rw [hrm, hread, hread, hread])
  have hfdiv : lands (.fdiv x wd f) wd (fdivLatency wd) true (fDiv m rm a b) :=
    binary (g := fDiv) (show _ = execFdiv x wd f s from rfl)
  have hfma := fused (show exec (.fma x wd f) s = execFma x wd f s from rfl)
  have hfnma := fused (show exec (.fnma x wd f) s = execFnma x wd f s from rfl)
  refine ⟨binary (g := fAdd) (show _ = execFadd x wd f s from rfl),
    binary (g := fun fm rm a b => fAdd fm rm a (negate b)) (show _ = execFsub x wd f s from rfl),
    binary (g := fMul) (show _ = execFmul x wd f s from rfl), hfma, hfnma, hfdiv,
    onBits (g := fun fm => fMinMax fm false) (show _ = execFmin x wd f s from rfl),
    onBits (g := fun fm => fMinMax fm true) (show _ = execFmax x wd f s from rfl),
    onBits (g := fun fm a b => fCompare 0 (decodeF fm a) (decodeF fm b)) (show _ = execFcmpeq x wd f s from rfl),
    onBits (g := fun fm a b => fCompare 1 (decodeF fm a) (decodeF fm b)) (show _ = execFcmplt x wd f s from rfl),
    onBits (g := fun fm a b => fCompare 2 (decodeF fm a) (decodeF fm b)) (show _ = execFcmple x wd f s from rfl),
    fun hb => ?_⟩
  · have unary {c : Instr} {word lat : Nat} {busy : Bool} {u : Width} {val : Core → Nat × Nat}
        (hrun : exec c s = fpIssue x word (fpUnaryCause x f) lat busy f.dest u val s) (r : Nat × Nat) (hr : val k = r) :
        lands c u lat busy r := fpIssue_issues h hfree h2 (fpUnaryCause_none h2 hf hb) hrun hr
    have hdw := unary (show exec (.fcvtDW x f) s = execFcvtDW x f s from rfl)
    have hwd := unary (show exec (.fcvtWD x f) s = execFcvtWD x f s from rfl)
    have hftoi := unary (show exec (.ftoi x wd f) s = execFtoi x wd f s from rfl)
    have hitof := unary (show exec (.itof x wd f) s = execItof x wd f s from rfl)
    refine ⟨hdw _ ?_, hwd _ ?_, hftoi _ ?_, hitof _ ?_⟩
    · rw [hrm, fpRead_eq]
      rfl
    · rw [hrm, fpRead_eq]
      rfl
    · dsimp only
      rw [hrm, hread]
    · exact congrArg (fOfInt m · _) hrm

end Sys2Proof.Machine
end

section
/-! Loads from and stores to the core's own tile memory as they issue (R113–R115, R130, R148, R193, R195). -/

namespace Sys2Proof.Machine

variable {s s1 : State} {x : Issue} {i pa n : Nat} {oct side : Bool}

/-! ### The bits of an access -/

/-- The first stored bit of an access in its line (R193). -/
def accessLo (pa : Nat) (oct side : Bool) : Nat := if side then 512 else if oct then 8 * (pa % 64) else 9 * (pa % 64)

theorem accessBits_eq (pa n : Nat) (oct side : Bool) : accessBits pa n oct side = (accessLo pa oct side, accessWidth n oct side) := by
  cases side <;> cases oct <;> rfl

/-! ### Loads -/

/-- A load of a clean line, with none of the core's own stores to it on their way and no sequence open. -/
theorem loadOwn_clean {dest : BitVec 6} {ext : LoadExt} {lo w : Nat} (hclean : ∀ j < 16, mget 0 s.tmErr (16 * (pa / 64) + j) = 0)
    (hstores : ∀ q ∈ (coreAt s i).stores, q.line ≠ pa / 64) (hseq : (coreAt s i).seq = none) :
    loadOwn i dest ext pa lo w s = result i 3 4 dest (extendLoad ext w (lineBits s (pa / 64) / 2 ^ lo % 2 ^ w)) s := by
  have hview : ownView s (pa / 64) ((coreAt s i).stores.filter fun p => !p.cached) = lineBits s (pa / 64) :=
    ownView_clean (fun j hj => by rw [hclean j hj]; decide) fun q hq => hstores q (List.mem_of_mem_filter hq)
  simp only [loadOwn, readTileBits_clean hclean, hseq, List.append_nil, hview, field_eq_div_mod, loadResult]

theorem loadAt_own {dest : BitVec 6} {ext : LoadExt} {va : Nat} (h : Reaches i va n .load side false true s s1 pa 0 oct)
    (hroute : routeOf s1 i pa 0 = .own) (hclean : ∀ j < 16, mget 0 s1.tmErr (16 * (pa / 64) + j) = 0)
    (hstores : ∀ q ∈ (coreAt s1 i).stores, q.line ≠ pa / 64) (hseq : (coreAt s1 i).seq = none) :
    loadAt dest ext n side va i s = result i 3 4 dest (extendLoad ext (accessWidth n oct side)
      (lineBits s1 (pa / 64) / 2 ^ accessLo pa oct side % 2 ^ accessWidth n oct side)) s1 := by
  refine (dataAccess_reaches h).trans ?_
  simp only [accessBits_eq, hroute]
  exact loadOwn_clean hclean hstores hseq

/-- A load syllable from the core's own tile memory, by its operand, its units and its extension. -/
theorem load_issues {c : Instr} {word : Nat} {ill : Core → Option Nat} {dest : BitVec 6} {ext : LoadExt} {ea : Core → Nat}
    (hmay : MayIssue x s) (h3 : x.slot = 3) (hill : ill (openedCore x s) = none)
    (hrun : exec c s = .next (syllable x word ill false dest.toNat
      (fun i s => loadAt dest ext n side (ea (coreAt s i)) i s) noPost s))
    (h : Reaches (issueIx x) (ea (openedCore x s)) n .load side false true (opened x s) s1 pa 0 oct)
    (hroute : routeOf s1 (issueIx x) pa 0 = .own) (hclean : ∀ j < 16, mget 0 s1.tmErr (16 * (pa / 64) + j) = 0)
    (hstores : ∀ q ∈ (coreAt s1 (issueIx x)).stores, q.line ≠ pa / 64) (hseq : (coreAt s1 (issueIx x)).seq = none) :
    ResultIssuesAt c x 4 dest (extendLoad ext (accessWidth n oct side)
      (lineBits s1 (pa / 64) / 2 ^ accessLo pa oct side % 2 ^ accessWidth n oct side)) s s1 := by
  rw [ResultIssuesAt, Issues, exec_acts hmay h3 hill hrun, loadAt_own h hroute hclean hstores hseq, h3]
  rfl

theorem s3RegCause_none {r : RegForm} (h3 : x.slot = 3) (hr : r.func = 0) : s3RegCause x r = none := by
  rw [s3RegCause, slotCause_three h3, hr]
  rfl

/-- Settles O8: each form is the load syllable of its units and its extension. -/
theorem loadsFromOwnTileMemory : Obligations.LoadsFromOwnTileMemory := by
  unfold Obligations.LoadsFromOwnTileMemory
  intro x f r s s1 pa oct hmay h3 hr
  have imm {c : Instr} {op n : Nat} {ext : LoadExt} (hrun : exec c s = loadImm op n ext x f s) :=
    load_issues (s1 := s1) (pa := pa) (oct := oct) (ea := fun k => eaImm k f) hmay h3 (slotCause_three h3) hrun
  have reg {c : Instr} {op n : Nat} {ext : LoadExt} (hrun : exec c s = loadReg op n ext x r s) :=
    load_issues (s1 := s1) (pa := pa) (oct := oct) (ea := fun k => eaReg k r) hmay h3 (s3RegCause_none h3 hr) hrun
  simp only [loadForms, List.forall_mem_cons]
  have hldq := imm (show exec (.ldq x f) s = execLdq x f s from rfl)
  have hldqs := imm (show exec (.ldqs x f) s = execLdqs x f s from rfl)
  have hldh := imm (show exec (.ldh x f) s = execLdh x f s from rfl)
  have hldhs := imm (show exec (.ldhs x f) s = execLdhs x f s from rfl)
  have hldw := imm (show exec (.ldw x f) s = execLdw x f s from rfl)
  have hldwu := imm (show exec (.ldwu x f) s = execLdwu x f s from rfl)
  have hldd := imm (show exec (.ldd x f) s = execLdd x f s from rfl)
  have hldsf := load_issues (s1 := s1) (pa := pa) (oct := oct) (ea := fun k => eaImm k f) hmay h3 (slotCause_three h3)
    (show exec (.ldsf x f) s = execLdsf x f s from rfl)
  have hldqx := reg (show exec (.ldqx x r) s = execLdqx x r s from rfl)
  have hldqsx := reg (show exec (.ldqsx x r) s = execLdqsx x r s from rfl)
  have hldhx := reg (show exec (.ldhx x r) s = execLdhx x r s from rfl)
  have hldhsx := reg (show exec (.ldhsx x r) s = execLdhsx x r s from rfl)
  have hldwx := reg (show exec (.ldwx x r) s = execLdwx x r s from rfl)
  have hldwux := reg (show exec (.ldwux x r) s = execLdwux x r s from rfl)
  have hlddx := reg (show exec (.lddx x r) s = execLddx x r s from rfl)
  exact ⟨hldq, hldqs, hldh, hldhs, hldw, hldwu, hldd, hldsf, hldqx, hldqsx, hldhx, hldhsx, hldwx, hldwux, hlddx,
    List.forall_mem_nil _⟩

end Sys2Proof.Machine
end

section
/-! Stores to the core's own tile memory: their issue, and how they become visible (R113, R114, R130, R132, R148,
R225). -/

namespace Sys2Proof.Machine

variable {s s1 : State} {x : Issue} {i pa n : Nat} {oct side : Bool}

/-! ### The issue -/

/-- The store that an access to the core's own tile memory makes. -/
def ownStore (s : State) (i pa lo w v : Nat) : PendStore :=
  { line := pa / 64, lo := lo, width := w, val := v % 2 ^ w, issued := (coreAt s i).cyc, sec := (coreAt s i).sec }

theorem storeOwn_free {lo w v : Nat} (h : (coreAt s i).seq = none) :
    storeOwn i pa lo w v s = breakReservations (i / 8) (some i) (pa / 64)
      (setCore i (fun k => { k with stores := k.stores ++ [ownStore s i pa lo w v] }) s) := by
  simp only [storeOwn, h, pendStore, ownStore]

theorem storeOwn_held {lo w v : Nat} {q : LockSeq} (h : (coreAt s i).seq = some q) :
    storeOwn i pa lo w v s =
      setCore i (fun k => { k with seq := some { q with stores := q.stores ++ [ownStore s i pa lo w v] } }) s := by
  simp only [storeOwn, h, ownStore]

theorem storeAt_own {data va : Nat} (h : Reaches i va n .store side true true s s1 pa 0 oct)
    (hroute : routeOf s1 i pa 0 = .own) :
    storeAt data n side va i s = storeOwn i pa (accessLo pa oct side) (accessWidth n oct side) data s1 := by
  refine (dataAccess_reaches h).trans ?_
  simp only [accessBits_eq, hroute]

/-- A store syllable to the core's own tile memory, by its operand, its data register and its units. -/
theorem store_issues {c : Instr} {word d : Nat} {ill : Core → Option Nat} {dest : BitVec 6} {ea : Core → Nat}
    (hmay : MayIssue x s) (h3 : x.slot = 3) (hill : ill (openedCore x s) = none)
    (hrun : exec c s = .next (syllable x word ill false d (fun i s =>
      storeAt ((coreAt s i).read dest).toNat n side (ea (coreAt s i)) i s) noPost s))
    (h : Reaches (issueIx x) (ea (openedCore x s)) n .store side true true (opened x s) s1 pa 0 oct)
    (hroute : routeOf s1 (issueIx x) pa 0 = .own) :
    let st := ownStore s1 (issueIx x) pa (accessLo pa oct side) (accessWidth n oct side) ((openedCore x s).read dest).toNat
    ((coreAt s1 (issueIx x)).seq = none → Issues c x false s (breakReservations (issueIx x / 8) (some (issueIx x)) (pa / 64)
      (setCore (issueIx x) (fun k => { k with stores := k.stores ++ [st] }) s1))) ∧
    ∀ q, (coreAt s1 (issueIx x)).seq = some q → Issues c x false s
      (setCore (issueIx x) (fun k => { k with seq := some { q with stores := q.stores ++ [st] } }) s1) := by
  refine ⟨fun hseq => ?_, fun q hseq => ?_⟩
  · rw [Issues, exec_acts hmay h3 hill hrun, storeAt_own h hroute, storeOwn_free hseq]
  · rw [Issues, exec_acts hmay h3 hill hrun, storeAt_own h hroute, storeOwn_held hseq]

/-! ### The store becomes visible -/

/-- Reservations that break change no memory, and nothing of the core that stores. -/
theorem breakReservations_frame (hc : mwf {} s.cores = true) (t i line : Nat) :
    (breakReservations t (some i) line s).mem = s.mem ∧
      coreAt (breakReservations t (some i) line s) i = coreAt s i := by
  unfold breakReservations
  generalize List.range 8 = cs
  induction cs generalizing s with
  | nil => exact ⟨rfl, rfl⟩
  | cons c cs ih =>
    rw [List.foldl_cons]
    dsimp only
    split
    · exact ih hc
    · next hne =>
      split
      · exact ih hc
      · split
        · obtain ⟨hmem, hcore⟩ := ih (s := setCore (8 * t + c) Core.breakSeq s) (setCore_wf hc)
          exact ⟨hmem, hcore.trans (coreAt_setCore_ne hc (fun e => hne (congrArg some e.symm)) _)⟩
        · exact ih hc

/-- A write that reaches no uncorrectable word is performed (R225). -/
theorem writeTileBits_clean {t line lo w v req : Nat} (h : ∀ j < 16, mget 0 s.tmErr (16 * line + j) ≠ 255) :
    ∃ m, writeTileBits t line lo w v req s = putBits line lo w v { s with tmErr := m } := by
  have hbad : (wordsOf lo w).filter (fun i => mget 0 s.tmErr (16 * line + i) == 255) = [] := by
    rw [List.filter_eq_nil_iff]
    intro j hj
    simpa using h j (List.mem_range.1 (List.mem_of_mem_filter hj))
  unfold writeTileBits
  dsimp only
  rw [hbad, List.foldl_nil, List.any_nil, if_neg Bool.false_ne_true]
  exact ⟨_, rfl⟩

theorem putBits_cores (l lo w v : Nat) (s : State) : (putBits l lo w v s).cores = s.cores := putLine_cores ..

theorem lineBits_congr {t u : State} (h : t.mem = u.mem) (l : Nat) : lineBits t l = lineBits u l := by
  unfold lineBits
  rw [h]

/-- A waiting store to the core's own tile memory does not wait for a channel. -/
theorem storeHeld_own {p : PendStore} (h : p.cached = false) : storeHeld s i p = false := by
  rw [storeHeld, h]
  rfl

/-- The core's one waiting store, to its own tile memory, becomes visible. -/
theorem storeVisible_own {c : CoreId} {p : PendStore} (hstores : (coreAt s (coreIx c)).stores = [p]) (hcached : p.cached = false) :
    exec (.storeVisible c) s =
      .next (showOwn (coreIx c) p (setCore (coreIx c) (fun k => { k with stores := [] }) s)) := by
  show execStoreVisible c s = _
  simp [execStoreVisible, hstores, storeHeld_own hcached, hcached]

theorem showOwn_effect (hc : mwf {} s.cores = true) (hm : Memory.wf s.mem = true) (i : Nat) {p : PendStore}
    (hw : p.lo + p.width ≤ 576) (h : ∀ j < 16, mget 0 s.tmErr (16 * p.line + j) ≠ 255) :
    coreAt (showOwn i p s) i = coreAt s i ∧
      (∀ b, (lineBits (showOwn i p s) p.line).testBit b =
        if p.lo ≤ b ∧ b < p.lo + p.width then p.val.testBit (b - p.lo) else (lineBits s p.line).testBit b) ∧
      ∀ a, a / 72 ≠ p.line → mget (0 : BitVec 8) (showOwn i p s).mem a = mget 0 s.mem a := by
  obtain ⟨m, hwrite⟩ := writeTileBits_clean (s := s) (t := i / 8) (lo := p.lo) (w := p.width) (v := p.val) (req := i) h
  let s1 : State := { s with tmErr := m }
  have hm1 : Memory.wf s1.mem = true := hm
  have hcores : (putBits p.line p.lo p.width p.val s1).cores = s.cores := putBits_cores ..
  have hwf : mwf {} (putBits p.line p.lo p.width p.val s1).cores = true := by rw [hcores]; exact hc
  obtain ⟨hmem, hcore⟩ := breakReservations_frame hwf (i / 8) i p.line
  have hshow : showOwn i p s = breakReservations (i / 8) (some i) p.line (putBits p.line p.lo p.width p.val s1) :=
    congrArg (breakReservations (i / 8) (some i) p.line) hwrite
  rw [hshow]
  refine ⟨hcore.trans (coreAt_congr hcores i), fun b => ?_, fun a ha => ?_⟩
  · rw [lineBits_congr hmem]
    exact testBit_lineBits_putBits hm1 _ _ _ _ _ hw
  · rw [hmem]
    exact mget_putBits_ne hm1 _ _ _ ha

/-- Settles O9: each form is the store syllable of its units, and the store that waits is written as it stands. -/
theorem storesToOwnTileMemory : Obligations.StoresToOwnTileMemory := by
  unfold Obligations.StoresToOwnTileMemory
  refine ⟨fun x f r s s1 pa oct hmay h3 hr => ?_, fun c s p hstores hcached hw hm hc herr => ?_⟩
  · have imm {c : Instr} {op n : Nat} (hrun : exec c s = storeImm op n x f s) :=
      store_issues (s1 := s1) (pa := pa) (oct := oct) (ea := fun k => eaImm k f) hmay h3 (slotCause_three h3) hrun
    have reg {c : Instr} {op n : Nat} (hrun : exec c s = storeReg op n x r s) :=
      store_issues (s1 := s1) (pa := pa) (oct := oct) (ea := fun k => eaReg k r) hmay h3 (s3RegCause_none h3 hr) hrun
    simp only [storeForms, List.forall_mem_cons]
    have hstq := imm (show exec (.stq x f) s = execStq x f s from rfl)
    have hsth := imm (show exec (.sth x f) s = execSth x f s from rfl)
    have hstw := imm (show exec (.stw x f) s = execStw x f s from rfl)
    have hstd := imm (show exec (.std x f) s = execStd x f s from rfl)
    have hstsf := store_issues (s1 := s1) (pa := pa) (oct := oct) (ea := fun k => eaImm k f) hmay h3 (slotCause_three h3)
      (show exec (.stsf x f) s = execStsf x f s from rfl)
    have hstqx := reg (show exec (.stqx x r) s = execStqx x r s from rfl)
    have hsthx := reg (show exec (.sthx x r) s = execSthx x r s from rfl)
    have hstwx := reg (show exec (.stwx x r) s = execStwx x r s from rfl)
    have hstdx := reg (show exec (.stdx x r) s = execStdx x r s from rfl)
    exact ⟨hstq, hsth, hstw, hstd, hstsf, hstqx, hsthx, hstwx, hstdx, List.forall_mem_nil _⟩
  · obtain ⟨hcore, hline, hmem⟩ := showOwn_effect (s := setCore (coreIx c) (fun k => { k with stores := [] }) s)
      (setCore_wf hc) hm (coreIx c) hw herr
    refine ⟨_, storeVisible_own hstores hcached, ?_, fun b _ => hline b, hmem⟩
    rw [hcore, coreAt_setCore hc]

end Sys2Proof.Machine
end

section
/-! ERET, the world calls and returns, and IDONE (R124, R126, R127, R259, R261). -/

namespace Sys2Proof.Machine

variable {s : State} {x : Issue} {m : ImmForm} {i : Nat}

/-! ### The syllables -/

/-- What IDONE asks to follow its bundle. -/
def afterIdone (pc v i : Nat) (s : State) : State :=
  if goodCompletion s i v then exitInterrupt i s else badCompletion pc v i s

theorem eret_acts (h : MayIssue x s) (h3 : x.slot = 3) (hgo : stopped (opened x s) (issueIx x) = false) (hd : m.dest = 0)
    (ha : m.a = 0) (hi : m.imm = 0) (hdly : (openedCore x s).dly = 0) (hk : (openedCore x s).kernel = true) :
    exec (.eret x m) s = .next (closeSyllable x false returnFromException (opened x s)) := by
  have hcause : orCause (sysCause x (sysOk m true true true)) (delayCause (openedCore x s)) = none := by
    rw [sysCause_none h3 (sysOk_of hd ha (.inr hi)), delayCause_out hdly]
    rfl
  rw [exec_acts h h3 hcause (show exec (.eret x m) s = execEret x m s from rfl),
    show (coreAt (opened x s) (issueIx x)).kernel = true from hk, needMode_acts hgo, id]

theorem wcall_acts (h : MayIssue x s) (h3 : x.slot = 3) (hgo : stopped (opened x s) (issueIx x) = false) (hd : m.dest = 0)
    (ha : m.a = 0) (hdly : (openedCore x s).dly = 0) (hsec : (openedCore x s).sec = false)
    (hk : (openedCore x s).kernel = true) (himg : hasSecureImage s x.tile.val = true) :
    exec (.wcall x m) s = .next (closeSyllable x false (worldCall m.imm) (opened x s)) := by
  have hcause : orCause (orCause (sysCause x (sysOk m true true false)) (delayCause (openedCore x s)))
      (if (openedCore x s).sec || !hasSecureImage s x.tile.val then some 6 else none) = none := by
    rw [sysCause_none h3 (sysOk_of hd ha (.inl rfl)), delayCause_out hdly, hsec, himg]
    rfl
  rw [exec_acts h h3 hcause (show exec (.wcall x m) s = execWcall x m s from rfl),
    show (coreAt (opened x s) (issueIx x)).kernel = true from hk, needMode_acts hgo, id]

theorem wret_acts (h : MayIssue x s) (h3 : x.slot = 3) (hgo : stopped (opened x s) (issueIx x) = false) (hd : m.dest = 0)
    (ha : m.a = 0) (hi : m.imm = 0) (hdly : (openedCore x s).dly = 0) (hsec : (openedCore x s).sec = true)
    (hk : (openedCore x s).kernel = true) (hown : tileSec s x.tile.val = false) :
    exec (.wret x m) s = .next (closeSyllable x false worldReturn (opened x s)) := by
  have hcause : orCause (orCause (sysCause x (sysOk m true true true)) (delayCause (openedCore x s)))
      (if tileSec s x.tile.val then some 6 else none) = none := by
    rw [sysCause_none h3 (sysOk_of hd ha (.inr hi)), delayCause_out hdly, hown]
    rfl
  have hmode : ((coreAt (opened x s) (issueIx x)).sec && (coreAt (opened x s) (issueIx x)).kernel) = true :=
    Bool.and_eq_true_iff.2 ⟨hsec, hk⟩
  rw [exec_acts h h3 hcause (show exec (.wret x m) s = execWret x m s from rfl)]
  dsimp only
  rw [hmode, needMode_acts hgo, id]

theorem idone_acts (h : MayIssue x s) (h3 : x.slot = 3) (hgo : stopped (opened x s) (issueIx x) = false) (hd : m.dest = 0)
    (ha : m.a = 0) (hi : m.imm.toNat < 16) (hk : (openedCore x s).kernel = true) :
    exec (.idone x m) s =
      .next (closeSyllable x false (afterIdone (coreAt s (issueIx x)).pc m.imm.toNat) (opened x s)) := by
  have hcause : sysCause x (sysOk m true true false && decide (m.imm.toNat < 16)) = none :=
    sysCause_none h3 (by rw [sysOk_of hd ha (.inl rfl), decide_eq_true hi]; rfl)
  have hv : m.imm.toNat % 16 = m.imm.toNat := Nat.mod_eq_of_lt hi
  have hacts := exec_acts (ill := fun _ => _) h h3 hcause (show exec (.idone x m) s = execIdone x m s from rfl)
  rw [hv, show (coreAt (opened x s) (issueIx x)).kernel = true from hk, needMode_acts hgo, id] at hacts
  exact hacts

/-! ### The return from an exception -/

/-- The core after the return to bank `b`, but for its trace (R124). -/
def Core.returned (b : Bank) (k : Core) : Core :=
  { restoreHeld { k with flight := [], fbars := k.fbars.filter fun b => b.1 == k.cyc } with
    kernel := bitOf b.ecause.toNat 6, ex := false, pc := b.epc, dly := min (field b.ecause.toNat 7 2) 2
    tgt := if min (field b.ecause.toNat 7 2) 2 = 0 then 0 else b.etgt }

theorem returnFromException_core (hc : mwf {} s.cores = true) (i : Nat) :
    ∃ y, coreAt (returnFromException i s) i =
      { (coreAt s i).returned ((coreAt s i).bankOf (coreAt s i).sec) with trace := y } := by
  let b := (coreAt s i).bankOf (coreAt s i).sec
  obtain ⟨y, hy⟩ := (traceCore_traceOnly i (fun _ t => emitReturn (i % 8) b.epc t)
    (setCore i (Core.returned b) s)).core (setCore_wf hc) i
  rw [coreAt_setCore hc] at hy
  exact ⟨y, hy⟩

theorem returnFromException_effect (hc : mwf {} s.cores = true) (i : Nat) :
    let k := coreAt s i
    let b := if k.sec then k.secB else k.norB
    let e := coreAt (returnFromException i s) i
    e.ex = false ∧ e.kernel = b.ecause.getLsbD 6 ∧ e.pc = b.epc ∧ e.dly = min (b.ecause.toNat / 128 % 4) 2 ∧ e.sec = k.sec ∧
      e.held = [] ∧ e.flight = k.held.map (fun l => { l with due := k.cyc + l.due }) ∧ e.regs = k.regs := by
  intro k b e
  obtain ⟨y, hy⟩ := returnFromException_core hc i
  have hdly : min (field b.ecause.toNat 7 2) 2 = min (b.ecause.toNat / 128 % 4) 2 := by rw [field_eq_div_mod]; rfl
  rw [show e = _ from hy]
  exact ⟨rfl, rfl, rfl, hdly, rfl, rfl, List.nil_append _, rfl⟩

/-! ### A drought at the boundary -/

/-- DR once a drought that is due has been recorded (R163–R165). -/
def drAfter (k : Core) : Bool := match k.dueAt with
  | some d => !d.cleared
  | none => k.dr

/-- A drought that is due changes DR, its count and the pending traps. -/
theorem drought_core (hc : mwf {} s.cores = true) (i : Nat) :
    ∃ n c, coreAt (drought i s) i = { coreAt s i with dueAt := none, dr := drAfter (coreAt s i), drcnt := n, ctPend := c } := by
  unfold drought drAfter
  dsimp only
  split
  · next h =>
    have hsame : { coreAt s i with dueAt := none } = coreAt s i := by rw [← h]
    rw [h]
    exact ⟨(coreAt s i).drcnt, (coreAt s i).ctPend, hsame.symm⟩
  · next d h =>
    obtain ⟨hcores, -⟩ := reportIf_frame (!d.dr) (coreReport Cls.reported Code.coreDrought i [bundleField d.pc]) s
    rw [coreAt_setCore (by rw [hcores]; exact hc), coreAt_congr hcores, h]
    exact ⟨_, _, rfl⟩

theorem drought_coreWork (i : Nat) (s : State) : CoreWork s (drought i s) := by
  unfold drought
  dsimp only
  split
  · exact .refl s
  · exact (CoreWork.reportIf ..).trans (.setCore ..)

/-! ### WRET -/

/-- The core after the return to the normal world, but for its trace (R127). -/
def Core.backToNormal (pended : Bool) (k : Core) : Core :=
  { restoreHeld { k with flight := [], fbars := [] } with
    regs := k.regs.filter fun e => decide (e.1 < 5), lk := 0, fs := 0, sec := false, kernel := true
    fpPend := k.fpPend.filter fun p => !p.sec, ctPend := k.ctPend.filter fun p => !p.2
    pc := k.wra, dly := 0, tgt := 0, drought := 0, haltNow := pended, trace := { k.trace with hidden := false } }

theorem worldReturn_core (hc : mwf {} s.cores = true) (i : Nat) :
    ∃ p y, coreAt (worldReturn i s) i = { (coreAt (drought i s) i).backToNormal p with trace := y } := by
  let u := drought i s
  let p := (coreAt u i).haltReq.isSome && haltWaits u i
  have hu : mwf {} u.cores = true := (drought_coreWork i s).wf hc
  obtain ⟨y, hy⟩ := (traceCore_traceOnly i (fun _ t =>
    if (coreAt u i).trace.hidden then { flushBranch (i % 8) t with base := none, owed := some 4 }
    else emitReturn (i % 8) (coreAt u i).wra t) (setCore i (Core.backToNormal p) u)).core (setCore_wf hu) i
  rw [coreAt_setCore hu] at hy
  exact ⟨p, y, hy⟩

theorem worldReturn_effect (hc : mwf {} s.cores = true) (i : Nat) :
    let k := coreAt s i
    let r := coreAt (worldReturn i s) i
    r.sec = false ∧ r.kernel = true ∧ r.pc = k.wra ∧ r.lk = 0 ∧ r.fs = 0 ∧ r.regs = k.regs.filter (fun p => decide (p.1 < 5)) ∧
      r.norB = k.norB ∧ r.ex = k.ex ∧ r.lb = k.lb ∧ r.ov = k.ov ∧ r.dz = k.dz ∧
      r.dr = drAfter k ∧ r.lc = k.lc ∧ (∀ p ∈ r.fpPend, p.sec = false) ∧ ∀ p ∈ r.ctPend, p.2 = false := by
  intro k r
  obtain ⟨p, y, hy⟩ := worldReturn_core hc i
  obtain ⟨n, c, hd⟩ := drought_core hc i
  rw [hd] at hy
  rw [show r = _ from hy]
  refine ⟨rfl, rfl, rfl, rfl, rfl, rfl, rfl, rfl, rfl, rfl, rfl, rfl, rfl, fun p hp => ?_, fun p hp => ?_⟩
  · simpa using (List.mem_filter.1 hp).2
  · simpa using (List.mem_filter.1 hp).2

/-! ### WCALL -/

/-- Where nothing is due, the boundary lands nothing. -/
theorem landDue_quiet (hc : mwf {} s.cores = true) (hstat : (coreAt s i).statDue = none)
    (hlater : ∀ l ∈ (coreAt s i).flight, (coreAt s i).cyc < l.due) : coreAt (landDue i s) i = coreAt s i := by
  unfold landDue
  split
  · rfl
  · have hno : ∀ l ∈ (coreAt s i).flight, landsNow (coreAt s i) l = false := fun l hl => by
      rw [landsNow, decide_eq_false (hlater l hl).not_ge, Bool.false_and]
    have hnone : (coreAt s i).flight.filter (landsNow (coreAt s i)) = [] :=
      List.filter_eq_nil_iff.2 fun l hl => by rw [hno l hl]; exact Bool.false_ne_true
    have hall : (coreAt s i).flight.filter (fun l => !landsNow (coreAt s i) l) = (coreAt s i).flight :=
      List.filter_eq_self.2 fun l hl => by rw [hno l hl]; rfl
    obtain ⟨t, -, ht, hland⟩ := landNow_eq hc hstat
    rw [hland, hnone, List.foldl_nil, ht, hall]

/-- The core after the entry of the secure world, but for its trace (R126). -/
def Core.inSecure (imm : BitVec 15) (nxt : Nat) (k : Core) : Core :=
  { holdFlight k with
    wra := nxt, secB := { k.secB with ecause := wcallCause imm, eval := 0 }, sec := true, kernel := true
    pc := (k.secB.vbase + 0o3700) % 2 ^ 48, dly := 0, tgt := 0, drought := 0 }

/-- With room for what is still in flight, WCALL enters the secure world. -/
theorem worldCall_enters {u : State} (hu : u = drought i (landDue i s)) (hc : mwf {} u.cores = true)
    (hheld : (∀ l ∈ (coreAt u i).flight, l.due ≤ (coreAt u i).cyc) ∨ (coreAt u i).held = []) (imm : BitVec 15) :
    ∃ y, coreAt (worldCall imm i s) i = { (coreAt u i).inSecure imm (coreAt u i).pc with trace := y } := by
  obtain ⟨y, hy⟩ := (traceCore_traceOnly i (fun ch t => emitEvent (i % 8) 3 0o37 (coreAt u i).pc (coreAt u i).pc
    (((coreAt u i).secB.vbase + 0o3700) % 2 ^ 48) ch t) u).core hc i
  subst hu
  unfold worldCall
  dsimp only
  rw [holdsBoth_eq_false hheld, if_neg Bool.false_ne_true, coreAt_setCore ((traceCore_traceOnly ..).wf hc), hy]
  exact ⟨_, rfl⟩

/-- Without it, the core halts (R125). -/
theorem worldCall_fatal {u : State} (hu : u = drought i (landDue i s)) (hc : mwf {} u.cores = true)
    (hlater : (coreAt u i).later' ≠ []) (hheld : (coreAt u i).held ≠ []) (imm : BitVec 15) :
    (coreAt (worldCall imm i s) i).fatal = true := by
  subst hu
  have hboth : (!(coreAt (drought i (landDue i s)) i).later'.isEmpty && !(coreAt (drought i (landDue i s)) i).held.isEmpty) = true := by
    rw [List.isEmpty_eq_false_iff.2 hlater, List.isEmpty_eq_false_iff.2 hheld]
    rfl
  unfold worldCall
  dsimp only
  rw [hboth, if_pos rfl, doubleFault]
  exact (coreFatal_effect hc _).1

theorem worldCall_effect (hc : mwf {} s.cores = true) (imm : BitVec 15) (hstat : (coreAt s i).statDue = none)
    (hlater : ∀ l ∈ (coreAt s i).flight, (coreAt s i).cyc < l.due) :
    let k := coreAt s i
    let c := coreAt (worldCall imm i s) i
    (k.flight = [] ∨ k.held = [] →
      c.flight = [] ∧ c.held = k.held ++ k.flight.map (fun l => { l with due := l.due - k.cyc }) ∧
        c.sec = true ∧ c.kernel = true ∧ c.wra = k.pc ∧ c.pc = (k.secB.vbase + 0o3700) % 2 ^ 48 ∧ c.norB = k.norB ∧
        c.ex = k.ex ∧ c.regs = k.regs ∧ c.lb = k.lb ∧ c.ov = k.ov ∧ c.dz = k.dz ∧ c.dr = drAfter k ∧ c.lc = k.lc) ∧
    (k.flight ≠ [] → k.held ≠ [] → c.fatal = true) := by
  intro k c
  have hwf : mwf {} (landDue i s).cores = true := (landDue_coreWork i s).wf hc
  have hu : mwf {} (drought i (landDue i s)).cores = true := (drought_coreWork i _).wf hwf
  obtain ⟨n, p, hd⟩ := drought_core hwf i
  rw [landDue_quiet hc hstat hlater] at hd
  have hall : k.flight.filter (fun l => decide (k.cyc < l.due)) = k.flight :=
    List.filter_eq_self.2 fun l hl => decide_eq_true (hlater l hl)
  refine ⟨fun hroom => ?_, fun hflight hheld => worldCall_fatal rfl hu ?_ ?_ imm⟩
  · have hroom' : (∀ l ∈ k.flight, l.due ≤ k.cyc) ∨ k.held = [] := hroom.imp (fun h l hl => by simp [h] at hl) id
    obtain ⟨y, hy⟩ := worldCall_enters rfl hu (by rw [hd]; exact hroom') imm
    rw [hd] at hy
    have hgone : k.flight.filter (fun l => decide (l.due ≤ k.cyc)) = [] :=
      List.filter_eq_nil_iff.2 fun l hl => by simpa using hlater l hl
    rw [show c = _ from hy]
    have hheld : k.held ++ (k.flight.filter fun l => decide (k.cyc < l.due)).map (fun l => { l with due := l.due - k.cyc }) =
        k.held ++ k.flight.map (fun l => { l with due := l.due - k.cyc }) := by rw [hall]
    exact ⟨hgone, hheld, rfl, rfl, rfl, rfl, rfl, rfl, rfl, rfl, rfl, rfl, rfl, rfl⟩
  · rw [hd]
    exact fun h => hflight (hall.symm.trans h)
  · rw [hd]
    exact hheld

/-! ### IDONE -/

theorem goodCompletion_empty {v : Nat} (h : (coreAt s i).stack = []) : goodCompletion s i v = false := by
  rw [goodCompletion, h]
  exact Bool.and_false _

theorem goodCompletion_iff {v : Nat} {f : Frame} {fs : List Frame} (h : (coreAt s i).stack = f :: fs) :
    goodCompletion s i v = true ↔ (coreAt s i).ex = false ∧ (coreAt s i).sec = tileSec s (i / 8) ∧
      (f.level = some v ∨ f.fault = true ∧ f.level = none) := by
  have hframe : (if f.fault then f.level.isNone || f.level == some v else f.level == some v) = true ↔
      f.level = some v ∨ f.fault = true ∧ f.level = none := by
    cases f.fault <;> simp [or_comm]
  rw [goodCompletion, h]
  dsimp only
  rw [Bool.and_eq_true, Bool.and_eq_true, Bool.not_eq_true', hframe, ownWorld, beq_iff_eq, and_assoc]

theorem exitInterrupt_effect (hc : mwf {} s.cores = true) {f : Frame} {fs : List Frame} (h : (coreAt s i).stack = f :: fs) :
    let k := coreAt s i
    let e := coreAt (exitInterrupt i s) i
    e.stack = fs ∧ e.level = (fs.head?.bind fun g => g.level) ∧ e.kernel = f.pmode ∧ e.ie = f.ie ∧ e.flight = [] ∧
      e.dly = 0 ∧ e.pc = f.resume ∧ e.statDue = f.waitm ∧ e.sec = k.sec ∧ e.ex = k.ex ∧ e.regs = k.regs := by
  intro k e
  obtain ⟨y, hy⟩ := (traceCore_traceOnly i (fun _ t => emitReturn (i % 8) f.resume t) (setCore i (fun k => { k with
      flight := [], stack := fs, kernel := f.pmode, ie := f.ie, pc := f.resume, dly := 0, tgt := 0
      statDue := f.waitm }) s)).core (setCore_wf hc) i
  rw [coreAt_setCore hc] at hy
  have he : e = _ := Eq.trans (by simp only [e, exitInterrupt, h]) hy
  have hlevel : e.level = (fs.head?.bind fun g => g.level) := by
    rw [he]
    cases fs <;> rfl
  rw [he] at hlevel ⊢
  exact ⟨rfl, hlevel, rfl, rfl, rfl, rfl, rfl, rfl, rfl, rfl, rfl⟩

/-! ### A bad completion -/

/-- The core that counts a bad completion of level `v` (R261). -/
def Core.miscompleted (v : Nat) (k : Core) : Core :=
  { k with badcnt := satW 8 (k.badcnt + 1), fpend := some (k.fpend.getD v) }

/-- The report of a bad completion, with the level, CL, the depth of the stack and the bundle. -/
def badReport (pc v i : Nat) (k : Core) : Report :=
  coreReport Cls.reported Code.ivcStackFault i
    [(v, 4), (k.level.getD 16, 5), (k.stack.length, 5), (pc / 16 % 2 ^ 44, 44)]

/-- The report of the halt that a bad completion under a stack-fault frame makes. -/
def stackHaltReport (i : Nat) (k : Core) : Report :=
  coreReport Cls.fatal Code.ivcStackHalt i [(k.level.getD 16, 5), (k.stack.length, 5)]

theorem levelField_eq (k : Core) : levelField k = (k.level.getD 16, 5) := by
  unfold levelField
  cases k.level <;> rfl

theorem bundleField_eq (pc : Nat) : bundleField pc = (pc / 16 % 2 ^ 44, 44) := by
  rw [bundleField, field_eq_div_mod]
  rfl

theorem badCompletion_eq (pc v i : Nat) (s : State) :
    badCompletion pc v i s =
      let u := setCore i (Core.miscompleted v) (report (badReport pc v i (coreAt s i)) s)
      if (coreAt s i).stack.any fun f => f.fault then coreFatal i (stackHaltReport i (coreAt s i)) u else u := by
  unfold badCompletion badReport stackHaltReport
  dsimp only
  rw [levelField_eq, bundleField_eq]
  rfl

theorem coreFatal_hlt (r : Report) (s : State) : (coreFatal i r s).hlt = (report r s).hlt := rfl

theorem badCompletion_effect (hc : mwf {} s.cores = true) (pc v : Nat) :
    let k := coreAt s i
    let b := badCompletion pc v i s
    let e := coreAt b i
    e.stack = k.stack ∧ e.kernel = k.kernel ∧ e.ie = k.ie ∧ e.flight = k.flight ∧ e.pc = k.pc ∧ e.regs = k.regs ∧
      e.badcnt = min (k.badcnt + 1) 255 ∧ e.fpend = some (k.fpend.getD v) ∧
      ((∀ f ∈ k.stack, f.fault = false) → e.fatal = k.fatal ∧ b.hlt = (report (badReport pc v i k) s).hlt) ∧
      ((∃ f ∈ k.stack, f.fault = true) → e.fatal = true ∧
        b.hlt = (report (stackHaltReport i k) (report (badReport pc v i k) s)).hlt) := by
  intro k b e
  set u := setCore i (Core.miscompleted v) (report (badReport pc v i k) s)
  have hwf : mwf {} (report (badReport pc v i k) s).cores = true := by rw [report_cores]; exact hc
  have hu : coreAt u i = k.miscompleted v := by rw [coreAt_setCore hwf, coreAt_congr (report_cores ..)]
  have hb : b = if k.stack.any fun f => f.fault then coreFatal i (stackHaltReport i k) u else u := badCompletion_eq pc v i s
  by_cases hfault : k.stack.any fun f => f.fault
  · obtain ⟨w, hw⟩ := coreFatal_frame (i := i) (s := u) (setCore_wf hwf) (stackHaltReport i k)
    rw [if_pos hfault] at hb
    have he : e = _ := (congrArg (coreAt · i) hb).trans hw
    rw [hu] at he
    have hhlt : b.hlt = (report (stackHaltReport i k) (report (badReport pc v i k) s)).hlt := by
      rw [hb, coreFatal_hlt]
      exact report_hlt rfl
    rw [he]
    refine ⟨rfl, rfl, rfl, rfl, rfl, rfl, rfl, rfl, fun hno => ?_, fun _ => ⟨rfl, hhlt⟩⟩
    obtain ⟨f, hf, hft⟩ := List.any_eq_true.1 hfault
    exact absurd hft (by rw [hno f hf]; exact Bool.false_ne_true)
  · rw [if_neg hfault] at hb
    have he : e = _ := (congrArg (coreAt · i) hb).trans hu
    rw [he]
    exact ⟨rfl, rfl, rfl, rfl, rfl, rfl, rfl, rfl, fun _ => ⟨rfl, by rw [hb]; rfl⟩,
      fun hyes => absurd (List.any_eq_true.2 hyes) hfault⟩

/-- Settles O16: the four syllables as they act, and each return and call by the core that it leaves. -/
theorem returnsAndWorldCalls : Obligations.ReturnsAndWorldCalls := by
  unfold Obligations.ReturnsAndWorldCalls
  refine ⟨fun x m s h h3 hgo hd ha => ?_, fun i imm s hc => ?_⟩
  · exact ⟨fun hi hdly hk => eret_acts h h3 hgo hd ha hi hdly hk,
      fun hdly hsec hk himg => wcall_acts h h3 hgo hd ha hdly hsec hk himg,
      fun hi hdly hsec hk hown => wret_acts h h3 hgo hd ha hi hdly hsec hk hown,
      fun hi hk => idone_acts h h3 hgo hd ha hi hk⟩
  · exact ⟨returnFromException_effect hc i, worldReturn_effect hc i,
      fun hstat hlater hroom => (worldCall_effect hc imm hstat hlater).1 hroom,
      fun hstat hlater hflight hheld => (worldCall_effect hc imm hstat hlater).2 hflight hheld,
      fun pc v => ⟨goodCompletion_empty, fun f fs hstack => ⟨goodCompletion_iff hstack, exitInterrupt_effect hc hstack⟩,
        badCompletion_effect hc pc v⟩⟩

end Sys2Proof.Machine
end

section
/-! What a table walk leaves of the cores. -/

namespace Sys2Proof.Machine

variable {s : State}

theorem cores_ite {c : Prop} [Decidable c] {t u : State} {cs : SMap Core} (ht : t.cores = cs) (hu : u.cores = cs) :
    (if c then t else u).cores = cs := by
  split
  · exact ht
  · exact hu

theorem downAccess_cores (l code : Nat) (s : State) : (downAccess l code s).cores = s.cores := by
  unfold downAccess downAccesses
  exact cores_ite (report_cores ..) rfl

theorem countSymbol_cores (u d : Nat) (s : State) : (countSymbol u d s).cores = s.cores := by
  unfold countSymbol
  exact cores_ite (report_cores ..) rfl

theorem writeBackFixed_cores (l v : Nat) (s : State) : (writeBackFixed l v s).cores = s.cores := by
  have hstored : (putLine l v (clearLine l (keepReads l s))).cores = s.cores := putLine_cores ..
  exact cores_ite rfl (cores_ite hstored (cores_ite hstored hstored))

theorem decodeLine_cores (code l : Nat) (s : State) : (decodeLine code l s).1.cores = s.cores := by
  unfold decodeLine decodeBurst
  dsimp only
  split
  · rfl
  · dsimp only
    rw [if_pos rfl, writeBackFixed_cores, report_cores, countSymbol_cores]
  · rfl
  · exact report_cores ..
  · exact report_cores ..

theorem dramGet_cores (rq : Req) (l : Nat) (s : State) : (dramGet rq l s).1.cores = s.cores := by
  unfold dramGet
  split
  · rfl
  · split
    · exact downAccess_cores ..
    · split
      · rfl
      · exact decodeLine_cores ..

theorem claim_cores (who : Asker) (l : Nat) (s : State) : (claim who l s).cores = s.cores := by
  obtain ⟨d, hd⟩ := claim_same who l s
  rw [hd]

theorem readWordMark_cores (t line word req : Nat) (s : State) : (readWordMark t line word req s).1.cores = s.cores := by
  unfold readWordMark
  dsimp only
  split
  · rfl
  · exact report_cores ..
  · exact report_cores ..

theorem readTileBits_cores (t line lo w req : Nat) (s : State) : (readTileBits t line lo w req s).1.cores = s.cores :=
  foldl_view (fun p : State × Nat × Bool => p.1.cores) (fun p i => readWordMark_cores t line i req p.1) _ (s, lineBits s line, false)

theorem readTable_cores (i : Nat) (w : Walk) (a : Nat) (s : State) : (readTable i w a s).1.cores = s.cores := by
  unfold readTable
  split
  · rfl
  · dsimp only
    split
    · exact (dramGet_cores ..).trans (claim_cores ..)
    · rfl
    · split
      · exact readTileBits_cores ..
      · rfl
    · rfl

/-- A walk reads its tables and changes no core. -/
theorem walkTable_cores (i : Nat) (w : Walk) (lvls : List Nat) (t : Nat) (s : State) :
    (walkTable i w lvls t s).1.cores = s.cores := by
  induction lvls generalizing t s with
  | nil => rfl
  | cons lvl rest ih =>
    have hread {a : Nat} : (readTable i w a s).1.cores = s.cores := readTable_cores ..
    unfold walkTable
    dsimp only
    split
    · rfl
    · split
      · exact hread
      · split
        · exact hread
        · split
          · exact hread
          · split
            · split
              · exact (ih ..).trans hread
              · exact hread
            · split
              · exact hread
              · exact hread

end Sys2Proof.Machine
end

section
/-! A trap that is taken at a boundary (R121, R165, R186–R188). -/

namespace Sys2Proof.Machine

variable {s : State} {i : Nat}

/-! ### The fields of ECAUSE -/

theorem ecauseWord_toNat {vec code slot dly : Nat} (sp pmode : Bool) :
    (ecauseWord vec code slot dly sp pmode).toNat % 32 = vec % 32 ∧
      (ecauseWord vec code slot dly sp pmode).toNat / 2 ^ 12 % 2 ^ 15 = code % 2 ^ 15 := by
  simp only [ecauseWord, packFields, BitVec.toNat_ofNat]
  omega

theorem ecauseWord_code_bit {vec code slot dly n : Nat} (sp pmode : Bool) (hn : n < 15) :
    (ecauseWord vec code slot dly sp pmode).getLsbD (12 + n) = code.testBit n := by
  obtain ⟨-, hcode⟩ := ecauseWord_toNat (vec := vec) (code := code) (slot := slot) (dly := dly) sp pmode
  have hbit := congrArg (fun v => Nat.testBit v n) hcode
  simpa only [Nat.testBit_mod_two_pow, Nat.testBit_div_two_pow, hn, decide_true, Bool.true_and, Nat.add_comm n 12,
    BitVec.testBit_toNat] using hbit

/-! ### The entry -/

/-- A trap's entry from a core that `f` has taken its cause from. -/
theorem enterException_after (hc : mwf {} s.cores = true) {f : Core → Core} (hex : (f (coreAt s i)).ex = false)
    (hheld : (∀ l ∈ (f (coreAt s i)).flight, l.due ≤ (f (coreAt s i)).cyc) ∨ (f (coreAt s i)).held = [])
    (vec code p dly tgt : Nat) :
    ∃ sp x, coreAt (enterException i vec code 0 0 p dly tgt (setCore i f s)) i =
      { (f (coreAt s i)).entered vec 0 p tgt (ecauseWord vec code 0 dly sp (f (coreAt s i)).kernel) with trace := x } := by
  have hcore : coreAt (setCore i f s) i = f (coreAt s i) := coreAt_setCore hc ..
  rw [← hcore] at hex hheld
  obtain ⟨x, hx⟩ := enterException_core (setCore_wf hc) hex hheld vec code 0 0 p dly tgt
  rw [hcore] at hx
  exact ⟨_, x, hx⟩

/-- Where a core that has entered an exception goes on, and what it has saved (R122). -/
structure EntersAt (k k' : Core) (vec code p : Nat) : Prop where
  vector : (if k.sec then k'.secB else k'.norB).ecause.toNat % 32 = vec
  codeBits : ∀ n < 15, (if k.sec then k'.secB else k'.norB).ecause.getLsbD (12 + n) = code.testBit n
  codeField : (if k.sec then k'.secB else k'.norB).ecause.toNat / 2 ^ 12 % 2 ^ 15 = code % 2 ^ 15
  pc : k'.pc = ((if k.sec then k.secB else k.norB).vbase + 64 * vec) % 2 ^ 48
  epc : (if k.sec then k'.secB else k'.norB).epc = p
  mode : k'.kernel = true ∧ k'.ex = true ∧ k'.sec = k.sec ∧ k'.regs = k.regs

theorem entered_entersAt {vec : Nat} (hv : vec < 32) (k : Core) (code p tgt dly : Nat) (sp : Bool) :
    EntersAt k (k.entered vec 0 p tgt (ecauseWord vec code 0 dly sp k.kernel)) vec code p := by
  obtain ⟨hvec, hcode⟩ := ecauseWord_toNat (vec := vec) (code := code) (slot := 0) (dly := dly) sp k.kernel
  have hbank := entered_bank vec 0 p tgt (ecauseWord vec code 0 dly sp k.kernel) k
  refine ⟨?_, fun n hn => ?_, ?_, rfl, ?_, rfl, rfl, rfl, rfl⟩
  · rw [hbank]
    exact hvec.trans (Nat.mod_eq_of_lt hv)
  · rw [hbank]
    exact ecauseWord_code_bit sp k.kernel hn
  · rw [hbank]
    exact hcode
  · rw [hbank]

/-! ### FPTRAP and CONTRACT -/

/-- The flags of some pending results together. -/
def flagsOf (ps : List FpCause) : Nat := ps.foldl (fun m p => m ||| p.flags) 0

theorem testBit_flagsOf (ps : List FpCause) (n : Nat) : (flagsOf ps).testBit n = ps.any fun p => p.flags.testBit n := by
  have hfold (m : Nat) : (ps.foldl (fun m p => m ||| p.flags) m).testBit n =
      (m.testBit n || ps.any fun p => p.flags.testBit n) := by
    induction ps generalizing m with
    | nil => exact (Bool.or_false _).symm
    | cons p ps ih => rw [List.foldl_cons, ih, Nat.testBit_or, List.any_cons, Bool.or_assoc]
  rw [flagsOf, hfold, Nat.zero_testBit, Bool.false_or]

/-- The pending results of the world, which FPTRAP takes together (R186). -/
def ownPends (k : Core) : List FpCause := k.fpPend.filter fun p => p.sec == k.sec

/-- The code of the CONTRACT trap that is taken first (R165). -/
def contractCode (k : Core) : Nat := if k.ctPend.contains (1, k.sec) then 1 else 2

theorem takeFpTrap_core (hc : mwf {} s.cores = true) (hex : (coreAt s i).ex = false)
    (hheld : (∀ l ∈ (coreAt s i).flight, l.due ≤ (coreAt s i).cyc) ∨ (coreAt s i).held = []) :
    let k := coreAt s i
    let k' := coreAt (takeFpTrap i s) i
    EntersAt k k' 0o11 (flagsOf (ownPends k)) k.pc ∧ k'.fpPend = k.fpPend.filter (fun p => p.sec != k.sec) ∧
      k'.ctPend = k.ctPend := by
  intro k k'
  obtain ⟨sp, x, hx⟩ := enterException_after (i := i) hc
    (f := fun k => { k with fpPend := k.fpPend.filter fun p => p.sec != k.sec }) hex hheld 0o11 (flagsOf (ownPends k)) k.pc
    k.dly k.tgt
  obtain ⟨hvec, hbits, hcode, hpc, hepc, hmode⟩ := entered_entersAt (vec := 0o11) (by decide)
    { k with fpPend := k.fpPend.filter fun p => p.sec != k.sec } (flagsOf (ownPends k)) k.pc k.tgt k.dly sp
  rw [show k' = _ from hx]
  exact ⟨⟨hvec, hbits, hcode, hpc, hepc, hmode⟩, rfl, rfl⟩

theorem takeContract_core (hc : mwf {} s.cores = true) (hex : (coreAt s i).ex = false)
    (hheld : (∀ l ∈ (coreAt s i).flight, l.due ≤ (coreAt s i).cyc) ∨ (coreAt s i).held = []) :
    let k := coreAt s i
    let k' := coreAt (takeContract i s) i
    EntersAt k k' 0o12 (contractCode k) k.pc ∧ k'.fpPend = k.fpPend ∧
      k'.ctPend = k.ctPend.filter (fun p => p != (contractCode k, k.sec)) := by
  intro k k'
  obtain ⟨sp, x, hx⟩ := enterException_after (i := i) hc
    (f := fun c => { c with ctPend := c.ctPend.filter fun p => p != (contractCode k, k.sec) }) hex hheld 0o12 (contractCode k)
    k.pc k.dly k.tgt
  obtain ⟨hvec, hbits, hcode, hpc, hepc, hmode⟩ := entered_entersAt (vec := 0o12) (by decide)
    { k with ctPend := k.ctPend.filter fun p => p != (contractCode k, k.sec) } (contractCode k) k.pc k.tgt k.dly sp
  rw [show k' = _ from hx]
  exact ⟨⟨hvec, hbits, hcode, hpc, hepc, hmode⟩, rfl, rfl⟩

/-- The trap of a boundary, FPTRAP before CONTRACT (R165). -/
def trapTaken (i : Nat) (s : State) : State := if (coreAt s i).fpDue then takeFpTrap i s else takeContract i s

theorem fpDue_iff (k : Core) : k.fpDue = true ↔ ∃ p ∈ k.fpPend, p.sec = k.sec := by
  simp [Core.fpDue]

/-- FPTRAP: its CODE is the set of the flags that are pending in the world. -/
theorem trapTaken_fpTrap (hc : mwf {} s.cores = true) (hex : (coreAt s i).ex = false)
    (hheld : (∀ l ∈ (coreAt s i).flight, l.due ≤ (coreAt s i).cyc) ∨ (coreAt s i).held = [])
    (hdue : ∃ p ∈ (coreAt s i).fpPend, p.sec = (coreAt s i).sec) :
    let k := coreAt s i
    let k' := coreAt (trapTaken i s) i
    let b' := if k.sec then k'.secB else k'.norB
    EntersAt k k' 0o11 (flagsOf (ownPends k)) k.pc ∧
      (∀ n < 15, b'.ecause.getLsbD (12 + n) = true ↔ ∃ p ∈ k.fpPend, p.sec = k.sec ∧ p.flags.testBit n = true) ∧
      k'.fpPend = k.fpPend.filter (fun p => decide (p.sec ≠ k.sec)) ∧ k'.ctPend = k.ctPend := by
  intro k k' b'
  have htaken : trapTaken i s = takeFpTrap i s := if_pos ((fpDue_iff _).2 hdue)
  obtain ⟨henters, hfp, hct⟩ := takeFpTrap_core hc hex hheld
  rw [← htaken] at henters hfp hct
  refine ⟨henters, fun n hn => ?_, hfp.trans (List.filter_congr fun p _ => ?_), hct⟩
  · rw [henters.codeBits n hn, testBit_flagsOf, List.any_eq_true]
    simp only [ownPends, List.mem_filter, beq_iff_eq, and_assoc]
    rfl
  · rw [Bool.eq_iff_iff, bne_iff_ne, decide_eq_true_iff]

/-- CONTRACT: code 1 before code 2. -/
theorem trapTaken_contract (hc : mwf {} s.cores = true) (hex : (coreAt s i).ex = false)
    (hheld : (∀ l ∈ (coreAt s i).flight, l.due ≤ (coreAt s i).cyc) ∨ (coreAt s i).held = [])
    (hno : ∀ p ∈ (coreAt s i).fpPend, p.sec ≠ (coreAt s i).sec) :
    let k := coreAt s i
    let k' := coreAt (trapTaken i s) i
    EntersAt k k' 0o12 (contractCode k) k.pc ∧ k'.fpPend = k.fpPend ∧
      k'.ctPend = k.ctPend.filter (fun p => decide (p ≠ (contractCode k, k.sec))) := by
  intro k k'
  have hfp : ¬(coreAt s i).fpDue = true := fun h => by
    obtain ⟨p, hp, hsec⟩ := (fpDue_iff _).1 h
    exact hno p hp hsec
  have htaken : trapTaken i s = takeContract i s := if_neg hfp
  obtain ⟨henters, hpend, hct⟩ := takeContract_core hc hex hheld
  rw [← htaken] at henters hpend hct
  refine ⟨henters, hpend, hct.trans (List.filter_congr fun p _ => ?_)⟩
  rw [Bool.eq_iff_iff, bne_iff_ne, decide_eq_true_iff]

theorem contractCode_one {k : Core} (h : (1, k.sec) ∈ k.ctPend) : contractCode k = 1 :=
  if_pos (List.contains_iff_mem.2 h)

theorem contractCode_two {k : Core} (h : (1, k.sec) ∉ k.ctPend) : contractCode k = 2 :=
  if_neg fun c => h (List.contains_iff_mem.1 c)

/-! ### TRAP_ENTRY -/

theorem trapEntry_running {c : CoreId} (hfree : boundaryFree s (coreIx c) = true) (hwait : (coreAt s (coreIx c)).wait = none)
    (hdue : (coreAt (settle (coreIx c) s) (coreIx c)).trapDue = true) :
    exec (.trapEntry c) s = .next (trapTaken (coreIx c) (settle (coreIx c) s)) := by
  show execTrapEntry c s = _
  simp only [execTrapEntry, hfree, hwait, hdue, Bool.not_true, Bool.false_eq_true, if_false, if_true]
  rfl

theorem trapEntry_waiting {c : CoreId} {w : WaitM} {u : State} (hfree : boundaryFree s (coreIx c) = true)
    (hwait : (coreAt s (coreIx c)).wait = some w) (hu : (entryBoundary (coreIx c) s).1 = u)
    (hdue : (coreAt u (coreIx c)).trapDue = true)
    (hend : interruptDue u (coreIx c) = true ∨ stackFaultDue u (coreIx c) = true) :
    exec (.trapEntry c) s = .next (trapTaken (coreIx c) (landDue (coreIx c) (waitStatus (coreIx c) w.dest 2 u))) := by
  have hboth : ((coreAt u (coreIx c)).trapDue && (interruptDue u (coreIx c) || stackFaultDue u (coreIx c))) = true := by
    rw [hdue, Bool.true_and, Bool.or_eq_true]
    exact hend
  show execTrapEntry c s = _
  simp only [execTrapEntry, hfree, hwait, hu, hboth, Bool.not_true, Bool.false_eq_true, if_false, if_true]
  rfl

end Sys2Proof.Machine
end

section
/-! FETCH_FAULT and TLB_WALK_COMPLETE (R153, R199–R202, R234). -/

namespace Sys2Proof.Machine

variable {s u : State} {c : CoreId} {i : Nat}

/-! ### FETCH_FAULT -/

/-- A fetch whose address meets an exception raises it. -/
theorem fetchFault_cause {k : Cause} (hb : atBoundary s (coreIx c) = true)
    (hopen : mayOpen (settle (coreIx c) s) (coreIx c) = true)
    (h : fetchAddress (coreIx c) (settle (coreIx c) s) = (u, .inr (.cause k))) :
    exec (.fetchFault c) s = .next (takeCause (coreIx c) k u) := by
  show execFetchFault c s = _
  simp only [execFetchFault, hb, hopen, h, Bool.not_true, Bool.false_eq_true, if_false]

/-- A fetch whose address is held does nothing more. -/
theorem fetchFault_address {pa : Nat} (hb : atBoundary s (coreIx c) = true)
    (hopen : mayOpen (settle (coreIx c) s) (coreIx c) = true)
    (h : fetchAddress (coreIx c) (settle (coreIx c) s) = (u, .inl pa)) :
    exec (.fetchFault c) s = .next u := by
  show execFetchFault c s = _
  simp only [execFetchFault, hb, hopen, h, Bool.not_true, Bool.false_eq_true, if_false]

/-- A fetch whose address a walk must find waits for it. -/
theorem fetchFault_wait (hb : atBoundary s (coreIx c) = true)
    (hopen : mayOpen (settle (coreIx c) s) (coreIx c) = true)
    (h : fetchAddress (coreIx c) (settle (coreIx c) s) = (u, .inr .wait)) :
    exec (.fetchFault c) s = .next u := by
  show execFetchFault c s = _
  simp only [execFetchFault, hb, hopen, h, Bool.not_true, Bool.false_eq_true, if_false]

theorem fetchAddress_miss (hu : tlbRefill i (coreAt s i).pc s = u)
    (h : translate (coreAt u i) i (coreAt u i).pc .fetch = .miss) :
    fetchAddress i s = (setCore i (fun k => { k with
      walk := some ⟨k.pc, false, true, 2, 0, k.sec, k.ctx.toNat, (k.bankOf k.sec).tbase⟩ }) u, .inr .wait) := by
  simp only [fetchAddress, hu, h]

theorem fetchAddress_fault {e l : Nat} (hu : tlbRefill i (coreAt s i).pc s = u)
    (h : translate (coreAt u i) i (coreAt u i).pc .fetch = .fault e l) :
    fetchAddress i s = (u, .inr (.cause ⟨1, 0, 2, e + 16 * l, (coreAt u i).pc⟩)) := by
  simp only [fetchAddress, hu, h]
  rfl

theorem fetchAddress_own {pa mt : Nat} {oct : Bool} (hu : tlbRefill i (coreAt s i).pc s = u)
    (h : translate (coreAt u i) i (coreAt u i).pc .fetch = .ok pa mt oct) (hsec : memSecure u pa = (coreAt u i).sec) :
    fetchAddress i s = (u, .inl pa) := by
  have hsame : ¬(memSecure u pa != (coreAt u i).sec) = true := by rw [bne_iff_ne, not_not]; exact hsec
  simp only [fetchAddress, hu, h, if_neg hsame]

theorem fetchAddress_other {pa mt : Nat} {oct : Bool} (hu : tlbRefill i (coreAt s i).pc s = u)
    (h : translate (coreAt u i) i (coreAt u i).pc .fetch = .ok pa mt oct) (hsec : memSecure u pa ≠ (coreAt u i).sec) :
    fetchAddress i s = (report (accessRefused pa ⟨BitVec.ofNat 9 i, (coreAt u i).sec⟩ false) u,
      .inr (.cause ⟨1, 0, 6, worldCode pa true false (coreAt u i).sec, (coreAt u i).pc⟩)) := by
  have hne : (memSecure u pa != (coreAt u i).sec) = true := bne_iff_ne.2 hsec
  simp only [fetchAddress, hu, h, if_pos hne]
  rfl

/-! ### TLB_WALK_COMPLETE -/

theorem mem_tlbAdd (n : Nat) (e : TlbEntry) (d : Nat) (l : List TlbEntry) : e ∈ tlbAdd n e d l := by
  unfold tlbAdd
  exact List.mem_append_right _ (List.mem_singleton.2 rfl)

/-- A level that takes an entry holds no other new one (R202). -/
theorem of_mem_tlbAdd {n : Nat} {e y : TlbEntry} {d : Nat} {l : List TlbEntry} (h : y ∈ tlbAdd n e d l) : y = e ∨ y ∈ l := by
  unfold tlbAdd at h
  dsimp only at h
  rcases List.mem_append.1 h with h | h
  · refine .inr (List.mem_of_mem_filter (p := fun x =>
      !(x.sec == e.sec && x.ctx == e.ctx && x.lvl == e.lvl && x.va == e.va && x.g == e.g)) ?_)
    split at h
    · exact List.mem_of_mem_eraseIdx h
    · split at h
      · exact List.mem_of_mem_eraseIdx h
      · exact h
  · exact .inl (List.mem_singleton.1 h)

/-- A leaf enters both TLB levels, and the walk leaves all else of the core. -/
theorem fillTlbs_core (hc : mwf {} s.cores = true) (i : Nat) (e : TlbEntry) :
    coreAt (fillTlbs i e s) i = { coreAt s i with
      tlb1 := tlbAdd 64 e s.draws (coreAt s i).tlb1, tlb2 := tlbAdd 1024 e (s.draws + 1) (coreAt s i).tlb2 } :=
  coreAt_setCore (s := { s with draws := s.draws + 2 }) hc i _

/-- What a walk does once it has ended. -/
theorem tlbWalkComplete_run {w : Walk} {r : WalkEnd} (hw : (coreAt s (coreIx c)).walk = some w)
    (hfatal : (coreAt s (coreIx c)).fatal = false) (hon : (coreAt s (coreIx c)).on = true)
    (hr : walkTable (coreIx c) w [0, 1, 2, 3] w.base (setCore (coreIx c) (fun k => { k with walk := none }) s) = (u, r)) :
    (∀ e l, r = .stop e l → exec (.tlbWalkComplete c) s = .next
      (if (coreAt s (coreIx c)).halt.isSome then s else walkFault (coreIx c) w e l u)) ∧
    (∀ l, r = .held l → exec (.tlbWalkComplete c) s =
      .next (askRead (.walk (coreIx c) w) false ⟨BitVec.ofNat 9 (coreIx c), w.sec⟩ l s)) ∧
    ∀ e pa mt oct, r = .leaf e →
      checkEntry (coreAt (fillTlbs (coreIx c) e u) (coreIx c)) (coreIx c) e (needOf w.need) e.lvl w.va = .ok pa mt oct →
        exec (.tlbWalkComplete c) s = .next (fillTlbs (coreIx c) e u) := by
  have hexec : exec (.tlbWalkComplete c) s = execTlbWalkComplete c s := rfl
  refine ⟨fun e l he => ?_, fun l he => ?_, fun e pa mt oct he hok => ?_⟩
  · subst he
    rw [hexec]
    simp only [execTlbWalkComplete, hw, hfatal, hon, hr, Bool.not_true, Bool.or_self, Bool.false_eq_true, if_false]
  · subst he
    rw [hexec]
    simp only [execTlbWalkComplete, hw, hfatal, hon, hr, Bool.not_true, Bool.or_self, Bool.false_eq_true, if_false]
  · subst he
    rw [hexec]
    simp only [execTlbWalkComplete, hw, hfatal, hon, hr, hok, Bool.not_true, Bool.or_self, Bool.false_eq_true, if_false]

/-- The walk has ended for the core whose walk it was. -/
theorem walk_ended (hc : mwf {} s.cores = true) {w : Walk} {r : WalkEnd} {lvls : List Nat} {t : Nat}
    (hr : walkTable i w lvls t (setCore i (fun k => { k with walk := none }) s) = (u, r)) :
    mwf {} u.cores = true ∧ (coreAt u i).walk = none := by
  have hcores : u.cores = (setCore i (fun k => { k with walk := none }) s).cores := by
    have h := walkTable_cores i w lvls t (setCore i (fun k => { k with walk := none }) s)
    rw [hr] at h
    exact h
  refine ⟨by rw [hcores]; exact setCore_wf hc, ?_⟩
  rw [coreAt_congr hcores, coreAt_setCore hc]

theorem walkFault_eq {w : Walk} {e l : Nat} :
    walkFault i w e l s = takeCause i ⟨5, w.slot, if w.fetch then 2 else 3, e + 16 * l + (if w.store then 64 else 0), w.va⟩ s := by
  have hcode : transCode e l w.store = e + 16 * l + (if w.store then 64 else 0) := by
    cases w.store <;> rfl
  rw [walkFault, hcode]

/-- Settles O19: a trap by the entry of FPTRAP or CONTRACT, a fetch by its address, a walk by how it ends. -/
theorem trapsAndFetchFaultsEnter : Obligations.TrapsAndFetchFaultsEnter := by
  unfold Obligations.TrapsAndFetchFaultsEnter
  intro c s hc i st traps enters
  have entersOf (p : State) (hp : mwf {} p.cores = true) : enters p := by
    intro hex hheld
    refine ⟨fun hdue => ?_, fun hno => ?_⟩
    · obtain ⟨⟨hvec, -, -, hpc, hepc, hmode⟩, hcode, hfp, hct⟩ := trapTaken_fpTrap hp hex hheld hdue
      exact ⟨⟨hvec, hpc, hepc, hmode⟩, hcode, hfp, hct⟩
    · obtain ⟨⟨hvec, -, hcode, hpc, hepc, hmode⟩, hfp, hct⟩ := trapTaken_contract hp hex hheld hno
      refine ⟨⟨hvec, hpc, hepc, hmode⟩, hfp, fun hone => ?_, fun htwo => ?_⟩
      · rw [contractCode_one hone] at hcode hct
        exact ⟨hcode, hct⟩
      · rw [contractCode_two htwo] at hcode hct
        exact ⟨hcode, hct⟩
  refine ⟨fun hfree hwait hdue => ?_, fun w st' p hfree hwait hst hdue hend hp => ?_, fun hb hopen => ?_,
    fun w s2 r hw hfatal hon hr => ?_⟩
  · exact ⟨trapEntry_running hfree hwait hdue, entersOf st ((settle_coreWork i s).wf hc)⟩
  · have hwf : mwf {} st'.cores = true := by rw [hst]; exact (entryBoundary_coreWork i s).wf hc
    refine ⟨hp ▸ trapEntry_waiting hfree hwait hst.symm hdue hend, entersOf p ?_⟩
    rw [hp]
    exact (landDue_coreWork ..).wf (setCore_wf hwf)
  · intro s1 k
    refine ⟨fun hmiss => ?_, fun e l hfault => ?_, fun pa mt oct hok => ⟨fun hsec => ?_, fun hsec => ?_⟩⟩
    · exact fetchFault_wait hb hopen (fetchAddress_miss rfl hmiss)
    · exact fetchFault_cause hb hopen (fetchAddress_fault rfl hfault)
    · exact fetchFault_address hb hopen (fetchAddress_own rfl hok hsec)
    · exact fetchFault_cause hb hopen (fetchAddress_other rfl hok hsec)
  · obtain ⟨hstop, hheld, hleaf⟩ := tlbWalkComplete_run hw hfatal hon hr
    refine ⟨fun e l he hhalt => ?_, fun e l he hhalt => ?_, hheld, fun e pa mt oct he hok => ?_⟩
    · rw [hstop e l he, if_pos hhalt]
    · rw [hstop e l he, hhalt, if_neg (by decide), walkFault_eq]
    · obtain ⟨hwf, hwalk⟩ := walk_ended hc hr
      have hcore := fillTlbs_core hwf i e
      refine ⟨_, hleaf e pa mt oct he hok, ?_⟩
      rw [hcore]
      exact ⟨mem_tlbAdd .., mem_tlbAdd .., hwalk, rfl, fun y => of_mem_tlbAdd, fun y => of_mem_tlbAdd⟩

end Sys2Proof.Machine
end
